-- ==== Sys2Proof/Word.lean ====
section
/-! DEFINITION. The word types of the Dundal (R4 to R6, R62). -/

namespace Sys2Proof

/-- One byte of memory. -/
abbrev Byte := BitVec 8

/-- A 16-bit half word. -/
abbrev Half := BitVec 16

/-- R62: one vector or scalar register. -/
abbrev Word := BitVec 32

/-- R62: a register pair, and an address in a register pair. -/
abbrev DWord := BitVec 64

/-- R37: a register field of an instruction word. -/
abbrev Reg := BitVec 7

end Sys2Proof
end

