-- ==== Sys2Proof/Syntax.lean ====
section
/-! DEFINITION. Every step the opcode table lists: the 301 instruction and prefix words of the opcode map
(R36 to R50) and the 74 steps that no word encodes: what the engines, the dispatcher, the host and the package do
(95_what_each_step_holds). A constructor's arguments are the word's fields, or, for a step with no word, what names it:
`b` a block's number in the machine (its uid), `k` a thread's %tid, `i` a command ID, `sl` a slice. -/

namespace Sys2Proof

/-- One step of the part: an instruction word of R49, or an agent's step. -/
inductive Instr where
  /-- IADD (R90): Adds A and B with wrap into D. -/
  | iadd (d : BitVec 7) (a : BitVec 7) (b : BitVec 7) (sb : Bool)
  /-- ISUB (R90): Subtracts B from A with wrap into D. -/
  | isub (d : BitVec 7) (a : BitVec 7) (b : BitVec 7) (sb : Bool)
  /-- IMUL (R90): Writes the low 32 bits of A times B to D. -/
  | imul (d : BitVec 7) (a : BitVec 7) (b : BitVec 7) (sb : Bool)
  /-- IMULHI (R90): Writes the high word of the signed product to D. -/
  | imulhi (d : BitVec 7) (a : BitVec 7) (b : BitVec 7) (sb : Bool)
  /-- IMULHIU (R90): Writes the high word of the unsigned product to D. -/
  | imulhiu (d : BitVec 7) (a : BitVec 7) (b : BitVec 7) (sb : Bool)
  /-- IMAD (R90): Writes A times B plus D, wrapped, to D. -/
  | imad (d : BitVec 7) (a : BitVec 7) (b : BitVec 7) (sb : Bool)
  /-- IABS (R90): Writes the wrapped absolute value of A to D. -/
  | iabs (d : BitVec 7) (a : BitVec 7)
  /-- IDIV (R64): Starts an iterative signed division of A by B. -/
  | idiv (d : BitVec 7) (a : BitVec 7) (b : BitVec 7) (sb : Bool)
  /-- IDIVU (R64): Starts an iterative unsigned division of A by B. -/
  | idivu (d : BitVec 7) (a : BitVec 7) (b : BitVec 7) (sb : Bool)
  /-- IREM (R64): Starts an iterative signed remainder of A by B. -/
  | irem (d : BitVec 7) (a : BitVec 7) (b : BitVec 7) (sb : Bool)
  /-- IREMU (R64): Starts an iterative unsigned remainder of A by B. -/
  | iremu (d : BitVec 7) (a : BitVec 7) (b : BitVec 7) (sb : Bool)
  /-- IMIN (R90): Writes the signed minimum of A and B. -/
  | imin (d : BitVec 7) (a : BitVec 7) (b : BitVec 7) (sb : Bool)
  /-- IMAX (R90): Writes the signed maximum of A and B. -/
  | imax (d : BitVec 7) (a : BitVec 7) (b : BitVec 7) (sb : Bool)
  /-- IMINU (R90): Writes the unsigned minimum of A and B. -/
  | iminu (d : BitVec 7) (a : BitVec 7) (b : BitVec 7) (sb : Bool)
  /-- IMAXU (R90): Writes the unsigned maximum of A and B. -/
  | imaxu (d : BitVec 7) (a : BitVec 7) (b : BitVec 7) (sb : Bool)
  /-- IADDS (R63): Writes the signed sum clamped to the int32 range. -/
  | iadds (d : BitVec 7) (a : BitVec 7) (b : BitVec 7) (sb : Bool)
  /-- ISUBS (R63): Writes the signed difference clamped to the int32 range. -/
  | isubs (d : BitVec 7) (a : BitVec 7) (b : BitVec 7) (sb : Bool)
  /-- IADDUS (R63): Writes the unsigned sum clamped to the uint32 range. -/
  | iaddus (d : BitVec 7) (a : BitVec 7) (b : BitVec 7) (sb : Bool)
  /-- ISUBUS (R63): Writes the unsigned difference clamped to the uint32 range. -/
  | isubus (d : BitVec 7) (a : BitVec 7) (b : BitVec 7) (sb : Bool)
  /-- IADD64 (R90): Adds two register pairs with 64-bit wrap. -/
  | iadd64 (d : BitVec 7) (a : BitVec 7) (b : BitVec 7) (sb : Bool)
  /-- ISUB64 (R90): Subtracts two register pairs with 64-bit wrap. -/
  | isub64 (d : BitVec 7) (a : BitVec 7) (b : BitVec 7) (sb : Bool)
  /-- IMULW (R90): Writes the exact signed 64-bit product to a pair. -/
  | imulw (d : BitVec 7) (a : BitVec 7) (b : BitVec 7) (sb : Bool)
  /-- IMULWU (R90): Writes the exact unsigned 64-bit product to a pair. -/
  | imulwu (d : BitVec 7) (a : BitVec 7) (b : BitVec 7) (sb : Bool)
  /-- ICMP (R91): Writes a predicate from a 32-bit integer comparison. -/
  | icmp (c : BitVec 3) (p : BitVec 3) (a : BitVec 7) (b : BitVec 7) (sb : Bool)
  /-- ICMP64 (R91): Writes a predicate from a 64-bit integer comparison. -/
  | icmp64 (c : BitVec 3) (p : BitVec 3) (a : BitVec 7) (b : BitVec 7) (sb : Bool)
  /-- IADDSH1 (R90): Writes (A shifted left by 1) plus B. -/
  | iaddsh1 (d : BitVec 7) (a : BitVec 7) (b : BitVec 7) (sb : Bool)
  /-- IADDSH2 (R90): Writes (A shifted left by 2) plus B. -/
  | iaddsh2 (d : BitVec 7) (a : BitVec 7) (b : BitVec 7) (sb : Bool)
  /-- IADDSH3 (R90): Writes (A shifted left by 3) plus B. -/
  | iaddsh3 (d : BitVec 7) (a : BitVec 7) (b : BitVec 7) (sb : Bool)
  /-- IADDSH4 (R90): Writes (A shifted left by 4) plus B. -/
  | iaddsh4 (d : BitVec 7) (a : BitVec 7) (b : BitVec 7) (sb : Bool)
  /-- SEL (R92): Selects A or B into D by a predicate per thread. -/
  | sel (d : BitVec 7) (a : BitVec 7) (b : BitVec 7) (sb : Bool) (q : BitVec 3)
  /-- MOV (R93): Copies A to D. -/
  | mov (d : BitVec 7) (a : BitVec 7)
  /-- MOVRI (R94): Reads the register whose window index is held in A. -/
  | movri (d : BitVec 7) (a : BitVec 7)
  /-- MOVWI (R94): Writes B to the register whose window index is held in A. -/
  | movwi (a : BitVec 7) (b : BitVec 7) (sb : Bool)
  /-- SEXT8 (R93): Sign-extends the low byte of A into D. -/
  | sext8 (d : BitVec 7) (a : BitVec 7)
  /-- SEXT16 (R93): Sign-extends the low half of A into D. -/
  | sext16 (d : BitVec 7) (a : BitVec 7)
  /-- IADDI (R96): Adds a sign-extended immediate to A. -/
  | iaddi (d : BitVec 7) (a : BitVec 7) (i : BitVec 11)
  /-- IMULI (R96): Multiplies A by a sign-extended immediate. -/
  | imuli (d : BitVec 7) (a : BitVec 7) (i : BitVec 11)
  /-- ANDI (R96): ANDs A with a zero-extended immediate. -/
  | andi (d : BitVec 7) (a : BitVec 7) (i : BitVec 11)
  /-- ORI (R96): ORs A with a zero-extended immediate. -/
  | ori (d : BitVec 7) (a : BitVec 7) (i : BitVec 11)
  /-- XORI (R96): XORs A with a zero-extended immediate. -/
  | xori (d : BitVec 7) (a : BitVec 7) (i : BitVec 11)
  /-- ICMPI (R96): Writes a predicate comparing A with an immediate. -/
  | icmpi (c : BitVec 3) (p : BitVec 3) (a : BitVec 7) (i : BitVec 11)
  /-- SHLI (R96): Shifts A left by an immediate amount. -/
  | shli (d : BitVec 7) (a : BitVec 7) (n : BitVec 5)
  /-- SHRI (R96): Shifts A right logically by an immediate amount. -/
  | shri (d : BitVec 7) (a : BitVec 7) (n : BitVec 5)
  /-- SARI (R96): Shifts A right arithmetically by an immediate amount. -/
  | sari (d : BitVec 7) (a : BitVec 7) (n : BitVec 5)
  /-- ROLI (R96): Rotates A left by an immediate amount. -/
  | roli (d : BitVec 7) (a : BitVec 7) (n : BitVec 5)
  /-- RORI (R96): Rotates A right by an immediate amount. -/
  | rori (d : BitVec 7) (a : BitVec 7) (n : BitVec 5)
  /-- MOVI (R96): Writes an 18-bit sign-extended immediate to D. -/
  | movi (d : BitVec 7) (imm : BitVec 18)
  /-- AND (R97): Writes A AND B. -/
  | and (d : BitVec 7) (a : BitVec 7) (b : BitVec 7) (sb : Bool)
  /-- OR (R97): Writes A OR B. -/
  | or (d : BitVec 7) (a : BitVec 7) (b : BitVec 7) (sb : Bool)
  /-- XOR (R97): Writes A XOR B. -/
  | xor (d : BitVec 7) (a : BitVec 7) (b : BitVec 7) (sb : Bool)
  /-- ANDN (R97): Writes A AND NOT B. -/
  | andn (d : BitVec 7) (a : BitVec 7) (b : BitVec 7) (sb : Bool)
  /-- ORN (R97): Writes A OR NOT B. -/
  | orn (d : BitVec 7) (a : BitVec 7) (b : BitVec 7) (sb : Bool)
  /-- XNOR (R97): Writes NOT (A XOR B). -/
  | xnor (d : BitVec 7) (a : BitVec 7) (b : BitVec 7) (sb : Bool)
  /-- NOT (R97): Writes NOT A. -/
  | not (d : BitVec 7) (a : BitVec 7)
  /-- SHL (R98): Shifts A left by B[4:0]. -/
  | shl (d : BitVec 7) (a : BitVec 7) (b : BitVec 7) (sb : Bool)
  /-- SHR (R98): Shifts A right logically by B[4:0]. -/
  | shr (d : BitVec 7) (a : BitVec 7) (b : BitVec 7) (sb : Bool)
  /-- SAR (R98): Shifts A right arithmetically by B[4:0]. -/
  | sar (d : BitVec 7) (a : BitVec 7) (b : BitVec 7) (sb : Bool)
  /-- ROL (R98): Rotates A left by B[4:0]. -/
  | rol (d : BitVec 7) (a : BitVec 7) (b : BitVec 7) (sb : Bool)
  /-- ROR (R98): Rotates A right by B[4:0]. -/
  | ror (d : BitVec 7) (a : BitVec 7) (b : BitVec 7) (sb : Bool)
  /-- SHL64 (R98): Shifts a pair left by B[5:0]. -/
  | shl64 (d : BitVec 7) (a : BitVec 7) (b : BitVec 7) (sb : Bool)
  /-- SHR64 (R98): Shifts a pair right logically by B[5:0]. -/
  | shr64 (d : BitVec 7) (a : BitVec 7) (b : BitVec 7) (sb : Bool)
  /-- SAR64 (R98): Shifts a pair right arithmetically by B[5:0]. -/
  | sar64 (d : BitVec 7) (a : BitVec 7) (b : BitVec 7) (sb : Bool)
  /-- CLZ (R99): Counts leading zeros of A. -/
  | clz (d : BitVec 7) (a : BitVec 7)
  /-- CTZ (R99): Counts trailing zeros of A. -/
  | ctz (d : BitVec 7) (a : BitVec 7)
  /-- POPC (R99): Counts one bits of A. -/
  | popc (d : BitVec 7) (a : BitVec 7)
  /-- BREV (R99): Reverses the bits of A. -/
  | brev (d : BitVec 7) (a : BitVec 7)
  /-- CLZ64 (R99): Counts leading zeros of a pair. -/
  | clz64 (d : BitVec 7) (a : BitVec 7)
  /-- CTZ64 (R99): Counts trailing zeros of a pair. -/
  | ctz64 (d : BitVec 7) (a : BitVec 7)
  /-- POPC64 (R99): Counts one bits of a pair. -/
  | popc64 (d : BitVec 7) (a : BitVec 7)
  /-- BREV64 (R99): Reverses the bits of a pair. -/
  | brev64 (d : BitVec 7) (a : BitVec 7)
  /-- BFX (R100): Extracts an unsigned bit field of A described by B. -/
  | bfx (d : BitVec 7) (a : BitVec 7) (b : BitVec 7) (sb : Bool)
  /-- BFXS (R100): Extracts a signed bit field of A described by B. -/
  | bfxs (d : BitVec 7) (a : BitVec 7) (b : BitVec 7) (sb : Bool)
  /-- BFI (R100): Inserts the low bits of A into a field of D. -/
  | bfi (d : BitVec 7) (a : BitVec 7) (b : BitVec 7) (sb : Bool)
  /-- PDEP (R101): Deposits bits of A at the set positions of mask B. -/
  | pdep (d : BitVec 7) (a : BitVec 7) (b : BitVec 7) (sb : Bool)
  /-- PEXT (R101): Extracts bits of A at the set positions of mask B. -/
  | pext (d : BitVec 7) (a : BitVec 7) (b : BitVec 7) (sb : Bool)
  /-- PDEP64 (R101): 64-bit bit deposit over pairs. -/
  | pdep64 (d : BitVec 7) (a : BitVec 7) (b : BitVec 7) (sb : Bool)
  /-- PEXT64 (R101): 64-bit bit extract over pairs. -/
  | pext64 (d : BitVec 7) (a : BitVec 7) (b : BitVec 7) (sb : Bool)
  /-- BPERM (R102): Gathers eight indexed bits of A64 and shifts them into D64. -/
  | bperm (d : BitVec 7) (a : BitVec 7) (b : BitVec 7) (sb : Bool)
  /-- BMM8 (R103): Multiplies two 8x8 bit matrices over GF(2). -/
  | bmm8 (d : BitVec 7) (a : BitVec 7) (b : BitVec 7) (sb : Bool)
  /-- BMM8T (R103): Multiplies a bit matrix by the transpose of another over GF(2). -/
  | bmm8t (d : BitVec 7) (a : BitVec 7) (b : BitVec 7) (sb : Bool)
  /-- PLOP (R104): Combines two predicates through a 4-bit truth table. -/
  | plop (t : BitVec 4) (d : BitVec 3) (a : BitVec 3) (b : BitVec 3)
  /-- P2V (R104): Writes p7-p0 into a vector register. -/
  | p2v (d : BitVec 7)
  /-- V2P (R104): Sets p7-p0 from the low byte of A. -/
  | v2p (a : BitVec 7)
  /-- FADD (R111): FP32 addition under the selected rounding mode. -/
  | fadd (d : BitVec 7) (a : BitVec 7) (b : BitVec 7) (sb : Bool) (ha : Bool) (hb : Bool) (m : BitVec 2)
  /-- FMUL (R111): FP32 multiplication under the selected rounding mode. -/
  | fmul (d : BitVec 7) (a : BitVec 7) (b : BitVec 7) (sb : Bool) (ha : Bool) (hb : Bool) (m : BitVec 2)
  /-- FFMA (R111): FP32 fused multiply-add into D with one rounding. -/
  | ffma (d : BitVec 7) (a : BitVec 7) (b : BitVec 7) (sb : Bool) (ha : Bool) (hb : Bool) (m : BitVec 2)
  /-- FSUB (R111): FP32 subtraction under the selected rounding mode. -/
  | fsub (d : BitVec 7) (a : BitVec 7) (b : BitVec 7) (sb : Bool) (ha : Bool) (hb : Bool) (m : BitVec 2)
  /-- FMIN (R113): FP32 minimum, NaN if either operand is NaN. -/
  | fmin (d : BitVec 7) (a : BitVec 7) (b : BitVec 7) (sb : Bool)
  /-- FMAX (R113): FP32 maximum, NaN if either operand is NaN. -/
  | fmax (d : BitVec 7) (a : BitVec 7) (b : BitVec 7) (sb : Bool)
  /-- FMINNM (R113): FP32 minimum ignoring a single NaN. -/
  | fminnm (d : BitVec 7) (a : BitVec 7) (b : BitVec 7) (sb : Bool)
  /-- FMAXNM (R113): FP32 maximum ignoring a single NaN. -/
  | fmaxnm (d : BitVec 7) (a : BitVec 7) (b : BitVec 7) (sb : Bool)
  /-- FCMP (R114): Writes a predicate from an FP32 comparison. -/
  | fcmp (c : BitVec 3) (p : BitVec 3) (a : BitVec 7) (b : BitVec 7) (sb : Bool)
  /-- FABS (R113): Clears the sign bit of A. -/
  | fabs (d : BitVec 7) (a : BitVec 7)
  /-- FNEG (R113): Flips the sign bit of A. -/
  | fneg (d : BitVec 7) (a : BitVec 7)
  /-- FCOPYSIGN (R113): Gives A the sign of B. -/
  | fcopysign (d : BitVec 7) (a : BitVec 7) (b : BitVec 7) (sb : Bool)
  /-- FRINT (R116): Rounds FP32 A to an integral FP32 value. -/
  | frint (d : BitVec 7) (a : BitVec 7) (m : BitVec 2)
  /-- FCLASS (R115): Writes a one-hot class mask of FP32 A. -/
  | fclass (d : BitVec 7) (a : BitVec 7)
  /-- FRCP (R118): Writes the correctly rounded reciprocal of A. -/
  | frcp (d : BitVec 7) (a : BitVec 7)
  /-- FRSQ (R118): Writes the correctly rounded reciprocal square root of A. -/
  | frsq (d : BitVec 7) (a : BitVec 7)
  /-- FEXP2 (R118): Writes the correctly rounded 2 to the power A. -/
  | fexp2 (d : BitVec 7) (a : BitVec 7)
  /-- FLOG2 (R118): Writes the correctly rounded base-2 logarithm of A. -/
  | flog2 (d : BitVec 7) (a : BitVec 7)
  /-- FSIN (R118): Writes the correctly rounded sine of A. -/
  | fsin (d : BitVec 7) (a : BitVec 7)
  /-- FCOS (R118): Writes the correctly rounded cosine of A. -/
  | fcos (d : BitVec 7) (a : BitVec 7)
  /-- F2I (R116): Converts FP32 to int32 with rounding and clamping. -/
  | f2i (d : BitVec 7) (a : BitVec 7) (m : BitVec 2)
  /-- F2U (R116): Converts FP32 to uint32 with rounding and clamping. -/
  | f2u (d : BitVec 7) (a : BitVec 7) (m : BitVec 2)
  /-- I2F (R116): Converts int32 to FP32 under a rounding mode. -/
  | i2f (d : BitVec 7) (a : BitVec 7) (m : BitVec 2)
  /-- U2F (R116): Converts uint32 to FP32 under a rounding mode. -/
  | u2f (d : BitVec 7) (a : BitVec 7) (m : BitVec 2)
  /-- F2H (R116): Converts FP32 to FP16 in the low half of D. -/
  | f2h (d : BitVec 7) (a : BitVec 7) (m : BitVec 2)
  /-- H2F (R117): Converts FP16 exactly to FP32. -/
  | h2f (d : BitVec 7) (a : BitVec 7)
  /-- F2D (R117): Converts FP32 exactly to FP64 in a pair. -/
  | f2d (d : BitVec 7) (a : BitVec 7)
  /-- D2F (R116): Converts FP64 to FP32 under a rounding mode. -/
  | d2f (d : BitVec 7) (a : BitVec 7) (m : BitVec 2)
  /-- DADD (R119): FP64 addition on register pairs. -/
  | dadd (d : BitVec 7) (a : BitVec 7) (b : BitVec 7) (sb : Bool) (m : BitVec 2)
  /-- DMUL (R119): FP64 multiplication on register pairs. -/
  | dmul (d : BitVec 7) (a : BitVec 7) (b : BitVec 7) (sb : Bool) (m : BitVec 2)
  /-- DFMA (R119): FP64 fused multiply-add with one rounding. -/
  | dfma (d : BitVec 7) (a : BitVec 7) (b : BitVec 7) (sb : Bool) (m : BitVec 2)
  /-- DSUB (R119): FP64 subtraction on register pairs. -/
  | dsub (d : BitVec 7) (a : BitVec 7) (b : BitVec 7) (sb : Bool) (m : BitVec 2)
  /-- DMIN (R120): FP64 minimum. -/
  | dmin (d : BitVec 7) (a : BitVec 7) (b : BitVec 7) (sb : Bool)
  /-- DMAX (R120): FP64 maximum. -/
  | dmax (d : BitVec 7) (a : BitVec 7) (b : BitVec 7) (sb : Bool)
  /-- DMINNM (R120): FP64 minimum ignoring a single NaN. -/
  | dminnm (d : BitVec 7) (a : BitVec 7) (b : BitVec 7) (sb : Bool)
  /-- DMAXNM (R120): FP64 maximum ignoring a single NaN. -/
  | dmaxnm (d : BitVec 7) (a : BitVec 7) (b : BitVec 7) (sb : Bool)
  /-- DCMP (R120): Writes a predicate from an FP64 comparison. -/
  | dcmp (c : BitVec 3) (p : BitVec 3) (a : BitVec 7) (b : BitVec 7) (sb : Bool)
  /-- D2I (R120): Converts FP64 to int32 with rounding and clamping. -/
  | d2i (d : BitVec 7) (a : BitVec 7) (m : BitVec 2)
  /-- I2D (R120): Converts int32 exactly to FP64. -/
  | i2d (d : BitVec 7) (a : BitVec 7)
  /-- DABS (R120): Clears bit 63 of an FP64 pair. -/
  | dabs (d : BitVec 7) (a : BitVec 7)
  /-- HADD2 (R121): Adds two packed FP16 elements. -/
  | hadd2 (d : BitVec 7) (a : BitVec 7) (b : BitVec 7) (sb : Bool) (m : BitVec 2)
  /-- HMUL2 (R121): Multiplies two packed FP16 elements. -/
  | hmul2 (d : BitVec 7) (a : BitVec 7) (b : BitVec 7) (sb : Bool) (m : BitVec 2)
  /-- HFMA2 (R121): Fused multiply-add on packed FP16 elements. -/
  | hfma2 (d : BitVec 7) (a : BitVec 7) (b : BitVec 7) (sb : Bool) (m : BitVec 2)
  /-- HSUB2 (R121): Subtracts packed FP16 elements. -/
  | hsub2 (d : BitVec 7) (a : BitVec 7) (b : BitVec 7) (sb : Bool) (m : BitVec 2)
  /-- BADD2 (R121): Adds two packed BF16 elements. -/
  | badd2 (d : BitVec 7) (a : BitVec 7) (b : BitVec 7) (sb : Bool) (m : BitVec 2)
  /-- BMUL2 (R121): Multiplies two packed BF16 elements. -/
  | bmul2 (d : BitVec 7) (a : BitVec 7) (b : BitVec 7) (sb : Bool) (m : BitVec 2)
  /-- BFMA2 (R121): Fused multiply-add on packed BF16 elements. -/
  | bfma2 (d : BitVec 7) (a : BitVec 7) (b : BitVec 7) (sb : Bool) (m : BitVec 2)
  /-- BSUB2 (R121): Subtracts packed BF16 elements. -/
  | bsub2 (d : BitVec 7) (a : BitVec 7) (b : BitVec 7) (sb : Bool) (m : BitVec 2)
  /-- HMIN2 (R122): Element-wise FP16 minimum. -/
  | hmin2 (d : BitVec 7) (a : BitVec 7) (b : BitVec 7) (sb : Bool)
  /-- HMAX2 (R122): Element-wise FP16 maximum. -/
  | hmax2 (d : BitVec 7) (a : BitVec 7) (b : BitVec 7) (sb : Bool)
  /-- BMIN2 (R122): Element-wise BF16 minimum. -/
  | bmin2 (d : BitVec 7) (a : BitVec 7) (b : BitVec 7) (sb : Bool)
  /-- BMAX2 (R122): Element-wise BF16 maximum. -/
  | bmax2 (d : BitVec 7) (a : BitVec 7) (b : BitVec 7) (sb : Bool)
  /-- HCMP2 (R122): Writes predicates p and p+1 from FP16 element comparisons. -/
  | hcmp2 (c : BitVec 3) (p : BitVec 3) (a : BitVec 7) (b : BitVec 7) (sb : Bool)
  /-- BCMP2 (R122): Writes predicates p and p+1 from BF16 element comparisons. -/
  | bcmp2 (c : BitVec 3) (p : BitVec 3) (a : BitVec 7) (b : BitVec 7) (sb : Bool)
  /-- PKH2 (R123): Packs two FP32 values into FP16 halves. -/
  | pkh2 (d : BitVec 7) (a : BitVec 7) (b : BitVec 7) (sb : Bool) (m : BitVec 2)
  /-- PKB2 (R123): Packs two FP32 values into BF16 halves. -/
  | pkb2 (d : BitVec 7) (a : BitVec 7) (b : BitVec 7) (sb : Bool) (m : BitVec 2)
  /-- UPKH (R123): Unpacks an FP16 element exactly to FP32. -/
  | upkh (d : BitVec 7) (a : BitVec 7) (e : Bool)
  /-- UPKB (R123): Unpacks a BF16 element exactly to FP32. -/
  | upkb (d : BitVec 7) (a : BitVec 7) (e : Bool)
  /-- PKE4M (R124): Packs four FP32 values to E4M3 under an E8M0 scale. -/
  | pke4m (d : BitVec 7) (a : BitVec 7) (b : BitVec 7) (sb : Bool)
  /-- PKE5M (R124): Packs four FP32 values to E5M2 under an E8M0 scale. -/
  | pke5m (d : BitVec 7) (a : BitVec 7) (b : BitVec 7) (sb : Bool)
  /-- PKF4M (R124): Packs eight FP32 values to E2M1 under an E8M0 scale. -/
  | pkf4m (d : BitVec 7) (a : BitVec 7) (b : BitVec 7) (sb : Bool)
  /-- UPKE4 (R125): Unpacks an E4M3 element to FP32 unscaled. -/
  | upke4 (d : BitVec 7) (a : BitVec 7) (e : BitVec 2)
  /-- UPKE5 (R125): Unpacks an E5M2 element to FP32 unscaled. -/
  | upke5 (d : BitVec 7) (a : BitVec 7) (e : BitVec 2)
  /-- UPKF4 (R125): Unpacks an E2M1 element to FP32 unscaled. -/
  | upkf4 (d : BitVec 7) (a : BitVec 7) (e : BitVec 3)
  /-- MXSCALE (R126): Derives an E8M0 block scale from A for a target format. -/
  | mxscale (d : BitVec 7) (a : BitVec 7) (f : BitVec 2)
  /-- IDP4 (R105): Accumulates a signed four-byte dot product into D. -/
  | idp4 (d : BitVec 7) (a : BitVec 7) (b : BitVec 7) (sb : Bool)
  /-- IDP4U (R105): Accumulates an unsigned four-byte dot product into D. -/
  | idp4u (d : BitVec 7) (a : BitVec 7) (b : BitVec 7) (sb : Bool)
  /-- LD (R141): Loads 1, 2, 4 or 8 bytes per lane through a buffer record. -/
  | ld (d : BitVec 7) (a : BitVec 7) (k : BitVec 5) (w : BitVec 2) (o : BitVec 6)
  /-- ST (R141): Stores 1, 2, 4 or 8 bytes per lane through a buffer record. -/
  | st (d : BitVec 7) (a : BitVec 7) (k : BitVec 5) (w : BitVec 2) (o : BitVec 6)
  /-- ATOM_SP (R274): 32-bit atomic on the block scratchpad returning the old value. -/
  | atomSp (d : BitVec 7) (a : BitVec 7) (b : BitVec 7) (q : BitVec 4)
  /-- SLD (R270): Per-lane load from the block scratchpad. -/
  | sld (d : BitVec 7) (a : BitVec 7) (b : BitVec 7) (w : BitVec 3)
  /-- SST (R270): Per-lane store to the block scratchpad. -/
  | sst (d : BitVec 7) (a : BitVec 7) (b : BitVec 7) (w : BitVec 3)
  /-- NLD (R270): Per-lane load from the neighbourhood window. -/
  | nld (d : BitVec 7) (a : BitVec 7) (b : BitVec 7) (w : BitVec 3)
  /-- NST (R270): Per-lane store to the neighbourhood window. -/
  | nst (d : BitVec 7) (a : BitVec 7) (b : BitVec 7) (w : BitVec 3)
  /-- ATOM_NB (R274): 32-bit atomic on the neighbourhood window. -/
  | atomNb (d : BitVec 7) (a : BitVec 7) (b : BitVec 7) (q : BitVec 4)
  /-- ATOM_REC (R275): 32-bit atomic on device memory through a record at the line's holder. -/
  | atomRec (d : BitVec 7) (a : BitVec 7) (k : BitVec 5) (q : BitVec 4)
  /-- ATOM_64 (R275): 64-bit atomic on device memory through a record. -/
  | atom64 (d : BitVec 7) (a : BitVec 7) (k : BitVec 5) (q : BitVec 4)
  /-- FADDX (R82): Adds an FP32 value exactly into a reduction cell. -/
  | faddx (d : BitVec 7) (a : BitVec 7) (k : BitVec 5)
  /-- RCRD (R83): Reads a reduction cell as one rounded FP32 value. -/
  | rcrd (d : BitVec 7) (a : BitVec 7) (k : BitVec 5)
  /-- RCCLR (R277): Writes all 512 bits of a reduction cell to zero. -/
  | rcclr (a : BitVec 7) (k : BitVec 5)
  /-- PREF (R280): Prefetches a line into L1 or its home cache slice. -/
  | pref (l : Bool) (a : BitVec 7) (k : BitVec 5)
  /-- CWB (R280): Writes back the dirty sectors of a line. -/
  | cwb (a : BitVec 7) (k : BitVec 5)
  /-- CINV (R280): Writes back and invalidates a line. -/
  | cinv (a : BitVec 7) (k : BitVec 5)
  /-- SAMPLE (R282): Filters texels of an image into four FP32 channels. -/
  | sample (d : BitVec 7) (a : BitVec 7) (k : BitVec 5)
  /-- BRA (R131): Branches unconditionally. -/
  | bra (o : BitVec 22)
  /-- BRT (R131): Branches in each thread whose predicate is 1. -/
  | brt (p : BitVec 3) (o : BitVec 22)
  /-- BRF (R131): Branches in each thread whose predicate is 0. -/
  | brf (p : BitVec 3) (o : BitVec 22)
  /-- BRANY (R131): Branches the issue if any active thread's predicate is 1. -/
  | brany (p : BitVec 3) (o : BitVec 22)
  /-- BRALL (R131): Branches the issue if every active thread's predicate is 1. -/
  | brall (p : BitVec 3) (o : BitVec 22)
  /-- CALL (R134): Advances the window, writes the link and jumps to a PC-relative target. -/
  | call (v : BitVec 7) (i : BitVec 21)
  /-- RET (R135): Returns through the link and restores WB and F. -/
  | ret
  /-- JMPI (R137): Jumps per thread to a checked LAND target. -/
  | jmpi (a : BitVec 7)
  /-- CALLI (R134): Calls per thread through a checked LAND target. -/
  | calli (a : BitVec 7) (b : BitVec 7)
  /-- LAND (R138): Marks an indirect target and executes as a NOP. -/
  | land
  /-- FRAME (R136): Sets the frame size F, spilling as needed. -/
  | frame (b : BitVec 7)
  /-- WBASE (R136): Moves the window base by a signed delta. -/
  | wbase (b : BitVec 7)
  /-- REFORM (R196): Files the quad in a REFORM bin to be regrouped. -/
  | reform
  /-- EXIT (R139): Ends the thread. -/
  | exit
  /-- NOP (R138): Advances the PC only. -/
  | nop
  /-- TRAP (R140): Raises cause TRAP with an immediate extra word. -/
  | trap (i : BitVec 14)
  /-- ROUTE_PICK (R182): Every named member reads one chosen member's value. -/
  | routePick (d : BitVec 7) (a : BitVec 7) (b : BitVec 7)
  /-- ROUTE_ROT (R182): Each member reads the member delta places above, wrapping. -/
  | routeRot (d : BitVec 7) (a : BitVec 7) (b : BitVec 7)
  /-- ROUTE_SHIFT (R182): Each member reads a member offset by delta without wrap. -/
  | routeShift (d : BitVec 7) (a : BitVec 7) (b : BitVec 7)
  /-- ROUTE_FLIP (R182): Each member reads the member at its index XOR delta. -/
  | routeFlip (d : BitVec 7) (a : BitVec 7) (b : BitVec 7)
  /-- POLL_OR (R183): Writes the OR of a predicate over named members. -/
  | pollOr (d : BitVec 3) (a : BitVec 3) (b : BitVec 7)
  /-- POLL_AND (R183): Writes the AND of a predicate over named members. -/
  | pollAnd (d : BitVec 3) (a : BitVec 3) (b : BitVec 7)
  /-- POLL_SAME (R183): Writes whether a predicate is equal in all named members. -/
  | pollSame (d : BitVec 3) (a : BitVec 3) (b : BitVec 7)
  /-- PGATHER (R183): Gathers named members' predicates into a 64-bit mask. -/
  | pgather (d : BitVec 7) (a : BitVec 3) (b : BitVec 7)
  /-- REDUX_ADD (R184): Wrapped integer sum over named members. -/
  | reduxAdd (d : BitVec 7) (a : BitVec 7) (b : BitVec 7)
  /-- REDUX_MIN (R184): Signed minimum over named members. -/
  | reduxMin (d : BitVec 7) (a : BitVec 7) (b : BitVec 7)
  /-- REDUX_MAX (R184): Signed maximum over named members. -/
  | reduxMax (d : BitVec 7) (a : BitVec 7) (b : BitVec 7)
  /-- REDUX_MINU (R184): Unsigned minimum over named members. -/
  | reduxMinu (d : BitVec 7) (a : BitVec 7) (b : BitVec 7)
  /-- REDUX_MAXU (R184): Unsigned maximum over named members. -/
  | reduxMaxu (d : BitVec 7) (a : BitVec 7) (b : BitVec 7)
  /-- REDUX_AND (R184): Bitwise AND over named members. -/
  | reduxAnd (d : BitVec 7) (a : BitVec 7) (b : BitVec 7)
  /-- REDUX_OR (R184): Bitwise OR over named members. -/
  | reduxOr (d : BitVec 7) (a : BitVec 7) (b : BitVec 7)
  /-- REDUX_XOR (R184): Bitwise XOR over named members. -/
  | reduxXor (d : BitVec 7) (a : BitVec 7) (b : BitVec 7)
  /-- REDUX_FADD (R185): Order-independent FP32 sum over named members. -/
  | reduxFadd (d : BitVec 7) (a : BitVec 7) (b : BitVec 7)
  /-- REDUX_FMIN (R184): FP32 minimum over named members. -/
  | reduxFmin (d : BitVec 7) (a : BitVec 7) (b : BitVec 7)
  /-- REDUX_FMAX (R184): FP32 maximum over named members. -/
  | reduxFmax (d : BitVec 7) (a : BitVec 7) (b : BitVec 7)
  /-- SCAN_ADD (R184): Inclusive wrapped prefix sum over named members. -/
  | scanAdd (d : BitVec 7) (a : BitVec 7) (b : BitVec 7)
  /-- SCAN_FADD (R184): Inclusive order-independent FP32 prefix sum. -/
  | scanFadd (d : BitVec 7) (a : BitVec 7) (b : BitVec 7)
  /-- BARINIT (R191): Initialises or clears a scratchpad or device-memory barrier object. -/
  | barinit (a : BitVec 7) (b : BitVec 7)
  /-- BARARV (R191): Arrives at a barrier object and returns the phase token. -/
  | bararv (d : BitVec 7) (a : BitVec 7)
  /-- BARWAIT (R191): Waits until the barrier phase differs from a token. -/
  | barwait (a : BitVec 7) (b : BitVec 7)
  /-- BARSYNC (R191): Arrives at a barrier and waits for its phase to complete. -/
  | barsync (a : BitVec 7)
  /-- NBARARV (R191): Arrives at a neighbourhood-window barrier object. -/
  | nbararv (d : BitVec 7) (a : BitVec 7)
  /-- NBARWAIT (R191): Waits on a neighbourhood-window barrier phase. -/
  | nbarwait (a : BitVec 7) (b : BitVec 7)
  /-- NBARSYNC (R191): Arrives at and waits on a window barrier object. -/
  | nbarsync (a : BitVec 7)
  /-- CINIT (R195): Sets a convergence register's expected count and advances GEN. -/
  | cinit (n : BitVec 4) (a : BitVec 7)
  /-- MSIGN (R195): Signs a convergence register and returns its round. -/
  | msign (d : BitVec 7) (n : BitVec 4)
  /-- CWAIT (R195): Waits until a convergence register's GEN differs from a token. -/
  | cwait (n : BitVec 4) (b : BitVec 7)
  /-- FENCE_B (R258): Fence of scope block. -/
  | fenceB
  /-- FENCE_N (R258): Fence of scope neighbourhood. -/
  | fenceN
  /-- FENCE_Q (R258): Fence of scope quadrant. -/
  | fenceQ
  /-- FENCE_T (R258): Fence of scope tenant slice. -/
  | fenceT
  /-- FENCE_S (R258): Fence of scope system, including the host path. -/
  | fenceS
  /-- OFENCE (R259): Orders the thread's stores before the block's later engine commands. -/
  | ofence
  /-- COMMIT (R303): Closes the thread's open command batch. -/
  | commit
  /-- WAITB (R304): Closes the open batch and waits until at most n batches are outstanding. -/
  | waitb (n : BitVec 4)
  /-- WAITSEQ (R356): Waits until a kind's completion sequence number reaches a target. -/
  | waitseq (a : BitVec 7) (e : BitVec 3)
  /-- QWAIT_DONE (R392): Waits until a queue's DONE count reaches a target. -/
  | qwaitDone (d : BitVec 6) (a : BitVec 7) (b : BitVec 7)
  /-- QWAIT_TAKE (R392): Takes one queue entry into scratchpad, waiting for one if empty. -/
  | qwaitTake (d : BitVec 6) (a : BitVec 7) (b : BitVec 7)
  /-- NICHEWAIT (R336): Waits until a niche holds no pending or claimed record. -/
  | nichewait (a : BitVec 7)
  /-- TMOV_TR (R355): Moves a tile row slice into four vector registers. -/
  | tmovTr (d : BitVec 7) (t : BitVec 3) (b : BitVec 7) (o : BitVec 6)
  /-- TMOV_TC (R355): Moves a tile column element into a vector register. -/
  | tmovTc (d : BitVec 7) (t : BitVec 3) (b : BitVec 7) (o : BitVec 6)
  /-- TMOV_RT (R355): Writes four vector registers into a tile row slice. -/
  | tmovRt (d : BitVec 7) (t : BitVec 3) (b : BitVec 7) (o : BitVec 6)
  /-- TMOV_CT (R355): Writes a vector register into a tile column. -/
  | tmovCt (d : BitVec 7) (t : BitVec 3) (b : BitVec 7) (o : BitVec 6)
  /-- TSTAT (R215): Reads a tile table entry. -/
  | tstat (d : BitVec 7) (t : BitVec 5)
  /-- TWAIT (R215): Waits until a tile is ready or empty. -/
  | twait (t : BitVec 5)
  /-- BLOAD (R350): Places a B operand in a resident slot of the named macros. -/
  | bload (id : BitVec 6) (p : BitVec 6) (q : BitVec 6) (k : BitVec 5)
  /-- MMA (R351): Matrix multiply-accumulate with dense B into accumulator tiles. -/
  | mma (id : BitVec 6) (p : BitVec 6) (q : BitVec 6) (k : BitVec 5)
  /-- MMAS (R351): Matrix multiply-accumulate with structured-sparse B. -/
  | mmas (id : BitVec 6) (p : BitVec 6) (q : BitVec 6) (k : BitVec 5)
  /-- TZERO (R352): Zeroes an accumulator or scratchpad tile. -/
  | tzero (id : BitVec 6) (p : BitVec 6) (q : BitVec 6) (k : BitVec 5)
  /-- TDRAIN (R354): Writes a tile out and leaves it empty. -/
  | tdrain (id : BitVec 6) (p : BitVec 6) (q : BitVec 6) (k : BitVec 5)
  /-- TFILL (R353): Declares, fills or releases a tile per its mode. -/
  | tfill (id : BitVec 6) (p : BitVec 6) (q : BitVec 6) (k : BitVec 5)
  /-- TFILL_DECLARE (R353): Mode 0: declares a scratchpad tile. -/
  | tfillDeclare (b : Nat) (i : Nat)
  /-- TFILL_FILL (R353): Mode 1: fills a tile from a source. -/
  | tfillFill (b : Nat) (i : Nat)
  /-- TFILL_RELEASE (R353): Mode 2: releases a scratchpad tile. -/
  | tfillRelease (b : Nat) (i : Nat)
  /-- XTRAV (R326): Starts a dual-hierarchy traversal emitting overlap records to a niche. -/
  | xtrav (id : BitVec 6) (p : BitVec 6) (q : BitVec 6) (k : BitVec 5)
  /-- XTRAV_RES (R339): Continues a traversal from a resume token. -/
  | xtravRes (id : BitVec 6) (p : BitVec 6) (q : BitVec 6) (k : BitVec 5)
  /-- COPY (R358): Chisel copy between records, scratchpad and window. -/
  | copy (id : BitVec 6) (p : BitVec 6) (q : BitVec 6) (k : BitVec 5)
  /-- SCATTER (R359): Chisel scatter of elements by an index list. -/
  | scatter (id : BitVec 6) (p : BitVec 6) (q : BitVec 6) (k : BitVec 5)
  /-- RESTRIPE (R360): Moves a mapped page to a new placement. -/
  | restripe (id : BitVec 6) (p : BitVec 6) (q : BitVec 6) (k : BitVec 5)
  /-- COLL (R361): Joins the block as a member of a collective. -/
  | coll (id : BitVec 6) (p : BitVec 6) (q : BitVec 6) (k : BitVec 5)
  /-- COLL_ALLREDUCE (R361): OP 0: every member receives the reduction. -/
  | collAllreduce (b : Nat) (i : Nat)
  /-- COLL_REDUCE (R361): OP 1: the root receives the reduction. -/
  | collReduce (b : Nat) (i : Nat)
  /-- COLL_BROADCAST (R361): OP 2: every member receives the root's source. -/
  | collBroadcast (b : Nat) (i : Nat)
  /-- COLL_ALLGATHER (R361): OP 3: every member receives all members' sources. -/
  | collAllgather (b : Nat) (i : Nat)
  /-- COLL_REDUCESCATTER (R361): OP 4: each member receives its slice of the reduction. -/
  | collReducescatter (b : Nat) (i : Nat)
  /-- ENC (R364): Drives the slice's encoder lane. -/
  | enc (id : BitVec 6) (p : BitVec 6) (q : BitVec 6) (k : BitVec 5)
  /-- ENC_START (R364): Reads the session block and resets session state. -/
  | encStart (b : Nat) (i : Nat)
  /-- ENC_FRAME (R364): Encodes one picture into the bitstream buffer. -/
  | encFrame (b : Nat) (i : Nat)
  /-- ENC_END (R364): Flushes the encoder session. -/
  | encEnd (b : Nat) (i : Nat)
  /-- EMIT (R365): Places scratchpad records into a node's niche, waiting for room. -/
  | emit (id : BitVec 6) (p : BitVec 6) (q : BitVec 6) (k : BitVec 5)
  /-- NDONE (R365): Releases a batch's claimed records and/or flushes a niche. -/
  | ndone (id : BitVec 6) (p : BitVec 6) (q : BitVec 6) (k : BitVec 5)
  /-- NDONE_REL (R365): REL: releases the claimed records of the launching batch. -/
  | ndoneRel (b : Nat) (i : Nat)
  /-- NDONE_FLUSH (R365): FLUSH: launches a batch of all pending records of a niche. -/
  | ndoneFlush (b : Nat) (i : Nat)
  /-- TCBARM (R342): Performs the arm event on a task control block. -/
  | tcbarm (id : BitVec 6) (p : BitVec 6) (q : BitVec 6) (k : BitVec 5)
  /-- TCBRET (R343): Retires the launch's task control block early. -/
  | tcbret (id : BitVec 6) (p : BitVec 6) (q : BitVec 6) (k : BitVec 5)
  /-- SADD (R186): Scalar wrapped add. -/
  | sadd (d : BitVec 7) (a : BitVec 7) (b : BitVec 7)
  /-- SSUB (R186): Scalar wrapped subtract. -/
  | ssub (d : BitVec 7) (a : BitVec 7) (b : BitVec 7)
  /-- SMUL (R186): Scalar low product. -/
  | smul (d : BitVec 7) (a : BitVec 7) (b : BitVec 7)
  /-- SAND (R186): Scalar bitwise AND. -/
  | sand (d : BitVec 7) (a : BitVec 7) (b : BitVec 7)
  /-- SOR (R186): Scalar bitwise OR. -/
  | sor (d : BitVec 7) (a : BitVec 7) (b : BitVec 7)
  /-- SXOR (R186): Scalar bitwise XOR. -/
  | sxor (d : BitVec 7) (a : BitVec 7) (b : BitVec 7)
  /-- SSHL (R186): Scalar shift left. -/
  | sshl (d : BitVec 7) (a : BitVec 7) (b : BitVec 7)
  /-- SSHR (R186): Scalar logical shift right. -/
  | sshr (d : BitVec 7) (a : BitVec 7) (b : BitVec 7)
  /-- SSAR (R186): Scalar arithmetic shift right. -/
  | ssar (d : BitVec 7) (a : BitVec 7) (b : BitVec 7)
  /-- SMIN (R186): Scalar signed minimum. -/
  | smin (d : BitVec 7) (a : BitVec 7) (b : BitVec 7)
  /-- SMAX (R186): Scalar signed maximum. -/
  | smax (d : BitVec 7) (a : BitVec 7) (b : BitVec 7)
  /-- SMINU (R186): Scalar unsigned minimum. -/
  | sminu (d : BitVec 7) (a : BitVec 7) (b : BitVec 7)
  /-- SMAXU (R186): Scalar unsigned maximum. -/
  | smaxu (d : BitVec 7) (a : BitVec 7) (b : BitVec 7)
  /-- SCMP (R186): Scalar compare writing a predicate in every active thread. -/
  | scmp (c : BitVec 3) (p : BitVec 3) (a : BitVec 7) (b : BitVec 7)
  /-- SMOV (R186): Copies a scalar register. -/
  | smov (d : BitVec 7) (a : BitVec 7)
  /-- SADDI (R186): Adds a 7-bit signed immediate to a scalar. -/
  | saddi (d : BitVec 7) (a : BitVec 7) (i : BitVec 7)
  /-- SSHLI (R186): Scalar shift left by an immediate. -/
  | sshli (d : BitVec 7) (a : BitVec 7) (n : BitVec 5)
  /-- SSHRI (R186): Scalar logical shift right by an immediate. -/
  | sshri (d : BitVec 7) (a : BitVec 7) (n : BitVec 5)
  /-- SSARI (R186): Scalar arithmetic shift right by an immediate. -/
  | ssari (d : BitVec 7) (a : BitVec 7) (n : BitVec 5)
  /-- V2S (R186): Copies the lowest active thread's vector value to a scalar. -/
  | v2s (d : BitVec 7) (a : BitVec 7)
  /-- S2V (R186): Copies a scalar into a vector register of every active thread. -/
  | s2v (d : BitVec 7) (a : BitVec 7)
  /-- SLD_32 (R187): Scalar load of a scratchpad word. -/
  | sld32 (d : BitVec 7) (a : BitVec 7) (b : BitVec 7)
  /-- SST_32 (R187): Scalar store of a scratchpad word. -/
  | sst32 (d : BitVec 7) (a : BitVec 7) (b : BitVec 7)
  /-- SADD64 (R186): Scalar 64-bit pair addition. -/
  | sadd64 (d : BitVec 7) (a : BitVec 7) (b : BitVec 7)
  /-- SRD (R144): Reads a special register. -/
  | srd (d : BitVec 7) (n : BitVec 14)
  /-- SWR (R145): Writes a special register. -/
  | swr (d : BitVec 7) (n : BitVec 14)
  /-- TRET (R146): Returns from a trap by restoring the frame. -/
  | tret
  /-- TINV (R147): Drops the first-stage translation of one page in the slice. -/
  | tinv (a : BitVec 7)
  /-- TINVA (R147): Drops every first-stage translation of the slice. -/
  | tinva
  /-- PINV (R147): Drops a second-stage translation and placement word of one page. -/
  | pinv (d : BitVec 7) (a : BitVec 7) (b : BitVec 7)
  /-- PINVA (R147): Drops every second-stage translation of a slice. -/
  | pinva (d : BitVec 7) (b : BitVec 7)
  /-- LAUNCH (R150): Enqueues a launch record on a queue named by a handle. -/
  | launch (d : BitVec 7) (a : BitVec 7) (b : BitVec 7)
  /-- CKPT (R151): Writes a checkpoint cast of the block and continues. -/
  | ckpt (d : BitVec 7)
  /-- KEYSET (R441): Installs a key object into a key slot. -/
  | keyset (d : BitVec 7) (a : BitVec 7) (b : BitVec 7)
  /-- KEYERASE (R444): Empties a key slot and advances its ERASES count. -/
  | keyerase (a : BitVec 7)
  /-- USTAT (R447): Writes a signed usage statement and a new session key. -/
  | ustat (d : BitVec 7) (a : BitVec 7) (b : BitVec 7)
  /-- SLNEW (R414): Creates a slice from a configuration block. -/
  | slnew (d : BitVec 7) (a : BitVec 7) (b : BitVec 7)
  /-- SLDEL (R414): Deletes a quiesced empty slice. -/
  | sldel (d : BitVec 7) (a : BitVec 7)
  /-- SLASSIGN (R414): Gives quadrants or shares to a slice by the partition protocol. -/
  | slassign (d : BitVec 7) (a : BitVec 7) (b : BitVec 7)
  /-- SLQUIESCE (R414): Quiesces a slice, or posts a pre-emption notice. -/
  | slquiesce (d : BitVec 7) (a : BitVec 7) (b : BitVec 7)
  /-- SLRESUME (R414): Makes a quiesced slice running. -/
  | slresume (d : BitVec 7) (a : BitVec 7)
  /-- SLSPLIT (R414): Passes quadrants or shares to another slice or frees them. -/
  | slsplit (d : BitVec 7) (a : BitVec 7) (b : BitVec 7)
  /-- SLFUSE (R414): Moves all of one slice's quadrants into another. -/
  | slfuse (d : BitVec 7) (a : BitVec 7)
  /-- SLWAYS (R414): Writes an owner's L2 way mask in one or all cache slices. -/
  | slways (d : BitVec 7) (a : BitVec 7) (b : BitVec 7)
  /-- SLPLACE (R414): Replaces a placement-table entry of a slice. -/
  | slplace (d : BitVec 7) (a : BitVec 7) (b : BitVec 7)
  /-- SLQUOTA (R414): Writes one slice-record word or module word. -/
  | slquota (d : BitVec 7) (a : BitVec 7) (b : BitVec 7)
  /-- SLRESET (R414): Performs a slice reset. -/
  | slreset (d : BitVec 7) (a : BitVec 7)
  /-- SLSTAT (R415): Writes a snapshot of a slice's status, optionally clearing counters. -/
  | slstat (d : BitVec 7) (a : BitVec 7) (b : BitVec 7)
  /-- REP (R55): Prefix repeating the following instruction with stepped fields. -/
  | rep (n : BitVec 6) (x : Bool) (y : Bool) (z : Bool) (t : BitVec 4)
  /-- IFP (R54): Prefix guarding the following instruction by a predicate. -/
  | ifp (p : BitVec 3) (g : Bool)
  /-- LIMM (R53): Prefix supplying a 32-bit literal for an operand. -/
  | limm (t : BitVec 2)
  /-- SWIN (R52): Sets the thread's scalar window base. -/
  | swin (w : BitVec 3)
  /-- TRAP_ENTRY (R32): Enters a handler: frame write, spills and commit. -/
  | trapEntry (b : Nat) (k : Nat)
  /-- SPILL (R20): The spill engine packs one register position into the spill area. -/
  | spill (b : Nat) (k : Nat)
  /-- FILL (R21): The spill engine rebuilds one register position from the spill area. -/
  | fill (b : Nat) (k : Nat)
  /-- DIVIDE_COMPLETION (R107): An iterative divide writes its result at completion. -/
  | divideCompletion (b : Nat) (k : Nat)
  /-- LOAD_DATA_RETURN (R155): Returned load data are written to their destination registers. -/
  | loadDataReturn (b : Nat) (k : Nat)
  /-- ACTIVE_SET_SWAP (R164): A gang leaves the active set and the longest-waiting ready gang enters. -/
  | activeSetSwap (core : Nat)
  /-- REFORM_BIN_RELEASE (R161): A REFORM bin releases a gang when full, aged or closed. -/
  | reformBinRelease (core : Nat) (bin : Nat)
  /-- SIDE_LOG_RETRY (R250): The oldest side-log entry is retried on invalidation or every 4,096 clocks. -/
  | sideLogRetry (core : Nat)
  /-- SCRUB (R228): A memory controller scrubs one line every 4,096 clocks. -/
  | scrub (line : Nat)
  /-- RESTRIPE_LINE_MOVE (R245): The chisel engine moves one locked line to its new placement. -/
  | restripeLineMove (b : Nat) (i : Nat)
  /-- COMMAND_START (R299): A command in the window starts once its start conditions hold. -/
  | commandStart (b : Nat) (i : Nat)
  /-- COMMAND_RETIRE (R300): A command retires with a status. -/
  | commandRetire (b : Nat) (i : Nat)
  /-- MIGRATION (R317): An eligible matrix command migrates to a helper engine. -/
  | migration (b : Nat) (i : Nat) (core : Nat)
  /-- LEASE_LAPSE (R419): A lease ends when its metered limit is reached. -/
  | leaseLapse (sl : Nat)
  /-- OVERFLOW_DRAIN (R337): An overflow region drains a record into the niche as a slot frees. -/
  | overflowDrain (b : Nat) (i : Nat)
  /-- NICHE_TIMER_EXPIRY (R335): The oldest pending record has waited TIMER clocks and a partial batch launches. -/
  | nicheTimerExpiry (launch : Nat) (node : Nat)
  /-- TCB_SUBMIT_RETRY (R342): The work-graph unit retries a full queue every 4,096 clocks. -/
  | tcbSubmitRetry (owner : Nat) (addr : Nat)
  /-- LAUNCH_COMPLETION (R343): A launch completes and its task control block retires. -/
  | launchCompletion (launch : Nat)
  /-- BLOCK_RETIRE (R139): A block retires after its last thread exits and its commands retire. -/
  | blockRetire (b : Nat)
  /-- PREEMPTION_REQUEST (R377): A pre-emption request halts every gang of the named blocks. -/
  | preemptionRequest (blks : List Nat) (kind : Nat)
  /-- CAST_WRITE (R379): The halted block's cast is written and becomes valid. -/
  | castWrite (b : Nat)
  /-- RESTORE (R386): A cast is read back and the block resumes. -/
  | restore (b : Nat) (core : Nat)
  /-- HANG (R375): A block without progress for HANGLIMIT clocks raises HANG in its waiters. -/
  | hang (b : Nat)
  /-- PREEMPTION_NOTICE (R388): A notice triggers a checkpoint of the slice's running blocks. -/
  | preemptionNotice (sl : Nat) (mask : Nat) (time : Nat)
  /-- NOTICE_TIME_REACHED (R388): At the notice time the blocks are pre-empted into the save area. -/
  | noticeTimeReached (sl : Nat)
  /-- QUANTUM_EXPIRY (R399): A time-slice quantum ends and the quadrant switches function. -/
  | quantumExpiry (quad : Nat)
  /-- NOTIFY_WRITE (R391): A host write to a notify register advances or is refused. -/
  | notifyWrite (port : Nat) (vf : Nat) (q : Nat) (v : BitVec 32)
  /-- ADMISSION (R393): The command processor admits a queue head into the ready set. -/
  | admission (sl : Nat)
  /-- DISPATCH_DECISION (R395): The dispatcher makes one placement decision. -/
  | dispatchDecision (sl : Nat)
  /-- FUNCTION_LEVEL_RESET (R456): A host FLR of a VF resets its slice in ordered steps. -/
  | functionLevelReset (port : Nat) (vf : Nat)
  /-- PF_FUNCTION_LEVEL_RESET (R459): A PF FLR resets every VF on its port and disables the control queue. -/
  | pfFunctionLevelReset (port : Nat)
  /-- CONVENTIONAL_RESET (R460): A link reset of a host port resets the port or restarts the module. -/
  | conventionalReset (port : Nat)
  /-- VF_ENABLE_WRITE (R429): The host sets NumVFs or VF Enable at a port. -/
  | vfEnableWrite (port : Nat) (num : Nat) (en : Bool)
  /-- BAR2_ACCESS (R431): A host access to guest-physical memory through VF BAR 2. -/
  | bar2Access (port : Nat) (vf : Nat) (off : Nat) (wr : Bool) (data : List (BitVec 8))
  /-- CQTAIL_WRITE (R432): A host write to the control-queue notify is accepted or refused. -/
  | cqtailWrite (port : Nat) (v : BitVec 32)
  /-- CONTROL_KERNEL_START (R433): The armature starts the next control kernel block from a control queue. -/
  | controlKernelStart
  /-- REGISTER_WRITE (R7): A write to a host-visible register without behaviour of its own. -/
  | registerWrite (port : Nat) (off : Nat) (v : BitVec 64)
  /-- MAILBOX_WRITE_SLOT_A (R453): MBCMD 1 writes a checked image into firmware slot A. -/
  | mailboxWriteSlotA (port : Nat)
  /-- MAILBOX_WRITE_SLOT_B (R453): MBCMD 2 writes a checked image into firmware slot B. -/
  | mailboxWriteSlotB (port : Nat)
  /-- MAILBOX_RESTART_BOOT (R453): MBCMD 3 restarts boot at image selection. -/
  | mailboxRestartBoot (port : Nat)
  /-- MAILBOX_DONE (R453): A mailbox command finishes and sets MBSTAT. -/
  | mailboxDone (port : Nat)
  /-- POWER_UP (R452): The module boots through its ordered steps. -/
  | powerUp
  /-- QUADRANT_CONTROLLER_FAILURE (R455): A controller returning no permit for 2^24 clocks is failed and removed. -/
  | quadrantControllerFailure (quad : Nat)
  /-- ARMATURE_STOP (R455): The armature core stops and all work ends. -/
  | armatureStop
  /-- KEY_LAPSE (R444): The secure clock reaches a share's expiry and the slot lapses. -/
  | keyLapse (slot : Nat)
  /-- LINK_TRAINING (R450): A device link trains and agrees new keys. -/
  | linkTraining (link : Nat) (verified : Bool)
  /-- LINK_DATA_FLIT (R428): A data flit is received and checked; `head` is its first four bytes, SEQ and ACK (R427). -/
  | linkDataFlit (link : Nat) (head : Nat) (gen : Nat) (crcOk : Bool) (tagOk : Bool)
  /-- LINK_IDLE_FLIT (R427): An idle flit is received. -/
  | linkIdleFlit (link : Nat) (ack : Nat)
  /-- LINK_REPLAY_REQUEST (R428): A replay request makes the sender replay from its buffer. -/
  | linkReplayRequest (link : Nat) (seq : Nat)
  /-- LINK_REKEY_MARKER (R428): A rekey marker switches the key generation. -/
  | linkRekeyMarker (link : Nat) (gen : Nat)
  /-- LINK_REKEY (R450): Firmware rekeys a link direction after 2^36 flits. -/
  | linkRekey (link : Nat)
  /-- LINK_OLD_GENERATION_EXPIRY (R428): The old generation stops being accepted 4,096 clocks after a marker. -/
  | linkOldGenerationExpiry (link : Nat)
  /-- DIE_PORT_REPLAY (R434): A die-port CRC failure is replayed, or the port goes down after 16. -/
  | diePortReplay (pair : Nat) (ok : Bool)
  /-- INLET_OVERTEMPERATURE (R461): Inlet above 45 C makes firmware lower the token pool. -/
  | inletOvertemperature (pool : Nat)
  /-- DIE_OVERTEMPERATURE (R461): A 105 C die reading stops the module. -/
  | dieOvertemperature (die : Nat)
  /-- COMMAND_CURSOR_ADVANCE (R366): A running engine command advances its cursor by one unit: an MMA row, a 512-byte boundary, a SCATTER element, a Caliper pair with any record it emits, or an EMIT record. -/
  | commandCursorAdvance (b : Nat) (i : Nat)
  /-- ACCESS_PERFORMED (R258): An issued access is performed at its bank, home or controller, so a load becomes bound or a store or atomic becomes performed. -/
  | accessPerformed (b : Nat) (k : Nat)
  /-- POWER_DOWN (R445): The module loses its supply, ending every lease, session key and slot content. -/
  | powerDown
  /-- SOFT_ERROR (R228): Stored bits change through a soft error or wear in a checked structure. -/
  | softError (struct : Nat) (loc : Nat) (bits : Nat)
  /-- DEVICE_LINK_DOWN (R450): A device link loses its partner or its lanes from outside and must retrain. -/
  | deviceLinkDown (link : Nat)
  /-- INLET_TEMPERATURE_RECOVERY (R461): The coolant inlet falls below 43 C, and firmware stops lowering POOL. -/
  | inletTemperatureRecovery
deriving DecidableEq, Repr

end Sys2Proof
end

