-- ==== Sys2Proof/WellFormed.lean ====
section
/-! DEFINITION. What a field of an instruction word must satisfy beyond its width (R38, R41, R46, R47, R50, R57, R144):
a well-formed instruction is one that R57 does not find illegal. Steps that no word encodes are well-formed. -/

namespace Sys2Proof

/-- Why R57 finds an assigned word illegal. -/
inductive Defect where
  /-- R38, R190, R392: a scalar pair field is odd. -/
  | oddPair
  /-- R122: HCMP2 or BCMP2 names an odd predicate. -/
  | oddPredicate
  /-- R57: a field value outside the limits its form states. -/
  | fieldLimit
  /-- R47: a predecessor from 0 to 62 equals the command's own ID. -/
  | ownPredecessor
  /-- R144: a special-register number that the table does not assign. -/
  | noSuchRegister
  /-- R26, R144: SWR to a number that is unassigned or marked "—". -/
  | readOnlyRegister
deriving DecidableEq, Repr

/-- R144: the assigned special-register numbers. -/
def srAssigned (n : Nat) : Bool :=
  n ≤ 0x006 || n == 0x010 || n == 0x011 || n == 0x020 || n == 0x021 || (0x028 ≤ n && n ≤ 0x02F) ||
  n == 0x030 || n == 0x040 || (0x100 ≤ n && n ≤ 0x105)

/-- R144: the special registers that SWR may name. -/
def srWritable (n : Nat) : Bool := n == 0x010 || n == 0x011 || (0x100 ≤ n && n ≤ 0x105)

/-- `d` when the condition holds. -/
def when (c : Bool) (d : Defect) : Option Defect := if c then some d else none

/-- R38: a register field with an odd value. -/
def odd (n : BitVec 7) : Bool := n.toNat % 2 == 1

/-- R47: predecessor field `p` names the command's own ID (63 names none). -/
def ownPred (id p : BitVec 6) : Bool := p.toNat != 63 && p == id

/-- What R57 finds wrong with an instruction word on its own, if anything. -/
def Instr.defect : Instr → Option Defect
  | .iadd64 _ _ b sb => when (sb && odd b) .oddPair
  | .isub64 _ _ b sb => when (sb && odd b) .oddPair
  | .icmp64 _ _ _ b sb => when (sb && odd b) .oddPair
  | .pdep64 _ _ b sb => when (sb && odd b) .oddPair
  | .pext64 _ _ b sb => when (sb && odd b) .oddPair
  | .bperm _ _ b sb => when (sb && odd b) .oddPair
  | .bmm8 _ _ b sb => when (sb && odd b) .oddPair
  | .bmm8t _ _ b sb => when (sb && odd b) .oddPair
  | .dadd _ _ b sb _ => when (sb && odd b) .oddPair
  | .dmul _ _ b sb _ => when (sb && odd b) .oddPair
  | .dfma _ _ b sb _ => when (sb && odd b) .oddPair
  | .dsub _ _ b sb _ => when (sb && odd b) .oddPair
  | .dmin _ _ b sb => when (sb && odd b) .oddPair
  | .dmax _ _ b sb => when (sb && odd b) .oddPair
  | .dminnm _ _ b sb => when (sb && odd b) .oddPair
  | .dmaxnm _ _ b sb => when (sb && odd b) .oddPair
  | .dcmp _ _ _ b sb => when (sb && odd b) .oddPair
  | .hcmp2 _ p _ _ _ => when (p.toNat % 2 == 1) .oddPredicate
  | .bcmp2 _ p _ _ _ => when (p.toNat % 2 == 1) .oddPredicate
  | .mxscale _ _ f => when (f.toNat == 3) .fieldLimit
  | .atomSp _ _ _ q => when (q.toNat > 10) .fieldLimit
  | .sld _ _ _ w => when (w.toNat > 4) .fieldLimit
  | .sst _ _ _ w => when (w.toNat > 4) .fieldLimit
  | .nld _ _ _ w => when (w.toNat > 4) .fieldLimit
  | .nst _ _ _ w => when (w.toNat > 4) .fieldLimit
  | .atomNb _ _ _ q => when (q.toNat > 10) .fieldLimit
  | .atomRec _ _ _ q => when (q.toNat > 10) .fieldLimit
  | .atom64 _ _ _ q => when (q.toNat > 10) .fieldLimit
  | .sample _ _ k => when (k.toNat == 31) .fieldLimit
  | .call v _ => when (v.toNat == 0) .fieldLimit
  | .calli _ b => when (b.toNat == 0) .fieldLimit
  | .routePick _ _ b => when (odd b) .oddPair
  | .routeRot _ _ b => when (odd b) .oddPair
  | .routeShift _ _ b => when (odd b) .oddPair
  | .routeFlip _ _ b => when (odd b) .oddPair
  | .pollOr _ _ b => when (odd b) .oddPair
  | .pollAnd _ _ b => when (odd b) .oddPair
  | .pollSame _ _ b => when (odd b) .oddPair
  | .pgather _ _ b => when (odd b) .oddPair
  | .reduxAdd _ _ b => when (odd b) .oddPair
  | .reduxMin _ _ b => when (odd b) .oddPair
  | .reduxMax _ _ b => when (odd b) .oddPair
  | .reduxMinu _ _ b => when (odd b) .oddPair
  | .reduxMaxu _ _ b => when (odd b) .oddPair
  | .reduxAnd _ _ b => when (odd b) .oddPair
  | .reduxOr _ _ b => when (odd b) .oddPair
  | .reduxXor _ _ b => when (odd b) .oddPair
  | .reduxFadd _ _ b => when (odd b) .oddPair
  | .reduxFmin _ _ b => when (odd b) .oddPair
  | .reduxFmax _ _ b => when (odd b) .oddPair
  | .scanAdd _ _ b => when (odd b) .oddPair
  | .scanFadd _ _ b => when (odd b) .oddPair
  | .barinit a _ => when (odd a) .oddPair
  | .bararv _ a => when (odd a) .oddPair
  | .barwait a _ => when (odd a) .oddPair
  | .barsync a => when (odd a) .oddPair
  | .waitseq _ e => when (e.toNat > 5) .fieldLimit
  | .qwaitDone _ a _ => when (odd a) .oddPair
  | .qwaitTake _ a _ => when (odd a) .oddPair
  | .tstat _ t => when (t.toNat / 8 == 1) .fieldLimit
  | .twait t => when (t.toNat / 8 == 1) .fieldLimit
  | .bload id p q _ => when (ownPred id p || ownPred id q) .ownPredecessor
  | .mma id p q _ => when (ownPred id p || ownPred id q) .ownPredecessor
  | .mmas id p q _ => when (ownPred id p || ownPred id q) .ownPredecessor
  | .tzero id p q _ => when (ownPred id p || ownPred id q) .ownPredecessor
  | .tdrain id p q _ => when (ownPred id p || ownPred id q) .ownPredecessor
  | .tfill id p q _ => when (ownPred id p || ownPred id q) .ownPredecessor
  | .xtrav id p q _ => when (ownPred id p || ownPred id q) .ownPredecessor
  | .xtravRes id p q _ => when (ownPred id p || ownPred id q) .ownPredecessor
  | .copy id p q _ => when (ownPred id p || ownPred id q) .ownPredecessor
  | .scatter id p q _ => when (ownPred id p || ownPred id q) .ownPredecessor
  | .restripe id p q _ => when (ownPred id p || ownPred id q) .ownPredecessor
  | .coll id p q _ => when (ownPred id p || ownPred id q) .ownPredecessor
  | .enc id p q _ => when (ownPred id p || ownPred id q) .ownPredecessor
  | .emit id p q _ => when (ownPred id p || ownPred id q) .ownPredecessor
  | .ndone id p q _ => when (ownPred id p || ownPred id q) .ownPredecessor
  | .tcbarm id p q _ => when (ownPred id p || ownPred id q) .ownPredecessor
  | .tcbret id p q _ => when (ownPred id p || ownPred id q) .ownPredecessor
  | .sadd64 d a b => when (odd d || odd a || odd b) .oddPair
  | .srd _ n => when (!srAssigned n.toNat) .noSuchRegister
  | .swr _ n => when (!srWritable n.toNat) .readOnlyRegister
  | .limm t => when (t.toNat == 3) .fieldLimit
  | .swin w => when (w.toNat > 4) .fieldLimit
  | _ => none

/-- R57: the instruction is one the device accepts. -/
abbrev Instr.WellFormed (i : Instr) : Prop := i.defect = none

end Sys2Proof
end

