-- ==== Sys2Proof/Decode.lean ====
section
/-! DEFINITION. Reading instruction words (R36 to R50) and writing them. `decodeWord` is total on any 32 bits and refuses by name
(R57); `encode` lays the same fields out again, so the two can be held against each other. Also what the prefix words may do to a
word: the register fields a REP may step (R55) and the operands a LIMM may replace (R53). -/

namespace Sys2Proof

/-- Why a word is no instruction (R57). -/
inductive DecodeError where
  /-- An unassigned class or operation of R49 or R50. -/
  | unassigned
  /-- A field or bit that the form does not use is nonzero. -/
  | nonzeroField
  /-- An assigned word with a field value that R57 refuses. -/
  | defect (d : Defect)
deriving DecidableEq, Repr

/-- R5: the `width` bits of `w` from bit `lo` up. -/
def fld (w width lo : Nat) : Nat := w / 2 ^ lo % 2 ^ width

/-- R5: bit `lo` of `w`. -/
def bit (w lo : Nat) : Bool := fld w 1 lo == 1

/-- A decoded word or the name of what is wrong with it. -/
abbrev Decoded := Except DecodeError Instr

/-- Words of class 0x0 (R49). -/
noncomputable def decode0 (w : Nat) : Decoded :=
  match fld w 6 0 with
  | 1 => .ok (.iadd (BitVec.ofNat 7 (fld w 7 21)) (BitVec.ofNat 7 (fld w 7 14)) (BitVec.ofNat 7 (fld w 7 7)) (bit w 6))
  | 2 => .ok (.isub (BitVec.ofNat 7 (fld w 7 21)) (BitVec.ofNat 7 (fld w 7 14)) (BitVec.ofNat 7 (fld w 7 7)) (bit w 6))
  | 3 => .ok (.imul (BitVec.ofNat 7 (fld w 7 21)) (BitVec.ofNat 7 (fld w 7 14)) (BitVec.ofNat 7 (fld w 7 7)) (bit w 6))
  | 4 => .ok (.imulhi (BitVec.ofNat 7 (fld w 7 21)) (BitVec.ofNat 7 (fld w 7 14)) (BitVec.ofNat 7 (fld w 7 7)) (bit w 6))
  | 5 => .ok (.imulhiu (BitVec.ofNat 7 (fld w 7 21)) (BitVec.ofNat 7 (fld w 7 14)) (BitVec.ofNat 7 (fld w 7 7)) (bit w 6))
  | 6 => .ok (.imad (BitVec.ofNat 7 (fld w 7 21)) (BitVec.ofNat 7 (fld w 7 14)) (BitVec.ofNat 7 (fld w 7 7)) (bit w 6))
  | 7 => if fld w 8 6 == 0 then .ok (.iabs (BitVec.ofNat 7 (fld w 7 21)) (BitVec.ofNat 7 (fld w 7 14))) else .error .nonzeroField
  | 8 => .ok (.idiv (BitVec.ofNat 7 (fld w 7 21)) (BitVec.ofNat 7 (fld w 7 14)) (BitVec.ofNat 7 (fld w 7 7)) (bit w 6))
  | 9 => .ok (.idivu (BitVec.ofNat 7 (fld w 7 21)) (BitVec.ofNat 7 (fld w 7 14)) (BitVec.ofNat 7 (fld w 7 7)) (bit w 6))
  | 10 => .ok (.irem (BitVec.ofNat 7 (fld w 7 21)) (BitVec.ofNat 7 (fld w 7 14)) (BitVec.ofNat 7 (fld w 7 7)) (bit w 6))
  | 11 => .ok (.iremu (BitVec.ofNat 7 (fld w 7 21)) (BitVec.ofNat 7 (fld w 7 14)) (BitVec.ofNat 7 (fld w 7 7)) (bit w 6))
  | 12 => .ok (.imin (BitVec.ofNat 7 (fld w 7 21)) (BitVec.ofNat 7 (fld w 7 14)) (BitVec.ofNat 7 (fld w 7 7)) (bit w 6))
  | 13 => .ok (.imax (BitVec.ofNat 7 (fld w 7 21)) (BitVec.ofNat 7 (fld w 7 14)) (BitVec.ofNat 7 (fld w 7 7)) (bit w 6))
  | 14 => .ok (.iminu (BitVec.ofNat 7 (fld w 7 21)) (BitVec.ofNat 7 (fld w 7 14)) (BitVec.ofNat 7 (fld w 7 7)) (bit w 6))
  | 15 => .ok (.imaxu (BitVec.ofNat 7 (fld w 7 21)) (BitVec.ofNat 7 (fld w 7 14)) (BitVec.ofNat 7 (fld w 7 7)) (bit w 6))
  | 16 => .ok (.iadds (BitVec.ofNat 7 (fld w 7 21)) (BitVec.ofNat 7 (fld w 7 14)) (BitVec.ofNat 7 (fld w 7 7)) (bit w 6))
  | 17 => .ok (.isubs (BitVec.ofNat 7 (fld w 7 21)) (BitVec.ofNat 7 (fld w 7 14)) (BitVec.ofNat 7 (fld w 7 7)) (bit w 6))
  | 18 => .ok (.iaddus (BitVec.ofNat 7 (fld w 7 21)) (BitVec.ofNat 7 (fld w 7 14)) (BitVec.ofNat 7 (fld w 7 7)) (bit w 6))
  | 19 => .ok (.isubus (BitVec.ofNat 7 (fld w 7 21)) (BitVec.ofNat 7 (fld w 7 14)) (BitVec.ofNat 7 (fld w 7 7)) (bit w 6))
  | 20 => .ok (.iadd64 (BitVec.ofNat 7 (fld w 7 21)) (BitVec.ofNat 7 (fld w 7 14)) (BitVec.ofNat 7 (fld w 7 7)) (bit w 6))
  | 21 => .ok (.isub64 (BitVec.ofNat 7 (fld w 7 21)) (BitVec.ofNat 7 (fld w 7 14)) (BitVec.ofNat 7 (fld w 7 7)) (bit w 6))
  | 22 => .ok (.imulw (BitVec.ofNat 7 (fld w 7 21)) (BitVec.ofNat 7 (fld w 7 14)) (BitVec.ofNat 7 (fld w 7 7)) (bit w 6))
  | 23 => .ok (.imulwu (BitVec.ofNat 7 (fld w 7 21)) (BitVec.ofNat 7 (fld w 7 14)) (BitVec.ofNat 7 (fld w 7 7)) (bit w 6))
  | 24 => if fld w 1 24 == 0 then .ok (.icmp (BitVec.ofNat 3 (fld w 3 25)) (BitVec.ofNat 3 (fld w 3 21)) (BitVec.ofNat 7 (fld w 7 14)) (BitVec.ofNat 7 (fld w 7 7)) (bit w 6)) else .error .nonzeroField
  | 25 => if fld w 1 24 == 0 then .ok (.icmp64 (BitVec.ofNat 3 (fld w 3 25)) (BitVec.ofNat 3 (fld w 3 21)) (BitVec.ofNat 7 (fld w 7 14)) (BitVec.ofNat 7 (fld w 7 7)) (bit w 6)) else .error .nonzeroField
  | 28 => .ok (.iaddsh1 (BitVec.ofNat 7 (fld w 7 21)) (BitVec.ofNat 7 (fld w 7 14)) (BitVec.ofNat 7 (fld w 7 7)) (bit w 6))
  | 29 => .ok (.iaddsh2 (BitVec.ofNat 7 (fld w 7 21)) (BitVec.ofNat 7 (fld w 7 14)) (BitVec.ofNat 7 (fld w 7 7)) (bit w 6))
  | 30 => .ok (.iaddsh3 (BitVec.ofNat 7 (fld w 7 21)) (BitVec.ofNat 7 (fld w 7 14)) (BitVec.ofNat 7 (fld w 7 7)) (bit w 6))
  | 31 => .ok (.iaddsh4 (BitVec.ofNat 7 (fld w 7 21)) (BitVec.ofNat 7 (fld w 7 14)) (BitVec.ofNat 7 (fld w 7 7)) (bit w 6))
  | 32 | 33 | 34 | 35 | 36 | 37 | 38 | 39 => .ok (.sel (BitVec.ofNat 7 (fld w 7 21)) (BitVec.ofNat 7 (fld w 7 14)) (BitVec.ofNat 7 (fld w 7 7)) (bit w 6) (BitVec.ofNat 3 (fld w 3 0)))
  | 40 => if fld w 8 6 == 0 then .ok (.mov (BitVec.ofNat 7 (fld w 7 21)) (BitVec.ofNat 7 (fld w 7 14))) else .error .nonzeroField
  | 41 => if fld w 8 6 == 0 then .ok (.movri (BitVec.ofNat 7 (fld w 7 21)) (BitVec.ofNat 7 (fld w 7 14))) else .error .nonzeroField
  | 42 => if fld w 7 21 == 0 then .ok (.movwi (BitVec.ofNat 7 (fld w 7 14)) (BitVec.ofNat 7 (fld w 7 7)) (bit w 6)) else .error .nonzeroField
  | 43 => if fld w 8 6 == 0 then .ok (.sext8 (BitVec.ofNat 7 (fld w 7 21)) (BitVec.ofNat 7 (fld w 7 14))) else .error .nonzeroField
  | 44 => if fld w 8 6 == 0 then .ok (.sext16 (BitVec.ofNat 7 (fld w 7 21)) (BitVec.ofNat 7 (fld w 7 14))) else .error .nonzeroField
  | _ => .error .unassigned

/-- R42: op3 = 6, the shift kind in imm11[10:8]. -/
noncomputable def decodeShift (w : Nat) : Decoded :=
  match fld w 3 8 with
  | 0 => if fld w 3 5 == 0 then .ok (.shli (BitVec.ofNat 7 (fld w 7 21)) (BitVec.ofNat 7 (fld w 7 14)) (BitVec.ofNat 5 (fld w 5 0))) else .error .nonzeroField
  | 1 => if fld w 3 5 == 0 then .ok (.shri (BitVec.ofNat 7 (fld w 7 21)) (BitVec.ofNat 7 (fld w 7 14)) (BitVec.ofNat 5 (fld w 5 0))) else .error .nonzeroField
  | 2 => if fld w 3 5 == 0 then .ok (.sari (BitVec.ofNat 7 (fld w 7 21)) (BitVec.ofNat 7 (fld w 7 14)) (BitVec.ofNat 5 (fld w 5 0))) else .error .nonzeroField
  | 3 => if fld w 3 5 == 0 then .ok (.roli (BitVec.ofNat 7 (fld w 7 21)) (BitVec.ofNat 7 (fld w 7 14)) (BitVec.ofNat 5 (fld w 5 0))) else .error .nonzeroField
  | 4 => if fld w 3 5 == 0 then .ok (.rori (BitVec.ofNat 7 (fld w 7 21)) (BitVec.ofNat 7 (fld w 7 14)) (BitVec.ofNat 5 (fld w 5 0))) else .error .nonzeroField
  | _ => .error .unassigned

/-- Words of class 0x1 (R49). -/
noncomputable def decode1 (w : Nat) : Decoded :=
  match fld w 3 11 with
  | 0 => .ok (.iaddi (BitVec.ofNat 7 (fld w 7 21)) (BitVec.ofNat 7 (fld w 7 14)) (BitVec.ofNat 11 (fld w 11 0)))
  | 1 => .ok (.imuli (BitVec.ofNat 7 (fld w 7 21)) (BitVec.ofNat 7 (fld w 7 14)) (BitVec.ofNat 11 (fld w 11 0)))
  | 2 => .ok (.andi (BitVec.ofNat 7 (fld w 7 21)) (BitVec.ofNat 7 (fld w 7 14)) (BitVec.ofNat 11 (fld w 11 0)))
  | 3 => .ok (.ori (BitVec.ofNat 7 (fld w 7 21)) (BitVec.ofNat 7 (fld w 7 14)) (BitVec.ofNat 11 (fld w 11 0)))
  | 4 => .ok (.xori (BitVec.ofNat 7 (fld w 7 21)) (BitVec.ofNat 7 (fld w 7 14)) (BitVec.ofNat 11 (fld w 11 0)))
  | 5 => if fld w 1 24 == 0 then .ok (.icmpi (BitVec.ofNat 3 (fld w 3 25)) (BitVec.ofNat 3 (fld w 3 21)) (BitVec.ofNat 7 (fld w 7 14)) (BitVec.ofNat 11 (fld w 11 0))) else .error .nonzeroField
  | 7 => .ok (.movi (BitVec.ofNat 7 (fld w 7 21)) (BitVec.ofNat 18 (fld w 7 14 * 2048 + fld w 11 0)))
  | 6 => decodeShift w
  | _ => .error .unassigned

/-- Words of class 0x2 (R49). -/
noncomputable def decode2 (w : Nat) : Decoded :=
  match fld w 6 0 with
  | 0 => .ok (.and (BitVec.ofNat 7 (fld w 7 21)) (BitVec.ofNat 7 (fld w 7 14)) (BitVec.ofNat 7 (fld w 7 7)) (bit w 6))
  | 1 => .ok (.or (BitVec.ofNat 7 (fld w 7 21)) (BitVec.ofNat 7 (fld w 7 14)) (BitVec.ofNat 7 (fld w 7 7)) (bit w 6))
  | 2 => .ok (.xor (BitVec.ofNat 7 (fld w 7 21)) (BitVec.ofNat 7 (fld w 7 14)) (BitVec.ofNat 7 (fld w 7 7)) (bit w 6))
  | 3 => .ok (.andn (BitVec.ofNat 7 (fld w 7 21)) (BitVec.ofNat 7 (fld w 7 14)) (BitVec.ofNat 7 (fld w 7 7)) (bit w 6))
  | 4 => .ok (.orn (BitVec.ofNat 7 (fld w 7 21)) (BitVec.ofNat 7 (fld w 7 14)) (BitVec.ofNat 7 (fld w 7 7)) (bit w 6))
  | 5 => .ok (.xnor (BitVec.ofNat 7 (fld w 7 21)) (BitVec.ofNat 7 (fld w 7 14)) (BitVec.ofNat 7 (fld w 7 7)) (bit w 6))
  | 6 => if fld w 8 6 == 0 then .ok (.not (BitVec.ofNat 7 (fld w 7 21)) (BitVec.ofNat 7 (fld w 7 14))) else .error .nonzeroField
  | 8 => .ok (.shl (BitVec.ofNat 7 (fld w 7 21)) (BitVec.ofNat 7 (fld w 7 14)) (BitVec.ofNat 7 (fld w 7 7)) (bit w 6))
  | 9 => .ok (.shr (BitVec.ofNat 7 (fld w 7 21)) (BitVec.ofNat 7 (fld w 7 14)) (BitVec.ofNat 7 (fld w 7 7)) (bit w 6))
  | 10 => .ok (.sar (BitVec.ofNat 7 (fld w 7 21)) (BitVec.ofNat 7 (fld w 7 14)) (BitVec.ofNat 7 (fld w 7 7)) (bit w 6))
  | 11 => .ok (.rol (BitVec.ofNat 7 (fld w 7 21)) (BitVec.ofNat 7 (fld w 7 14)) (BitVec.ofNat 7 (fld w 7 7)) (bit w 6))
  | 12 => .ok (.ror (BitVec.ofNat 7 (fld w 7 21)) (BitVec.ofNat 7 (fld w 7 14)) (BitVec.ofNat 7 (fld w 7 7)) (bit w 6))
  | 13 => .ok (.shl64 (BitVec.ofNat 7 (fld w 7 21)) (BitVec.ofNat 7 (fld w 7 14)) (BitVec.ofNat 7 (fld w 7 7)) (bit w 6))
  | 14 => .ok (.shr64 (BitVec.ofNat 7 (fld w 7 21)) (BitVec.ofNat 7 (fld w 7 14)) (BitVec.ofNat 7 (fld w 7 7)) (bit w 6))
  | 15 => .ok (.sar64 (BitVec.ofNat 7 (fld w 7 21)) (BitVec.ofNat 7 (fld w 7 14)) (BitVec.ofNat 7 (fld w 7 7)) (bit w 6))
  | 16 => if fld w 8 6 == 0 then .ok (.clz (BitVec.ofNat 7 (fld w 7 21)) (BitVec.ofNat 7 (fld w 7 14))) else .error .nonzeroField
  | 17 => if fld w 8 6 == 0 then .ok (.ctz (BitVec.ofNat 7 (fld w 7 21)) (BitVec.ofNat 7 (fld w 7 14))) else .error .nonzeroField
  | 18 => if fld w 8 6 == 0 then .ok (.popc (BitVec.ofNat 7 (fld w 7 21)) (BitVec.ofNat 7 (fld w 7 14))) else .error .nonzeroField
  | 19 => if fld w 8 6 == 0 then .ok (.brev (BitVec.ofNat 7 (fld w 7 21)) (BitVec.ofNat 7 (fld w 7 14))) else .error .nonzeroField
  | 20 => if fld w 8 6 == 0 then .ok (.clz64 (BitVec.ofNat 7 (fld w 7 21)) (BitVec.ofNat 7 (fld w 7 14))) else .error .nonzeroField
  | 21 => if fld w 8 6 == 0 then .ok (.ctz64 (BitVec.ofNat 7 (fld w 7 21)) (BitVec.ofNat 7 (fld w 7 14))) else .error .nonzeroField
  | 22 => if fld w 8 6 == 0 then .ok (.popc64 (BitVec.ofNat 7 (fld w 7 21)) (BitVec.ofNat 7 (fld w 7 14))) else .error .nonzeroField
  | 23 => if fld w 8 6 == 0 then .ok (.brev64 (BitVec.ofNat 7 (fld w 7 21)) (BitVec.ofNat 7 (fld w 7 14))) else .error .nonzeroField
  | 24 => .ok (.bfx (BitVec.ofNat 7 (fld w 7 21)) (BitVec.ofNat 7 (fld w 7 14)) (BitVec.ofNat 7 (fld w 7 7)) (bit w 6))
  | 25 => .ok (.bfxs (BitVec.ofNat 7 (fld w 7 21)) (BitVec.ofNat 7 (fld w 7 14)) (BitVec.ofNat 7 (fld w 7 7)) (bit w 6))
  | 26 => .ok (.bfi (BitVec.ofNat 7 (fld w 7 21)) (BitVec.ofNat 7 (fld w 7 14)) (BitVec.ofNat 7 (fld w 7 7)) (bit w 6))
  | 28 => .ok (.pdep (BitVec.ofNat 7 (fld w 7 21)) (BitVec.ofNat 7 (fld w 7 14)) (BitVec.ofNat 7 (fld w 7 7)) (bit w 6))
  | 29 => .ok (.pext (BitVec.ofNat 7 (fld w 7 21)) (BitVec.ofNat 7 (fld w 7 14)) (BitVec.ofNat 7 (fld w 7 7)) (bit w 6))
  | 30 => .ok (.pdep64 (BitVec.ofNat 7 (fld w 7 21)) (BitVec.ofNat 7 (fld w 7 14)) (BitVec.ofNat 7 (fld w 7 7)) (bit w 6))
  | 31 => .ok (.pext64 (BitVec.ofNat 7 (fld w 7 21)) (BitVec.ofNat 7 (fld w 7 14)) (BitVec.ofNat 7 (fld w 7 7)) (bit w 6))
  | 32 => .ok (.bperm (BitVec.ofNat 7 (fld w 7 21)) (BitVec.ofNat 7 (fld w 7 14)) (BitVec.ofNat 7 (fld w 7 7)) (bit w 6))
  | 33 => .ok (.bmm8 (BitVec.ofNat 7 (fld w 7 21)) (BitVec.ofNat 7 (fld w 7 14)) (BitVec.ofNat 7 (fld w 7 7)) (bit w 6))
  | 34 => .ok (.bmm8t (BitVec.ofNat 7 (fld w 7 21)) (BitVec.ofNat 7 (fld w 7 14)) (BitVec.ofNat 7 (fld w 7 7)) (bit w 6))
  | 40 => if fld w 1 6 == 0 && fld w 4 10 == 0 && fld w 4 17 == 0 then .ok (.plop (BitVec.ofNat 4 (fld w 4 24)) (BitVec.ofNat 3 (fld w 3 21)) (BitVec.ofNat 3 (fld w 3 14)) (BitVec.ofNat 3 (fld w 3 7))) else .error .nonzeroField
  | 41 => if fld w 15 6 == 0 then .ok (.p2v (BitVec.ofNat 7 (fld w 7 21))) else .error .nonzeroField
  | 42 => if fld w 8 6 == 0 && fld w 7 21 == 0 then .ok (.v2p (BitVec.ofNat 7 (fld w 7 14))) else .error .nonzeroField
  | _ => .error .unassigned

/-- Words of class 0x3 (R49). -/
noncomputable def decode3 (w : Nat) : Decoded :=
  match fld w 2 0 with
  | 0 => .ok (.fadd (BitVec.ofNat 7 (fld w 7 21)) (BitVec.ofNat 7 (fld w 7 14)) (BitVec.ofNat 7 (fld w 7 7)) (bit w 6) (bit w 5) (bit w 4) (BitVec.ofNat 2 (fld w 2 2)))
  | 1 => .ok (.fmul (BitVec.ofNat 7 (fld w 7 21)) (BitVec.ofNat 7 (fld w 7 14)) (BitVec.ofNat 7 (fld w 7 7)) (bit w 6) (bit w 5) (bit w 4) (BitVec.ofNat 2 (fld w 2 2)))
  | 2 => .ok (.ffma (BitVec.ofNat 7 (fld w 7 21)) (BitVec.ofNat 7 (fld w 7 14)) (BitVec.ofNat 7 (fld w 7 7)) (bit w 6) (bit w 5) (bit w 4) (BitVec.ofNat 2 (fld w 2 2)))
  | 3 => .ok (.fsub (BitVec.ofNat 7 (fld w 7 21)) (BitVec.ofNat 7 (fld w 7 14)) (BitVec.ofNat 7 (fld w 7 7)) (bit w 6) (bit w 5) (bit w 4) (BitVec.ofNat 2 (fld w 2 2)))
  | _ => .error .unassigned

/-- Words of class 0x4 (R49). -/
noncomputable def decode4 (w : Nat) : Decoded :=
  match fld w 6 0 with
  | 0 => .ok (.fmin (BitVec.ofNat 7 (fld w 7 21)) (BitVec.ofNat 7 (fld w 7 14)) (BitVec.ofNat 7 (fld w 7 7)) (bit w 6))
  | 1 => .ok (.fmax (BitVec.ofNat 7 (fld w 7 21)) (BitVec.ofNat 7 (fld w 7 14)) (BitVec.ofNat 7 (fld w 7 7)) (bit w 6))
  | 2 => .ok (.fminnm (BitVec.ofNat 7 (fld w 7 21)) (BitVec.ofNat 7 (fld w 7 14)) (BitVec.ofNat 7 (fld w 7 7)) (bit w 6))
  | 3 => .ok (.fmaxnm (BitVec.ofNat 7 (fld w 7 21)) (BitVec.ofNat 7 (fld w 7 14)) (BitVec.ofNat 7 (fld w 7 7)) (bit w 6))
  | 4 => if fld w 1 24 == 0 then .ok (.fcmp (BitVec.ofNat 3 (fld w 3 25)) (BitVec.ofNat 3 (fld w 3 21)) (BitVec.ofNat 7 (fld w 7 14)) (BitVec.ofNat 7 (fld w 7 7)) (bit w 6)) else .error .nonzeroField
  | 5 => if fld w 8 6 == 0 then .ok (.fabs (BitVec.ofNat 7 (fld w 7 21)) (BitVec.ofNat 7 (fld w 7 14))) else .error .nonzeroField
  | 6 => if fld w 8 6 == 0 then .ok (.fneg (BitVec.ofNat 7 (fld w 7 21)) (BitVec.ofNat 7 (fld w 7 14))) else .error .nonzeroField
  | 7 => .ok (.fcopysign (BitVec.ofNat 7 (fld w 7 21)) (BitVec.ofNat 7 (fld w 7 14)) (BitVec.ofNat 7 (fld w 7 7)) (bit w 6))
  | 8 => if fld w 1 6 == 0 && fld w 5 9 == 0 then .ok (.frint (BitVec.ofNat 7 (fld w 7 21)) (BitVec.ofNat 7 (fld w 7 14)) (BitVec.ofNat 2 (fld w 2 7))) else .error .nonzeroField
  | 9 => if fld w 8 6 == 0 then .ok (.fclass (BitVec.ofNat 7 (fld w 7 21)) (BitVec.ofNat 7 (fld w 7 14))) else .error .nonzeroField
  | 16 => if fld w 8 6 == 0 then .ok (.frcp (BitVec.ofNat 7 (fld w 7 21)) (BitVec.ofNat 7 (fld w 7 14))) else .error .nonzeroField
  | 17 => if fld w 8 6 == 0 then .ok (.frsq (BitVec.ofNat 7 (fld w 7 21)) (BitVec.ofNat 7 (fld w 7 14))) else .error .nonzeroField
  | 18 => if fld w 8 6 == 0 then .ok (.fexp2 (BitVec.ofNat 7 (fld w 7 21)) (BitVec.ofNat 7 (fld w 7 14))) else .error .nonzeroField
  | 19 => if fld w 8 6 == 0 then .ok (.flog2 (BitVec.ofNat 7 (fld w 7 21)) (BitVec.ofNat 7 (fld w 7 14))) else .error .nonzeroField
  | 20 => if fld w 8 6 == 0 then .ok (.fsin (BitVec.ofNat 7 (fld w 7 21)) (BitVec.ofNat 7 (fld w 7 14))) else .error .nonzeroField
  | 21 => if fld w 8 6 == 0 then .ok (.fcos (BitVec.ofNat 7 (fld w 7 21)) (BitVec.ofNat 7 (fld w 7 14))) else .error .nonzeroField
  | 24 => if fld w 1 6 == 0 && fld w 5 9 == 0 then .ok (.f2i (BitVec.ofNat 7 (fld w 7 21)) (BitVec.ofNat 7 (fld w 7 14)) (BitVec.ofNat 2 (fld w 2 7))) else .error .nonzeroField
  | 25 => if fld w 1 6 == 0 && fld w 5 9 == 0 then .ok (.f2u (BitVec.ofNat 7 (fld w 7 21)) (BitVec.ofNat 7 (fld w 7 14)) (BitVec.ofNat 2 (fld w 2 7))) else .error .nonzeroField
  | 26 => if fld w 1 6 == 0 && fld w 5 9 == 0 then .ok (.i2f (BitVec.ofNat 7 (fld w 7 21)) (BitVec.ofNat 7 (fld w 7 14)) (BitVec.ofNat 2 (fld w 2 7))) else .error .nonzeroField
  | 27 => if fld w 1 6 == 0 && fld w 5 9 == 0 then .ok (.u2f (BitVec.ofNat 7 (fld w 7 21)) (BitVec.ofNat 7 (fld w 7 14)) (BitVec.ofNat 2 (fld w 2 7))) else .error .nonzeroField
  | 28 => if fld w 1 6 == 0 && fld w 5 9 == 0 then .ok (.f2h (BitVec.ofNat 7 (fld w 7 21)) (BitVec.ofNat 7 (fld w 7 14)) (BitVec.ofNat 2 (fld w 2 7))) else .error .nonzeroField
  | 29 => if fld w 8 6 == 0 then .ok (.h2f (BitVec.ofNat 7 (fld w 7 21)) (BitVec.ofNat 7 (fld w 7 14))) else .error .nonzeroField
  | 30 => if fld w 8 6 == 0 then .ok (.f2d (BitVec.ofNat 7 (fld w 7 21)) (BitVec.ofNat 7 (fld w 7 14))) else .error .nonzeroField
  | 31 => if fld w 1 6 == 0 && fld w 5 9 == 0 then .ok (.d2f (BitVec.ofNat 7 (fld w 7 21)) (BitVec.ofNat 7 (fld w 7 14)) (BitVec.ofNat 2 (fld w 2 7))) else .error .nonzeroField
  | 32 | 33 | 34 | 35 => .ok (.dadd (BitVec.ofNat 7 (fld w 7 21)) (BitVec.ofNat 7 (fld w 7 14)) (BitVec.ofNat 7 (fld w 7 7)) (bit w 6) (BitVec.ofNat 2 (fld w 2 0)))
  | 36 | 37 | 38 | 39 => .ok (.dmul (BitVec.ofNat 7 (fld w 7 21)) (BitVec.ofNat 7 (fld w 7 14)) (BitVec.ofNat 7 (fld w 7 7)) (bit w 6) (BitVec.ofNat 2 (fld w 2 0)))
  | 40 | 41 | 42 | 43 => .ok (.dfma (BitVec.ofNat 7 (fld w 7 21)) (BitVec.ofNat 7 (fld w 7 14)) (BitVec.ofNat 7 (fld w 7 7)) (bit w 6) (BitVec.ofNat 2 (fld w 2 0)))
  | 44 | 45 | 46 | 47 => .ok (.dsub (BitVec.ofNat 7 (fld w 7 21)) (BitVec.ofNat 7 (fld w 7 14)) (BitVec.ofNat 7 (fld w 7 7)) (bit w 6) (BitVec.ofNat 2 (fld w 2 0)))
  | 48 => .ok (.dmin (BitVec.ofNat 7 (fld w 7 21)) (BitVec.ofNat 7 (fld w 7 14)) (BitVec.ofNat 7 (fld w 7 7)) (bit w 6))
  | 49 => .ok (.dmax (BitVec.ofNat 7 (fld w 7 21)) (BitVec.ofNat 7 (fld w 7 14)) (BitVec.ofNat 7 (fld w 7 7)) (bit w 6))
  | 50 => .ok (.dminnm (BitVec.ofNat 7 (fld w 7 21)) (BitVec.ofNat 7 (fld w 7 14)) (BitVec.ofNat 7 (fld w 7 7)) (bit w 6))
  | 51 => .ok (.dmaxnm (BitVec.ofNat 7 (fld w 7 21)) (BitVec.ofNat 7 (fld w 7 14)) (BitVec.ofNat 7 (fld w 7 7)) (bit w 6))
  | 52 => if fld w 1 24 == 0 then .ok (.dcmp (BitVec.ofNat 3 (fld w 3 25)) (BitVec.ofNat 3 (fld w 3 21)) (BitVec.ofNat 7 (fld w 7 14)) (BitVec.ofNat 7 (fld w 7 7)) (bit w 6)) else .error .nonzeroField
  | 53 => if fld w 1 6 == 0 && fld w 5 9 == 0 then .ok (.d2i (BitVec.ofNat 7 (fld w 7 21)) (BitVec.ofNat 7 (fld w 7 14)) (BitVec.ofNat 2 (fld w 2 7))) else .error .nonzeroField
  | 54 => if fld w 8 6 == 0 then .ok (.i2d (BitVec.ofNat 7 (fld w 7 21)) (BitVec.ofNat 7 (fld w 7 14))) else .error .nonzeroField
  | 55 => if fld w 8 6 == 0 then .ok (.dabs (BitVec.ofNat 7 (fld w 7 21)) (BitVec.ofNat 7 (fld w 7 14))) else .error .nonzeroField
  | _ => .error .unassigned

/-- Words of class 0x5 (R49). -/
noncomputable def decode5 (w : Nat) : Decoded :=
  match fld w 6 0 with
  | 0 | 1 | 2 | 3 => .ok (.hadd2 (BitVec.ofNat 7 (fld w 7 21)) (BitVec.ofNat 7 (fld w 7 14)) (BitVec.ofNat 7 (fld w 7 7)) (bit w 6) (BitVec.ofNat 2 (fld w 2 0)))
  | 4 | 5 | 6 | 7 => .ok (.hmul2 (BitVec.ofNat 7 (fld w 7 21)) (BitVec.ofNat 7 (fld w 7 14)) (BitVec.ofNat 7 (fld w 7 7)) (bit w 6) (BitVec.ofNat 2 (fld w 2 0)))
  | 8 | 9 | 10 | 11 => .ok (.hfma2 (BitVec.ofNat 7 (fld w 7 21)) (BitVec.ofNat 7 (fld w 7 14)) (BitVec.ofNat 7 (fld w 7 7)) (bit w 6) (BitVec.ofNat 2 (fld w 2 0)))
  | 12 | 13 | 14 | 15 => .ok (.hsub2 (BitVec.ofNat 7 (fld w 7 21)) (BitVec.ofNat 7 (fld w 7 14)) (BitVec.ofNat 7 (fld w 7 7)) (bit w 6) (BitVec.ofNat 2 (fld w 2 0)))
  | 16 | 17 | 18 | 19 => .ok (.badd2 (BitVec.ofNat 7 (fld w 7 21)) (BitVec.ofNat 7 (fld w 7 14)) (BitVec.ofNat 7 (fld w 7 7)) (bit w 6) (BitVec.ofNat 2 (fld w 2 0)))
  | 20 | 21 | 22 | 23 => .ok (.bmul2 (BitVec.ofNat 7 (fld w 7 21)) (BitVec.ofNat 7 (fld w 7 14)) (BitVec.ofNat 7 (fld w 7 7)) (bit w 6) (BitVec.ofNat 2 (fld w 2 0)))
  | 24 | 25 | 26 | 27 => .ok (.bfma2 (BitVec.ofNat 7 (fld w 7 21)) (BitVec.ofNat 7 (fld w 7 14)) (BitVec.ofNat 7 (fld w 7 7)) (bit w 6) (BitVec.ofNat 2 (fld w 2 0)))
  | 28 | 29 | 30 | 31 => .ok (.bsub2 (BitVec.ofNat 7 (fld w 7 21)) (BitVec.ofNat 7 (fld w 7 14)) (BitVec.ofNat 7 (fld w 7 7)) (bit w 6) (BitVec.ofNat 2 (fld w 2 0)))
  | 32 => .ok (.hmin2 (BitVec.ofNat 7 (fld w 7 21)) (BitVec.ofNat 7 (fld w 7 14)) (BitVec.ofNat 7 (fld w 7 7)) (bit w 6))
  | 33 => .ok (.hmax2 (BitVec.ofNat 7 (fld w 7 21)) (BitVec.ofNat 7 (fld w 7 14)) (BitVec.ofNat 7 (fld w 7 7)) (bit w 6))
  | 34 => .ok (.bmin2 (BitVec.ofNat 7 (fld w 7 21)) (BitVec.ofNat 7 (fld w 7 14)) (BitVec.ofNat 7 (fld w 7 7)) (bit w 6))
  | 35 => .ok (.bmax2 (BitVec.ofNat 7 (fld w 7 21)) (BitVec.ofNat 7 (fld w 7 14)) (BitVec.ofNat 7 (fld w 7 7)) (bit w 6))
  | 36 => if fld w 1 24 == 0 then .ok (.hcmp2 (BitVec.ofNat 3 (fld w 3 25)) (BitVec.ofNat 3 (fld w 3 21)) (BitVec.ofNat 7 (fld w 7 14)) (BitVec.ofNat 7 (fld w 7 7)) (bit w 6)) else .error .nonzeroField
  | 37 => if fld w 1 24 == 0 then .ok (.bcmp2 (BitVec.ofNat 3 (fld w 3 25)) (BitVec.ofNat 3 (fld w 3 21)) (BitVec.ofNat 7 (fld w 7 14)) (BitVec.ofNat 7 (fld w 7 7)) (bit w 6)) else .error .nonzeroField
  | 40 | 41 | 42 | 43 => .ok (.pkh2 (BitVec.ofNat 7 (fld w 7 21)) (BitVec.ofNat 7 (fld w 7 14)) (BitVec.ofNat 7 (fld w 7 7)) (bit w 6) (BitVec.ofNat 2 (fld w 2 0)))
  | 44 | 45 | 46 | 47 => .ok (.pkb2 (BitVec.ofNat 7 (fld w 7 21)) (BitVec.ofNat 7 (fld w 7 14)) (BitVec.ofNat 7 (fld w 7 7)) (bit w 6) (BitVec.ofNat 2 (fld w 2 0)))
  | 48 => if fld w 1 6 == 0 && fld w 6 8 == 0 then .ok (.upkh (BitVec.ofNat 7 (fld w 7 21)) (BitVec.ofNat 7 (fld w 7 14)) (bit w 7)) else .error .nonzeroField
  | 49 => if fld w 1 6 == 0 && fld w 6 8 == 0 then .ok (.upkb (BitVec.ofNat 7 (fld w 7 21)) (BitVec.ofNat 7 (fld w 7 14)) (bit w 7)) else .error .nonzeroField
  | 50 => .ok (.pke4m (BitVec.ofNat 7 (fld w 7 21)) (BitVec.ofNat 7 (fld w 7 14)) (BitVec.ofNat 7 (fld w 7 7)) (bit w 6))
  | 51 => .ok (.pke5m (BitVec.ofNat 7 (fld w 7 21)) (BitVec.ofNat 7 (fld w 7 14)) (BitVec.ofNat 7 (fld w 7 7)) (bit w 6))
  | 52 => .ok (.pkf4m (BitVec.ofNat 7 (fld w 7 21)) (BitVec.ofNat 7 (fld w 7 14)) (BitVec.ofNat 7 (fld w 7 7)) (bit w 6))
  | 53 => if fld w 1 6 == 0 && fld w 5 9 == 0 then .ok (.upke4 (BitVec.ofNat 7 (fld w 7 21)) (BitVec.ofNat 7 (fld w 7 14)) (BitVec.ofNat 2 (fld w 2 7))) else .error .nonzeroField
  | 54 => if fld w 1 6 == 0 && fld w 5 9 == 0 then .ok (.upke5 (BitVec.ofNat 7 (fld w 7 21)) (BitVec.ofNat 7 (fld w 7 14)) (BitVec.ofNat 2 (fld w 2 7))) else .error .nonzeroField
  | 55 => if fld w 1 6 == 0 && fld w 4 10 == 0 then .ok (.upkf4 (BitVec.ofNat 7 (fld w 7 21)) (BitVec.ofNat 7 (fld w 7 14)) (BitVec.ofNat 3 (fld w 3 7))) else .error .nonzeroField
  | 56 => if fld w 1 6 == 0 && fld w 5 9 == 0 then .ok (.mxscale (BitVec.ofNat 7 (fld w 7 21)) (BitVec.ofNat 7 (fld w 7 14)) (BitVec.ofNat 2 (fld w 2 7))) else .error .nonzeroField
  | 57 => .ok (.idp4 (BitVec.ofNat 7 (fld w 7 21)) (BitVec.ofNat 7 (fld w 7 14)) (BitVec.ofNat 7 (fld w 7 7)) (bit w 6))
  | 58 => .ok (.idp4u (BitVec.ofNat 7 (fld w 7 21)) (BitVec.ofNat 7 (fld w 7 14)) (BitVec.ofNat 7 (fld w 7 7)) (bit w 6))
  | _ => .error .unassigned

/-- Words of class 0x6 (R49). -/
noncomputable def decode6 (w : Nat) : Decoded :=
  match fld w 1 8 with
  | 0 => .ok (.ld (BitVec.ofNat 7 (fld w 7 21)) (BitVec.ofNat 7 (fld w 7 14)) (BitVec.ofNat 5 (fld w 5 9)) (BitVec.ofNat 2 (fld w 2 6)) (BitVec.ofNat 6 (fld w 6 0)))
  | 1 => .ok (.st (BitVec.ofNat 7 (fld w 7 21)) (BitVec.ofNat 7 (fld w 7 14)) (BitVec.ofNat 5 (fld w 5 9)) (BitVec.ofNat 2 (fld w 2 6)) (BitVec.ofNat 6 (fld w 6 0)))
  | _ => .error .unassigned

/-- Words of class 0x7 (R49). -/
noncomputable def decode7 (w : Nat) : Decoded :=
  match fld w 7 0 with
  | 0 | 1 | 2 | 3 | 4 | 5 | 6 | 7 | 8 | 9 | 10 | 11 | 12 | 13 | 14 | 15 => .ok (.atomSp (BitVec.ofNat 7 (fld w 7 21)) (BitVec.ofNat 7 (fld w 7 14)) (BitVec.ofNat 7 (fld w 7 7)) (BitVec.ofNat 4 (fld w 4 0)))
  | 16 | 17 | 18 | 19 | 20 | 21 | 22 | 23 => .ok (.sld (BitVec.ofNat 7 (fld w 7 21)) (BitVec.ofNat 7 (fld w 7 14)) (BitVec.ofNat 7 (fld w 7 7)) (BitVec.ofNat 3 (fld w 3 0)))
  | 24 | 25 | 26 | 27 | 28 | 29 | 30 | 31 => .ok (.sst (BitVec.ofNat 7 (fld w 7 21)) (BitVec.ofNat 7 (fld w 7 14)) (BitVec.ofNat 7 (fld w 7 7)) (BitVec.ofNat 3 (fld w 3 0)))
  | 32 | 33 | 34 | 35 | 36 | 37 | 38 | 39 => .ok (.nld (BitVec.ofNat 7 (fld w 7 21)) (BitVec.ofNat 7 (fld w 7 14)) (BitVec.ofNat 7 (fld w 7 7)) (BitVec.ofNat 3 (fld w 3 0)))
  | 40 | 41 | 42 | 43 | 44 | 45 | 46 | 47 => .ok (.nst (BitVec.ofNat 7 (fld w 7 21)) (BitVec.ofNat 7 (fld w 7 14)) (BitVec.ofNat 7 (fld w 7 7)) (BitVec.ofNat 3 (fld w 3 0)))
  | 48 | 49 | 50 | 51 | 52 | 53 | 54 | 55 | 56 | 57 | 58 | 59 | 60 | 61 | 62 | 63 => .ok (.atomNb (BitVec.ofNat 7 (fld w 7 21)) (BitVec.ofNat 7 (fld w 7 14)) (BitVec.ofNat 7 (fld w 7 7)) (BitVec.ofNat 4 (fld w 4 0)))
  | 64 | 65 | 66 | 67 | 68 | 69 | 70 | 71 | 72 | 73 | 74 | 75 | 76 | 77 | 78 | 79 => if fld w 2 12 == 0 then .ok (.atomRec (BitVec.ofNat 7 (fld w 7 21)) (BitVec.ofNat 7 (fld w 7 14)) (BitVec.ofNat 5 (fld w 5 7)) (BitVec.ofNat 4 (fld w 4 0))) else .error .nonzeroField
  | 80 | 81 | 82 | 83 | 84 | 85 | 86 | 87 | 88 | 89 | 90 | 91 | 92 | 93 | 94 | 95 => if fld w 2 12 == 0 then .ok (.atom64 (BitVec.ofNat 7 (fld w 7 21)) (BitVec.ofNat 7 (fld w 7 14)) (BitVec.ofNat 5 (fld w 5 7)) (BitVec.ofNat 4 (fld w 4 0))) else .error .nonzeroField
  | 96 => if fld w 2 12 == 0 then .ok (.faddx (BitVec.ofNat 7 (fld w 7 21)) (BitVec.ofNat 7 (fld w 7 14)) (BitVec.ofNat 5 (fld w 5 7))) else .error .nonzeroField
  | 97 => if fld w 2 12 == 0 then .ok (.rcrd (BitVec.ofNat 7 (fld w 7 21)) (BitVec.ofNat 7 (fld w 7 14)) (BitVec.ofNat 5 (fld w 5 7))) else .error .nonzeroField
  | 98 => if fld w 2 12 == 0 && fld w 7 21 == 0 then .ok (.rcclr (BitVec.ofNat 7 (fld w 7 14)) (BitVec.ofNat 5 (fld w 5 7))) else .error .nonzeroField
  | 112 => if fld w 2 12 == 0 && fld w 6 22 == 0 then .ok (.pref (bit w 21) (BitVec.ofNat 7 (fld w 7 14)) (BitVec.ofNat 5 (fld w 5 7))) else .error .nonzeroField
  | 113 => if fld w 2 12 == 0 && fld w 7 21 == 0 then .ok (.cwb (BitVec.ofNat 7 (fld w 7 14)) (BitVec.ofNat 5 (fld w 5 7))) else .error .nonzeroField
  | 114 => if fld w 2 12 == 0 && fld w 7 21 == 0 then .ok (.cinv (BitVec.ofNat 7 (fld w 7 14)) (BitVec.ofNat 5 (fld w 5 7))) else .error .nonzeroField
  | 116 => if fld w 2 12 == 0 then .ok (.sample (BitVec.ofNat 7 (fld w 7 21)) (BitVec.ofNat 7 (fld w 7 14)) (BitVec.ofNat 5 (fld w 5 7))) else .error .nonzeroField
  | _ => .error .unassigned

/-- Words of class 0x8 (R49). -/
noncomputable def decode8 (w : Nat) : Decoded :=
  match fld w 3 25 with
  | 0 => if fld w 3 22 == 0 then .ok (.bra (BitVec.ofNat 22 (fld w 22 0))) else .error .nonzeroField
  | 1 => .ok (.brt (BitVec.ofNat 3 (fld w 3 22)) (BitVec.ofNat 22 (fld w 22 0)))
  | 2 => .ok (.brf (BitVec.ofNat 3 (fld w 3 22)) (BitVec.ofNat 22 (fld w 22 0)))
  | 3 => .ok (.brany (BitVec.ofNat 3 (fld w 3 22)) (BitVec.ofNat 22 (fld w 22 0)))
  | 4 => .ok (.brall (BitVec.ofNat 3 (fld w 3 22)) (BitVec.ofNat 22 (fld w 22 0)))
  | _ => .error .unassigned

/-- R43, R49: class 0x9 with d = 0. -/
noncomputable def decodeFlow (w : Nat) : Decoded :=
  match fld w 7 0 with
  | 0 => if fld w 21 7 == 0 then .ok (.ret) else .error .nonzeroField
  | 1 => if fld w 7 7 == 0 && fld w 7 21 == 0 then .ok (.jmpi (BitVec.ofNat 7 (fld w 7 14))) else .error .nonzeroField
  | 2 => if fld w 7 21 == 0 then .ok (.calli (BitVec.ofNat 7 (fld w 7 14)) (BitVec.ofNat 7 (fld w 7 7))) else .error .nonzeroField
  | 3 => if fld w 21 7 == 0 then .ok (.land) else .error .nonzeroField
  | 4 => if fld w 14 14 == 0 then .ok (.frame (BitVec.ofNat 7 (fld w 7 7))) else .error .nonzeroField
  | 5 => if fld w 14 14 == 0 then .ok (.wbase (BitVec.ofNat 7 (fld w 7 7))) else .error .nonzeroField
  | 6 => if fld w 21 7 == 0 then .ok (.reform) else .error .nonzeroField
  | 7 => if fld w 21 7 == 0 then .ok (.exit) else .error .nonzeroField
  | 8 => if fld w 21 7 == 0 then .ok (.nop) else .error .nonzeroField
  | 9 => if fld w 7 21 == 0 then .ok (.trap (BitVec.ofNat 14 (fld w 14 7))) else .error .nonzeroField
  | _ => .error .unassigned

/-- Words of class 0x9 (R43, R49): with d ≠ 0 a CALL, whatever its other fields; R154's ILLEGAL_OP for TRAP with d ≠ 0 meets no word that is
a TRAP (the model's reading, log entry 106). -/
noncomputable def decode9 (w : Nat) : Decoded :=
  if fld w 7 21 == 0 then decodeFlow w else .ok (.call (BitVec.ofNat 7 (fld w 7 21)) (BitVec.ofNat 21 (fld w 21 0)))

/-- Words of class 0xA (R49). -/
noncomputable def decodeA (w : Nat) : Decoded :=
  match fld w 7 0 with
  | 0 => .ok (.routePick (BitVec.ofNat 7 (fld w 7 21)) (BitVec.ofNat 7 (fld w 7 14)) (BitVec.ofNat 7 (fld w 7 7)))
  | 1 => .ok (.routeRot (BitVec.ofNat 7 (fld w 7 21)) (BitVec.ofNat 7 (fld w 7 14)) (BitVec.ofNat 7 (fld w 7 7)))
  | 2 => .ok (.routeShift (BitVec.ofNat 7 (fld w 7 21)) (BitVec.ofNat 7 (fld w 7 14)) (BitVec.ofNat 7 (fld w 7 7)))
  | 3 => .ok (.routeFlip (BitVec.ofNat 7 (fld w 7 21)) (BitVec.ofNat 7 (fld w 7 14)) (BitVec.ofNat 7 (fld w 7 7)))
  | 4 => if fld w 4 17 == 0 && fld w 4 24 == 0 then .ok (.pollOr (BitVec.ofNat 3 (fld w 3 21)) (BitVec.ofNat 3 (fld w 3 14)) (BitVec.ofNat 7 (fld w 7 7))) else .error .nonzeroField
  | 5 => if fld w 4 17 == 0 && fld w 4 24 == 0 then .ok (.pollAnd (BitVec.ofNat 3 (fld w 3 21)) (BitVec.ofNat 3 (fld w 3 14)) (BitVec.ofNat 7 (fld w 7 7))) else .error .nonzeroField
  | 6 => if fld w 4 17 == 0 && fld w 4 24 == 0 then .ok (.pollSame (BitVec.ofNat 3 (fld w 3 21)) (BitVec.ofNat 3 (fld w 3 14)) (BitVec.ofNat 7 (fld w 7 7))) else .error .nonzeroField
  | 7 => if fld w 4 17 == 0 then .ok (.pgather (BitVec.ofNat 7 (fld w 7 21)) (BitVec.ofNat 3 (fld w 3 14)) (BitVec.ofNat 7 (fld w 7 7))) else .error .nonzeroField
  | 8 => .ok (.reduxAdd (BitVec.ofNat 7 (fld w 7 21)) (BitVec.ofNat 7 (fld w 7 14)) (BitVec.ofNat 7 (fld w 7 7)))
  | 9 => .ok (.reduxMin (BitVec.ofNat 7 (fld w 7 21)) (BitVec.ofNat 7 (fld w 7 14)) (BitVec.ofNat 7 (fld w 7 7)))
  | 10 => .ok (.reduxMax (BitVec.ofNat 7 (fld w 7 21)) (BitVec.ofNat 7 (fld w 7 14)) (BitVec.ofNat 7 (fld w 7 7)))
  | 11 => .ok (.reduxMinu (BitVec.ofNat 7 (fld w 7 21)) (BitVec.ofNat 7 (fld w 7 14)) (BitVec.ofNat 7 (fld w 7 7)))
  | 12 => .ok (.reduxMaxu (BitVec.ofNat 7 (fld w 7 21)) (BitVec.ofNat 7 (fld w 7 14)) (BitVec.ofNat 7 (fld w 7 7)))
  | 13 => .ok (.reduxAnd (BitVec.ofNat 7 (fld w 7 21)) (BitVec.ofNat 7 (fld w 7 14)) (BitVec.ofNat 7 (fld w 7 7)))
  | 14 => .ok (.reduxOr (BitVec.ofNat 7 (fld w 7 21)) (BitVec.ofNat 7 (fld w 7 14)) (BitVec.ofNat 7 (fld w 7 7)))
  | 15 => .ok (.reduxXor (BitVec.ofNat 7 (fld w 7 21)) (BitVec.ofNat 7 (fld w 7 14)) (BitVec.ofNat 7 (fld w 7 7)))
  | 16 => .ok (.reduxFadd (BitVec.ofNat 7 (fld w 7 21)) (BitVec.ofNat 7 (fld w 7 14)) (BitVec.ofNat 7 (fld w 7 7)))
  | 17 => .ok (.reduxFmin (BitVec.ofNat 7 (fld w 7 21)) (BitVec.ofNat 7 (fld w 7 14)) (BitVec.ofNat 7 (fld w 7 7)))
  | 18 => .ok (.reduxFmax (BitVec.ofNat 7 (fld w 7 21)) (BitVec.ofNat 7 (fld w 7 14)) (BitVec.ofNat 7 (fld w 7 7)))
  | 19 => .ok (.scanAdd (BitVec.ofNat 7 (fld w 7 21)) (BitVec.ofNat 7 (fld w 7 14)) (BitVec.ofNat 7 (fld w 7 7)))
  | 20 => .ok (.scanFadd (BitVec.ofNat 7 (fld w 7 21)) (BitVec.ofNat 7 (fld w 7 14)) (BitVec.ofNat 7 (fld w 7 7)))
  | 32 => if fld w 7 21 == 0 then .ok (.barinit (BitVec.ofNat 7 (fld w 7 14)) (BitVec.ofNat 7 (fld w 7 7))) else .error .nonzeroField
  | 33 => if fld w 7 7 == 0 then .ok (.bararv (BitVec.ofNat 7 (fld w 7 21)) (BitVec.ofNat 7 (fld w 7 14))) else .error .nonzeroField
  | 34 => if fld w 7 21 == 0 then .ok (.barwait (BitVec.ofNat 7 (fld w 7 14)) (BitVec.ofNat 7 (fld w 7 7))) else .error .nonzeroField
  | 35 => if fld w 7 7 == 0 && fld w 7 21 == 0 then .ok (.barsync (BitVec.ofNat 7 (fld w 7 14))) else .error .nonzeroField
  | 36 => if fld w 7 7 == 0 then .ok (.nbararv (BitVec.ofNat 7 (fld w 7 21)) (BitVec.ofNat 7 (fld w 7 14))) else .error .nonzeroField
  | 37 => if fld w 7 21 == 0 then .ok (.nbarwait (BitVec.ofNat 7 (fld w 7 14)) (BitVec.ofNat 7 (fld w 7 7))) else .error .nonzeroField
  | 38 => if fld w 7 7 == 0 && fld w 7 21 == 0 then .ok (.nbarsync (BitVec.ofNat 7 (fld w 7 14))) else .error .nonzeroField
  | 40 => if fld w 7 7 == 0 && fld w 3 25 == 0 then .ok (.cinit (BitVec.ofNat 4 (fld w 4 21)) (BitVec.ofNat 7 (fld w 7 14))) else .error .nonzeroField
  | 41 => if fld w 7 7 == 0 && fld w 3 18 == 0 then .ok (.msign (BitVec.ofNat 7 (fld w 7 21)) (BitVec.ofNat 4 (fld w 4 14))) else .error .nonzeroField
  | 42 => if fld w 10 18 == 0 then .ok (.cwait (BitVec.ofNat 4 (fld w 4 14)) (BitVec.ofNat 7 (fld w 7 7))) else .error .nonzeroField
  | 48 => if fld w 21 7 == 0 then .ok (.fenceB) else .error .nonzeroField
  | 49 => if fld w 21 7 == 0 then .ok (.fenceN) else .error .nonzeroField
  | 50 => if fld w 21 7 == 0 then .ok (.fenceQ) else .error .nonzeroField
  | 51 => if fld w 21 7 == 0 then .ok (.fenceT) else .error .nonzeroField
  | 52 => if fld w 21 7 == 0 then .ok (.fenceS) else .error .nonzeroField
  | 53 => if fld w 21 7 == 0 then .ok (.ofence) else .error .nonzeroField
  | 56 => if fld w 21 7 == 0 then .ok (.commit) else .error .nonzeroField
  | 57 => if fld w 17 11 == 0 then .ok (.waitb (BitVec.ofNat 4 (fld w 4 7))) else .error .nonzeroField
  | 58 => if fld w 4 10 == 0 && fld w 7 21 == 0 then .ok (.waitseq (BitVec.ofNat 7 (fld w 7 14)) (BitVec.ofNat 3 (fld w 3 7))) else .error .nonzeroField
  | 60 => if fld w 7 7 == 0 && fld w 7 21 == 0 then .ok (.nichewait (BitVec.ofNat 7 (fld w 7 14))) else .error .nonzeroField
  | 59 => if bit w 27 then .ok (.qwaitTake (BitVec.ofNat 6 (fld w 6 21)) (BitVec.ofNat 7 (fld w 7 14)) (BitVec.ofNat 7 (fld w 7 7))) else .ok (.qwaitDone (BitVec.ofNat 6 (fld w 6 21)) (BitVec.ofNat 7 (fld w 7 14)) (BitVec.ofNat 7 (fld w 7 7)))
  | _ => .error .unassigned

/-- R49: TMOV, the direction in a[6:5]. -/
noncomputable def decodeTmov (w : Nat) : Decoded :=
  match fld w 2 19 with
  | 0 => if fld w 2 17 == 0 then .ok (.tmovTr (BitVec.ofNat 7 (fld w 7 21)) (BitVec.ofNat 3 (fld w 3 14)) (BitVec.ofNat 7 (fld w 7 7)) (BitVec.ofNat 6 (fld w 6 0))) else .error .nonzeroField
  | 1 => if fld w 2 17 == 0 then .ok (.tmovTc (BitVec.ofNat 7 (fld w 7 21)) (BitVec.ofNat 3 (fld w 3 14)) (BitVec.ofNat 7 (fld w 7 7)) (BitVec.ofNat 6 (fld w 6 0))) else .error .nonzeroField
  | 2 => if fld w 2 17 == 0 then .ok (.tmovRt (BitVec.ofNat 7 (fld w 7 21)) (BitVec.ofNat 3 (fld w 3 14)) (BitVec.ofNat 7 (fld w 7 7)) (BitVec.ofNat 6 (fld w 6 0))) else .error .nonzeroField
  | 3 => if fld w 2 17 == 0 then .ok (.tmovCt (BitVec.ofNat 7 (fld w 7 21)) (BitVec.ofNat 3 (fld w 3 14)) (BitVec.ofNat 7 (fld w 7 7)) (BitVec.ofNat 6 (fld w 6 0))) else .error .nonzeroField
  | _ => .error .unassigned

/-- R49: class 0xB with op7[6] = 0. -/
noncomputable def decodeTile (w : Nat) : Decoded :=
  match fld w 7 0 with
  | 0 => if fld w 7 7 == 0 && fld w 2 19 == 0 then .ok (.tstat (BitVec.ofNat 7 (fld w 7 21)) (BitVec.ofNat 5 (fld w 5 14))) else .error .nonzeroField
  | 1 => if fld w 7 7 == 0 && fld w 9 19 == 0 then .ok (.twait (BitVec.ofNat 5 (fld w 5 14))) else .error .nonzeroField
  | _ => .error .unassigned

/-- Words of class 0xB (R49). -/
noncomputable def decodeB (w : Nat) : Decoded :=
  if bit w 6 then decodeTmov w else decodeTile w

/-- Words of class 0xC (R49). -/
noncomputable def decodeC (w : Nat) : Decoded :=
  match fld w 5 0 with
  | 0 => .ok (.bload (BitVec.ofNat 6 (fld w 6 22)) (BitVec.ofNat 6 (fld w 6 16)) (BitVec.ofNat 6 (fld w 6 10)) (BitVec.ofNat 5 (fld w 5 5)))
  | 1 => .ok (.mma (BitVec.ofNat 6 (fld w 6 22)) (BitVec.ofNat 6 (fld w 6 16)) (BitVec.ofNat 6 (fld w 6 10)) (BitVec.ofNat 5 (fld w 5 5)))
  | 2 => .ok (.mmas (BitVec.ofNat 6 (fld w 6 22)) (BitVec.ofNat 6 (fld w 6 16)) (BitVec.ofNat 6 (fld w 6 10)) (BitVec.ofNat 5 (fld w 5 5)))
  | 3 => .ok (.tzero (BitVec.ofNat 6 (fld w 6 22)) (BitVec.ofNat 6 (fld w 6 16)) (BitVec.ofNat 6 (fld w 6 10)) (BitVec.ofNat 5 (fld w 5 5)))
  | 4 => .ok (.tdrain (BitVec.ofNat 6 (fld w 6 22)) (BitVec.ofNat 6 (fld w 6 16)) (BitVec.ofNat 6 (fld w 6 10)) (BitVec.ofNat 5 (fld w 5 5)))
  | 5 => .ok (.tfill (BitVec.ofNat 6 (fld w 6 22)) (BitVec.ofNat 6 (fld w 6 16)) (BitVec.ofNat 6 (fld w 6 10)) (BitVec.ofNat 5 (fld w 5 5)))
  | 8 => .ok (.xtrav (BitVec.ofNat 6 (fld w 6 22)) (BitVec.ofNat 6 (fld w 6 16)) (BitVec.ofNat 6 (fld w 6 10)) (BitVec.ofNat 5 (fld w 5 5)))
  | 9 => .ok (.xtravRes (BitVec.ofNat 6 (fld w 6 22)) (BitVec.ofNat 6 (fld w 6 16)) (BitVec.ofNat 6 (fld w 6 10)) (BitVec.ofNat 5 (fld w 5 5)))
  | 16 => .ok (.copy (BitVec.ofNat 6 (fld w 6 22)) (BitVec.ofNat 6 (fld w 6 16)) (BitVec.ofNat 6 (fld w 6 10)) (BitVec.ofNat 5 (fld w 5 5)))
  | 17 => .ok (.scatter (BitVec.ofNat 6 (fld w 6 22)) (BitVec.ofNat 6 (fld w 6 16)) (BitVec.ofNat 6 (fld w 6 10)) (BitVec.ofNat 5 (fld w 5 5)))
  | 18 => .ok (.restripe (BitVec.ofNat 6 (fld w 6 22)) (BitVec.ofNat 6 (fld w 6 16)) (BitVec.ofNat 6 (fld w 6 10)) (BitVec.ofNat 5 (fld w 5 5)))
  | 19 => .ok (.coll (BitVec.ofNat 6 (fld w 6 22)) (BitVec.ofNat 6 (fld w 6 16)) (BitVec.ofNat 6 (fld w 6 10)) (BitVec.ofNat 5 (fld w 5 5)))
  | 24 => .ok (.enc (BitVec.ofNat 6 (fld w 6 22)) (BitVec.ofNat 6 (fld w 6 16)) (BitVec.ofNat 6 (fld w 6 10)) (BitVec.ofNat 5 (fld w 5 5)))
  | 25 => .ok (.emit (BitVec.ofNat 6 (fld w 6 22)) (BitVec.ofNat 6 (fld w 6 16)) (BitVec.ofNat 6 (fld w 6 10)) (BitVec.ofNat 5 (fld w 5 5)))
  | 26 => .ok (.ndone (BitVec.ofNat 6 (fld w 6 22)) (BitVec.ofNat 6 (fld w 6 16)) (BitVec.ofNat 6 (fld w 6 10)) (BitVec.ofNat 5 (fld w 5 5)))
  | 27 => .ok (.tcbarm (BitVec.ofNat 6 (fld w 6 22)) (BitVec.ofNat 6 (fld w 6 16)) (BitVec.ofNat 6 (fld w 6 10)) (BitVec.ofNat 5 (fld w 5 5)))
  | 28 => .ok (.tcbret (BitVec.ofNat 6 (fld w 6 22)) (BitVec.ofNat 6 (fld w 6 16)) (BitVec.ofNat 6 (fld w 6 10)) (BitVec.ofNat 5 (fld w 5 5)))
  | _ => .error .unassigned

/-- Words of class 0xD (R49). -/
noncomputable def decodeD (w : Nat) : Decoded :=
  match fld w 7 0 with
  | 0 => .ok (.sadd (BitVec.ofNat 7 (fld w 7 21)) (BitVec.ofNat 7 (fld w 7 14)) (BitVec.ofNat 7 (fld w 7 7)))
  | 1 => .ok (.ssub (BitVec.ofNat 7 (fld w 7 21)) (BitVec.ofNat 7 (fld w 7 14)) (BitVec.ofNat 7 (fld w 7 7)))
  | 2 => .ok (.smul (BitVec.ofNat 7 (fld w 7 21)) (BitVec.ofNat 7 (fld w 7 14)) (BitVec.ofNat 7 (fld w 7 7)))
  | 3 => .ok (.sand (BitVec.ofNat 7 (fld w 7 21)) (BitVec.ofNat 7 (fld w 7 14)) (BitVec.ofNat 7 (fld w 7 7)))
  | 4 => .ok (.sor (BitVec.ofNat 7 (fld w 7 21)) (BitVec.ofNat 7 (fld w 7 14)) (BitVec.ofNat 7 (fld w 7 7)))
  | 5 => .ok (.sxor (BitVec.ofNat 7 (fld w 7 21)) (BitVec.ofNat 7 (fld w 7 14)) (BitVec.ofNat 7 (fld w 7 7)))
  | 6 => .ok (.sshl (BitVec.ofNat 7 (fld w 7 21)) (BitVec.ofNat 7 (fld w 7 14)) (BitVec.ofNat 7 (fld w 7 7)))
  | 7 => .ok (.sshr (BitVec.ofNat 7 (fld w 7 21)) (BitVec.ofNat 7 (fld w 7 14)) (BitVec.ofNat 7 (fld w 7 7)))
  | 8 => .ok (.ssar (BitVec.ofNat 7 (fld w 7 21)) (BitVec.ofNat 7 (fld w 7 14)) (BitVec.ofNat 7 (fld w 7 7)))
  | 9 => .ok (.smin (BitVec.ofNat 7 (fld w 7 21)) (BitVec.ofNat 7 (fld w 7 14)) (BitVec.ofNat 7 (fld w 7 7)))
  | 10 => .ok (.smax (BitVec.ofNat 7 (fld w 7 21)) (BitVec.ofNat 7 (fld w 7 14)) (BitVec.ofNat 7 (fld w 7 7)))
  | 11 => .ok (.sminu (BitVec.ofNat 7 (fld w 7 21)) (BitVec.ofNat 7 (fld w 7 14)) (BitVec.ofNat 7 (fld w 7 7)))
  | 12 => .ok (.smaxu (BitVec.ofNat 7 (fld w 7 21)) (BitVec.ofNat 7 (fld w 7 14)) (BitVec.ofNat 7 (fld w 7 7)))
  | 13 => if fld w 1 24 == 0 then .ok (.scmp (BitVec.ofNat 3 (fld w 3 25)) (BitVec.ofNat 3 (fld w 3 21)) (BitVec.ofNat 7 (fld w 7 14)) (BitVec.ofNat 7 (fld w 7 7))) else .error .nonzeroField
  | 15 => if fld w 7 7 == 0 then .ok (.smov (BitVec.ofNat 7 (fld w 7 21)) (BitVec.ofNat 7 (fld w 7 14))) else .error .nonzeroField
  | 16 => .ok (.saddi (BitVec.ofNat 7 (fld w 7 21)) (BitVec.ofNat 7 (fld w 7 14)) (BitVec.ofNat 7 (fld w 7 7)))
  | 17 => if fld w 2 12 == 0 then .ok (.sshli (BitVec.ofNat 7 (fld w 7 21)) (BitVec.ofNat 7 (fld w 7 14)) (BitVec.ofNat 5 (fld w 5 7))) else .error .nonzeroField
  | 18 => if fld w 2 12 == 0 then .ok (.sshri (BitVec.ofNat 7 (fld w 7 21)) (BitVec.ofNat 7 (fld w 7 14)) (BitVec.ofNat 5 (fld w 5 7))) else .error .nonzeroField
  | 19 => if fld w 2 12 == 0 then .ok (.ssari (BitVec.ofNat 7 (fld w 7 21)) (BitVec.ofNat 7 (fld w 7 14)) (BitVec.ofNat 5 (fld w 5 7))) else .error .nonzeroField
  | 24 => if fld w 7 7 == 0 then .ok (.v2s (BitVec.ofNat 7 (fld w 7 21)) (BitVec.ofNat 7 (fld w 7 14))) else .error .nonzeroField
  | 25 => if fld w 7 7 == 0 then .ok (.s2v (BitVec.ofNat 7 (fld w 7 21)) (BitVec.ofNat 7 (fld w 7 14))) else .error .nonzeroField
  | 26 => .ok (.sld32 (BitVec.ofNat 7 (fld w 7 21)) (BitVec.ofNat 7 (fld w 7 14)) (BitVec.ofNat 7 (fld w 7 7)))
  | 27 => .ok (.sst32 (BitVec.ofNat 7 (fld w 7 21)) (BitVec.ofNat 7 (fld w 7 14)) (BitVec.ofNat 7 (fld w 7 7)))
  | 28 => .ok (.sadd64 (BitVec.ofNat 7 (fld w 7 21)) (BitVec.ofNat 7 (fld w 7 14)) (BitVec.ofNat 7 (fld w 7 7)))
  | _ => .error .unassigned

/-- Words of class 0xE (R49). -/
noncomputable def decodeE (w : Nat) : Decoded :=
  match fld w 7 0 with
  | 0 => .ok (.srd (BitVec.ofNat 7 (fld w 7 21)) (BitVec.ofNat 14 (fld w 14 7)))
  | 1 => .ok (.swr (BitVec.ofNat 7 (fld w 7 21)) (BitVec.ofNat 14 (fld w 14 7)))
  | 2 => if fld w 21 7 == 0 then .ok (.tret) else .error .nonzeroField
  | 3 => if fld w 7 7 == 0 && fld w 7 21 == 0 then .ok (.tinv (BitVec.ofNat 7 (fld w 7 14))) else .error .nonzeroField
  | 4 => if fld w 21 7 == 0 then .ok (.tinva) else .error .nonzeroField
  | 5 => .ok (.pinv (BitVec.ofNat 7 (fld w 7 21)) (BitVec.ofNat 7 (fld w 7 14)) (BitVec.ofNat 7 (fld w 7 7)))
  | 6 => if fld w 7 14 == 0 then .ok (.pinva (BitVec.ofNat 7 (fld w 7 21)) (BitVec.ofNat 7 (fld w 7 7))) else .error .nonzeroField
  | 7 => .ok (.launch (BitVec.ofNat 7 (fld w 7 21)) (BitVec.ofNat 7 (fld w 7 14)) (BitVec.ofNat 7 (fld w 7 7)))
  | 8 => if fld w 14 7 == 0 then .ok (.ckpt (BitVec.ofNat 7 (fld w 7 21))) else .error .nonzeroField
  | 9 => .ok (.keyset (BitVec.ofNat 7 (fld w 7 21)) (BitVec.ofNat 7 (fld w 7 14)) (BitVec.ofNat 7 (fld w 7 7)))
  | 10 => if fld w 7 7 == 0 && fld w 7 21 == 0 then .ok (.keyerase (BitVec.ofNat 7 (fld w 7 14))) else .error .nonzeroField
  | 11 => .ok (.ustat (BitVec.ofNat 7 (fld w 7 21)) (BitVec.ofNat 7 (fld w 7 14)) (BitVec.ofNat 7 (fld w 7 7)))
  | 64 => .ok (.slnew (BitVec.ofNat 7 (fld w 7 21)) (BitVec.ofNat 7 (fld w 7 14)) (BitVec.ofNat 7 (fld w 7 7)))
  | 65 => if fld w 7 7 == 0 then .ok (.sldel (BitVec.ofNat 7 (fld w 7 21)) (BitVec.ofNat 7 (fld w 7 14))) else .error .nonzeroField
  | 66 => .ok (.slassign (BitVec.ofNat 7 (fld w 7 21)) (BitVec.ofNat 7 (fld w 7 14)) (BitVec.ofNat 7 (fld w 7 7)))
  | 67 => .ok (.slquiesce (BitVec.ofNat 7 (fld w 7 21)) (BitVec.ofNat 7 (fld w 7 14)) (BitVec.ofNat 7 (fld w 7 7)))
  | 68 => if fld w 7 7 == 0 then .ok (.slresume (BitVec.ofNat 7 (fld w 7 21)) (BitVec.ofNat 7 (fld w 7 14))) else .error .nonzeroField
  | 69 => .ok (.slsplit (BitVec.ofNat 7 (fld w 7 21)) (BitVec.ofNat 7 (fld w 7 14)) (BitVec.ofNat 7 (fld w 7 7)))
  | 70 => if fld w 7 7 == 0 then .ok (.slfuse (BitVec.ofNat 7 (fld w 7 21)) (BitVec.ofNat 7 (fld w 7 14))) else .error .nonzeroField
  | 71 => .ok (.slways (BitVec.ofNat 7 (fld w 7 21)) (BitVec.ofNat 7 (fld w 7 14)) (BitVec.ofNat 7 (fld w 7 7)))
  | 72 => .ok (.slplace (BitVec.ofNat 7 (fld w 7 21)) (BitVec.ofNat 7 (fld w 7 14)) (BitVec.ofNat 7 (fld w 7 7)))
  | 73 => .ok (.slquota (BitVec.ofNat 7 (fld w 7 21)) (BitVec.ofNat 7 (fld w 7 14)) (BitVec.ofNat 7 (fld w 7 7)))
  | 74 => if fld w 7 7 == 0 then .ok (.slreset (BitVec.ofNat 7 (fld w 7 21)) (BitVec.ofNat 7 (fld w 7 14))) else .error .nonzeroField
  | 75 => .ok (.slstat (BitVec.ofNat 7 (fld w 7 21)) (BitVec.ofNat 7 (fld w 7 14)) (BitVec.ofNat 7 (fld w 7 7)))
  | _ => .error .unassigned

/-- Words of class 0xF (R49). -/
noncomputable def decodeF (w : Nat) : Decoded :=
  match fld w 4 24 with
  | 0 => if fld w 11 0 == 0 then .ok (.rep (BitVec.ofNat 6 (fld w 6 18)) (bit w 17) (bit w 16) (bit w 15) (BitVec.ofNat 4 (fld w 4 11))) else .error .nonzeroField
  | 1 => if fld w 20 0 == 0 then .ok (.ifp (BitVec.ofNat 3 (fld w 3 21)) (bit w 20)) else .error .nonzeroField
  | 2 => if fld w 22 0 == 0 then .ok (.limm (BitVec.ofNat 2 (fld w 2 22))) else .error .nonzeroField
  | 3 => if fld w 21 0 == 0 then .ok (.swin (BitVec.ofNat 3 (fld w 3 21))) else .error .nonzeroField
  | _ => .error .unassigned

/-- R36: bits [31:28] give the class. -/
noncomputable def decodeRaw (w : Nat) : Decoded :=
  match fld w 4 28 with
  | 0 => decode0 w
  | 1 => decode1 w
  | 2 => decode2 w
  | 3 => decode3 w
  | 4 => decode4 w
  | 5 => decode5 w
  | 6 => decode6 w
  | 7 => decode7 w
  | 8 => decode8 w
  | 9 => decode9 w
  | 10 => decodeA w
  | 11 => decodeB w
  | 12 => decodeC w
  | 13 => decodeD w
  | 14 => decodeE w
  | 15 => decodeF w
  | _ => .error .unassigned

/-- R57: the instruction or prefix word `w`, or the name of what makes it illegal on its own. -/
noncomputable def decodeWord (w : BitVec 32) : Decoded :=
  match decodeRaw w.toNat with
  | .ok i =>
    match i.defect with
    | none => .ok i
    | some d => .error (.defect d)
  | .error e => .error e

/-- The instruction of a word given as the opcode table numbers its bits; every row is one 32-bit word. -/
noncomputable def decodeTableWord (nbits w : Nat) : Option Instr :=
  if nbits = 32 then (decodeWord (BitVec.ofNat 32 w)).toOption else none

/-- The bits of an instruction's word as a number; a step that no word encodes has none. -/
def encodeNat : Instr → Option Nat
  | .iadd d a b sb => some (0x00000001 + d.toNat * 2097152 + a.toNat * 16384 + b.toNat * 128 + sb.toNat * 64)
  | .isub d a b sb => some (0x00000002 + d.toNat * 2097152 + a.toNat * 16384 + b.toNat * 128 + sb.toNat * 64)
  | .imul d a b sb => some (0x00000003 + d.toNat * 2097152 + a.toNat * 16384 + b.toNat * 128 + sb.toNat * 64)
  | .imulhi d a b sb => some (0x00000004 + d.toNat * 2097152 + a.toNat * 16384 + b.toNat * 128 + sb.toNat * 64)
  | .imulhiu d a b sb => some (0x00000005 + d.toNat * 2097152 + a.toNat * 16384 + b.toNat * 128 + sb.toNat * 64)
  | .imad d a b sb => some (0x00000006 + d.toNat * 2097152 + a.toNat * 16384 + b.toNat * 128 + sb.toNat * 64)
  | .iabs d a => some (0x00000007 + d.toNat * 2097152 + a.toNat * 16384)
  | .idiv d a b sb => some (0x00000008 + d.toNat * 2097152 + a.toNat * 16384 + b.toNat * 128 + sb.toNat * 64)
  | .idivu d a b sb => some (0x00000009 + d.toNat * 2097152 + a.toNat * 16384 + b.toNat * 128 + sb.toNat * 64)
  | .irem d a b sb => some (0x0000000A + d.toNat * 2097152 + a.toNat * 16384 + b.toNat * 128 + sb.toNat * 64)
  | .iremu d a b sb => some (0x0000000B + d.toNat * 2097152 + a.toNat * 16384 + b.toNat * 128 + sb.toNat * 64)
  | .imin d a b sb => some (0x0000000C + d.toNat * 2097152 + a.toNat * 16384 + b.toNat * 128 + sb.toNat * 64)
  | .imax d a b sb => some (0x0000000D + d.toNat * 2097152 + a.toNat * 16384 + b.toNat * 128 + sb.toNat * 64)
  | .iminu d a b sb => some (0x0000000E + d.toNat * 2097152 + a.toNat * 16384 + b.toNat * 128 + sb.toNat * 64)
  | .imaxu d a b sb => some (0x0000000F + d.toNat * 2097152 + a.toNat * 16384 + b.toNat * 128 + sb.toNat * 64)
  | .iadds d a b sb => some (0x00000010 + d.toNat * 2097152 + a.toNat * 16384 + b.toNat * 128 + sb.toNat * 64)
  | .isubs d a b sb => some (0x00000011 + d.toNat * 2097152 + a.toNat * 16384 + b.toNat * 128 + sb.toNat * 64)
  | .iaddus d a b sb => some (0x00000012 + d.toNat * 2097152 + a.toNat * 16384 + b.toNat * 128 + sb.toNat * 64)
  | .isubus d a b sb => some (0x00000013 + d.toNat * 2097152 + a.toNat * 16384 + b.toNat * 128 + sb.toNat * 64)
  | .iadd64 d a b sb => some (0x00000014 + d.toNat * 2097152 + a.toNat * 16384 + b.toNat * 128 + sb.toNat * 64)
  | .isub64 d a b sb => some (0x00000015 + d.toNat * 2097152 + a.toNat * 16384 + b.toNat * 128 + sb.toNat * 64)
  | .imulw d a b sb => some (0x00000016 + d.toNat * 2097152 + a.toNat * 16384 + b.toNat * 128 + sb.toNat * 64)
  | .imulwu d a b sb => some (0x00000017 + d.toNat * 2097152 + a.toNat * 16384 + b.toNat * 128 + sb.toNat * 64)
  | .icmp c p a b sb => some (0x00000018 + c.toNat * 33554432 + p.toNat * 2097152 + a.toNat * 16384 + b.toNat * 128 + sb.toNat * 64)
  | .icmp64 c p a b sb => some (0x00000019 + c.toNat * 33554432 + p.toNat * 2097152 + a.toNat * 16384 + b.toNat * 128 + sb.toNat * 64)
  | .iaddsh1 d a b sb => some (0x0000001C + d.toNat * 2097152 + a.toNat * 16384 + b.toNat * 128 + sb.toNat * 64)
  | .iaddsh2 d a b sb => some (0x0000001D + d.toNat * 2097152 + a.toNat * 16384 + b.toNat * 128 + sb.toNat * 64)
  | .iaddsh3 d a b sb => some (0x0000001E + d.toNat * 2097152 + a.toNat * 16384 + b.toNat * 128 + sb.toNat * 64)
  | .iaddsh4 d a b sb => some (0x0000001F + d.toNat * 2097152 + a.toNat * 16384 + b.toNat * 128 + sb.toNat * 64)
  | .sel d a b sb q => some (0x00000020 + d.toNat * 2097152 + a.toNat * 16384 + b.toNat * 128 + sb.toNat * 64 + q.toNat)
  | .mov d a => some (0x00000028 + d.toNat * 2097152 + a.toNat * 16384)
  | .movri d a => some (0x00000029 + d.toNat * 2097152 + a.toNat * 16384)
  | .movwi a b sb => some (0x0000002A + a.toNat * 16384 + b.toNat * 128 + sb.toNat * 64)
  | .sext8 d a => some (0x0000002B + d.toNat * 2097152 + a.toNat * 16384)
  | .sext16 d a => some (0x0000002C + d.toNat * 2097152 + a.toNat * 16384)
  | .iaddi d a i => some (0x10000000 + d.toNat * 2097152 + a.toNat * 16384 + i.toNat)
  | .imuli d a i => some (0x10000800 + d.toNat * 2097152 + a.toNat * 16384 + i.toNat)
  | .andi d a i => some (0x10001000 + d.toNat * 2097152 + a.toNat * 16384 + i.toNat)
  | .ori d a i => some (0x10001800 + d.toNat * 2097152 + a.toNat * 16384 + i.toNat)
  | .xori d a i => some (0x10002000 + d.toNat * 2097152 + a.toNat * 16384 + i.toNat)
  | .icmpi c p a i => some (0x10002800 + c.toNat * 33554432 + p.toNat * 2097152 + a.toNat * 16384 + i.toNat)
  | .shli d a n => some (0x10003000 + d.toNat * 2097152 + a.toNat * 16384 + n.toNat)
  | .shri d a n => some (0x10003100 + d.toNat * 2097152 + a.toNat * 16384 + n.toNat)
  | .sari d a n => some (0x10003200 + d.toNat * 2097152 + a.toNat * 16384 + n.toNat)
  | .roli d a n => some (0x10003300 + d.toNat * 2097152 + a.toNat * 16384 + n.toNat)
  | .rori d a n => some (0x10003400 + d.toNat * 2097152 + a.toNat * 16384 + n.toNat)
  | .movi d imm => some (0x10003800 + d.toNat * 2097152 + imm.toNat / 2048 * 16384 + imm.toNat % 2048)
  | .and d a b sb => some (0x20000000 + d.toNat * 2097152 + a.toNat * 16384 + b.toNat * 128 + sb.toNat * 64)
  | .or d a b sb => some (0x20000001 + d.toNat * 2097152 + a.toNat * 16384 + b.toNat * 128 + sb.toNat * 64)
  | .xor d a b sb => some (0x20000002 + d.toNat * 2097152 + a.toNat * 16384 + b.toNat * 128 + sb.toNat * 64)
  | .andn d a b sb => some (0x20000003 + d.toNat * 2097152 + a.toNat * 16384 + b.toNat * 128 + sb.toNat * 64)
  | .orn d a b sb => some (0x20000004 + d.toNat * 2097152 + a.toNat * 16384 + b.toNat * 128 + sb.toNat * 64)
  | .xnor d a b sb => some (0x20000005 + d.toNat * 2097152 + a.toNat * 16384 + b.toNat * 128 + sb.toNat * 64)
  | .not d a => some (0x20000006 + d.toNat * 2097152 + a.toNat * 16384)
  | .shl d a b sb => some (0x20000008 + d.toNat * 2097152 + a.toNat * 16384 + b.toNat * 128 + sb.toNat * 64)
  | .shr d a b sb => some (0x20000009 + d.toNat * 2097152 + a.toNat * 16384 + b.toNat * 128 + sb.toNat * 64)
  | .sar d a b sb => some (0x2000000A + d.toNat * 2097152 + a.toNat * 16384 + b.toNat * 128 + sb.toNat * 64)
  | .rol d a b sb => some (0x2000000B + d.toNat * 2097152 + a.toNat * 16384 + b.toNat * 128 + sb.toNat * 64)
  | .ror d a b sb => some (0x2000000C + d.toNat * 2097152 + a.toNat * 16384 + b.toNat * 128 + sb.toNat * 64)
  | .shl64 d a b sb => some (0x2000000D + d.toNat * 2097152 + a.toNat * 16384 + b.toNat * 128 + sb.toNat * 64)
  | .shr64 d a b sb => some (0x2000000E + d.toNat * 2097152 + a.toNat * 16384 + b.toNat * 128 + sb.toNat * 64)
  | .sar64 d a b sb => some (0x2000000F + d.toNat * 2097152 + a.toNat * 16384 + b.toNat * 128 + sb.toNat * 64)
  | .clz d a => some (0x20000010 + d.toNat * 2097152 + a.toNat * 16384)
  | .ctz d a => some (0x20000011 + d.toNat * 2097152 + a.toNat * 16384)
  | .popc d a => some (0x20000012 + d.toNat * 2097152 + a.toNat * 16384)
  | .brev d a => some (0x20000013 + d.toNat * 2097152 + a.toNat * 16384)
  | .clz64 d a => some (0x20000014 + d.toNat * 2097152 + a.toNat * 16384)
  | .ctz64 d a => some (0x20000015 + d.toNat * 2097152 + a.toNat * 16384)
  | .popc64 d a => some (0x20000016 + d.toNat * 2097152 + a.toNat * 16384)
  | .brev64 d a => some (0x20000017 + d.toNat * 2097152 + a.toNat * 16384)
  | .bfx d a b sb => some (0x20000018 + d.toNat * 2097152 + a.toNat * 16384 + b.toNat * 128 + sb.toNat * 64)
  | .bfxs d a b sb => some (0x20000019 + d.toNat * 2097152 + a.toNat * 16384 + b.toNat * 128 + sb.toNat * 64)
  | .bfi d a b sb => some (0x2000001A + d.toNat * 2097152 + a.toNat * 16384 + b.toNat * 128 + sb.toNat * 64)
  | .pdep d a b sb => some (0x2000001C + d.toNat * 2097152 + a.toNat * 16384 + b.toNat * 128 + sb.toNat * 64)
  | .pext d a b sb => some (0x2000001D + d.toNat * 2097152 + a.toNat * 16384 + b.toNat * 128 + sb.toNat * 64)
  | .pdep64 d a b sb => some (0x2000001E + d.toNat * 2097152 + a.toNat * 16384 + b.toNat * 128 + sb.toNat * 64)
  | .pext64 d a b sb => some (0x2000001F + d.toNat * 2097152 + a.toNat * 16384 + b.toNat * 128 + sb.toNat * 64)
  | .bperm d a b sb => some (0x20000020 + d.toNat * 2097152 + a.toNat * 16384 + b.toNat * 128 + sb.toNat * 64)
  | .bmm8 d a b sb => some (0x20000021 + d.toNat * 2097152 + a.toNat * 16384 + b.toNat * 128 + sb.toNat * 64)
  | .bmm8t d a b sb => some (0x20000022 + d.toNat * 2097152 + a.toNat * 16384 + b.toNat * 128 + sb.toNat * 64)
  | .plop t d a b => some (0x20000028 + t.toNat * 16777216 + d.toNat * 2097152 + a.toNat * 16384 + b.toNat * 128)
  | .p2v d => some (0x20000029 + d.toNat * 2097152)
  | .v2p a => some (0x2000002A + a.toNat * 16384)
  | .fadd d a b sb ha hb m => some (0x30000000 + d.toNat * 2097152 + a.toNat * 16384 + b.toNat * 128 + sb.toNat * 64 + ha.toNat * 32 + hb.toNat * 16 + m.toNat * 4)
  | .fmul d a b sb ha hb m => some (0x30000001 + d.toNat * 2097152 + a.toNat * 16384 + b.toNat * 128 + sb.toNat * 64 + ha.toNat * 32 + hb.toNat * 16 + m.toNat * 4)
  | .ffma d a b sb ha hb m => some (0x30000002 + d.toNat * 2097152 + a.toNat * 16384 + b.toNat * 128 + sb.toNat * 64 + ha.toNat * 32 + hb.toNat * 16 + m.toNat * 4)
  | .fsub d a b sb ha hb m => some (0x30000003 + d.toNat * 2097152 + a.toNat * 16384 + b.toNat * 128 + sb.toNat * 64 + ha.toNat * 32 + hb.toNat * 16 + m.toNat * 4)
  | .fmin d a b sb => some (0x40000000 + d.toNat * 2097152 + a.toNat * 16384 + b.toNat * 128 + sb.toNat * 64)
  | .fmax d a b sb => some (0x40000001 + d.toNat * 2097152 + a.toNat * 16384 + b.toNat * 128 + sb.toNat * 64)
  | .fminnm d a b sb => some (0x40000002 + d.toNat * 2097152 + a.toNat * 16384 + b.toNat * 128 + sb.toNat * 64)
  | .fmaxnm d a b sb => some (0x40000003 + d.toNat * 2097152 + a.toNat * 16384 + b.toNat * 128 + sb.toNat * 64)
  | .fcmp c p a b sb => some (0x40000004 + c.toNat * 33554432 + p.toNat * 2097152 + a.toNat * 16384 + b.toNat * 128 + sb.toNat * 64)
  | .fabs d a => some (0x40000005 + d.toNat * 2097152 + a.toNat * 16384)
  | .fneg d a => some (0x40000006 + d.toNat * 2097152 + a.toNat * 16384)
  | .fcopysign d a b sb => some (0x40000007 + d.toNat * 2097152 + a.toNat * 16384 + b.toNat * 128 + sb.toNat * 64)
  | .frint d a m => some (0x40000008 + d.toNat * 2097152 + a.toNat * 16384 + m.toNat * 128)
  | .fclass d a => some (0x40000009 + d.toNat * 2097152 + a.toNat * 16384)
  | .frcp d a => some (0x40000010 + d.toNat * 2097152 + a.toNat * 16384)
  | .frsq d a => some (0x40000011 + d.toNat * 2097152 + a.toNat * 16384)
  | .fexp2 d a => some (0x40000012 + d.toNat * 2097152 + a.toNat * 16384)
  | .flog2 d a => some (0x40000013 + d.toNat * 2097152 + a.toNat * 16384)
  | .fsin d a => some (0x40000014 + d.toNat * 2097152 + a.toNat * 16384)
  | .fcos d a => some (0x40000015 + d.toNat * 2097152 + a.toNat * 16384)
  | .f2i d a m => some (0x40000018 + d.toNat * 2097152 + a.toNat * 16384 + m.toNat * 128)
  | .f2u d a m => some (0x40000019 + d.toNat * 2097152 + a.toNat * 16384 + m.toNat * 128)
  | .i2f d a m => some (0x4000001A + d.toNat * 2097152 + a.toNat * 16384 + m.toNat * 128)
  | .u2f d a m => some (0x4000001B + d.toNat * 2097152 + a.toNat * 16384 + m.toNat * 128)
  | .f2h d a m => some (0x4000001C + d.toNat * 2097152 + a.toNat * 16384 + m.toNat * 128)
  | .h2f d a => some (0x4000001D + d.toNat * 2097152 + a.toNat * 16384)
  | .f2d d a => some (0x4000001E + d.toNat * 2097152 + a.toNat * 16384)
  | .d2f d a m => some (0x4000001F + d.toNat * 2097152 + a.toNat * 16384 + m.toNat * 128)
  | .dadd d a b sb m => some (0x40000020 + d.toNat * 2097152 + a.toNat * 16384 + b.toNat * 128 + sb.toNat * 64 + m.toNat)
  | .dmul d a b sb m => some (0x40000024 + d.toNat * 2097152 + a.toNat * 16384 + b.toNat * 128 + sb.toNat * 64 + m.toNat)
  | .dfma d a b sb m => some (0x40000028 + d.toNat * 2097152 + a.toNat * 16384 + b.toNat * 128 + sb.toNat * 64 + m.toNat)
  | .dsub d a b sb m => some (0x4000002C + d.toNat * 2097152 + a.toNat * 16384 + b.toNat * 128 + sb.toNat * 64 + m.toNat)
  | .dmin d a b sb => some (0x40000030 + d.toNat * 2097152 + a.toNat * 16384 + b.toNat * 128 + sb.toNat * 64)
  | .dmax d a b sb => some (0x40000031 + d.toNat * 2097152 + a.toNat * 16384 + b.toNat * 128 + sb.toNat * 64)
  | .dminnm d a b sb => some (0x40000032 + d.toNat * 2097152 + a.toNat * 16384 + b.toNat * 128 + sb.toNat * 64)
  | .dmaxnm d a b sb => some (0x40000033 + d.toNat * 2097152 + a.toNat * 16384 + b.toNat * 128 + sb.toNat * 64)
  | .dcmp c p a b sb => some (0x40000034 + c.toNat * 33554432 + p.toNat * 2097152 + a.toNat * 16384 + b.toNat * 128 + sb.toNat * 64)
  | .d2i d a m => some (0x40000035 + d.toNat * 2097152 + a.toNat * 16384 + m.toNat * 128)
  | .i2d d a => some (0x40000036 + d.toNat * 2097152 + a.toNat * 16384)
  | .dabs d a => some (0x40000037 + d.toNat * 2097152 + a.toNat * 16384)
  | .hadd2 d a b sb m => some (0x50000000 + d.toNat * 2097152 + a.toNat * 16384 + b.toNat * 128 + sb.toNat * 64 + m.toNat)
  | .hmul2 d a b sb m => some (0x50000004 + d.toNat * 2097152 + a.toNat * 16384 + b.toNat * 128 + sb.toNat * 64 + m.toNat)
  | .hfma2 d a b sb m => some (0x50000008 + d.toNat * 2097152 + a.toNat * 16384 + b.toNat * 128 + sb.toNat * 64 + m.toNat)
  | .hsub2 d a b sb m => some (0x5000000C + d.toNat * 2097152 + a.toNat * 16384 + b.toNat * 128 + sb.toNat * 64 + m.toNat)
  | .badd2 d a b sb m => some (0x50000010 + d.toNat * 2097152 + a.toNat * 16384 + b.toNat * 128 + sb.toNat * 64 + m.toNat)
  | .bmul2 d a b sb m => some (0x50000014 + d.toNat * 2097152 + a.toNat * 16384 + b.toNat * 128 + sb.toNat * 64 + m.toNat)
  | .bfma2 d a b sb m => some (0x50000018 + d.toNat * 2097152 + a.toNat * 16384 + b.toNat * 128 + sb.toNat * 64 + m.toNat)
  | .bsub2 d a b sb m => some (0x5000001C + d.toNat * 2097152 + a.toNat * 16384 + b.toNat * 128 + sb.toNat * 64 + m.toNat)
  | .hmin2 d a b sb => some (0x50000020 + d.toNat * 2097152 + a.toNat * 16384 + b.toNat * 128 + sb.toNat * 64)
  | .hmax2 d a b sb => some (0x50000021 + d.toNat * 2097152 + a.toNat * 16384 + b.toNat * 128 + sb.toNat * 64)
  | .bmin2 d a b sb => some (0x50000022 + d.toNat * 2097152 + a.toNat * 16384 + b.toNat * 128 + sb.toNat * 64)
  | .bmax2 d a b sb => some (0x50000023 + d.toNat * 2097152 + a.toNat * 16384 + b.toNat * 128 + sb.toNat * 64)
  | .hcmp2 c p a b sb => some (0x50000024 + c.toNat * 33554432 + p.toNat * 2097152 + a.toNat * 16384 + b.toNat * 128 + sb.toNat * 64)
  | .bcmp2 c p a b sb => some (0x50000025 + c.toNat * 33554432 + p.toNat * 2097152 + a.toNat * 16384 + b.toNat * 128 + sb.toNat * 64)
  | .pkh2 d a b sb m => some (0x50000028 + d.toNat * 2097152 + a.toNat * 16384 + b.toNat * 128 + sb.toNat * 64 + m.toNat)
  | .pkb2 d a b sb m => some (0x5000002C + d.toNat * 2097152 + a.toNat * 16384 + b.toNat * 128 + sb.toNat * 64 + m.toNat)
  | .upkh d a e => some (0x50000030 + d.toNat * 2097152 + a.toNat * 16384 + e.toNat * 128)
  | .upkb d a e => some (0x50000031 + d.toNat * 2097152 + a.toNat * 16384 + e.toNat * 128)
  | .pke4m d a b sb => some (0x50000032 + d.toNat * 2097152 + a.toNat * 16384 + b.toNat * 128 + sb.toNat * 64)
  | .pke5m d a b sb => some (0x50000033 + d.toNat * 2097152 + a.toNat * 16384 + b.toNat * 128 + sb.toNat * 64)
  | .pkf4m d a b sb => some (0x50000034 + d.toNat * 2097152 + a.toNat * 16384 + b.toNat * 128 + sb.toNat * 64)
  | .upke4 d a e => some (0x50000035 + d.toNat * 2097152 + a.toNat * 16384 + e.toNat * 128)
  | .upke5 d a e => some (0x50000036 + d.toNat * 2097152 + a.toNat * 16384 + e.toNat * 128)
  | .upkf4 d a e => some (0x50000037 + d.toNat * 2097152 + a.toNat * 16384 + e.toNat * 128)
  | .mxscale d a f => some (0x50000038 + d.toNat * 2097152 + a.toNat * 16384 + f.toNat * 128)
  | .idp4 d a b sb => some (0x50000039 + d.toNat * 2097152 + a.toNat * 16384 + b.toNat * 128 + sb.toNat * 64)
  | .idp4u d a b sb => some (0x5000003A + d.toNat * 2097152 + a.toNat * 16384 + b.toNat * 128 + sb.toNat * 64)
  | .ld d a k w o => some (0x60000000 + d.toNat * 2097152 + a.toNat * 16384 + k.toNat * 512 + w.toNat * 64 + o.toNat)
  | .st d a k w o => some (0x60000100 + d.toNat * 2097152 + a.toNat * 16384 + k.toNat * 512 + w.toNat * 64 + o.toNat)
  | .atomSp d a b q => some (0x70000000 + d.toNat * 2097152 + a.toNat * 16384 + b.toNat * 128 + q.toNat)
  | .sld d a b w => some (0x70000010 + d.toNat * 2097152 + a.toNat * 16384 + b.toNat * 128 + w.toNat)
  | .sst d a b w => some (0x70000018 + d.toNat * 2097152 + a.toNat * 16384 + b.toNat * 128 + w.toNat)
  | .nld d a b w => some (0x70000020 + d.toNat * 2097152 + a.toNat * 16384 + b.toNat * 128 + w.toNat)
  | .nst d a b w => some (0x70000028 + d.toNat * 2097152 + a.toNat * 16384 + b.toNat * 128 + w.toNat)
  | .atomNb d a b q => some (0x70000030 + d.toNat * 2097152 + a.toNat * 16384 + b.toNat * 128 + q.toNat)
  | .atomRec d a k q => some (0x70000040 + d.toNat * 2097152 + a.toNat * 16384 + k.toNat * 128 + q.toNat)
  | .atom64 d a k q => some (0x70000050 + d.toNat * 2097152 + a.toNat * 16384 + k.toNat * 128 + q.toNat)
  | .faddx d a k => some (0x70000060 + d.toNat * 2097152 + a.toNat * 16384 + k.toNat * 128)
  | .rcrd d a k => some (0x70000061 + d.toNat * 2097152 + a.toNat * 16384 + k.toNat * 128)
  | .rcclr a k => some (0x70000062 + a.toNat * 16384 + k.toNat * 128)
  | .pref l a k => some (0x70000070 + l.toNat * 2097152 + a.toNat * 16384 + k.toNat * 128)
  | .cwb a k => some (0x70000071 + a.toNat * 16384 + k.toNat * 128)
  | .cinv a k => some (0x70000072 + a.toNat * 16384 + k.toNat * 128)
  | .sample d a k => some (0x70000074 + d.toNat * 2097152 + a.toNat * 16384 + k.toNat * 128)
  | .bra o => some (0x80000000 + o.toNat)
  | .brt p o => some (0x82000000 + p.toNat * 4194304 + o.toNat)
  | .brf p o => some (0x84000000 + p.toNat * 4194304 + o.toNat)
  | .brany p o => some (0x86000000 + p.toNat * 4194304 + o.toNat)
  | .brall p o => some (0x88000000 + p.toNat * 4194304 + o.toNat)
  | .call v i => some (0x90000000 + v.toNat * 2097152 + i.toNat)
  | .ret => some (0x90000000)
  | .jmpi a => some (0x90000001 + a.toNat * 16384)
  | .calli a b => some (0x90000002 + a.toNat * 16384 + b.toNat * 128)
  | .land => some (0x90000003)
  | .frame b => some (0x90000004 + b.toNat * 128)
  | .wbase b => some (0x90000005 + b.toNat * 128)
  | .reform => some (0x90000006)
  | .exit => some (0x90000007)
  | .nop => some (0x90000008)
  | .trap i => some (0x90000009 + i.toNat * 128)
  | .routePick d a b => some (0xA0000000 + d.toNat * 2097152 + a.toNat * 16384 + b.toNat * 128)
  | .routeRot d a b => some (0xA0000001 + d.toNat * 2097152 + a.toNat * 16384 + b.toNat * 128)
  | .routeShift d a b => some (0xA0000002 + d.toNat * 2097152 + a.toNat * 16384 + b.toNat * 128)
  | .routeFlip d a b => some (0xA0000003 + d.toNat * 2097152 + a.toNat * 16384 + b.toNat * 128)
  | .pollOr d a b => some (0xA0000004 + d.toNat * 2097152 + a.toNat * 16384 + b.toNat * 128)
  | .pollAnd d a b => some (0xA0000005 + d.toNat * 2097152 + a.toNat * 16384 + b.toNat * 128)
  | .pollSame d a b => some (0xA0000006 + d.toNat * 2097152 + a.toNat * 16384 + b.toNat * 128)
  | .pgather d a b => some (0xA0000007 + d.toNat * 2097152 + a.toNat * 16384 + b.toNat * 128)
  | .reduxAdd d a b => some (0xA0000008 + d.toNat * 2097152 + a.toNat * 16384 + b.toNat * 128)
  | .reduxMin d a b => some (0xA0000009 + d.toNat * 2097152 + a.toNat * 16384 + b.toNat * 128)
  | .reduxMax d a b => some (0xA000000A + d.toNat * 2097152 + a.toNat * 16384 + b.toNat * 128)
  | .reduxMinu d a b => some (0xA000000B + d.toNat * 2097152 + a.toNat * 16384 + b.toNat * 128)
  | .reduxMaxu d a b => some (0xA000000C + d.toNat * 2097152 + a.toNat * 16384 + b.toNat * 128)
  | .reduxAnd d a b => some (0xA000000D + d.toNat * 2097152 + a.toNat * 16384 + b.toNat * 128)
  | .reduxOr d a b => some (0xA000000E + d.toNat * 2097152 + a.toNat * 16384 + b.toNat * 128)
  | .reduxXor d a b => some (0xA000000F + d.toNat * 2097152 + a.toNat * 16384 + b.toNat * 128)
  | .reduxFadd d a b => some (0xA0000010 + d.toNat * 2097152 + a.toNat * 16384 + b.toNat * 128)
  | .reduxFmin d a b => some (0xA0000011 + d.toNat * 2097152 + a.toNat * 16384 + b.toNat * 128)
  | .reduxFmax d a b => some (0xA0000012 + d.toNat * 2097152 + a.toNat * 16384 + b.toNat * 128)
  | .scanAdd d a b => some (0xA0000013 + d.toNat * 2097152 + a.toNat * 16384 + b.toNat * 128)
  | .scanFadd d a b => some (0xA0000014 + d.toNat * 2097152 + a.toNat * 16384 + b.toNat * 128)
  | .barinit a b => some (0xA0000020 + a.toNat * 16384 + b.toNat * 128)
  | .bararv d a => some (0xA0000021 + d.toNat * 2097152 + a.toNat * 16384)
  | .barwait a b => some (0xA0000022 + a.toNat * 16384 + b.toNat * 128)
  | .barsync a => some (0xA0000023 + a.toNat * 16384)
  | .nbararv d a => some (0xA0000024 + d.toNat * 2097152 + a.toNat * 16384)
  | .nbarwait a b => some (0xA0000025 + a.toNat * 16384 + b.toNat * 128)
  | .nbarsync a => some (0xA0000026 + a.toNat * 16384)
  | .cinit n a => some (0xA0000028 + n.toNat * 2097152 + a.toNat * 16384)
  | .msign d n => some (0xA0000029 + d.toNat * 2097152 + n.toNat * 16384)
  | .cwait n b => some (0xA000002A + n.toNat * 16384 + b.toNat * 128)
  | .fenceB => some (0xA0000030)
  | .fenceN => some (0xA0000031)
  | .fenceQ => some (0xA0000032)
  | .fenceT => some (0xA0000033)
  | .fenceS => some (0xA0000034)
  | .ofence => some (0xA0000035)
  | .commit => some (0xA0000038)
  | .waitb n => some (0xA0000039 + n.toNat * 128)
  | .waitseq a e => some (0xA000003A + a.toNat * 16384 + e.toNat * 128)
  | .qwaitDone d a b => some (0xA000003B + d.toNat * 2097152 + a.toNat * 16384 + b.toNat * 128)
  | .qwaitTake d a b => some (0xA800003B + d.toNat * 2097152 + a.toNat * 16384 + b.toNat * 128)
  | .nichewait a => some (0xA000003C + a.toNat * 16384)
  | .tmovTr d t b o => some (0xB0000040 + d.toNat * 2097152 + t.toNat * 16384 + b.toNat * 128 + o.toNat)
  | .tmovTc d t b o => some (0xB0080040 + d.toNat * 2097152 + t.toNat * 16384 + b.toNat * 128 + o.toNat)
  | .tmovRt d t b o => some (0xB0100040 + d.toNat * 2097152 + t.toNat * 16384 + b.toNat * 128 + o.toNat)
  | .tmovCt d t b o => some (0xB0180040 + d.toNat * 2097152 + t.toNat * 16384 + b.toNat * 128 + o.toNat)
  | .tstat d t => some (0xB0000000 + d.toNat * 2097152 + t.toNat * 16384)
  | .twait t => some (0xB0000001 + t.toNat * 16384)
  | .bload id p q k => some (0xC0000000 + id.toNat * 4194304 + p.toNat * 65536 + q.toNat * 1024 + k.toNat * 32)
  | .mma id p q k => some (0xC0000001 + id.toNat * 4194304 + p.toNat * 65536 + q.toNat * 1024 + k.toNat * 32)
  | .mmas id p q k => some (0xC0000002 + id.toNat * 4194304 + p.toNat * 65536 + q.toNat * 1024 + k.toNat * 32)
  | .tzero id p q k => some (0xC0000003 + id.toNat * 4194304 + p.toNat * 65536 + q.toNat * 1024 + k.toNat * 32)
  | .tdrain id p q k => some (0xC0000004 + id.toNat * 4194304 + p.toNat * 65536 + q.toNat * 1024 + k.toNat * 32)
  | .tfill id p q k => some (0xC0000005 + id.toNat * 4194304 + p.toNat * 65536 + q.toNat * 1024 + k.toNat * 32)
  | .xtrav id p q k => some (0xC0000008 + id.toNat * 4194304 + p.toNat * 65536 + q.toNat * 1024 + k.toNat * 32)
  | .xtravRes id p q k => some (0xC0000009 + id.toNat * 4194304 + p.toNat * 65536 + q.toNat * 1024 + k.toNat * 32)
  | .copy id p q k => some (0xC0000010 + id.toNat * 4194304 + p.toNat * 65536 + q.toNat * 1024 + k.toNat * 32)
  | .scatter id p q k => some (0xC0000011 + id.toNat * 4194304 + p.toNat * 65536 + q.toNat * 1024 + k.toNat * 32)
  | .restripe id p q k => some (0xC0000012 + id.toNat * 4194304 + p.toNat * 65536 + q.toNat * 1024 + k.toNat * 32)
  | .coll id p q k => some (0xC0000013 + id.toNat * 4194304 + p.toNat * 65536 + q.toNat * 1024 + k.toNat * 32)
  | .enc id p q k => some (0xC0000018 + id.toNat * 4194304 + p.toNat * 65536 + q.toNat * 1024 + k.toNat * 32)
  | .emit id p q k => some (0xC0000019 + id.toNat * 4194304 + p.toNat * 65536 + q.toNat * 1024 + k.toNat * 32)
  | .ndone id p q k => some (0xC000001A + id.toNat * 4194304 + p.toNat * 65536 + q.toNat * 1024 + k.toNat * 32)
  | .tcbarm id p q k => some (0xC000001B + id.toNat * 4194304 + p.toNat * 65536 + q.toNat * 1024 + k.toNat * 32)
  | .tcbret id p q k => some (0xC000001C + id.toNat * 4194304 + p.toNat * 65536 + q.toNat * 1024 + k.toNat * 32)
  | .sadd d a b => some (0xD0000000 + d.toNat * 2097152 + a.toNat * 16384 + b.toNat * 128)
  | .ssub d a b => some (0xD0000001 + d.toNat * 2097152 + a.toNat * 16384 + b.toNat * 128)
  | .smul d a b => some (0xD0000002 + d.toNat * 2097152 + a.toNat * 16384 + b.toNat * 128)
  | .sand d a b => some (0xD0000003 + d.toNat * 2097152 + a.toNat * 16384 + b.toNat * 128)
  | .sor d a b => some (0xD0000004 + d.toNat * 2097152 + a.toNat * 16384 + b.toNat * 128)
  | .sxor d a b => some (0xD0000005 + d.toNat * 2097152 + a.toNat * 16384 + b.toNat * 128)
  | .sshl d a b => some (0xD0000006 + d.toNat * 2097152 + a.toNat * 16384 + b.toNat * 128)
  | .sshr d a b => some (0xD0000007 + d.toNat * 2097152 + a.toNat * 16384 + b.toNat * 128)
  | .ssar d a b => some (0xD0000008 + d.toNat * 2097152 + a.toNat * 16384 + b.toNat * 128)
  | .smin d a b => some (0xD0000009 + d.toNat * 2097152 + a.toNat * 16384 + b.toNat * 128)
  | .smax d a b => some (0xD000000A + d.toNat * 2097152 + a.toNat * 16384 + b.toNat * 128)
  | .sminu d a b => some (0xD000000B + d.toNat * 2097152 + a.toNat * 16384 + b.toNat * 128)
  | .smaxu d a b => some (0xD000000C + d.toNat * 2097152 + a.toNat * 16384 + b.toNat * 128)
  | .scmp c p a b => some (0xD000000D + c.toNat * 33554432 + p.toNat * 2097152 + a.toNat * 16384 + b.toNat * 128)
  | .smov d a => some (0xD000000F + d.toNat * 2097152 + a.toNat * 16384)
  | .saddi d a i => some (0xD0000010 + d.toNat * 2097152 + a.toNat * 16384 + i.toNat * 128)
  | .sshli d a n => some (0xD0000011 + d.toNat * 2097152 + a.toNat * 16384 + n.toNat * 128)
  | .sshri d a n => some (0xD0000012 + d.toNat * 2097152 + a.toNat * 16384 + n.toNat * 128)
  | .ssari d a n => some (0xD0000013 + d.toNat * 2097152 + a.toNat * 16384 + n.toNat * 128)
  | .v2s d a => some (0xD0000018 + d.toNat * 2097152 + a.toNat * 16384)
  | .s2v d a => some (0xD0000019 + d.toNat * 2097152 + a.toNat * 16384)
  | .sld32 d a b => some (0xD000001A + d.toNat * 2097152 + a.toNat * 16384 + b.toNat * 128)
  | .sst32 d a b => some (0xD000001B + d.toNat * 2097152 + a.toNat * 16384 + b.toNat * 128)
  | .sadd64 d a b => some (0xD000001C + d.toNat * 2097152 + a.toNat * 16384 + b.toNat * 128)
  | .srd d n => some (0xE0000000 + d.toNat * 2097152 + n.toNat * 128)
  | .swr d n => some (0xE0000001 + d.toNat * 2097152 + n.toNat * 128)
  | .tret => some (0xE0000002)
  | .tinv a => some (0xE0000003 + a.toNat * 16384)
  | .tinva => some (0xE0000004)
  | .pinv d a b => some (0xE0000005 + d.toNat * 2097152 + a.toNat * 16384 + b.toNat * 128)
  | .pinva d b => some (0xE0000006 + d.toNat * 2097152 + b.toNat * 128)
  | .launch d a b => some (0xE0000007 + d.toNat * 2097152 + a.toNat * 16384 + b.toNat * 128)
  | .ckpt d => some (0xE0000008 + d.toNat * 2097152)
  | .keyset d a b => some (0xE0000009 + d.toNat * 2097152 + a.toNat * 16384 + b.toNat * 128)
  | .keyerase a => some (0xE000000A + a.toNat * 16384)
  | .ustat d a b => some (0xE000000B + d.toNat * 2097152 + a.toNat * 16384 + b.toNat * 128)
  | .slnew d a b => some (0xE0000040 + d.toNat * 2097152 + a.toNat * 16384 + b.toNat * 128)
  | .sldel d a => some (0xE0000041 + d.toNat * 2097152 + a.toNat * 16384)
  | .slassign d a b => some (0xE0000042 + d.toNat * 2097152 + a.toNat * 16384 + b.toNat * 128)
  | .slquiesce d a b => some (0xE0000043 + d.toNat * 2097152 + a.toNat * 16384 + b.toNat * 128)
  | .slresume d a => some (0xE0000044 + d.toNat * 2097152 + a.toNat * 16384)
  | .slsplit d a b => some (0xE0000045 + d.toNat * 2097152 + a.toNat * 16384 + b.toNat * 128)
  | .slfuse d a => some (0xE0000046 + d.toNat * 2097152 + a.toNat * 16384)
  | .slways d a b => some (0xE0000047 + d.toNat * 2097152 + a.toNat * 16384 + b.toNat * 128)
  | .slplace d a b => some (0xE0000048 + d.toNat * 2097152 + a.toNat * 16384 + b.toNat * 128)
  | .slquota d a b => some (0xE0000049 + d.toNat * 2097152 + a.toNat * 16384 + b.toNat * 128)
  | .slreset d a => some (0xE000004A + d.toNat * 2097152 + a.toNat * 16384)
  | .slstat d a b => some (0xE000004B + d.toNat * 2097152 + a.toNat * 16384 + b.toNat * 128)
  | .rep n x y z t => some (0xF0000000 + n.toNat * 262144 + x.toNat * 131072 + y.toNat * 65536 + z.toNat * 32768 + t.toNat * 2048)
  | .ifp p g => some (0xF1000000 + p.toNat * 2097152 + g.toNat * 1048576)
  | .limm t => some (0xF2000000 + t.toNat * 4194304)
  | .swin w => some (0xF3000000 + w.toNat * 2097152)
  | _ => none

/-- R36: the 32-bit word of an instruction. -/
def encode (i : Instr) : Option (BitVec 32) := (encodeNat i).map (BitVec.ofNat 32)

/-- R55: which of the fields d, a and b name a register, so that a REP step bit may be set on them. -/
structure StepFields where
  d : Bool
  a : Bool
  b : Bool
deriving DecidableEq, Repr

/-- R55: the fields a REP may step; `none` before a class that refuses REP. -/
def Instr.stepFields : Instr → Option StepFields
  | .iadd _ _ _ _ => some ⟨true, true, true⟩
  | .isub _ _ _ _ => some ⟨true, true, true⟩
  | .imul _ _ _ _ => some ⟨true, true, true⟩
  | .imulhi _ _ _ _ => some ⟨true, true, true⟩
  | .imulhiu _ _ _ _ => some ⟨true, true, true⟩
  | .imad _ _ _ _ => some ⟨true, true, true⟩
  | .iabs _ _ => some ⟨true, true, false⟩
  | .idiv _ _ _ _ => some ⟨true, true, true⟩
  | .idivu _ _ _ _ => some ⟨true, true, true⟩
  | .irem _ _ _ _ => some ⟨true, true, true⟩
  | .iremu _ _ _ _ => some ⟨true, true, true⟩
  | .imin _ _ _ _ => some ⟨true, true, true⟩
  | .imax _ _ _ _ => some ⟨true, true, true⟩
  | .iminu _ _ _ _ => some ⟨true, true, true⟩
  | .imaxu _ _ _ _ => some ⟨true, true, true⟩
  | .iadds _ _ _ _ => some ⟨true, true, true⟩
  | .isubs _ _ _ _ => some ⟨true, true, true⟩
  | .iaddus _ _ _ _ => some ⟨true, true, true⟩
  | .isubus _ _ _ _ => some ⟨true, true, true⟩
  | .iadd64 _ _ _ _ => some ⟨true, true, true⟩
  | .isub64 _ _ _ _ => some ⟨true, true, true⟩
  | .imulw _ _ _ _ => some ⟨true, true, true⟩
  | .imulwu _ _ _ _ => some ⟨true, true, true⟩
  | .icmp _ _ _ _ _ => some ⟨false, true, true⟩
  | .icmp64 _ _ _ _ _ => some ⟨false, true, true⟩
  | .iaddsh1 _ _ _ _ => some ⟨true, true, true⟩
  | .iaddsh2 _ _ _ _ => some ⟨true, true, true⟩
  | .iaddsh3 _ _ _ _ => some ⟨true, true, true⟩
  | .iaddsh4 _ _ _ _ => some ⟨true, true, true⟩
  | .sel _ _ _ _ _ => some ⟨true, true, true⟩
  | .mov _ _ => some ⟨true, true, false⟩
  | .movri _ _ => some ⟨true, true, false⟩
  | .movwi _ _ _ => some ⟨false, true, true⟩
  | .sext8 _ _ => some ⟨true, true, false⟩
  | .sext16 _ _ => some ⟨true, true, false⟩
  | .iaddi _ _ _ => some ⟨true, true, false⟩
  | .imuli _ _ _ => some ⟨true, true, false⟩
  | .andi _ _ _ => some ⟨true, true, false⟩
  | .ori _ _ _ => some ⟨true, true, false⟩
  | .xori _ _ _ => some ⟨true, true, false⟩
  | .icmpi _ _ _ _ => some ⟨false, true, false⟩
  | .shli _ _ _ => some ⟨true, true, false⟩
  | .shri _ _ _ => some ⟨true, true, false⟩
  | .sari _ _ _ => some ⟨true, true, false⟩
  | .roli _ _ _ => some ⟨true, true, false⟩
  | .rori _ _ _ => some ⟨true, true, false⟩
  | .movi _ _ => some ⟨true, false, false⟩
  | .and _ _ _ _ => some ⟨true, true, true⟩
  | .or _ _ _ _ => some ⟨true, true, true⟩
  | .xor _ _ _ _ => some ⟨true, true, true⟩
  | .andn _ _ _ _ => some ⟨true, true, true⟩
  | .orn _ _ _ _ => some ⟨true, true, true⟩
  | .xnor _ _ _ _ => some ⟨true, true, true⟩
  | .not _ _ => some ⟨true, true, false⟩
  | .shl _ _ _ _ => some ⟨true, true, true⟩
  | .shr _ _ _ _ => some ⟨true, true, true⟩
  | .sar _ _ _ _ => some ⟨true, true, true⟩
  | .rol _ _ _ _ => some ⟨true, true, true⟩
  | .ror _ _ _ _ => some ⟨true, true, true⟩
  | .shl64 _ _ _ _ => some ⟨true, true, true⟩
  | .shr64 _ _ _ _ => some ⟨true, true, true⟩
  | .sar64 _ _ _ _ => some ⟨true, true, true⟩
  | .clz _ _ => some ⟨true, true, false⟩
  | .ctz _ _ => some ⟨true, true, false⟩
  | .popc _ _ => some ⟨true, true, false⟩
  | .brev _ _ => some ⟨true, true, false⟩
  | .clz64 _ _ => some ⟨true, true, false⟩
  | .ctz64 _ _ => some ⟨true, true, false⟩
  | .popc64 _ _ => some ⟨true, true, false⟩
  | .brev64 _ _ => some ⟨true, true, false⟩
  | .bfx _ _ _ _ => some ⟨true, true, true⟩
  | .bfxs _ _ _ _ => some ⟨true, true, true⟩
  | .bfi _ _ _ _ => some ⟨true, true, true⟩
  | .pdep _ _ _ _ => some ⟨true, true, true⟩
  | .pext _ _ _ _ => some ⟨true, true, true⟩
  | .pdep64 _ _ _ _ => some ⟨true, true, true⟩
  | .pext64 _ _ _ _ => some ⟨true, true, true⟩
  | .bperm _ _ _ _ => some ⟨true, true, true⟩
  | .bmm8 _ _ _ _ => some ⟨true, true, true⟩
  | .bmm8t _ _ _ _ => some ⟨true, true, true⟩
  | .plop _ _ _ _ => some ⟨false, false, false⟩
  | .p2v _ => some ⟨true, false, false⟩
  | .v2p _ => some ⟨false, true, false⟩
  | .fadd _ _ _ _ _ _ _ => some ⟨true, true, true⟩
  | .fmul _ _ _ _ _ _ _ => some ⟨true, true, true⟩
  | .ffma _ _ _ _ _ _ _ => some ⟨true, true, true⟩
  | .fsub _ _ _ _ _ _ _ => some ⟨true, true, true⟩
  | .fmin _ _ _ _ => some ⟨true, true, true⟩
  | .fmax _ _ _ _ => some ⟨true, true, true⟩
  | .fminnm _ _ _ _ => some ⟨true, true, true⟩
  | .fmaxnm _ _ _ _ => some ⟨true, true, true⟩
  | .fcmp _ _ _ _ _ => some ⟨false, true, true⟩
  | .fabs _ _ => some ⟨true, true, false⟩
  | .fneg _ _ => some ⟨true, true, false⟩
  | .fcopysign _ _ _ _ => some ⟨true, true, true⟩
  | .frint _ _ _ => some ⟨true, true, false⟩
  | .fclass _ _ => some ⟨true, true, false⟩
  | .frcp _ _ => some ⟨true, true, false⟩
  | .frsq _ _ => some ⟨true, true, false⟩
  | .fexp2 _ _ => some ⟨true, true, false⟩
  | .flog2 _ _ => some ⟨true, true, false⟩
  | .fsin _ _ => some ⟨true, true, false⟩
  | .fcos _ _ => some ⟨true, true, false⟩
  | .f2i _ _ _ => some ⟨true, true, false⟩
  | .f2u _ _ _ => some ⟨true, true, false⟩
  | .i2f _ _ _ => some ⟨true, true, false⟩
  | .u2f _ _ _ => some ⟨true, true, false⟩
  | .f2h _ _ _ => some ⟨true, true, false⟩
  | .h2f _ _ => some ⟨true, true, false⟩
  | .f2d _ _ => some ⟨true, true, false⟩
  | .d2f _ _ _ => some ⟨true, true, false⟩
  | .dadd _ _ _ _ _ => some ⟨true, true, true⟩
  | .dmul _ _ _ _ _ => some ⟨true, true, true⟩
  | .dfma _ _ _ _ _ => some ⟨true, true, true⟩
  | .dsub _ _ _ _ _ => some ⟨true, true, true⟩
  | .dmin _ _ _ _ => some ⟨true, true, true⟩
  | .dmax _ _ _ _ => some ⟨true, true, true⟩
  | .dminnm _ _ _ _ => some ⟨true, true, true⟩
  | .dmaxnm _ _ _ _ => some ⟨true, true, true⟩
  | .dcmp _ _ _ _ _ => some ⟨false, true, true⟩
  | .d2i _ _ _ => some ⟨true, true, false⟩
  | .i2d _ _ => some ⟨true, true, false⟩
  | .dabs _ _ => some ⟨true, true, false⟩
  | .hadd2 _ _ _ _ _ => some ⟨true, true, true⟩
  | .hmul2 _ _ _ _ _ => some ⟨true, true, true⟩
  | .hfma2 _ _ _ _ _ => some ⟨true, true, true⟩
  | .hsub2 _ _ _ _ _ => some ⟨true, true, true⟩
  | .badd2 _ _ _ _ _ => some ⟨true, true, true⟩
  | .bmul2 _ _ _ _ _ => some ⟨true, true, true⟩
  | .bfma2 _ _ _ _ _ => some ⟨true, true, true⟩
  | .bsub2 _ _ _ _ _ => some ⟨true, true, true⟩
  | .hmin2 _ _ _ _ => some ⟨true, true, true⟩
  | .hmax2 _ _ _ _ => some ⟨true, true, true⟩
  | .bmin2 _ _ _ _ => some ⟨true, true, true⟩
  | .bmax2 _ _ _ _ => some ⟨true, true, true⟩
  | .hcmp2 _ _ _ _ _ => some ⟨false, true, true⟩
  | .bcmp2 _ _ _ _ _ => some ⟨false, true, true⟩
  | .pkh2 _ _ _ _ _ => some ⟨true, true, true⟩
  | .pkb2 _ _ _ _ _ => some ⟨true, true, true⟩
  | .upkh _ _ _ => some ⟨true, true, false⟩
  | .upkb _ _ _ => some ⟨true, true, false⟩
  | .pke4m _ _ _ _ => some ⟨true, true, true⟩
  | .pke5m _ _ _ _ => some ⟨true, true, true⟩
  | .pkf4m _ _ _ _ => some ⟨true, true, true⟩
  | .upke4 _ _ _ => some ⟨true, true, false⟩
  | .upke5 _ _ _ => some ⟨true, true, false⟩
  | .upkf4 _ _ _ => some ⟨true, true, false⟩
  | .mxscale _ _ _ => some ⟨true, true, false⟩
  | .idp4 _ _ _ _ => some ⟨true, true, true⟩
  | .idp4u _ _ _ _ => some ⟨true, true, true⟩
  | .ld _ _ _ _ _ => some ⟨true, true, false⟩
  | .st _ _ _ _ _ => some ⟨true, true, false⟩
  | .atomSp _ _ _ _ => some ⟨true, true, false⟩
  | .sld _ _ _ _ => some ⟨true, true, false⟩
  | .sst _ _ _ _ => some ⟨true, true, false⟩
  | .nld _ _ _ _ => some ⟨true, true, false⟩
  | .nst _ _ _ _ => some ⟨true, true, false⟩
  | .atomNb _ _ _ _ => some ⟨true, true, false⟩
  | .atomRec _ _ _ _ => some ⟨true, true, false⟩
  | .atom64 _ _ _ _ => some ⟨true, true, false⟩
  | .faddx _ _ _ => some ⟨true, true, false⟩
  | .rcrd _ _ _ => some ⟨true, true, false⟩
  | .rcclr _ _ => some ⟨false, true, false⟩
  | .pref _ _ _ => some ⟨false, true, false⟩
  | .cwb _ _ => some ⟨false, true, false⟩
  | .cinv _ _ => some ⟨false, true, false⟩
  | .sample _ _ _ => some ⟨true, true, false⟩
  | .sadd _ _ _ => some ⟨true, true, true⟩
  | .ssub _ _ _ => some ⟨true, true, true⟩
  | .smul _ _ _ => some ⟨true, true, true⟩
  | .sand _ _ _ => some ⟨true, true, true⟩
  | .sor _ _ _ => some ⟨true, true, true⟩
  | .sxor _ _ _ => some ⟨true, true, true⟩
  | .sshl _ _ _ => some ⟨true, true, true⟩
  | .sshr _ _ _ => some ⟨true, true, true⟩
  | .ssar _ _ _ => some ⟨true, true, true⟩
  | .smin _ _ _ => some ⟨true, true, true⟩
  | .smax _ _ _ => some ⟨true, true, true⟩
  | .sminu _ _ _ => some ⟨true, true, true⟩
  | .smaxu _ _ _ => some ⟨true, true, true⟩
  | .scmp _ _ _ _ => some ⟨false, true, true⟩
  | .smov _ _ => some ⟨true, true, false⟩
  | .saddi _ _ _ => some ⟨true, true, false⟩
  | .sshli _ _ _ => some ⟨true, true, false⟩
  | .sshri _ _ _ => some ⟨true, true, false⟩
  | .ssari _ _ _ => some ⟨true, true, false⟩
  | .v2s _ _ => some ⟨true, true, false⟩
  | .s2v _ _ => some ⟨true, true, false⟩
  | .sld32 _ _ _ => some ⟨true, true, false⟩
  | .sst32 _ _ _ => some ⟨true, true, false⟩
  | .sadd64 _ _ _ => some ⟨true, true, true⟩
  | _ => none

/-- The operand that a LIMM replaces (R50). -/
inductive LimmTarget where
  | b
  | a
  | imm11
deriving DecidableEq, Repr

/-- R50: the target a LIMM word names. -/
def LimmTarget.ofField (t : BitVec 2) : LimmTarget :=
  if t.toNat = 0 then .b else if t.toNat = 1 then .a else .imm11

/-- R53: the LIMM targets legal for an instruction, its replaced field (and SB) taken as zero elsewhere. -/
def Instr.limmTargets : Instr → List LimmTarget
  | .iadd _ _ _ _ => [.b, .a]
  | .isub _ _ _ _ => [.b, .a]
  | .imul _ _ _ _ => [.b, .a]
  | .imulhi _ _ _ _ => [.b, .a]
  | .imulhiu _ _ _ _ => [.b, .a]
  | .imad _ _ _ _ => [.b, .a]
  | .iabs _ _ => [.a]
  | .idiv _ _ _ _ => [.b, .a]
  | .idivu _ _ _ _ => [.b, .a]
  | .irem _ _ _ _ => [.b, .a]
  | .iremu _ _ _ _ => [.b, .a]
  | .imin _ _ _ _ => [.b, .a]
  | .imax _ _ _ _ => [.b, .a]
  | .iminu _ _ _ _ => [.b, .a]
  | .imaxu _ _ _ _ => [.b, .a]
  | .iadds _ _ _ _ => [.b, .a]
  | .isubs _ _ _ _ => [.b, .a]
  | .iaddus _ _ _ _ => [.b, .a]
  | .isubus _ _ _ _ => [.b, .a]
  | .iadd64 _ _ _ _ => [.b, .a]
  | .isub64 _ _ _ _ => [.b, .a]
  | .imulw _ _ _ _ => [.b, .a]
  | .imulwu _ _ _ _ => [.b, .a]
  | .icmp _ _ _ _ _ => [.b, .a]
  | .icmp64 _ _ _ _ _ => [.b, .a]
  | .iaddsh1 _ _ _ _ => [.b, .a]
  | .iaddsh2 _ _ _ _ => [.b, .a]
  | .iaddsh3 _ _ _ _ => [.b, .a]
  | .iaddsh4 _ _ _ _ => [.b, .a]
  | .sel _ _ _ _ _ => [.b, .a]
  | .mov _ _ => [.a]
  | .movri _ _ => [.a]
  | .movwi _ _ _ => [.b, .a]
  | .sext8 _ _ => [.a]
  | .sext16 _ _ => [.a]
  | .iaddi _ _ _ => [.imm11]
  | .imuli _ _ _ => [.imm11]
  | .andi _ _ _ => [.imm11]
  | .ori _ _ _ => [.imm11]
  | .xori _ _ _ => [.imm11]
  | .icmpi _ _ _ _ => [.imm11]
  | .and _ _ _ _ => [.b, .a]
  | .or _ _ _ _ => [.b, .a]
  | .xor _ _ _ _ => [.b, .a]
  | .andn _ _ _ _ => [.b, .a]
  | .orn _ _ _ _ => [.b, .a]
  | .xnor _ _ _ _ => [.b, .a]
  | .not _ _ => [.a]
  | .shl _ _ _ _ => [.b, .a]
  | .shr _ _ _ _ => [.b, .a]
  | .sar _ _ _ _ => [.b, .a]
  | .rol _ _ _ _ => [.b, .a]
  | .ror _ _ _ _ => [.b, .a]
  | .shl64 _ _ _ _ => [.b, .a]
  | .shr64 _ _ _ _ => [.b, .a]
  | .sar64 _ _ _ _ => [.b, .a]
  | .clz _ _ => [.a]
  | .ctz _ _ => [.a]
  | .popc _ _ => [.a]
  | .brev _ _ => [.a]
  | .clz64 _ _ => [.a]
  | .ctz64 _ _ => [.a]
  | .popc64 _ _ => [.a]
  | .brev64 _ _ => [.a]
  | .bfx _ _ _ _ => [.b, .a]
  | .bfxs _ _ _ _ => [.b, .a]
  | .bfi _ _ _ _ => [.b, .a]
  | .pdep _ _ _ _ => [.b, .a]
  | .pext _ _ _ _ => [.b, .a]
  | .pdep64 _ _ _ _ => [.b, .a]
  | .pext64 _ _ _ _ => [.b, .a]
  | .bperm _ _ _ _ => [.b, .a]
  | .bmm8 _ _ _ _ => [.b, .a]
  | .bmm8t _ _ _ _ => [.b, .a]
  | .v2p _ => [.a]
  | .fadd _ _ _ _ _ _ _ => [.b, .a]
  | .fmul _ _ _ _ _ _ _ => [.b, .a]
  | .ffma _ _ _ _ _ _ _ => [.b, .a]
  | .fsub _ _ _ _ _ _ _ => [.b, .a]
  | .fmin _ _ _ _ => [.b, .a]
  | .fmax _ _ _ _ => [.b, .a]
  | .fminnm _ _ _ _ => [.b, .a]
  | .fmaxnm _ _ _ _ => [.b, .a]
  | .fcmp _ _ _ _ _ => [.b, .a]
  | .fabs _ _ => [.a]
  | .fneg _ _ => [.a]
  | .fcopysign _ _ _ _ => [.b, .a]
  | .frint _ _ _ => [.a]
  | .fclass _ _ => [.a]
  | .frcp _ _ => [.a]
  | .frsq _ _ => [.a]
  | .fexp2 _ _ => [.a]
  | .flog2 _ _ => [.a]
  | .fsin _ _ => [.a]
  | .fcos _ _ => [.a]
  | .f2i _ _ _ => [.a]
  | .f2u _ _ _ => [.a]
  | .i2f _ _ _ => [.a]
  | .u2f _ _ _ => [.a]
  | .f2h _ _ _ => [.a]
  | .h2f _ _ => [.a]
  | .f2d _ _ => [.a]
  | .d2f _ _ _ => [.a]
  | .dadd _ _ _ _ _ => [.b, .a]
  | .dmul _ _ _ _ _ => [.b, .a]
  | .dfma _ _ _ _ _ => [.b, .a]
  | .dsub _ _ _ _ _ => [.b, .a]
  | .dmin _ _ _ _ => [.b, .a]
  | .dmax _ _ _ _ => [.b, .a]
  | .dminnm _ _ _ _ => [.b, .a]
  | .dmaxnm _ _ _ _ => [.b, .a]
  | .dcmp _ _ _ _ _ => [.b, .a]
  | .d2i _ _ _ => [.a]
  | .i2d _ _ => [.a]
  | .dabs _ _ => [.a]
  | .hadd2 _ _ _ _ _ => [.b, .a]
  | .hmul2 _ _ _ _ _ => [.b, .a]
  | .hfma2 _ _ _ _ _ => [.b, .a]
  | .hsub2 _ _ _ _ _ => [.b, .a]
  | .badd2 _ _ _ _ _ => [.b, .a]
  | .bmul2 _ _ _ _ _ => [.b, .a]
  | .bfma2 _ _ _ _ _ => [.b, .a]
  | .bsub2 _ _ _ _ _ => [.b, .a]
  | .hmin2 _ _ _ _ => [.b, .a]
  | .hmax2 _ _ _ _ => [.b, .a]
  | .bmin2 _ _ _ _ => [.b, .a]
  | .bmax2 _ _ _ _ => [.b, .a]
  | .hcmp2 _ _ _ _ _ => [.b, .a]
  | .bcmp2 _ _ _ _ _ => [.b, .a]
  | .pkh2 _ _ _ _ _ => [.b, .a]
  | .pkb2 _ _ _ _ _ => [.b, .a]
  | .upkh _ _ _ => [.a]
  | .upkb _ _ _ => [.a]
  | .pke4m _ _ _ _ => [.b]
  | .pke5m _ _ _ _ => [.b]
  | .pkf4m _ _ _ _ => [.b]
  | .upke4 _ _ _ => [.a]
  | .upke5 _ _ _ => [.a]
  | .upkf4 _ _ _ => [.a]
  | .mxscale _ _ _ => [.a]
  | .idp4 _ _ _ _ => [.b, .a]
  | .idp4u _ _ _ _ => [.b, .a]
  | .sadd _ _ _ => [.b, .a]
  | .ssub _ _ _ => [.b, .a]
  | .smul _ _ _ => [.b, .a]
  | .sand _ _ _ => [.b, .a]
  | .sor _ _ _ => [.b, .a]
  | .sxor _ _ _ => [.b, .a]
  | .sshl _ _ _ => [.b, .a]
  | .sshr _ _ _ => [.b, .a]
  | .ssar _ _ _ => [.b, .a]
  | .smin _ _ _ => [.b, .a]
  | .smax _ _ _ => [.b, .a]
  | .sminu _ _ _ => [.b, .a]
  | .smaxu _ _ _ => [.b, .a]
  | .scmp _ _ _ _ => [.b, .a]
  | .smov _ _ => [.a]
  | .saddi _ _ _ => [.a]
  | .sshli _ _ _ => [.a]
  | .sshri _ _ _ => [.a]
  | .ssari _ _ _ => [.a]
  | .v2s _ _ => [.a]
  | .s2v _ _ => [.a]
  | .sld32 _ _ _ => [.a]
  | .sst32 _ _ _ => [.a]
  | .sadd64 _ _ _ => [.b, .a]
  | _ => []

/-- R55: word `w` with its d, a and b fields moved by `i` times the stride where the step bits say so, each taken modulo 128. -/
def stepWord (w : BitVec 32) (sd sa sb : Bool) (i : Nat) (stride : Int) : BitVec 32 :=
  let move (on : Bool) (lo : Nat) : Nat := (((fld w.toNat 7 lo : Int) + if on then (i : Int) * stride else 0) % 128).toNat
  BitVec.ofNat 32 (fld w.toNat 4 28 * 268435456 + move sd 21 * 2097152 + move sa 14 * 16384 + move sb 7 * 128 + fld w.toNat 7 0)

/-- R53: the field that the literal replaces (with SB for target b) is zero in the word. -/
def limmFieldZero (w : BitVec 32) : LimmTarget → Bool
  | .b => fld w.toNat 7 7 == 0 && (4 ≤ fld w.toNat 4 28 && 5 < fld w.toNat 4 28 || !bit w.toNat 6)
  | .a => fld w.toNat 7 14 == 0
  | .imm11 => fld w.toNat 11 0 == 0

end Sys2Proof
end

