-- ==== Sys2Proof/Config.lean ====
section
/-! DEFINITION. What is fixed for one module, and the free values. The spec calls a value undefined (R10), leaves a choice open,
or leaves a standard's function (FIPS 202, FIPS 203, Falcon, AES, a codec) outside the manual: each stands here as a constant with
no body, so nothing proved about the machine rests on what it is. Most take the state's counter `fresh`, which the step advances,
so that two draws are not the same value. -/

namespace Sys2Proof.Config

/-- R10: an undefined byte, by draw and place. -/
opaque freeByte : Nat → Nat → Byte
/-- R10: an undefined 32-bit value, by draw and place. -/
opaque freeWord : Nat → Nat → Word
/-- R10, R442, R447: an undefined or entropy-drawn number, by draw. -/
opaque freeNat : Nat → Nat
/-- An open choice among `n` possibilities (R172, R387, R425): a number the model reduces modulo `n`. -/
opaque pick : Nat → Nat
/-- What the host's memory returns for the byte at an address of a port at one read (R264). -/
opaque hostByte : Nat → Nat → Nat → Byte
/-- R225, R442: byte i of what the ciphertext of a 16-byte block, written under one key at a host-physical address, shows when it is
deciphered under another: AES-XTS makes every byte of a block depend on all 16. -/
opaque decipher : Nat → Nat → Nat → List Byte → Nat → Byte
/-- SHAKE256 (FIPS 202) of a byte string, taken to a number of bytes. -/
opaque shake256 : List Byte → Nat → List Byte
/-- R441: what a wrapped share opens to under a session key: ML-KEM-1024 decapsulation, then AES-256-GCM. -/
opaque openShare : Nat → List Byte → Option (List Byte)
/-- R446: the public half of a session key drawn from the entropy source. -/
opaque sessionPublic : Nat → List Byte
/-- R447: the Falcon-1024 signature over a byte string by the alias key that the device secret and a FWDIGEST give. -/
opaque aliasSign : List Byte → List Byte → List Byte
/-- R447: the alias public key that the device secret and a FWDIGEST give. -/
opaque aliasPublic : List Byte → List Byte
/-- R447: the device key's Falcon-1024 signature over a byte string. -/
opaque deviceSign : List Byte → List Byte
/-- R363: the bitstream a codec gives for a frame, by session, draw and picture bytes. -/
opaque encodeFrame : Nat → Nat → List Byte → List Byte
/-- R1: ticks of device time that pass in one step. -/
opaque devTicks : Nat → Nat
/-- R445: milliseconds of the secure monotonic clock that pass in one step. -/
opaque secureTicks : Nat → Nat
/-- Clocks of the core clock that one step takes, less one (R106, R128, R155, R284, R368). -/
opaque extraClocks : Nat → Nat
/-- R453: the device serial number, fused. -/
opaque serial : DWord
/-- R453: whether an image that the mailbox reads from the host is authentic by R451, and its security version. -/
opaque imageCheck : Nat → Option Nat
/-- R451: the bytes of a firmware image, by the draw that names it. -/
opaque imageBytes : Nat → List Byte
/-- R427: the link identifier in the nonce of a port's flits. -/
opaque linkId : Nat → Nat
/-- R427: AES-256-GCM under the key that a draw names of a port's outgoing direction: ciphertext and tag, from nonce, associated data and
plaintext. -/
opaque sealFlit : Nat → Nat → List Byte → List Byte → List Byte → List Byte
/-- R429: InitialVFs and TotalVFs of each PF. -/
def totalVfs : Nat := 48
/-- R2, R3: cores in the module. -/
def nCores : Nat := 1280
/-- R2: cache slices in the module (R409: slice 12q + i lies in quadrant q). -/
def nCacheSlices : Nat := 384
/-- R407: slices 0 to 47. -/
def nSlices : Nat := 48
/-- R220: owner tag of the hypervisor's level-H work. -/
def ownerHv : Nat := 0x7E
/-- R220: owner tag of firmware. -/
def ownerFw : Nat := 0x7F
/-- R433: the number by which this model names the armature core (%core reads 0xFFFF_FFFF there, R144). -/
def armatureCore : Nat := 0xFFFFFFFF
/-- R439: the key slot of the hypervisor, under which second-stage tables are read (R237). -/
def hvKeySlot : Nat := 255

end Sys2Proof.Config
end

