-- ==== Sys2Proof/Machine/Cells.lean ====
section
/-! DEFINITION. Sparse data by key: sorted lists of (key, value) pairs with read, write and erase; byte strings as numbers (R6);
fields of numbers (R5). -/

namespace Sys2Proof.Machine

/-- Sparse data by key, keys rising. -/
abbrev SMap (α : Type) := List (Nat × α)

/-- The value at key `k`, if listed. -/
def SMap.get {α : Type} : SMap α → Nat → Option α
  | [], _ => none
  | (a, x) :: m, k => if a = k then some x else SMap.get m k

/-- The value at key `k`, or `d` when it is not listed. -/
def SMap.getD {α : Type} (m : SMap α) (k : Nat) (d : α) : α := (SMap.get m k).getD d

/-- `m` with `v` at key `k`. -/
def SMap.set {α : Type} : SMap α → Nat → α → SMap α
  | [], k, v => [(k, v)]
  | (a, x) :: m, k, v =>
    if k < a then (k, v) :: (a, x) :: m else if k = a then (k, v) :: m else (a, x) :: SMap.set m k v

/-- `m` with nothing at key `k`. -/
def SMap.erase {α : Type} (m : SMap α) (k : Nat) : SMap α := m.filter (fun c => c.1 != k)

/-- `m` less every key for which `p` holds. -/
def SMap.drop {α : Type} (m : SMap α) (p : Nat → Bool) : SMap α := m.filter (fun c => !p c.1)

/-- Keys strictly rising. -/
def SMap.sorted {α : Type} : SMap α → Bool
  | [] => true
  | [_] => true
  | (a, _) :: (b, y) :: m => a < b && SMap.sorted ((b, y) :: m)

/-- A byte memory in canonical form: cells that equal `0` are not listed. -/
abbrev Cells := List Host.Cell

/-- What an unlisted address of a byte memory reads as (log entry 1). -/
def unlistedByte : Byte := 0

/-- The byte at address `a`. -/
def Cells.read (m : Cells) (a : Nat) : Byte := SMap.getD m a unlistedByte

/-- `m` with byte `v` at address `a`. -/
def Cells.write (m : Cells) (a : Nat) (v : Byte) : Cells :=
  if v = unlistedByte then SMap.erase m a else SMap.set m a v

/-- The canonical form: addresses strictly rising and no cell that equals what an unlisted address reads as. -/
def Cells.wf (m : Cells) : Bool := SMap.sorted m && m.all (fun c => c.2 != unlistedByte)

/-- R6: the number whose byte i, from byte 0 up, is the i-th of a list. -/
def ofBytes : List Byte → Nat
  | [] => 0
  | b :: bs => b.toNat + 256 * ofBytes bs

/-- R6: the low `n` bytes of a number, byte 0 first. -/
def toBytes : Nat → Nat → List Byte
  | 0, _ => []
  | n + 1, x => BitVec.ofNat 8 x :: toBytes n (x / 256)

/-- `x` with its `width` bits from `lo` up replaced by `v`. -/
def setFld (x width lo v : Nat) : Nat :=
  x - fld x width lo * 2 ^ lo + v % 2 ^ width * 2 ^ lo

/-- R9: sext(x, n) as an integer. -/
def sextI (x n : Nat) : Int := if x % 2 ^ n < 2 ^ (n - 1) then (x % 2 ^ n : Nat) else (x % 2 ^ n : Nat) - (2 ^ n : Nat)

/-- List with the element at index `n` replaced. -/
def upd {α : Type} (l : List α) (n : Nat) (f : α → α) : List α := l.modify n f

/-- `x` put into a list in the order `le`, before what equals it. -/
def putInOrder {α : Type} (le : α → α → Bool) (x : α) : List α → List α
  | [] => [x]
  | y :: l => if le x y then x :: y :: l else y :: putInOrder le x l

/-- A list in the order `le`, what is equal in it left in its order. -/
def inOrder {α : Type} (le : α → α → Bool) (l : List α) : List α := l.foldr (putInOrder le) []

/-- The number of one bits among the low `n` bits of `x`. -/
def popcount : Nat → Nat → Nat
  | 0, _ => 0
  | n + 1, x => x % 2 + popcount n (x / 2)

/-- The positions of the one bits among bits 0 to n − 1 of `x`, ascending. -/
def bitsOf (n x : Nat) : List Nat := (List.range n).filter (fun i => x.testBit i)

/-- R378 and elsewhere: the numbers base, base + step, …, `n` of them. -/
def upto (base step : Nat) : Nat → List Nat
  | 0 => []
  | n + 1 => base :: upto (base + step) step n

end Sys2Proof.Machine
end

