-- ==== Sys2Proof/Machine/Flags.lean ====
section
/-! DEFINITION. Conditions that predicates are written from (R41), wrapping, clamping and division (R63, R64). The core has no other
flags (R63, R72). -/

namespace Sys2Proof.Machine

/-- R41, R91: the integer conditions, at any width. -/
def icond {w : Nat} (c : BitVec 3) (x y : BitVec w) : Bool :=
  match c.toNat with
  | 0 => x == y
  | 1 => x != y
  | 2 => x.slt y
  | 3 => x.sle y
  | 4 => y.slt x
  | 5 => y.sle x
  | 6 => x.ult y
  | _ => y.ule x

/-- R63: the exact result clamped to [lo, hi]. -/
def clampInt (lo hi x : Int) : Word := BitVec.ofInt 32 (max lo (min hi x))

/-- R63: clamped to a signed word. -/
def clampS (x : Int) : Word := clampInt (-2147483648) 2147483647 x

/-- R63: clamped to an unsigned word. -/
def clampU (x : Int) : Word := clampInt 0 4294967295 x

/-- R64: IDIV. -/
def divS (a b : Word) : Word := if b = 0 then 0xFFFFFFFF else BitVec.ofInt 32 (a.toInt.tdiv b.toInt)
/-- R64: IDIVU. -/
def divU (a b : Word) : Word := if b = 0 then 0xFFFFFFFF else BitVec.ofNat 32 (a.toNat / b.toNat)
/-- R64: IREM. -/
def remS (a b : Word) : Word := if b = 0 then a else BitVec.ofInt 32 (a.toInt.tmod b.toInt)
/-- R64: IREMU. -/
def remU (a b : Word) : Word := if b = 0 then a else BitVec.ofNat 32 (a.toNat % b.toNat)

/-- R90: signed minimum and maximum, unsigned minimum and maximum. -/
def minS (a b : Word) : Word := if a.sle b then a else b
/-- R90. -/
def maxS (a b : Word) : Word := if a.sle b then b else a
/-- R90. -/
def minU (a b : Word) : Word := if a.ule b then a else b
/-- R90. -/
def maxU (a b : Word) : Word := if a.ule b then b else a

end Sys2Proof.Machine
end

