-- ==== Sys2Proof/Machine/Float.lean ====
section
/-! DEFINITION. The floating-point formats and what is computed with them (R65 to R80), on exact numbers m × 2^e. -/

namespace Sys2Proof.Machine

/-- R66: a format by the widths of its exponent and fraction, its bias, and whether its all-ones exponent holds infinities and
NaNs. -/
structure Fmt where
  eb : Nat
  mb : Nat
  bias : Nat
  ieee : Bool := true
deriving DecidableEq, Repr

/-- R66. -/
def fp64 : Fmt := ⟨11, 52, 1023, true⟩
/-- R66. -/
def fp32 : Fmt := ⟨8, 23, 127, true⟩
/-- R66. -/
def fp16 : Fmt := ⟨5, 10, 15, true⟩
/-- R66. -/
def bf16 : Fmt := ⟨8, 7, 127, true⟩
/-- R66. -/
def e5m2 : Fmt := ⟨5, 2, 15, true⟩
/-- R66: NaN at 0x7F and 0xFF only. -/
def e4m3 : Fmt := ⟨4, 3, 7, false⟩
/-- R66: no infinity and no NaN. -/
def e2m1 : Fmt := ⟨2, 1, 1, false⟩

/-- The sign's place. -/
def Fmt.top (f : Fmt) : Nat := f.eb + f.mb
/-- The magnitude code of infinity in a format that has one. -/
def Fmt.infCode (f : Fmt) : Nat := (2 ^ f.eb - 1) * 2 ^ f.mb
/-- R73: the canonical NaN. -/
def Fmt.nan (f : Fmt) : Nat := if f.ieee then f.infCode + 2 ^ (f.mb - 1) else 2 ^ f.top - 1
/-- R66: the magnitude code of the largest finite value. -/
def Fmt.maxCode (f : Fmt) : Nat := if f.ieee then f.infCode - 1 else if f.eb = 4 then 2 ^ f.top - 2 else 2 ^ f.top - 1

/-- A number as an encoding gives it: a NaN, an infinity, or ±m × 2^e. -/
inductive Num where
  | nan
  | inf (neg : Bool)
  | fin (neg : Bool) (m : Nat) (e : Int)
deriving DecidableEq, Repr

/-- R65, R66: the number of an encoding. -/
def Fmt.decode (f : Fmt) (x : Nat) : Num :=
  let neg := x.testBit f.top
  let mag := x % 2 ^ f.top
  let ex := mag / 2 ^ f.mb
  let fr := mag % 2 ^ f.mb
  if f.ieee && ex == 2 ^ f.eb - 1 then (if fr = 0 then .inf neg else .nan)
  else if !f.ieee && f.eb == 4 && mag == 2 ^ f.top - 1 then .nan
  else if ex = 0 then .fin neg fr (1 - (f.bias : Int) - f.mb)
  else .fin neg (2 ^ f.mb + fr) ((ex : Int) - f.bias - f.mb)

/-- R69: m ÷ 2^k rounded to an integer magnitude; mode 0 RNE, 1 RZ, 2 RD, 3 RU. -/
def roundShift (mode : Nat) (neg : Bool) (m k : Nat) : Nat :=
  let n := m / 2 ^ k
  let r := m % 2 ^ k
  let up := match mode with
    | 0 => 2 ^ k < 2 * r || (2 * r == 2 ^ k && n % 2 == 1 && r != 0)
    | 1 => false
    | 2 => neg && r != 0
    | _ => !neg && r != 0
  if up then n + 1 else n

/-- R69: the magnitude code of m × 2^e (m nonzero) rounded as if the exponent range had no upper end. -/
def Fmt.roundCode (f : Fmt) (mode : Nat) (neg : Bool) (m : Nat) (e : Int) : Nat :=
  let emin : Int := 1 - (f.bias : Int)
  let ex : Int := max ((m.log2 : Int) + e) emin
  let q : Int := ex - f.mb
  let n := if q ≤ e then m * 2 ^ (e - q).toNat else roundShift mode neg m (q - e).toNat
  ((ex + f.bias - 1).toNat) * 2 ^ f.mb + n

/-- A magnitude code with its sign. -/
def Fmt.signed (f : Fmt) (neg : Bool) (code : Nat) : Nat := if neg then 2 ^ f.top + code else code

/-- R69, R70: round(±m × 2^e, f, mode) for m nonzero, in a format with infinities. -/
def Fmt.round (f : Fmt) (mode : Nat) (neg : Bool) (m : Nat) (e : Int) : Nat :=
  let c := f.roundCode mode neg m e
  let c := if f.infCode ≤ c then
      (if mode = 0 ∨ (mode = 2 ∧ neg) ∨ (mode = 3 ∧ !neg) then f.infCode else f.infCode - 1)
    else c
  f.signed neg c

/-- A number in a format with infinities: NaNs canonical, zeros and infinities with their sign, else rounded. -/
def Fmt.encode (f : Fmt) (mode : Nat) : Num → Nat
  | .nan => f.nan
  | .inf neg => f.signed neg f.infCode
  | .fin neg m e => if m = 0 then f.signed neg 0 else f.round mode neg m e

/-- The negated number. -/
def Num.neg : Num → Num
  | .nan => .nan
  | .inf s => .inf (!s)
  | .fin s m e => .fin (!s) m e

/-- R71, R74: the exact product. -/
def Num.mul : Num → Num → Num
  | .nan, _ => .nan
  | _, .nan => .nan
  | .inf s, .inf t => .inf (s != t)
  | .inf s, .fin t m _ => if m = 0 then .nan else .inf (s != t)
  | .fin s m _, .inf t => if m = 0 then .nan else .inf (s != t)
  | .fin s m e, .fin t n g => .fin (s != t) (m * n) (e + g)

/-- ±m × 2^e as a multiple of 2^g. -/
def scaled (neg : Bool) (m : Nat) (e g : Int) : Int :=
  let x : Int := (m * 2 ^ (e - g).toNat : Nat)
  if neg then -x else x

/-- R71, R74: the exact sum; `rd` is the RD mode, in which an exact zero of unlike signs is −0. -/
def Num.add (rd : Bool) : Num → Num → Num
  | .nan, _ => .nan
  | _, .nan => .nan
  | .inf s, .inf t => if s = t then .inf s else .nan
  | .inf s, .fin _ _ _ => .inf s
  | .fin _ _ _, .inf t => .inf t
  | .fin s m e, .fin t n g =>
    let b := min e g
    let x := scaled s m e b + scaled t n g b
    if x = 0 then .fin (if s = t ∧ m = 0 ∧ n = 0 then s else rd) 0 0 else .fin (x < 0) x.natAbs b

/-- R111: result(A + B) in a format. -/
def Fmt.add (f : Fmt) (mode x y : Nat) : Nat := f.encode mode (Num.add (mode == 2) (f.decode x) (f.decode y))
/-- R111: result(A − B). -/
def Fmt.sub (f : Fmt) (mode x y : Nat) : Nat := f.encode mode (Num.add (mode == 2) (f.decode x) (f.decode y).neg)
/-- R111: result(A × B). -/
def Fmt.mul (f : Fmt) (mode x y : Nat) : Nat := f.encode mode (Num.mul (f.decode x) (f.decode y))
/-- R111: result(A × B + D), one rounding. -/
def Fmt.fma (f : Fmt) (mode x y z : Nat) : Nat :=
  f.encode mode (Num.add (mode == 2) (Num.mul (f.decode x) (f.decode y)) (f.decode z))

/-- An encoding is a NaN. -/
def Fmt.isNan (f : Fmt) (x : Nat) : Bool := f.decode x == .nan

/-- An integer that orders the non-NaN encodings; −0 is `z` below +0. -/
def Fmt.order (f : Fmt) (z : Int) (x : Nat) : Int :=
  if x.testBit f.top then -((x % 2 ^ f.top : Nat) : Int) - z else ((x % 2 ^ f.top : Nat) : Int)

/-- R75, R113: the lesser, or the greater, of two encodings; `nm` returns the other operand of a single NaN. -/
def Fmt.pick (f : Fmt) (greater nm : Bool) (x y : Nat) : Nat :=
  if f.isNan x then (if nm && !f.isNan y then y else f.nan)
  else if f.isNan y then (if nm then x else f.nan)
  else if (f.order 1 x ≤ f.order 1 y) = !greater then x else y

/-- R41, R114: the floating-point conditions. -/
def Fmt.cond (f : Fmt) (c : BitVec 3) (x y : Nat) : Bool :=
  let un := f.isNan x || f.isNan y
  let a := f.order 0 x
  let b := f.order 0 y
  match c.toNat with
  | 0 => !un && a == b
  | 1 => un || a != b
  | 2 => !un && a < b
  | 3 => !un && a ≤ b
  | 4 => !un && b < a
  | 5 => !un && b ≤ a
  | 6 => un
  | _ => !un

/-- R115: the class mask. -/
def fclass (x : Nat) : Nat :=
  let neg := x.testBit 31
  let ex := x / 2 ^ 23 % 256
  let fr := x % 2 ^ 23
  2 ^ (if ex = 255 then (if fr = 0 then (if neg then 0 else 7) else if x.testBit 22 then 9 else 8)
    else if ex = 0 then (if fr = 0 then (if neg then 3 else 4) else if neg then 2 else 5)
    else if neg then 1 else 6)

/-- R76: ±m × 2^e rounded to an integer in a mode. -/
def roundInt (mode : Nat) (neg : Bool) (m : Nat) (e : Int) : Int :=
  let n : Nat := if 0 ≤ e then m * 2 ^ e.toNat else roundShift mode neg m (-e).toNat
  if neg then -(n : Int) else n

/-- R76: a conversion to an integer of range [lo, hi]. -/
def toIntClamp (lo hi : Int) (mode : Nat) : Num → Word
  | .nan => 0
  | .inf neg => clampInt lo hi (if neg then lo else hi)
  | .fin neg m e => clampInt lo hi (roundInt mode neg m e)

/-- R76: FRINT. -/
def frint (mode x : Nat) : Nat :=
  match fp32.decode x with
  | .nan => fp32.nan
  | .inf _ => x
  | .fin neg m e =>
    let n := (roundInt mode neg m e).natAbs
    fp32.encode mode (.fin neg n 0)

/-- R76: an integer as a number. -/
def Num.ofInt (x : Int) : Num := .fin (x < 0) x.natAbs 0

/-- R77: pack(x, f, S) of an FP32 encoding. -/
def packMx (f : Fmt) (sc x : Nat) : Nat :=
  let nanCode := if f.eb = 2 then 0 else f.nan
  if sc = 255 then nanCode
  else match fp32.decode x with
    | .nan => nanCode
    | .inf neg => f.signed neg (if f.ieee then f.infCode else f.maxCode)
    | .fin neg m e =>
      if m = 0 then f.signed neg 0
      else f.signed neg (min (f.roundCode 0 neg m (e + 127 - sc)) f.maxCode)

/-- R78: the scale of a block for a target format, by its emax. -/
def mxScale (emax x : Nat) : Nat :=
  match fp32.decode x with
  | .nan => 255
  | .inf _ => 255
  | .fin _ m e =>
    if m = 0 then 0
    else (max 0 (min 254 ((m.log2 : Int) + e - emax + 127))).toNat

/-! ## Special functions (R79, R80)

Each is computed as a fixed-point number far finer than FP32, marked inexact, and rounded once (log entry 21). -/

/-- Fraction bits of the fixed-point numbers. -/
def fixBits : Nat := 320

/-- x rounded once to FP32 from an inexact fixed-point magnitude v × 2^−p, v below the true value by less than one unit. -/
def roundInexact (neg : Bool) (v : Nat) (p : Int) : Nat := fp32.round 0 neg (2 * v + 1) (-p - 1)

/-- The integer square root, bit by bit from bit n − 1 down. -/
def isqrt (x : Nat) : Nat → Nat → Nat
  | 0, r => r
  | n + 1, r => if (r + 2 ^ n) * (r + 2 ^ n) ≤ x then isqrt x n (r + 2 ^ n) else isqrt x n r

/-- Σ z^(2k+1) ÷ (2k+1) with alternating signs if `alt`, `term` being z^(2k+1), over n terms from index k. -/
def oddSeries (alt : Bool) (z2 : Nat) (p : Nat) : Nat → Nat → Nat → Int
  | 0, _, _ => 0
  | n + 1, k, term =>
    let x : Int := (term / (2 * k + 1) : Nat)
    (if alt && k % 2 == 1 then -x else x) + oddSeries alt z2 p n (k + 1) (term * z2 / 2 ^ p)

/-- The natural logarithm of y × 2^−p for y × 2^−p in [1, 2], at p fraction bits. -/
def lnFix (y p : Nat) : Nat :=
  let z := (y - 2 ^ p) * 2 ^ p / (y + 2 ^ p)
  (2 * oddSeries false (z * z / 2 ^ p) p (p / 3 + 2) 0 z).toNat

/-- π at p fraction bits, by Machin's formula. -/
def piFix (p : Nat) : Nat :=
  let inv (n : Nat) : Int := oddSeries true (2 ^ p / (n * n)) p (p / 4 + 2) 0 (2 ^ p / n)
  (16 * inv 5 - 4 * inv 239).toNat

/-- Σ x^k ÷ k! from the term of index k on, `num` below. -/
def expSeries (x p : Nat) : Nat → Nat → Nat → Nat
  | 0, _, _ => 0
  | n + 1, k, term => term + expSeries x p n (k + 1) (term * x / 2 ^ p / (k + 1))

/-- Σ (−1)^j r^(k+2j) ÷ (k+2j)! from the term of index k on. -/
def trigSeries (r2 p : Nat) : Nat → Nat → Nat → Int
  | 0, _, _ => 0
  | n + 1, k, term => (term : Int) - trigSeries r2 p n (k + 2) (term * r2 / 2 ^ p / ((k + 1) * (k + 2)))

/-- R79, R80: FRCP. -/
def frcp (x : Nat) : Nat :=
  match fp32.decode x with
  | .nan => fp32.nan
  | .inf neg => fp32.signed neg 0
  | .fin neg m e =>
    if m = 0 then fp32.signed neg fp32.infCode
    else
      let v := 2 ^ 64 / m
      if m * v = 2 ^ 64 then fp32.round 0 neg v (-64 - e) else roundInexact neg v (64 + e)

/-- R79, R80: FRSQ. -/
def frsq (x : Nat) : Nat :=
  match fp32.decode x with
  | .nan => fp32.nan
  | .inf neg => if neg then fp32.nan else 0
  | .fin neg m e =>
    if m = 0 then fp32.signed neg fp32.infCode
    else if neg then fp32.nan
    else
      let m' := if e % 2 = 0 then m else 2 * m
      let h := (if e % 2 = 0 then e else e - 1) / 2
      let v := isqrt (2 ^ 160 / m') 82 0
      if v * v * m' = 2 ^ 160 then fp32.round 0 false v (-80 - h) else roundInexact false v (80 + h)

/-- R79, R80: FEXP2. -/
def fexp2 (x : Nat) : Nat :=
  match fp32.decode x with
  | .nan => fp32.nan
  | .inf neg => if neg then 0 else fp32.infCode
  | .fin neg m e =>
    let p := fixBits
    if m = 0 then 0x3F800000
    else if neg && 0x43160000 ≤ x % 2 ^ 31 then 0
    else if !neg && 0x43000000 ≤ x then fp32.infCode
    else
      let v : Int := scaled neg m e (-(p : Int))
      let n := v / (2 ^ p : Nat)
      let f := (v % (2 ^ p : Nat)).toNat
      if f = 0 then fp32.round 0 false 1 n
      else roundInexact false (expSeries (f * lnFix (2 ^ (p + 1)) p / 2 ^ p) p 90 0 (2 ^ p)) (p - n)

/-- R79, R80: FLOG2. -/
def flog2 (x : Nat) : Nat :=
  match fp32.decode x with
  | .nan => fp32.nan
  | .inf neg => if neg then fp32.nan else fp32.infCode
  | .fin neg m e =>
    let p := fixBits
    if m = 0 then fp32.signed true fp32.infCode
    else if neg then fp32.nan
    else
      let k : Int := (m.log2 : Int) + e
      let y := m * 2 ^ (p - m.log2)
      if y = 2 ^ p then fp32.encode 0 (.ofInt k)
      else
        let v : Int := k * (2 ^ p : Nat) + (lnFix y p * 2 ^ p / lnFix (2 ^ (p + 1)) p : Nat)
        if v < 0 then roundInexact true ((-v).toNat - 1) p else roundInexact false v.toNat p

/-- R79: sine (`cosine` false) or cosine of m × 2^e by reduction to the quarter turn that holds it. -/
def trigFix (cosine : Bool) (neg : Bool) (m : Nat) (e : Int) : Nat :=
  let p := fixBits
  let w := p + 160
  let x := if 0 ≤ e + w then m * 2 ^ (e + w).toNat else m / 2 ^ (-(e + w)).toNat
  let half := piFix (w + 160) / 2
  let k := x * 2 ^ 160 / half
  let r := (x * 2 ^ 160 - k * half) / 2 ^ (w + 160 - p)
  let r2 := r * r / 2 ^ p
  let sinR := (trigSeries r2 p 50 1 r).toNat
  let cosR := (trigSeries r2 p 50 0 (2 ^ p)).toNat
  let q := (if cosine then k + 1 else k) % 4
  let v := if q % 2 = 0 then sinR else cosR
  roundInexact ((q ≥ 2) != (neg && !cosine)) v p

/-- R79, R80: FSIN. -/
def fsin (x : Nat) : Nat :=
  match fp32.decode x with
  | .nan => fp32.nan
  | .inf _ => fp32.nan
  | .fin neg m e => if m = 0 then x else trigFix false neg m e

/-- R79, R80: FCOS. -/
def fcos (x : Nat) : Nat :=
  match fp32.decode x with
  | .nan => fp32.nan
  | .inf _ => fp32.nan
  | .fin neg m e => if m = 0 then 0x3F800000 else trigFix true neg m e

/-! ## Sums with one rounding (R81 to R83, R185) -/

/-- R81, R82: a finite FP32 value as a multiple of 2^−149, and the NaN, +∞ and −∞ marks of any other. -/
def cellTerm (x : Nat) : Int × Bool × Bool × Bool :=
  match fp32.decode x with
  | .nan => (0, true, false, false)
  | .inf neg => (0, false, !neg, neg)
  | .fin neg m e => (scaled neg m e (-149), false, false, false)

/-- R83: the FP32 value of a cell's marks and sum. -/
def cellValue (sum : Int) (nan pinf ninf : Bool) : Nat :=
  if nan || pinf && ninf then fp32.nan
  else if pinf then fp32.infCode
  else if ninf then fp32.signed true fp32.infCode
  else if sum = 0 then 0
  else fp32.round 0 (sum < 0) sum.natAbs (-149)

/-- R185: fsum. -/
def fsum (xs : List Nat) : Nat :=
  let ts := xs.map cellTerm
  let sum := ts.foldl (fun a t => a + t.1) 0
  let any (f : Int × Bool × Bool × Bool → Bool) : Bool := ts.any f
  if !(any (·.2.1) || any (·.2.2.1) || any (·.2.2.2)) && sum == 0 && xs.all (fun x => x == 0x80000000) then 0x80000000
  else cellValue sum (any (·.2.1)) (any (·.2.2.1)) (any (·.2.2.2))

/-- R82: the 512 bits of a cell after a term has been added. -/
def cellAdd (cell : Nat) (t : Int × Bool × Bool × Bool) : Nat :=
  let acc := ((fld cell 509 0 : Int) + t.1) % (2 ^ 509 : Nat)
  acc.toNat + (if bit cell 509 || t.2.2.2 then 2 ^ 509 else 0) + (if bit cell 510 || t.2.2.1 then 2 ^ 510 else 0) +
    (if bit cell 511 || t.2.1 then 2 ^ 511 else 0)

/-- R83: a cell read as one FP32 value. -/
def cellRead (cell : Nat) : Nat := cellValue (sextI cell 509) (bit cell 511) (bit cell 510) (bit cell 509)

end Sys2Proof.Machine
end

