-- ==== Sys2Proof/Machine/State.lean ====
section
/-! DEFINITION. Everything the spec gives the module, as plain data: threads and blocks (R12, R171), device memory and the places
data wait in on the way to it (R206), translation (R233 to R250), engines and their commands (R297 to R303), work graphs (R333 to
R343), casts (R380 to R384), queues, launches and slices (R389 to R415), keys, boot and links (R436 to R460). `State.reset` is the
module at the end of its boot steps (R452). -/

namespace Sys2Proof.Machine

/-- R30: the four privilege levels, lowest first. -/
inductive Level where
  | u | s | h | f
deriving DecidableEq, Repr

/-- R26: %level's numbers. -/
def Level.toNat : Level → Nat
  | .u => 0 | .s => 1 | .h => 2 | .f => 3

/-- The level of a two-bit number. -/
def Level.ofBits (n : Nat) : Level :=
  match n % 4 with
  | 0 => .u | 1 => .s | 2 => .h | _ => .f

/-- R31, R374: the trap causes. -/
inductive Cause where
  | illegalOp | priv | regBound | stackOverflow | spillCorrupt | fetchFault | jumpFault | bound | badRecord | permDenied
  | pageFault | memberGone | barrierClobber | trap | misalign | stage2Fault | uncorrectable | doubleTrap | queueRefused | hang
deriving DecidableEq, Repr

/-- R31, R374: the 8-bit cause code. -/
def Cause.code : Cause → Nat
  | .illegalOp => 0x01 | .priv => 0x02 | .regBound => 0x03 | .stackOverflow => 0x04 | .spillCorrupt => 0x05
  | .fetchFault => 0x06 | .jumpFault => 0x07 | .bound => 0x08 | .badRecord => 0x09 | .permDenied => 0x0A
  | .pageFault => 0x0B | .memberGone => 0x0C | .barrierClobber => 0x0D | .trap => 0x0E | .misalign => 0x0F
  | .stage2Fault => 0x10 | .uncorrectable => 0x11 | .doubleTrap => 0x12 | .queueRefused => 0x20 | .hang => 0x21

/-- R31, R374: the cause of a code. -/
def Cause.ofCode (n : Nat) : Option Cause :=
  [Cause.illegalOp, .priv, .regBound, .stackOverflow, .spillCorrupt, .fetchFault, .jumpFault, .bound, .badRecord, .permDenied, .pageFault,
    .memberGone, .barrierClobber, .trap, .misalign, .stage2Fault, .uncorrectable, .doubleTrap, .queueRefused, .hang].find? (fun c => c.code == n)

/-- R31: the lowest level that handles a cause (DOUBLE_TRAP's is set where it is raised, R35). -/
def Cause.minLevel : Cause → Level
  | .stage2Fault => .h
  | .uncorrectable => .h
  | _ => .s

/-- A condition met by one thread: its cause, its extra word (R31) and its fault address (R34). -/
structure Trap where
  cause : Cause
  extra : DWord := 0
  addr : DWord := 0
deriving DecidableEq, Repr

/-- A condition met, as its frame describes it (R34): cause, extra word, fault address, frame PC, instruction word. -/
structure Entry where
  cause : Cause
  extra : DWord
  addr : DWord
  pc : DWord
  word : Word
deriving DecidableEq, Repr

/-- R56: pending prefix state. -/
structure Pfx where
  repv : Bool := false
  next : Nat := 0
  cnt : Nat := 0
  sd : Bool := false
  sa : Bool := false
  sb : Bool := false
  stride : BitVec 4 := 0
  ifpv : Bool := false
  gpred : Nat := 0
  gsense : Bool := false
  limmv : Bool := false
deriving DecidableEq, Repr

/-- A group that has arrived in a rendezvous and waits for its partners (R179): what each arrival brought. -/
structure Arrival where
  op : Nat
  mask : DWord
  d : Nat
  val : Word
  sel : Word
  pred : Bool
  next : DWord
  /-- The instruction word, for a frame (R34). -/
  word : Word
deriving DecidableEq, Repr

/-- What a thread waits for (R383's WAIT codes). -/
inductive Wait where
  /-- 0: nothing. -/
  | none
  /-- 1: a rendezvous (R179). -/
  | rendezvous (a : Arrival)
  /-- 2: a barrier object; `arrived` marks BARSYNC and NBARSYNC (R198). -/
  | barrier (win : Bool) (addr : Nat) (token : Word) (arrived : Bool)
  /-- 3: CWAIT. -/
  | conv (n : Nat) (token : Nat)
  /-- 4: a tile (R214, R215): entry number, and whether an empty tile ends the wait (TWAIT). -/
  | tile (n : Nat) (orEmpty : Bool)
  /-- 5: until at most `n` batches are outstanding: WAITB with its number, or a COMMIT that would make a sixteenth (R303). -/
  | batch (n : Nat) (waitb : Option Nat)
  /-- 6: WAITSEQ. -/
  | seq (kind target : Nat)
  /-- 7: NICHEWAIT: launch and node. -/
  | niche (launch node : Nat)
  /-- 8: QWAIT with handle h on queue q of a slice: TAKE, or DONE with its target. -/
  | queue (h sl q : Nat) (take : Bool) (target : Word)
  /-- 9: a fence or an arrival waiting for the thread's own side-log entries (R250). -/
  | fence
  /-- 10: an occupied window entry (R298). -/
  | window (id : Nat)
  /-- 11: an access that meets a side-log granule (address and width), or a full side log (R250). With bit 63 set the address is a
  guest-physical one, of a queue's ring. -/
  | load (va n : Nat) (full : Bool)
deriving DecidableEq, Repr

/-- R191, R198: an arrival that a BARSYNC or NBARSYNC has made and that a trap took its wait from: the instruction, executed again at `pc`
on the same object, waits for that arrival's phase and does not arrive again. `freed`: the object has released it meanwhile. -/
structure Synced where
  pc : DWord
  win : Bool
  addr : Nat
  token : Word
  level : Level
  freed : Bool := false
deriving DecidableEq, Repr

/-- R12: one thread. -/
structure Thread where
  tid : Nat
  lane : Nat
  /-- R156: which threads share the quad's sequencer. -/
  quad : Nat
  pc : DWord
  /-- R15, R226: the first slot of the thread's allocation in its lane's register file. -/
  slot : Nat := 0
  /-- R15: the A slots of the thread's allocation; positions reach slots 0 to N − 1. -/
  regs : List Word
  /-- R15: N. -/
  n : Nat
  wb : Nat := 0
  f : Nat
  low : Nat := 0
  swb : Nat := 0
  preds : BitVec 8 := 0
  level : Level := .u
  pfx : Pfx := {}
  tvbs : DWord := 0
  tvbh : DWord := 0
  tvbf : DWord := 0
  tsps : DWord := 0
  tsph : DWord := 0
  tspf : DWord := 0
  wait : Wait := .none
  /-- The instruction word of the group at which it waits (R34, R375). -/
  waitWord : Word := 0
  /-- R139: the thread has ended. -/
  exited : Bool := false
  /-- R32, R35: stopped at level F and reported to the armature core. -/
  stopped : Bool := false
  /-- R35, R381: a trap whose entry has not committed. -/
  pend : Option Entry := none
  /-- R303: the open batch (uids of its commands). -/
  openB : List Nat := []
  /-- R303: closed batches, oldest first. -/
  closedB : List (List Nat) := []
  /-- R228, R230: slots that hold poison; true where it was marked before it came here. -/
  poison : SMap Bool := []
  /-- R157: clocks in which its quad issued since the thread last ran. -/
  waited : Nat := 0
  /-- R160: the thread's quad is filed in a REFORM bin. -/
  filed : Bool := false
  /-- R301: uids of the commands that it has issued and that no wait of it covers yet. -/
  unwaited : List Nat := []
  /-- R259: the thread writes, by stamp, that its OFENCEs, and those that helped to release its waits, put before its commands. -/
  oview : Nat := 0
  /-- R191, R195: the barrier object or the convergence register has released its wait. -/
  freed : Bool := false
  synced : List Synced := []
  /-- R264: it has sent host writes that no flushing read has acknowledged yet; and its FENCE.S has sent the read. -/
  posted : Bool := false
  flushing : Bool := false
deriving DecidableEq, Repr

/-- R195: one convergence register. -/
abbrev ConvReg := Word

/-- R212, R353: one entry of the tile table and, for a scratchpad tile, its declared size. -/
structure TileEntry where
  state : Nat := 0
  decl : Bool := false
  cmd : Nat := 63
  base : Nat := 0
  size : Nat := 0
  /-- R214: a thread has stored into it while it filled or drained. -/
  spoilt : Bool := false
deriving DecidableEq, Repr

/-- One row of an accumulator tile: listed columns, and what the others hold: +0, or an undefined value by draw. -/
structure Row where
  seed : Option Nat := none
  cells : SMap Word := []
deriving DecidableEq, Repr

/-- R338: the Caliper's state: the stack (top first), the pending record and the overflow region's contents. -/
structure Trav where
  self : Bool := false
  ray : Bool := false
  /-- Descriptors A and B as read at the start (R320). -/
  descA : Nat := 0
  descB : Nat := 0
  nextRay : Nat := 0
  stack : List (Word × Word) := []
  emitted : Nat := 0
  pendRec : Option Nat := none
  /-- R337: the first record left in the overflow region, and how many there are. -/
  ovrHead : Nat := 0
  ovrCnt : Nat := 0
  /-- R339 step 1: records that a token left in the region drain before anything else. -/
  drainFirst : Bool := false
  /-- The traversal is over, with a status, DETAIL and AUX; the command ends when its region has drained (R337). -/
  ending : Option (Nat × Nat × Nat) := none
  /-- R382: EMITTED when this command began. -/
  base : Nat := 0
deriving DecidableEq, Repr

/-- R301: a register slot that a command writes through the on-chip map (R226), undefined from the issue until a wait covers the command:
the slot's on-chip address, the undefined value it shows meanwhile, the value it has in truth, and whether the command has written it. -/
structure Late where
  addr : Nat
  shown : Word
  value : Word
  written : Bool := false
deriving DecidableEq, Repr

/-- An engine command in its block's window (R298). -/
structure Cmd where
  uid : Nat
  id : Nat
  op5 : Nat
  seq : Nat
  /-- R299 rule 1: the commands its two predecessor fields were bound to: uid, sequence number and kind. -/
  preds : List (Option (Nat × Nat × Nat))
  pb : List Word
  /-- Buffer records read at issue, by record number (R344). -/
  recs : SMap Nat
  level : Level
  /-- R299: started. -/
  running : Bool := false
  /-- Its work is over, with a status code of R346; it retires next. -/
  fin : Option Nat := none
  /-- R301: what it may write: space (0 the block's scratchpad, 1 device memory, 2 the neighbourhood window), first byte and length. -/
  writes : List (Nat × Nat × Nat) := []
  /-- R301: the parts of it that threads have stored to meanwhile. -/
  spoilt : List (Nat × Nat × Nat) := []
  /-- R301: what it has written: space, key and address as in `Stale`, and length. -/
  wrote : List (Nat × Nat × Nat × Nat) := []
  late : List Late := []
  cursor : Nat := 0
  detail : Nat := 0
  aux : Nat := 0
  trav : Option Trav := none
  /-- R317: core of the helper that runs it. -/
  helper : Option Nat := none
  /-- R353: TFILL mode 0 declared its tile at issue. -/
  declared : Bool := false
  /-- R424: the group descriptor, and the member's match number (R425). -/
  group : Nat := 0
  matchNo : Nat := 0
  /-- R426, R427: its source, once it has read it; what of that it has still to send beyond the device, flit by flit; the port; the key
  generations its flits have gone under; and what each port received under when it began. -/
  src : Option (List Byte) := none
  toSend : List (List Byte) := []
  port : Nat := 0
  gens : List Nat := []
  rxGens : List Nat := []
  /-- R261: its view point: it reads no value older than the thread writes stamped below it. -/
  view : Nat := 0
  /-- R195: its convergence register has fired since it was issued, which releases it. -/
  fired : Bool := false
  /-- R332, R364: its place in the order of arrival at an engine that several cores share. -/
  arrived : Option Nat := none
  /-- R167: entries of the tile table that it writes. -/
  tiles : List Nat := []
deriving DecidableEq, Repr

/-- R301: a retired command that no wait of every thread that issued it covers yet: what it wrote, and whether some thread's wait does. -/
structure Past where
  uid : Nat
  kind : Nat
  seq : Nat
  wrote : List (Nat × Nat × Nat × Nat)
  late : List Late := []
  tiles : List Nat
  covered : Bool := false
deriving DecidableEq, Repr

/-- R308: one macro's copy of a B slot. -/
structure BSlot where
  /-- 1 filling, 2 ready; an empty slot is not listed. -/
  state : Nat
  fmt : Nat
  sc : Bool
  spar : Nat
  /-- PB0 to PB3 of the BLOAD and its source record, for restore (R382). -/
  src : List Word
  srcRec : Nat
  /-- Value, scale and mask bytes (R349). -/
  vals : List Byte
  scales : List Byte
  masks : List Byte
  /-- R228: a row of the slot's SRAM fails its parity. -/
  bad : Bool := false
deriving DecidableEq, Repr

/-- R381: a result that reached a cast after the halt, or that has not been written to its register yet. -/
structure Return where
  tid : Nat
  width : Nat
  pos : Nat
  value : Nat
  divide : Bool := false
  /-- R434: poisoned on its way; its syndrome comes with it. -/
  bad : Bool := false
deriving DecidableEq, Repr

/-- R158: a gang: quads of one block; whether it is in the active set, since when it holds its slot or waits for one, and the clock
of its last issue there (R163, R164). `board` holds outstanding writes that a split or a merge left to it and that are not its own quads'
(R167). -/
structure Gang where
  quads : List Nat
  active : Bool := false
  since : Nat := 0
  last : Option Nat := none
  board : List Return := []
deriving DecidableEq, Repr

/-- R160: a REFORM bin: its core, its key, and its quads with the clock of filing, in the order of filing. -/
structure Bin where
  core : Nat
  blk : Nat
  pc : DWord
  level : Level
  swb : Nat
  quads : List (Nat × Nat)
deriving DecidableEq, Repr

/-- R335: the batch that launched a block: the niche's launch and node, and the batch's uid. -/
structure BatchRef where
  launch : Nat
  node : Nat
  batch : Nat
deriving DecidableEq, Repr

/-- R156, R171: a resident block. -/
structure Block where
  uid : Nat
  launch : Nat
  /-- Slice number; 0x7E for a control kernel. -/
  owner : Nat
  num : Nat
  core : Nat
  g0 : Nat := 0
  /-- R172: base of the block's scratchpad region in its core's scratchpad. -/
  scratchBase : Nat := 0
  /-- The 256-byte launch record as a number (R168). -/
  record : Nat
  threads : List Thread
  sregs : List Word
  cregs : List ConvReg
  ttab : List TileEntry
  rows : SMap Row := []
  /-- R226: the core's physical tile that holds t0. -/
  tileBase : Nat := 0
  /-- R228: poisoned accumulator pairs: (64 × tile + row) × 128 + column ÷ 2. -/
  accPoison : SMap Bool := []
  scratch : SMap Byte := []
  /-- Draw of the undefined bytes the scratchpad held at block start (R171). -/
  scratchSeed : Nat := 0
  /-- R216: live granules (offset ÷ 16). -/
  live : List Nat := []
  /-- R228: poisoned scratchpad words (offset ÷ 4). -/
  scratchPoison : SMap Bool := []
  window : List Cmd := []
  past : List Past := []
  /-- R302: commands issued, by kind. -/
  issued : List Nat := [0, 0, 0, 0, 0, 0]
  /-- R302: sequence numbers retired out of order, by kind, and the completion sequence numbers. -/
  gaps : List (List Nat) := [[], [], [], [], [], []]
  csn : List Nat := [0, 0, 0, 0, 0, 0]
  /-- R308: B slots, key 4 × macro + slot. -/
  slots : SMap BSlot := []
  /-- R19, R145: spill areas by quad. -/
  spillBase : List DWord
  spillDepth : List Word
  gangs : List Gang := []
  batch : Option BatchRef := none
  returns : List Return := []
  /-- R377: halted by a pre-emption request of this KIND, and the device time of the halt (R380). -/
  halted : Option Nat := none
  haltTime : Nat := 0
  /-- R375: clock of the last progress; while it is cast, the clocks without progress before the halt. -/
  progress : Nat := 0
  /-- R397: clock at which an aging decision placed it. -/
  grace : Option Nat := none
  placedAt : Nat := 0
  /-- R259: by barrier object or convergence register, the writes that OFENCEs had ordered when their threads arrived or signed. -/
  arrViews : SMap Nat := []
deriving DecidableEq, Repr

/-- R248: one side-log entry. -/
structure LogEntry where
  core : Nat
  owner : Nat
  /-- The owner of the issuing block. -/
  slice : Nat
  blk : Nat
  tids : List Nat
  level : Level
  /-- True for a second-stage entry. -/
  stage2 : Bool
  /-- R248: its granule is taken by guest-virtual address: a first-stage entry, or one whose second-stage failure was met in a read of a
  first-stage table. -/
  byVa : Bool
  /-- Guest-virtual address of the line or cell, and its guest-physical address for a second-stage entry. -/
  va : Nat
  gpa : Nat
  /-- The bytes to store by guest-virtual address, in the order of the lanes. -/
  cells : List (Nat × Byte) := []
  /-- FADDX: the exact sum of the addends as a multiple of 2^−149, and the NaN, +∞ and −∞ bits to set (R81). -/
  addend : Option (Int × Bool × Bool × Bool) := none
  /-- R249: KIND 2: FADDX and RCCLR. -/
  rmw : Bool := false
  /-- R249: NP. -/
  np : Bool := false
  seq : Nat
  /-- R254: the stamp of its issue. -/
  stamp : Nat := 0
deriving DecidableEq, Repr

/-- R380: a cast: the block as halted, why, when, and the bytes written for it. -/
structure Cast where
  blk : Block
  kind : Nat
  time : Nat
  addr : Nat
  bytes : List Byte
  /-- R381: its side-log entries. -/
  log : List LogEntry := []
  /-- R379: its header is written. -/
  valid : Bool := true
deriving DecidableEq, Repr

/-- R232: a cached first-stage translation. -/
structure Tlb1 where
  owner : Nat
  va : Nat
  size : Nat
  gpa : Nat
  /-- Entry bits [5:0] (R234). -/
  bits : Nat
deriving DecidableEq, Repr

/-- R237: a cached second-stage translation with its placement word. -/
structure Tlb2 where
  owner : Nat
  gpa : Nat
  size : Nat
  /-- The 16-byte entry. -/
  entry : Nat
deriving DecidableEq, Repr

/-- R244: a page under RESTRIPE. -/
structure Moving where
  owner : Nat
  gpa : Nat
  size : Nat
  entryAddr : Nat
  old : Nat
  new : Nat
  cursor : Nat
  cmd : Nat
deriving DecidableEq, Repr

/-- R206, R220: one 32-byte sector of an L2 line: its bytes and poison, whether it is dirty, its cache slice and way, the page it
came from, and the page's RD, W and AHOME, which the line keeps (R237, R243). -/
structure Sector where
  bytes : List Byte
  poison : Option Bool := none
  dirty : Bool := true
  home : Nat := 0
  way : Nat := 0
  page : Nat := 0
  size : Nat := 0
  rd : Bool := true
  w : Bool := true
  ahome : Bool := false
deriving DecidableEq, Repr

/-- R441: the state of a key slot. -/
inductive KeyState where
  | empty | partialSet | live | lapsed
deriving DecidableEq, Repr

/-- R439: one key slot. A key is named by its place in the table of keys derived so far. -/
structure KeySlot where
  state : KeyState := .empty
  owner : Nat := 0
  nshare : Nat := 0
  digests : List (Option (List Byte)) := [none, none]
  expiries : List Nat := [0, 0]
  shares : List (Option (List Byte)) := [none, none]
  erases : Nat := 0
  key : Option Nat := none
  /-- R444: the clock has reached the share's expiry since it was installed. -/
  passed : List Bool := [false, false]
deriving DecidableEq, Repr

/-- R407: the state of a slice. -/
inductive SliceState where
  | free | quiesced | running | inProtocol
deriving DecidableEq, Repr

/-- R415: the counters of a slice's status. -/
structure Counters where
  scopeClamp : Nat := 0
  corrected : Nat := 0
  uncorrectable : Nat := 0
  recsDropped : Nat := 0
  keyDropped : Nat := 0
  hangs : Nat := 0
  refusals : Nat := 0
deriving DecidableEq, Repr

/-- R448: the usage counters of a slice, in table order. -/
structure Usage where
  coreClk : Nat := 0
  engClk : Nat := 0
  leaseClk : Nat := 0
  lentClk : Nat := 0
  hbmBytes : Nat := 0
  g7Bytes : Nat := 0
  linkBytes : Nat := 0
  frames : Nat := 0
deriving DecidableEq, Repr

/-- R388: a notice in force: the quadrants, the time, and the blocks that were running when it came. -/
structure Notice where
  mask : Nat
  time : Nat
  blks : List Nat := []
deriving DecidableEq, Repr

/-- R407 to R415: one slice. -/
structure Slice where
  state : SliceState := .free
  /-- R417 step 2: the state to return to. -/
  prior : SliceState := .free
  /-- R410: POLICY alone has a reset value that is not zero. -/
  record : List DWord := [0, 0x1C00] ++ List.replicate 30 0
  hard : Nat := 0
  /-- R408: shares, quadrant to weight. -/
  shares : SMap Nat := []
  /-- R240: the placement table. -/
  place : List DWord := List.replicate 64 0
  counters : Counters := {}
  usage : Usage := {}
  /-- R419: engine-clocks used under the current lease. -/
  leaseUsed : Nat := 0
  incarnation : Nat := 0
  /-- R430: the bound VF is ready. -/
  ready : Bool := false
  /-- R430: the VF was ready when its reset began, and is so again at its end. -/
  readyDue : Bool := false
  /-- R446: the session key, by draw. -/
  session : Option Nat := none
  statements : Nat := 0
  admissions : Nat := 0
  decisions : Nat := 0
  /-- R395: clock of the last decision, and whether a retirement or a cast calls for one. -/
  decidedAt : Nat := 0
  decideDue : Bool := false
  /-- R456: cores that held a block of the slice since they were last cleared. -/
  usedCores : List Nat := []
  /-- R418: a function-level reset waits for the end of a partition protocol. -/
  resetDue : Bool := false
  /-- R414: SLQUIESCE is under way. -/
  quiescing : Bool := false
  /-- R407, R456, R458: a reset of the slice is under way; `prior` is the state at its end. -/
  resetting : Bool := false
  /-- R236: the first-stage root in force: word 2 of the record at the last TINVA, reset or SLNEW (log entry 110). -/
  root1 : DWord := 0
  /-- R456: queues, EN = 1, that the queue controller does not hold after a reset, until their first notify or LAUNCH. -/
  unheld : List Nat := []
  /-- R393: niche batches released and not admitted, oldest first: launch uids. -/
  nicheList : List Nat := []
  /-- R388: the notices in force, oldest first. -/
  notices : List Notice := []
deriving DecidableEq, Repr

/-- R389: what the queue controller holds of one queue. -/
structure Queue where
  sl : Nat
  q : Nat
  head : Word
  tail : Word
  done : Word
  /-- R393: clock at which the head entry, and those after it, were enqueued. -/
  times : List Nat := []
deriving DecidableEq, Repr

/-- R150, R168, R393: one launch. -/
structure Launch where
  uid : Nat
  owner : Nat
  /-- Queue index; 64 for a niche's consumer, 65 + port for a control kernel. -/
  q : Nat
  seq : Nat
  record : Nat
  nblocks : Nat
  /-- Block numbers not placed yet, ascending. -/
  unplaced : List Nat
  admitted : Bool := false
  admittedAt : Nat := 0
  lastPlaced : Nat := 0
  enqueuedAt : Nat := 0
  batch : Option BatchRef := none
  completed : Bool := false
  failed : Bool := false
  /-- R151: checkpoints written so far. -/
  ckpts : Nat := 0
  /-- R393: where its record stands until its admission copies it (a niche's consumer). -/
  source : Option Nat := none
  /-- R170: where the units of blocks that belong to one quadrant or die have been placed: key level × 2^32 + unit. -/
  homes : SMap Nat := []
deriving DecidableEq, Repr

/-- R334: a niche: its ring, its pending records (slot and clock of arrival, oldest first) and its claimed batches. -/
structure Niche where
  launch : Nat
  owner : Nat
  node : Nat
  buffer : Nat
  capacity : Nat
  count : Nat
  timer : Nat
  consumer : Nat
  nextSlot : Nat := 0
  pending : List (Nat × Nat) := []
  claimed : List (Nat × List Nat) := []
deriving DecidableEq, Repr

/-- R342, R343, R250: an operation on a task control block that could not be done yet: 0 its submission, 2 the decrements of its successors
from the n-th on, 3 its retirement, as of device time n. -/
structure TcbRetry where
  owner : Nat
  addr : Nat
  op : Nat := 0
  n : Nat := 0
  level : Level := .s
deriving DecidableEq, Repr

/-- R432, R453: the registers of one host port's PF. -/
structure Port where
  numVfs : Nat := 0
  vfEnable : Bool := false
  cqRing : DWord := 0
  cqLog2n : Nat := 0
  cqEn : Bool := false
  cqHead : Word := 0
  cqTail : Word := 0
  cqDone : Word := 0
  cqRefused : Nat := 0
  mbAddr : DWord := 0
  mbLen : Nat := 0
  mbStat : Nat := 0
  /-- The mailbox command under way: 1 or 2, with the image's check. -/
  mbCmd : Nat := 0
  /-- R459: its running control kernel is discarded once its request is answered. -/
  discard : Bool := false
deriving DecidableEq, Repr

/-- R427: a flit: SEQ, ACK, TYPE, KEYGEN with the draw that names its key, its count in its direction under its generation, and its 224
bytes of payload. -/
structure Flit where
  seq : Nat
  ack : Nat
  type : Nat
  gen : Nat
  key : Nat
  count : Nat
  payload : List Byte
deriving DecidableEq, Repr

/-- R427, R428, R450: one device link port. -/
structure Link where
  up : Bool := true
  txGen : Nat := 0
  /-- R450: the key of the direction sent, by the draw that names it. -/
  txKey : Nat := 0
  rxGen : Nat := 0
  /-- The old receive generation while it is still accepted, and until which clock. -/
  oldGen : Option (Nat × Nat) := none
  rxSeq : Nat := 0
  txSeq : Nat := 0
  peerAck : Nat := 0
  /-- The SEQ whose tag failed once. -/
  tagFail : Option Nat := none
  /-- Flits held in the replay buffer, oldest first, at most 512. -/
  replay : List Flit := []
  /-- The SEQ from which a flit has been asked for again. -/
  askReplay : Option Nat := none
  sealedFlits : Nat := 0
  /-- Payloads that wait for a rekey, as the generation has sealed its 2^40 (R427), each with the uid of its command. -/
  held : List (Nat × List Byte) := []
  /-- R450: a retraining calls for a rekey of the direction sent. -/
  rekeyDue : Bool := false
  trained : Bool := true
deriving DecidableEq, Repr

/-- R434: one die-to-die port. -/
structure DiePort where
  up : Bool := true
  replays : Nat := 0
deriving DecidableEq, Repr

/-- R454: a 64-byte message of a command link: its class and direction. -/
structure Message where
  response : Bool
  toArmature : Bool
  data : List Byte
deriving DecidableEq, Repr

/-- R454: the command link of a quadrant controller: messages whose buffers their receiver has not freed, each of which holds a send
permit, and messages that wait for a permit, both oldest first. -/
structure CmdLink where
  sent : List Message := []
  waiting : List Message := []
deriving DecidableEq, Repr

/-- R451 to R453: what boot found and fixed. -/
structure Boot where
  /-- Security version of the authentic image in slot A and in slot B; none when it is not authentic. -/
  slotA : Option Nat := some 0
  slotB : Option Nat := none
  /-- 0 none, 1 slot A, 2 slot B. -/
  booted : Nat := 1
  /-- R451: which image stands in slot A, in slot B, and runs: the draw that names its bytes. -/
  imageA : Nat := 0
  imageB : Nat := 0
  image : Nat := 0
  fwVer : Nat := 0
  rollback : Nat := 0
  /-- Power-ups and restarts so far: which BOOTID is in force. -/
  boots : Nat := 1
  /-- Firmware starts so far (R452 step 3). -/
  starts : Nat := 1
  recovery : Bool := false
  /-- MODSTATE READY. -/
  ready : Bool := true
  /-- R455, R461: the armature core has stopped. -/
  stopped : Bool := false
  /-- The module has its supply. -/
  powered : Bool := true
deriving DecidableEq, Repr

/-- A message the module sends to a host (R430, R431, R433). -/
inductive OutMsg where
  | readiness (port fn : Nat)
  | msix (port fn vector : Nat)
  | hostWrite (port addr : Nat) (data : List Byte)
  /-- R264: the flushing read of a FENCE.S. -/
  | flushRead (port : Nat)
  /-- R427, R428: the 256 bytes of a flit sent on a device link. -/
  | flit (link : Nat) (data : List Byte)
  /-- R429, R434: an error message of Advanced Error Reporting: whether the port's flit-mode code or a replay has corrected the error. -/
  | aer (port : Nat) (correctable : Bool)
  | ursStatus (port vf off : Nat)
  | readData (port vf off : Nat) (data : List Byte)
deriving DecidableEq, Repr

/-- The issue in progress (R158): the block, its active threads and the words of their group (R36). -/
structure Issue where
  blk : Nat := 0
  tids : List Nat := []
  /-- Address of the group's first word. -/
  grp : DWord := 0
  /-- Address of the instruction word. -/
  pc : DWord := 0
  /-- Address of the next group. -/
  next : DWord := 0
  /-- The instruction word as stored in memory (R34). -/
  word : Word := 0
  /-- The literal word of a LIMM, and the operand it replaces once the LIMM is latched (R53). -/
  litWord : Word := 0
  lit : Option (LimmTarget × Word) := none
deriving DecidableEq, Repr

/-- R261: a byte that a thread's write replaced, which an engine without a view point past the write may still read: the write's stamp,
where the byte lies (space 0 an owner's guest-physical space, 1 a block's scratchpad, 2 its accumulator tiles) and what it held. -/
structure Stale where
  stamp : Nat
  space : Nat
  key : Nat
  addr : Nat
  old : Byte
deriving DecidableEq, Repr

/-- The whole module. -/
structure State where
  /-- Clocks of the core clock since power-up (R1). -/
  clock : Nat
  /-- R1: device time. -/
  devTime : Nat
  /-- R445: the secure monotonic clock, in milliseconds. -/
  secure : Nat
  /-- The model's own: how many free values have been drawn. -/
  fresh : Nat
  /-- The model's own: the next uid of a block, command, launch or batch. -/
  uids : Nat
  /-- Steps of agents and of the outside world that come next, oldest first. -/
  inputs : List Instr
  cur : Issue
  blocks : List Block
  casts : List Cast
  launches : List Launch
  /-- Device memory by host-physical address (R241), as plaintext under the key each sector was written with. -/
  dram : Cells
  dramKey : SMap Nat
  /-- R228, R230: poisoned sectors (address ÷ 32); true where a marker pattern was written. -/
  dramPoison : SMap Bool
  /-- R228: sectors with one wrong symbol that no scrub has corrected. -/
  latent : SMap Nat
  /-- Sectors held in L2 (R219, R220): key owner × 2^47 + guest-physical address ÷ 32. -/
  l2 : SMap Sector
  /-- R221: way masks, key cache slice × 128 + owner; unlisted reads 0. -/
  ways : SMap Nat
  tlb1 : List Tlb1
  tlb2 : List Tlb2
  moving : List Moving
  /-- R448: counts of work of owners 0x7E and 0x7F, which count in the module totals alone. -/
  otherUsage : Usage
  sideLog : List LogEntry
  /-- R249: entries logged so far, by core. -/
  logSeq : SMap Nat
  /-- R250: by core, the clock at which its side log has last been tried, or has begun to hold an entry. -/
  logTried : SMap Nat
  /-- R160: the REFORM bins in use. -/
  bins : List Bin
  keySlots : List KeySlot
  /-- What each key was derived from (R442), in order of derivation. -/
  keys : List (List Byte)
  slices : List Slice
  queues : List Queue
  niches : List Niche
  tcbRetries : List TcbRetry
  /-- R425: COLL commands issued so far, key owner × 2^48 + GID × 65536 + rank. -/
  collCount : SMap Nat
  /-- R364: frames coded in each started session, key owner × 2^56 + the session block's address. -/
  sessions : SMap Nat
  /-- R410: POOL and HVFAULTQ. -/
  pool : Nat
  hvFaultQ : DWord
  /-- R408: QLOG of the shared quadrants, and the quanta each function has received in the quadrant's round (R399). -/
  qlog : SMap Nat
  quanta : SMap Nat
  /-- R399: the function whose quantum a shared quadrant runs. -/
  onQuad : SMap Nat
  /-- R399: clock at which the quantum of a shared quadrant began. -/
  quantumAt : SMap Nat
  /-- R413, R417: the thread (block and %tid) whose request the armature has in hand and has not answered. -/
  request : Option (Nat × Nat)
  /-- The model's own: agents take the next step before any thread (log entry 39). -/
  agents : Bool
  /-- The model's own: what this step sets going and may end later is left to a step of its own (log entry 95). -/
  later : Bool
  /-- R163: the core and the lane groups of the gang that decoder 0 has issued in this clock; decoder 1 chooses next. -/
  decoder1 : Option (Nat × List Nat)
  /-- R436: the world latches of dies 0 to 7. -/
  latches : List Nat
  /-- R455: quadrants removed until the next power-up. -/
  removed : Nat
  /-- R226: words of on-chip memory that belong to no resident block and that have been written as such, by on-chip address. -/
  sram : SMap Word
  /-- R228: the poisoned ones among them. -/
  sramPoison : SMap Bool
  /-- R226: blocks as they stood when they left their cores, the latest first: what the words that nothing has written since still hold. -/
  remains : List Block
  /-- R454: the command links of the 32 quadrant controllers. -/
  cmdLinks : List CmdLink
  /-- R240: the placement table of owners 0x7E and 0x7F. -/
  hvPlace : List DWord
  /-- First- and second-stage roots of owners 0x7E and 0x7F, set by firmware (R232). -/
  hvRoot1 : DWord
  hvRoot2 : DWord
  fwRoot1 : DWord
  fwRoot2 : DWord
  /-- R446, R447: the session key and the statements of owner 0x7E. -/
  hvSession : Option Nat
  hvStatements : Nat
  ports : List Port
  /-- R433: control kernels notified and not started, oldest first: the port of each. -/
  controls : List Nat
  links : List Link
  diePorts : List DiePort
  boot : Boot
  /-- R461: firmware is lowering POOL. -/
  hot : Bool
  /-- R461: POOL as it stood, or as it has been written, while firmware holds it lower. -/
  poolKept : Option Nat
  /-- R423: requests that die ports have refused and whose event records are not posted yet. -/
  refused : Nat
  /-- R417, R456, R317: cores whose words that nothing has written since are zero, not undefined; 2,048 more: its accumulators alone. -/
  cleared : List Nat
  /-- R261: replaced bytes, the latest first, and the stamp of the next write. -/
  stale : List Stale
  stamp : Nat
  /-- R258: the latest fence of each scope: key scope + 8 × (block, neighbourhood, quadrant or slice). -/
  views : SMap Nat
  /-- R261: the view point of the command at work in this step. -/
  view : Option Nat
  /-- R301: what the command at work has written in this step, as in `Cmd.wrote`; space 3 holds register slots by on-chip address. -/
  trace : List (Nat × Nat × Nat × Nat)
  outbox : List OutMsg
deriving DecidableEq, Repr

/-- Why the module stops. -/
inductive Fault where
  /-- Raised by `step` when the armature core has stopped (R455) and nothing comes from outside: all work has ended. Safe. -/
  | moduleStopped
deriving DecidableEq, Repr

/-- Why the model refuses a step. -/
inductive Refusal where
  /-- Raised by an arm of `exec` for a step that has no meaning yet. Safe. -/
  | notModelled (mnemonic : String)
deriving DecidableEq, Repr

/-- The three outcomes of a step here. -/
abbrev Outcome := Host.Outcome State Fault Refusal

/-- R439, R452: key slots after boot: 254 and 255 live for owners 0x7F and 0x7E, every other slot empty. -/
def KeySlot.boot : List KeySlot :=
  List.replicate 254 ({} : KeySlot) ++
    [{ state := .live, owner := Config.ownerFw, key := some 0 }, { state := .live, owner := Config.ownerHv, key := some 1 }]

/-- The module at the end of boot (R452 step 6): every slice FREE, every latch 0, POOL 4,096, READY 1, nothing resident. -/
def State.reset : State where
  clock := 0
  devTime := 0
  secure := 0
  fresh := 0
  uids := 0
  inputs := []
  cur := {}
  blocks := []
  casts := []
  launches := []
  dram := []
  dramKey := []
  dramPoison := []
  latent := []
  l2 := []
  ways := []
  tlb1 := []
  tlb2 := []
  moving := []
  otherUsage := {}
  sideLog := []
  logSeq := []
  logTried := []
  bins := []
  keySlots := KeySlot.boot
  keys := [[254], [255]]
  slices := List.replicate 48 {}
  queues := []
  niches := []
  tcbRetries := []
  collCount := []
  sessions := []
  pool := 4096
  hvFaultQ := 0
  qlog := []
  quanta := []
  onQuad := []
  quantumAt := []
  request := none
  agents := false
  later := false
  decoder1 := none
  latches := List.replicate 8 0
  removed := 0
  sram := []
  sramPoison := []
  remains := []
  cmdLinks := List.replicate 32 {}
  hvPlace := List.replicate 64 0
  hvRoot1 := 0
  hvRoot2 := 0
  fwRoot1 := 0
  fwRoot2 := 0
  hvSession := none
  hvStatements := 0
  ports := [{}, {}]
  controls := []
  links := List.replicate 16 {}
  diePorts := List.replicate 10 {}
  boot := {}
  hot := false
  poolKept := none
  refused := 0
  cleared := []
  stale := []
  stamp := 0
  views := []
  view := none
  trace := []
  outbox := []

end Sys2Proof.Machine
end

