-- ==== Sys2Proof/Machine/Record.lean ====
section
/-! DEFINITION. The fields of the launch record (R168, R169), of a slice record (R410) and of the lists of the state, by name. -/

namespace Sys2Proof.Machine

/-- R168: ENTRY. -/
def recEntry (r : Nat) : Nat := fld r 64 0
/-- R168: NREGS. -/
def recNregs (r : Nat) : Nat := fld r 8 64
/-- R168: TILES. -/
def recTiles (r : Nat) : Nat := fld r 8 72
/-- R168: SREGS. -/
def recSregs (r : Nat) : Nat := fld r 16 80
/-- R168: SCRATCH. -/
def recScratch (r : Nat) : Nat := fld r 32 96
/-- R168: NROWS. -/
def recNrows (r : Nat) : Nat := fld r 8 128
/-- R168: NCOLS. -/
def recNcols (r : Nat) : Nat := fld r 8 136
/-- R168: PROGRESS. -/
def recProgress (r : Nat) : Nat := fld r 8 144
/-- R168: NLEVELS. -/
def recNlevels (r : Nat) : Nat := fld r 8 152
/-- R168: MATRIX. -/
def recMatrix (r : Nat) : Bool := bit r 160
/-- R168: CALIPER. -/
def recCaliper (r : Nat) : Bool := bit r 161
/-- R168: LEVELk. -/
def recLevel (r k : Nat) : Nat := fld r 64 (192 + 64 * k)
/-- R169: DOMAIN of level k. -/
def recDomain (r k : Nat) : Nat := fld (recLevel r k) 8 0
/-- R169: SCOPE of level k. -/
def recScope (r k : Nat) : Nat := fld (recLevel r k) 8 8
/-- R169: EXTENT of level k. -/
def recExtent (r k : Nat) : Nat := fld (recLevel r k) 32 32
/-- R168: DEADLINE. -/
def recDeadline (r : Nat) : Nat := fld r 64 704
/-- R168: SPILLBASE. -/
def recSpillBase (r : Nat) : Nat := fld r 64 768
/-- R168: SPILLDEPTH. -/
def recSpillDepth (r : Nat) : Nat := fld r 32 832
/-- R168: PARAM, word i. -/
def recParam (r i : Nat) : Nat := fld r 32 (896 + 32 * i)
/-- R168: NODETAB. -/
def recNodetab (r : Nat) : Nat := fld r 64 1408
/-- R168: TCB. -/
def recTcb (r : Nat) : Nat := fld r 64 1472

/-- R169: the level of domain block. -/
def recBlockLevel (r : Nat) : Nat := ((List.range (recNlevels r)).find? (fun k => recDomain r k == 2)).getD 0

/-- R169: T, the product of the extents below the block level. -/
def recThreads (r : Nat) : Nat := (List.range (recBlockLevel r)).foldl (fun p k => p * recExtent r k) 1

/-- R170: blocks in the launch: the product of the extents from the block level upward. -/
def recBlocks (r : Nat) : Nat :=
  ((List.range (recNlevels r)).filter (fun k => recBlockLevel r ≤ k)).foldl (fun p k => p * recExtent r k) 1

/-- R170: %levelk of thread `tid` of block `num`. -/
def levelIndex (r tid num k : Nat) : Nat :=
  let bl := recBlockLevel r
  if recNlevels r ≤ k then 0
  else if k < bl then tid / ((List.range k).foldl (fun p j => p * recExtent r j) 1) % recExtent r k
  else num / (((List.range k).filter (bl ≤ ·)).foldl (fun p j => p * recExtent r j) 1) % recExtent r k

/-- R15: A = 12 × ⌈N / 12⌉. -/
def allocOf (n : Nat) : Nat := 12 * ((n + 11) / 12)

/-- R171: bytes of one quad's spill area. -/
def spillStride (d : Nat) : Nat := 64 * ((17 * d + 63) / 64)

/-- Quads of a block of T threads (R156). -/
def quadsOf (t : Nat) : Nat := (t + 3) / 4

/-- R407: slice `o`. -/
def State.slice (s : State) (o : Nat) : Slice := s.slices.getD o {}

/-- The state with slice `o` changed. -/
def State.updSlice (s : State) (o : Nat) (f : Slice → Slice) : State := { s with slices := upd s.slices o f }

/-- R410: word `i` of slice `o`'s record. -/
def State.sliceWord (s : State) (o i : Nat) : Nat := ((s.slice o).record.getD i 0).toNat

/-- R266: TSCOPE of an owner. -/
def State.tscope (s : State) (o : Nat) : Bool := o < Config.nSlices && bit (s.sliceWord o 1) 0

/-- R410: the PCIe port of an owner; port 0 for owners 0x7E and 0x7F (log entry 14). -/
def State.portOf (s : State) (o : Nat) : Nat := if o < Config.nSlices then fld (s.sliceWord o 0) 1 8 else 0

/-- The state with slice `o`'s status counters changed (R415); owners 0x7E and 0x7F have none. -/
def State.count (s : State) (o : Nat) (f : Counters → Counters) : State :=
  s.updSlice o (fun x => { x with counters := f x.counters })

/-- R415: counters saturate at 2^64 − 1. -/
def satAdd (x n : Nat) : Nat := min (x + n) (2 ^ 64 - 1)

/-- R408: quadrants of slice `o`, hard or shared, ascending. -/
def State.quadsOfSlice (s : State) (o : Nat) : List Nat :=
  (List.range 32).filter (fun q => bit (s.slice o).hard q || (SMap.get (s.slice o).shares q).isSome)

/-- R219, R409: the cache slices of an owner, ascending. -/
def State.cacheSet (s : State) (o : Nat) : List Nat :=
  if o < Config.nSlices then (s.quadsOfSlice o).flatMap (fun q => (List.range 12).map (fun i => 12 * q + i))
  else List.range Config.nCacheSlices

/-- R219: the cache slice that is home to a line of an owner; none for a slice without quadrants. -/
def State.homeOf (s : State) (o gpa : Nat) : Option Nat :=
  let x := fld gpa 45 7
  let set := s.cacheSet o
  set[(Nat.xor (Nat.xor (fld x 15 0) (fld x 15 15)) (fld x 15 30)) % set.length]?

/-- R410, R423: the world of an owner's requests; 15 for the hypervisor and firmware. -/
def State.worldOf (s : State) (o : Nat) : Nat := if o < Config.nSlices then fld (s.sliceWord o 0) 4 24 else 15

/-- R221, R223, R436: an owner may allocate in the home of a line. -/
def State.cached (s : State) (o gpa : Nat) : Bool :=
  match s.homeOf o gpa with
  | none => false
  | some h =>
    let w := s.latches.getD (h / 48) 0
    SMap.getD s.ways (h * 128 + o) 0 % 65536 != 0 && (w == 0 || o == Config.ownerHv || o < Config.nSlices && s.worldOf o == w)

/-- R3: die, quadrant of the module and cores: quadrant 4d + q holds cores 40 × (4d + q) to + 39. -/
def quadOfCore (c : Nat) : Nat := c / 40

end Sys2Proof.Machine
end

