-- ==== Sys2Proof/Machine/Translate.lean ====
section
/-! DEFINITION. From a guest-virtual address to the place of its bytes: DRAM under its keys (R224, R225, R438), the two walks
(R233 to R238), placement (R239 to R244, R412). -/

namespace Sys2Proof.Machine

/-- Why an access to device memory fails. -/
inductive MemFault where
  /-- First stage (R143): not present, or a permission failure. -/
  | page (np : Bool)
  /-- Second stage: the guest-physical address, and whether the failure is not-present rather than a permission's (R249). -/
  | stage2 (gpa : Nat) (np : Bool := true)
  /-- R230: poison, with its syndrome word. -/
  | poison (syndrome : Nat)
  /-- R250: no failure: the access of `n` bytes waits behind the side log. -/
  | held (n : Nat)
deriving DecidableEq, Repr

/-- Who accesses and how: owner tag (R220), level, access kind of R143, what the pages must permit (R235), and the core that sends
the request (R423); none for what starts at the request's home. -/
structure Req where
  owner : Nat
  level : Level
  code : Nat
  r : Bool
  w : Bool
  x : Bool
  core : Option Nat := none
deriving DecidableEq, Repr

/-- R220, R232: a level's work runs under its slice's owner tag, the hypervisor's or firmware's. -/
def ownerAt (owner : Nat) : Level → Nat
  | .u => owner | .s => owner | .h => Config.ownerHv | .f => Config.ownerFw

/-- R433: the core of a block, as the sender of its requests. -/
def Block.sender (b : Block) : Option Nat := if b.core < Config.nCores then some b.core else none

/-- A load (R143, kind 0). -/
def Req.load (o : Nat) (l : Level) (core : Option Nat := none) : Req := ⟨o, l, 0, true, false, false, core⟩
/-- A store (kind 1). -/
def Req.store (o : Nat) (l : Level) (core : Option Nat := none) : Req := ⟨o, l, 1, true, true, false, core⟩
/-- A read-modify-write, a spill or a fill (kind 2; R19). -/
def Req.rmw (o : Nat) (l : Level) (core : Option Nat := none) : Req := ⟨o, l, 2, true, true, false, core⟩
/-- A load of a thread of the block at a level. -/
def Block.loadReq (b : Block) (l : Level) : Req := Req.load (ownerAt b.owner l) l b.sender
/-- A store of a thread of the block at a level. -/
def Block.storeReq (b : Block) (l : Level) : Req := Req.store (ownerAt b.owner l) l b.sender
/-- A read-modify-write, a spill or a fill of a thread of the block at a level. -/
def Block.rmwReq (b : Block) (l : Level) : Req := Req.rmw (ownerAt b.owner l) l b.sender
/-- A prefetch (R143, kind 3). -/
def Block.prefetchReq (b : Block) (l : Level) : Req := ⟨ownerAt b.owner l, l, 3, true, false, false, b.sender⟩
/-- CWB and CINV (R280, kind 3; log entry 15). -/
def Block.writeBackReq (b : Block) (l : Level) : Req := ⟨ownerAt b.owner l, l, 3, true, true, false, b.sender⟩
/-- Instruction fetch (R14). -/
def Block.fetchReq (b : Block) (l : Level) : Req := ⟨ownerAt b.owner l, l, 0, false, false, true, b.sender⟩

/-- Where the bytes of an address lie (R238). -/
inductive Place where
  /-- R232 step 4: L2 holds the bytes; the line keeps its AHOME bit (R243). -/
  | line (ahome : Bool)
  /-- A host-physical address of DRAM (R241), its key slot and atomic home. -/
  | dram (hpa slot : Nat) (ahome : Bool)
  /-- An on-chip address (R226). -/
  | chip (addr : Nat)
  /-- An address in the memory of the host at a port. -/
  | host (port addr : Nat)
deriving DecidableEq, Repr

/-- R230: the syndrome word. -/
def syndromeOf (struct loc : Nat) (marked : Bool) : Nat :=
  if marked then 9 * 2 ^ 28 + struct * 2 ^ 21 + loc else struct * 2 ^ 28 + loc

/-- Device memory of tier 0 or 1: host-physical address and key slot, both 0 where L2 holds the bytes and needs neither. -/
def Place.device : Place → Option (Nat × Nat)
  | .line _ => some (0, 0)
  | .dram h slot _ => some (h, slot)
  | _ => none

/-- The place is one of host memory. -/
def Place.inHost : Place → Bool
  | .host _ _ => true
  | _ => false

/-! ## DRAM -/

/-- R241: tier, die and channel of a host-physical address. -/
def hpaTier (h : Nat) : Nat := fld h 2 46
/-- R224: the location exists: a tier of DRAM, a channel of it and an address below its capacity. -/
def hpaOk (h : Nat) : Bool :=
  h < 2 ^ 48 &&
  (hpaTier h == 0 && fld h 38 0 < 1610612736 || hpaTier h == 1 && fld h 5 38 < 4 && fld h 38 0 < 3221225472)

/-- R230: the syndrome of poison at a host-physical address. -/
def dramSyndrome (h : Nat) (marked : Bool) : Nat :=
  let die := fld h 3 43
  if hpaTier h = 0 then syndromeOf 7 (die * 32 + fld h 5 38) marked else syndromeOf 8 (die * 4 + fld h 5 38) marked

/-- R438, R225: the key in force in a slot for requests of an owner tag. -/
def State.keyFor (s : State) (owner slot : Nat) : Option Nat :=
  match s.keySlots[slot]? with
  | some k => if k.state = .live ∧ k.owner = owner then k.key else none
  | none => none

/-- The byte at `h` as deciphered under key `k`; under another key than the one it was written with, every byte of its 16-byte block has
a part in it. -/
def State.dramByte (s : State) (k h : Nat) : Byte :=
  match SMap.get s.dramKey (h / 32) with
  | none => Cells.read s.dram h
  | some k' =>
    if k' = k then Cells.read s.dram h
    else Config.decipher k' k (h / 16) ((List.range 16).map (fun i => Cells.read s.dram (h / 16 * 16 + i))) (h % 16)

/-- The 32 bytes of the sector that holds `h`, read under a slot, and the syndrome if they are poisoned. -/
def State.dramSector (s : State) (owner slot h : Nat) : List Byte × Option Nat :=
  let b := h / 32 * 32
  match s.keyFor owner slot with
  | none => (List.replicate 32 0, some (dramSyndrome h true))
  | some k =>
    ((List.range 32).map (fun i => s.dramByte k (b + i)),
      (SMap.get s.dramPoison (h / 32)).map (dramSyndrome h))

/-- Cells `b`, `b` + 1, … of a byte memory set to a list. -/
def Cells.writeList (m : Cells) (b : Nat) : List Byte → Cells
  | [] => m
  | v :: vs => Cells.writeList (Cells.write m b v) (b + 1) vs

/-- R448: bytes moved at a controller of the tier. -/
def Usage.moved (u : Usage) (h n : Nat) : Usage :=
  if hpaTier h = 0 then { u with hbmBytes := u.hbmBytes + n } else { u with g7Bytes := u.g7Bytes + n }

/-- R448: bytes moved at a controller of the tier for an owner. -/
def State.moved (s : State) (owner h n : Nat) : State :=
  if owner < Config.nSlices then s.updSlice owner (fun x => { x with usage := x.usage.moved h n })
  else { s with otherUsage := s.otherUsage.moved h n }

/-- R228: a wrong symbol that a controller corrects while it reads the sector of a DRAM place is counted for the sector's owner. -/
def State.correctRead (s : State) (owner h : Nat) : State :=
  if (SMap.get s.latent (h / 32)).isSome then s.count owner (fun c => { c with corrected := satAdd c.corrected 1 }) else s

/-- R225, R152, R229: 32 bytes written to the sector of `h`; dropped and counted when the slot has no key for the owner.
`poison` is whether the sector is left poisoned (by a marker). -/
def State.putDramSector (s : State) (owner slot h : Nat) (bytes : List Byte) (poison : Option Bool) : State :=
  match s.keyFor owner slot with
  | none => s.count owner (fun c => { c with keyDropped := satAdd c.keyDropped 1 })
  | some k =>
    State.moved { s with
      dram := Cells.writeList s.dram (h / 32 * 32) bytes
      dramKey := SMap.set s.dramKey (h / 32) k
      latent := SMap.erase s.latent (h / 32)
      dramPoison := match poison with
        | none => SMap.erase s.dramPoison (h / 32)
        | some m => SMap.set s.dramPoison (h / 32) m } owner h 32

/-! ## The second stage -/

/-- R237: the levels of the walk: shift and width of the index, whether a leaf may stand there, alignment of the next table. -/
def levels2 : List (Nat × Nat × Bool × Nat) := [(39, 13, false, 13), (30, 9, true, 13), (21, 9, true, 9), (16, 5, true, 0)]

/-- R237, R238: the entry is valid at a level. -/
def entry2Ok (e sh : Nat) (leafOk : Bool) (al : Nat) : Bool :=
  let kind := fld e 2 6
  let place := fld e 32 96
  let addr := fld e 48 8 * 256
  bit e 0 && fld e 40 56 == 0 && kind < 2 && !bit e 5 &&
  if bit e 1 then
    leafOk && (!bit e 3 || bit e 2) &&
    (if kind = 1 then place == 0 && addr % 2 ^ sh == 0
     else if fld place 2 30 = 2 then fld place 30 0 == 0 && sh == 16 && addr < 2 ^ 32 && addr % 65536 == 0
     else addr < 2 ^ 38)
  else fld e 3 2 == 0 && place == 0 && addr < 2 ^ 48 && addr % 2 ^ al == 0

/-- R237: the second-stage walk from the table at `table`: the entry found and its page's size. -/
def State.walk2 (s : State) (gpa : Nat) : List (Nat × Nat × Bool × Nat) → Nat → Except MemFault (Nat × Nat)
  | [], _ => .error (.stage2 gpa)
  | (sh, w, leafOk, al) :: rest, table =>
    let h := table + 16 * fld gpa w sh
    if !hpaOk h then .error (.stage2 gpa)
    else
      match s.dramSector Config.ownerHv Config.hvKeySlot h with
      | (_, some syn) => .error (.poison syn)
      | (bytes, none) =>
        let e := ofBytes ((bytes.drop (h % 32)).take 16)
        if !entry2Ok e sh leafOk al then .error (.stage2 gpa)
        else if bit e 1 then .ok (2 ^ sh, e)
        else s.walk2 gpa rest (fld e 48 8 * 256)

/-- R237: the host-physical addresses of the entries that `walk2` reads. -/
def State.walk2Reads (s : State) (gpa : Nat) : List (Nat × Nat × Bool × Nat) → Nat → List Nat
  | [], _ => []
  | (sh, w, leafOk, al) :: rest, table =>
    let h := table + 16 * fld gpa w sh
    if !hpaOk h then []
    else
      match s.dramSector Config.ownerHv Config.hvKeySlot h with
      | (_, some _) => [h]
      | (bytes, none) =>
        let e := ofBytes ((bytes.drop (h % 32)).take 16)
        if !entry2Ok e sh leafOk al || bit e 1 then [h] else h :: s.walk2Reads gpa rest (fld e 48 8 * 256)

/-- R410 word 3, R232: the second-stage root of an owner. -/
def State.root2 (s : State) (owner : Nat) : Nat :=
  if owner < Config.nSlices then s.sliceWord owner 3
  else if owner = Config.ownerHv then s.hvRoot2.toNat else s.fwRoot2.toNat

/-- R237: the second-stage translation of a guest-physical address, cached or walked. -/
def State.translate2 (s : State) (owner gpa : Nat) : Except MemFault Tlb2 :=
  match s.tlb2.find? (fun t => t.owner == owner && t.gpa ≤ gpa && gpa < t.gpa + t.size) with
  | some t => .ok t
  | none =>
    let root := s.root2 owner
    if !bit root 0 || fld root 16 1 != 0 || fld root 12 52 != 0 then .error (.stage2 gpa)
    else
      match s.walk2 gpa levels2 (fld root 35 17 * 131072) with
      | .error f => .error f
      | .ok (size, e) => .ok ⟨owner, gpa / size * size, size, e⟩

/-- R228, R448: the reads of a second-stage walk, counted at their controllers for owner 0x7E, under whose tag tables are read (R237). -/
def State.noteWalk2 (s : State) (owner gpa : Nat) : State :=
  let root := s.root2 owner
  if s.tlb2.any (fun t => t.owner == owner && t.gpa ≤ gpa && gpa < t.gpa + t.size) || !bit root 0 || fld root 16 1 != 0 || fld root 12 52 != 0 then s
  else (s.walk2Reads gpa levels2 (fld root 35 17 * 131072)).foldl (fun s h => (s.moved Config.ownerHv h 32).correctRead Config.ownerHv h) s

/-- R240: entry `c` of the owner's placement table. -/
def State.csetOf (s : State) (owner c : Nat) : Nat :=
  (if owner < Config.nSlices then (s.slice owner).place.getD c 0 else s.hvPlace.getD c 0).toNat

/-- A power of two. -/
def isPow2 (n : Nat) : Bool := n != 0 && 2 ^ n.log2 == n

/-- R239: the stripe granule of a placement word. -/
def granOf (p : Nat) : Nat := [256, 1024, 4096, 65536].getD (fld p 2 11) 256

/-- R241, R242, R412: the host-physical address of byte `o` of a page of `size` bytes whose tier 0 or 1 entry is `e`;
none where the placement word is invalid. -/
def State.locate (s : State) (owner e size o : Nat) : Option Nat :=
  let p := fld e 32 96
  let tier := fld p 2 30
  let dies := bitsOf 8 (fld p 8 22)
  let cs := s.csetOf owner (fld p 6 16)
  let mask := if tier = 0 then fld cs 32 0 else fld cs 4 32
  let chs := bitsOf 32 mask
  let nd := dies.length
  let nc := chs.length
  let l0 := fld e 48 8 * 256
  let g := granOf p
  let z := size / (nd * nc)
  let cap := if tier = 0 then 1610612736 else 3221225472
  let own (k m w : Nat) : Bool := owner ≥ Config.nSlices || Nat.land m (fld (s.sliceWord owner k) w 0) == m
  let owned := own 11 (fld p 8 22 * 2 ^ 32) 40 && (if tier = 0 then own 11 mask 32 else own 12 mask 4)
  if tier < 2 && isPow2 nd && isPow2 nc && fld cs 28 36 == 0 && l0 % z == 0 && l0 + max z g ≤ cap && !bit p 8 && owned then
    let u := o / g
    let die := dies.getD (u % nd) 0
    let ch := chs.getD (u / nd % nc) 0
    some (tier * 2 ^ 46 + die * 2 ^ 43 + ch * 2 ^ 38 + (l0 + u / (nd * nc) * g + o % g))
  else none

/-- R244: the entry in force for a page's byte: the new placement below the cursor of a re-stripe. -/
def State.entryAt (s : State) (t : Tlb2) (gpa : Nat) : Nat :=
  match s.moving.find? (fun m => m.owner == t.owner && m.gpa ≤ gpa && gpa < m.gpa + m.size) with
  | some m => if (gpa - m.gpa) / 128 < m.cursor then m.new else m.old
  | none => t.entry

/-- R238, R242: where the byte at a guest-physical address lies, past L2. -/
def State.placeAny (s : State) (t : Tlb2) (gpa : Nat) : Except MemFault Place :=
  let e := s.entryAt t gpa
  let p := fld e 32 96
  let o := gpa - t.gpa
  if fld e 2 6 = 1 then
    .ok (.host (s.portOf t.owner) (fld e 48 8 * 256 + o))
  else if fld p 2 30 = 2 then .ok (.chip (fld e 48 8 * 256 + o))
  else match s.locate t.owner e t.size o with
    | some h => .ok (.dram h (fld p 8 0) (bit p 10))
    | none => .error (.stage2 gpa)

/-- R266: as `placeAny`, under TSCOPE for an access that would reach host memory. That refusal is a permission failure, and an invalid
placement word (`placeAny`) counts as not present: R249's NP names these two kinds alone (log entry 115). -/
def State.placeOf (s : State) (t : Tlb2) (gpa : Nat) : Except MemFault Place :=
  match s.placeAny t gpa with
  | .ok (.host p a) => if s.tscope t.owner then .error (.stage2 gpa false) else .ok (.host p a)
  | r => r

/-! ## Routes between dies -/

/-- R422: the ten pairs of adjacent dies, in the order in which this model numbers their ports (log entry 41). -/
def diePairs : List (Nat × Nat) := [(0, 1), (1, 2), (2, 3), (4, 5), (5, 6), (6, 7), (0, 4), (1, 5), (2, 6), (3, 7)]

/-- R423: a port between two dies is up and serves a world: the latched world of the die on each side. -/
def State.portServes (s : State) (w a b : Nat) : Bool :=
  (diePairs.zipIdx.any (fun p => (p.1 == (a, b) || p.1 == (b, a)) && (s.diePorts.getD p.2 {}).up)) &&
  (w == 15 || s.latches.getD a 0 == w && s.latches.getD b 0 == w)

/-- R437: a request of a world, other than those forms of world 15 that R437 lists, may be at a die. -/
def State.dieOpen (s : State) (w die : Nat) : Bool := w != 15 || s.latches.getD die 0 == 0

/-- R423, R437: dies that a request of a world reaches from a list of dies. -/
def State.spread (s : State) (w : Nat) : Nat → List Nat → List Nat
  | 0, ds => ds
  | n + 1, ds => s.spread w n ((List.range 8).filter (fun d =>
      ds.contains d || s.dieOpen w d && ds.any (fun a => s.portServes w a d)))

/-- R423: an owner's request goes from one die to another. -/
def State.dieReach (s : State) (owner a b : Nat) : Bool := a == b || (s.spread (s.worldOf owner) 8 [a]).contains b

/-- R423, R437: a request goes from its core to the home cache slice of its line; world 15 is not served on a latched die. -/
def State.homeReach (s : State) (q : Req) (gpa : Nat) : Bool :=
  match s.homeOf q.owner gpa with
  | some c => s.dieOpen (s.worldOf q.owner) (c / 48) && (match q.core with | some k => s.dieReach q.owner (k / 160) (c / 48) | none => true)
  | none => true

/-- R2, R423: the request goes on from the line's home to a host port, on die 0 or 4. -/
def State.portReach (s : State) (owner gpa port : Nat) : Bool :=
  match s.homeOf owner gpa with
  | some c => s.dieReach owner (c / 48) (4 * port)
  | none => true

/-- R227, R423: the request goes on from the line's home to the core that an on-chip address names. -/
def State.chipReach (s : State) (owner gpa a : Nat) : Bool :=
  match s.homeOf owner gpa with
  | some c => s.dieReach owner (c / 48) (fld a 11 21 / 160)
  | none => true

/-- R423, R437: an owner's request reaches the DRAM that holds a line, from the line's home. -/
def State.routeOk (s : State) (owner gpa h : Nat) : Bool :=
  let die := fld h 3 43
  match s.homeOf owner gpa with
  | none => true
  | some c => s.dieOpen (s.worldOf owner) die && s.dieReach owner (c / 48) die

/-! ## Lines held in L2 -/

/-- The key of a sector in `State.l2`. -/
def l2Key (owner gpa : Nat) : Nat := owner * 2 ^ 47 + gpa / 32

/-- R219: the set of a line within its home. -/
def lineSet (gpa : Nat) : Nat := fld gpa 10 7

/-- R220: L2 holds every sector of [gpa, gpa + n). -/
def State.holds (s : State) (owner gpa n : Nat) : Bool :=
  (List.range ((gpa % 32 + n + 31) / 32)).all (fun i => (SMap.get s.l2 (l2Key owner (gpa + 32 * i))).isSome)

/-- R220: a sector that L2 holds of the line of an address. -/
def State.line? (s : State) (owner gpa : Nat) : Option Sector :=
  (List.range 4).findSome? (fun i => SMap.get s.l2 (l2Key owner (gpa / 128 * 128 + 32 * i)))

/-- R220: the sector of a guest-physical address at a DRAM place, from L2 or DRAM, and the syndrome if it is poisoned. A read that finds
an error of L2's own leaves the sector as it is, so that every later read finds it in the same way, with L2's own code (log entry 116). -/
def State.sectorAt (s : State) (owner gpa h slot : Nat) : List Byte × Option Nat :=
  match SMap.get s.l2 (l2Key owner gpa) with
  | some x => (x.bytes, x.poison.map (syndromeOf 5 x.home))
  | none => if s.routeOk owner gpa h then s.dramSector owner slot h else (List.replicate 32 0, some (dramSyndrome h true))

/-- R228, R423, R448: a sector is read from memory for what takes it no further than its reader: nothing where L2 holds it; where it is
refused on its way, the event of that; else it is counted at its controller. -/
def State.noteSector (s : State) (owner gpa h : Nat) : State :=
  if (SMap.get s.l2 (l2Key owner gpa)).isSome then s
  else if s.routeOk owner gpa h then (s.moved owner h 32).correctRead owner h
  else { s with refused := s.refused + 1 }

/-- R423: a sector written over the dies; a refused one is dropped, and its event record stays to be posted. -/
def State.routeSector (s : State) (owner gpa slot h : Nat) (bytes : List Byte) (poison : Option Bool) : State :=
  if s.routeOk owner gpa h then s.putDramSector owner slot h bytes poison else { s with refused := s.refused + 1 }

/-- R220: a sector dropped from L2, written back to memory if it is dirty. -/
def State.flushSector (s : State) (key : Nat) : State :=
  match SMap.get s.l2 key with
  | none => s
  | some x =>
    let owner := key / 2 ^ 47
    let gpa := key % 2 ^ 47 * 32
    let s' := { s with l2 := SMap.erase s.l2 key }
    if !x.dirty then s'
    else match s.translate2 owner gpa with
      | .error _ => s'
      | .ok t =>
        match s.placeOf t gpa with
        | .ok (.dram h slot _) => s'.routeSector owner gpa slot h x.bytes (x.poison.map (fun _ => true))
        | _ => s'

/-- R206: the sectors in one set of a cache slice. -/
def State.inSet (s : State) (home set : Nat) : SMap Sector := s.l2.filter (fun c => c.2.home == home && c.1 / 4 % 1024 == set)

/-- R221: the way in which an owner's new line goes: a free one of its mask, or any (log entry 44). -/
def State.wayFor (s : State) (owner gpa home : Nat) : Nat :=
  let ways := bitsOf 16 (SMap.getD s.ways (home * 128 + owner) 0)
  let used := (s.inSet home (lineSet gpa)).map (·.2.way)
  (ways.find? (fun w => !used.contains w)).getD (ways.getD (Config.pick s.fresh % ways.length) 0)

/-- R220, R237: a sector put into L2: beside its line, or in a way whose line is written back and dropped. A new line keeps its
page's RD, W and AHOME. -/
def State.fillSector (s : State) (t : Tlb2) (gpa : Nat) (bytes : List Byte) (poison : Option Bool) (dirty : Bool) : State :=
  match s.line? t.owner gpa with
  | some x => { s with l2 := SMap.set s.l2 (l2Key t.owner gpa) { x with bytes := bytes, poison := poison, dirty := dirty } }
  | none =>
    match s.homeOf t.owner gpa with
    | none => s
    | some home =>
      let w := s.wayFor t.owner gpa home
      let e := s.entryAt t gpa
      let out := ((s.inSet home (lineSet gpa)).filter (fun c => c.2.way == w)).map (·.1)
      let s := out.foldl State.flushSector { s with fresh := s.fresh + 1 }
      let sec : Sector :=
        { bytes := bytes, poison := poison, dirty := dirty, home := home, way := w, page := t.gpa, size := t.size
          rd := bit e 2, w := bit e 3, ahome := bit e 106 }
      { s with l2 := SMap.set s.l2 (l2Key t.owner gpa) sec }

/-- R220: a sector is read from memory into L2: it is not there, and its owner may allocate. -/
def State.fetches (s : State) (t : Tlb2) (gpa h : Nat) : Bool :=
  (SMap.get s.l2 (l2Key t.owner gpa)).isNone && s.cached t.owner gpa && s.routeOk t.owner gpa h

/-- R220, R228, R448: a sector read from memory into L2, where its owner may allocate. -/
def State.fetchSector (s : State) (t : Tlb2) (gpa h slot : Nat) : State :=
  if s.fetches t gpa h then
    let (b, syn) := s.dramSector t.owner slot h
    ((s.moved t.owner h 32).correctRead t.owner h).fillSector t gpa b (syn.map (fun _ => true)) false
  else s

/-- R220, R228, R448: a sector read from memory: into L2 where its owner may allocate. -/
def State.takeSector (s : State) (t : Tlb2) (gpa h slot : Nat) : State :=
  if s.fetches t gpa h then s.fetchSector t gpa h slot else s.noteSector t.owner gpa h

/-- R229, R265: cells of one sector written at its holder. `rmw` keeps poison although all 32 bytes are written. A write of a part reads
the rest from memory where L2 does not hold it, which counts there (R228, R448); a read-modify-write has read it already. -/
def State.putSector (s : State) (t : Tlb2) (gpa h slot : Nat) (cells : List (Nat × Byte)) (rmw : Bool) : State :=
  let (old, syn) := s.sectorAt t.owner gpa h slot
  let b := gpa / 32 * 32
  let new := (List.range 32).map (fun i => match cells.findRev? (fun c => c.1 == b + i) with
    | some c => c.2 | none => old.getD i 0)
  let whole := (List.range 32).all (fun i => cells.any (fun c => c.1 == b + i))
  let poison : Option Bool := if whole && !rmw then none else syn.map (fun _ => true)
  if s.cached t.owner gpa || (s.line? t.owner gpa).isSome then
    (if whole || rmw then s else s.noteSector t.owner gpa h).fillSector t gpa new poison true
  else (if whole || rmw || !s.routeOk t.owner gpa h then s else s.noteSector t.owner gpa h).routeSector t.owner gpa slot h new poison

/-- Every sector of L2 for whose owner and address `p` holds, written back if dirty and dropped. -/
def State.flushL2 (s : State) (p : Nat → Nat → Bool) : State :=
  ((s.l2.filter (fun c => p (c.1 / 2 ^ 47) (c.1 % 2 ^ 47 * 32))).map (·.1)).foldl State.flushSector s

/-- Every sector of L2 for whose owner and address `p` holds, discarded without writeback. -/
def State.discardL2 (s : State) (p : Nat → Nat → Bool) : State :=
  { s with l2 := SMap.drop s.l2 (fun k => p (k / 2 ^ 47) (k % 2 ^ 47 * 32)) }

/-- Bytes at a guest-physical address that lie in one sector or in whole sectors of one page, at a DRAM place. -/
def State.dramBytes (s : State) (owner gpa h slot n : Nat) : List Byte × Option Nat :=
  let secs := (List.range ((gpa % 32 + n + 31) / 32)).map (fun i => s.sectorAt owner (gpa / 32 * 32 + 32 * i) (h / 32 * 32 + 32 * i) slot)
  ((((secs.flatMap (·.1)).drop (gpa % 32)).take n), secs.findSome? (·.2))

/-- What the second stage gives for reading table bytes or records of an owner. -/
def State.readGpa (s : State) (owner gpa n : Nat) : Except MemFault (List Byte) :=
  match s.translate2 owner gpa with
  | .error f => .error f
  | .ok t =>
    if !bit t.entry 2 then .error (.stage2 gpa false)
    else match s.placeOf t gpa with
      | .error f => .error f
      | .ok (.dram h slot _) =>
        match s.dramBytes owner gpa h slot n with
        | (_, some syn) => .error (.poison syn)
        | (b, none) => .ok b
      | .ok (.host p a) => .ok ((List.range n).map (fun i => Config.hostByte p (a + i) s.fresh))
      | .ok _ => .error (.stage2 gpa)

/-- R228, R423, R448: what reading table bytes or records of an owner counts: the second-stage walk, and the sector. -/
def State.noteGpa (s : State) (owner gpa : Nat) : State :=
  let s := s.noteWalk2 owner gpa
  match s.translate2 owner gpa with
  | .error _ => s
  | .ok t => match s.placeOf t gpa with
    | .ok (.dram h _ _) => s.noteSector owner gpa h
    | _ => s

/-! ## The first stage -/

/-- R233: the levels of the first-stage walk, as `levels2`. -/
def levels1 : List (Nat × Nat × Bool × Nat) :=
  [(48, 8, false, 12), (39, 9, false, 12), (30, 9, true, 12), (21, 9, true, 8), (16, 5, true, 0)]

/-- R234: the entry is valid at a level. -/
def entry1Ok (e sh : Nat) (leafOk : Bool) (al : Nat) : Bool :=
  let addr := fld e 44 8 * 256
  bit e 0 && fld e 8 56 == 0 && fld e 2 6 == 0 &&
  if bit e 1 then leafOk && (!bit e 3 || bit e 2) && addr % 2 ^ sh == 0
  else fld e 4 2 == 0 && addr % 2 ^ al == 0

/-- R233: the first-stage walk from the table at `table`. -/
def State.walk1 (s : State) (owner va : Nat) : List (Nat × Nat × Bool × Nat) → Nat → Except MemFault (Nat × Nat)
  | [], _ => .error (.page true)
  | (sh, w, leafOk, al) :: rest, table =>
    match s.readGpa owner (table + 8 * fld va w sh) 8 with
    | .error f => .error f
    | .ok bytes =>
      let e := ofBytes bytes
      if !entry1Ok e sh leafOk al then .error (.page true)
      else if bit e 1 then .ok (2 ^ sh, e)
      else s.walk1 owner va rest (fld e 44 8 * 256)

/-- R233: the guest-physical addresses of the entries that `walk1` reads. -/
def State.walk1Reads (s : State) (owner va : Nat) : List (Nat × Nat × Bool × Nat) → Nat → List Nat
  | [], _ => []
  | (sh, w, leafOk, al) :: rest, table =>
    let g := table + 8 * fld va w sh
    match s.readGpa owner g 8 with
    | .error _ => [g]
    | .ok bytes =>
      let e := ofBytes bytes
      if !entry1Ok e sh leafOk al || bit e 1 then [g] else g :: s.walk1Reads owner va rest (fld e 44 8 * 256)

/-- R410 word 2, R232, R236: the first-stage root in force for an owner. -/
def State.root1 (s : State) (owner : Nat) : Nat :=
  if owner < Config.nSlices then (s.slice owner).root1.toNat
  else if owner = Config.ownerHv then s.hvRoot1.toNat else s.fwRoot1.toNat

/-- R233: the first-stage translation of a guest-virtual address, cached or walked. -/
def State.translate1 (s : State) (owner va : Nat) : Except MemFault Tlb1 :=
  match s.tlb1.find? (fun t => t.owner == owner && t.va ≤ va && va < t.va + t.size) with
  | some t => .ok t
  | none =>
    let root := s.root1 owner
    if 2 ^ 56 ≤ va || !bit root 0 || fld root 10 1 != 0 || fld root 12 52 != 0 then .error (.page true)
    else
      match s.walk1 owner va levels1 (fld root 41 11 * 2048) with
      | .error f => .error f
      | .ok (size, e) => .ok ⟨owner, va / size * size, size, fld e 44 8 * 256, fld e 6 0⟩

/-- R228, R423, R448: what the reads of a first-stage walk count. -/
def State.noteWalk1 (s : State) (owner va : Nat) : State :=
  let root := s.root1 owner
  if s.tlb1.any (fun t => t.owner == owner && t.va ≤ va && va < t.va + t.size) || 2 ^ 56 ≤ va || !bit root 0 || fld root 10 1 != 0 ||
    fld root 12 52 != 0 then s
  else (s.walk1Reads owner va levels1 (fld root 41 11 * 2048)).foldl (fun s g => s.noteGpa owner g) s

/-- R235: a leaf's bits permit the access at its level. -/
def permits1 (bits : Nat) (q : Req) : Bool :=
  (!q.r || bit bits 2) && (!q.w || bit bits 2 && bit bits 3) && (!q.x || bit bits 4) &&
  (if q.level = .u then bit bits 5 else !q.x || !bit bits 5)

/-- R237: the second stage's bits permit the access. -/
def permits2 (e : Nat) (q : Req) : Bool :=
  (!q.r || bit e 2) && (!q.w || bit e 2 && bit e 3) && (!q.x || bit e 4)

/-- A translated access: the two entries used, the guest-physical address and the place. -/
structure Xlated where
  t1 : Tlb1
  t2 : Tlb2
  gpa : Nat
  place : Place
deriving DecidableEq, Repr

/-- R437: an on-chip address lies on a die latched to a world other than 0. -/
def State.latchedChip (s : State) (a : Nat) : Bool := s.latches.getD (fld a 11 21 / 160) 0 != 0

/-- R237: a line's kept bits permit the access. -/
def Sector.permits (x : Sector) (q : Req) : Bool := (!q.r || x.rd) && (!q.w || x.rd && x.w)

/-- R232 step 5: the second stage of an access that L2 does not serve. Prefetches, CWB and CINV (kind 3) reach no host memory
(R266, R280). -/
def State.translatePast (s : State) (q : Req) (t1 : Tlb1) (gpa : Nat) : Except MemFault Xlated :=
  match s.translate2 q.owner gpa with
  | .error f => .error f
  | .ok t2 =>
    if !permits2 (s.entryAt t2 gpa) q then .error (.stage2 gpa false)
    else match (if q.code = 3 then s.placeAny t2 gpa else s.placeOf t2 gpa) with
      | .error f => .error f
      | .ok (.dram h slot ahome) => .ok ⟨t1, t2, gpa, .dram h slot (((s.line? q.owner gpa).map (·.ahome)).getD ahome)⟩
      | .ok p => .ok ⟨t1, t2, gpa, p⟩

/-- R232 to R242, R227, R437: the place of `n` bytes at a guest-virtual address for an access: in L2 under the permissions that the
line keeps, or where the second stage leads. -/
def State.translate (s : State) (q : Req) (va : Nat) (n : Nat := 1) : Except MemFault Xlated :=
  match s.translate1 q.owner va with
  | .error f => .error f
  | .ok t1 =>
    if !permits1 t1.bits q then .error (.page false)
    else
      let gpa := t1.gpa + (va - t1.va)
      match (if s.holds q.owner gpa n then s.line? q.owner gpa else none) with
      | some x => if x.permits q then .ok ⟨t1, ⟨q.owner, x.page, x.size, 0⟩, gpa, .line x.ahome⟩ else .error (.stage2 gpa false)
      | none => s.translatePast q t1 gpa

/-- R228, R423, R448: what the walks of an access that fails count. -/
def State.noteWalks (s : State) (q : Req) (va : Nat) : State :=
  let s := s.noteWalk1 q.owner va
  match s.translate1 q.owner va with
  | .error _ => s
  | .ok t1 =>
    let gpa := t1.gpa + (va - t1.va)
    if !permits1 t1.bits q || s.holds q.owner gpa 1 then s else s.noteWalk2 q.owner gpa

/-- R230, R423: what an access that failed, or found poison, leaves behind: what its walks count, its event where it was refused on its
way, else its sector in L2. -/
def State.notePoison (s : State) (q : Req) (va : Nat) : State :=
  let s := s.noteWalks q va
  match s.translate q va with
  | .ok x =>
    let lost := !s.homeReach q x.gpa || (match x.place with
      | .dram h _ _ => !s.routeOk q.owner x.gpa h
      | .host p _ => !s.portReach q.owner x.gpa p
      | .chip a => !s.chipReach q.owner x.gpa a
      | .line _ => false)
    if lost then { s with refused := s.refused + 1 }
    else match x.place with
      | .dram h slot _ => s.takeSector x.t2 x.gpa h slot
      | _ => s
  | .error _ => s

/-- R232: the caches hold the entries used from here on; what was not there has been walked for. -/
def State.noteXl (s : State) (x : Xlated) : State :=
  let inLine : Bool := match x.place with | .line _ => true | _ => false
  let s := s.noteWalk1 x.t1.owner x.t1.va
  let s := if inLine then s else s.noteWalk2 x.t2.owner x.gpa
  { s with
    tlb1 := if s.tlb1.contains x.t1 then s.tlb1 else x.t1 :: s.tlb1
    tlb2 := if s.tlb2.contains x.t2 || inLine then s.tlb2 else x.t2 :: s.tlb2 }

end Sys2Proof.Machine
end

