-- ==== Sys2Proof/Machine/Memory.lean ====
section
/-! DEFINITION. Reading and writing device memory (R141, R229, R260), the on-chip map (R226, R227), host memory (R264), the rings
of records (R376, R411) and the side log (R248 to R250). -/

namespace Sys2Proof.Machine

/-- Bytes at consecutive addresses. -/
def cellsAt (a : Nat) : List Byte → List (Nat × Byte)
  | [] => []
  | v :: vs => (a, v) :: cellsAt (a + 1) vs

/-! ## Scratchpads, registers and tiles as stored -/

/-- A scratchpad byte of a block; undefined until something writes it (R171). -/
def Block.scratchByte (b : Block) (x : Nat) : Byte := (SMap.get b.scratch x).getD (Config.freeByte b.scratchSeed x)

/-- `n` scratchpad bytes of a block from offset `x`. -/
def Block.scratchBytes (b : Block) (x n : Nat) : List Byte := (List.range n).map (fun i => b.scratchByte (x + i))

/-- Scratchpad bytes written, without any check; a word written whole loses its poison, any other keeps it (R228, R229). -/
def Block.putScratch (b : Block) (x : Nat) (bytes : List Byte) : Block :=
  let n := bytes.length
  { b with
    scratch := (List.range n).foldl (fun m i => SMap.set m (x + i) (bytes.getD i 0)) b.scratch
    scratchPoison := SMap.drop b.scratchPoison (fun w => x ≤ 4 * w && 4 * w + 4 ≤ x + n) }

/-- R216: some live granule holds a byte of [x, x + n). -/
def Block.liveIn (b : Block) (x n : Nat) : Option Nat := b.live.find? (fun g => 16 * g < x + n && x < 16 * g + 16)

/-- R228: the poisoned word among the scratchpad words of [x, x + n), with its syndrome. -/
def Block.scratchSyndrome (b : Block) (x n : Nat) : Option Nat :=
  (b.scratchPoison.find? (fun c => x / 4 ≤ c.1 && 4 * c.1 < x + n)).map
    (fun c => syndromeOf 1 (0x80000 + b.scratchBase + 4 * c.1) c.2)

/-- One element of an accumulator row. -/
def Row.read (r : Row) (row col : Nat) : Word :=
  (SMap.get r.cells col).getD (match r.seed with | none => 0 | some k => Config.freeWord k (256 * row + col))

/-- R307: element (row, col) of accumulator tile t. -/
def Block.acc (b : Block) (t row col : Nat) : Word := Row.read (SMap.getD b.rows (64 * t + row) {}) row col

/-- R307: an element of an accumulator tile written; its pair's poison stands until one write covers both (R229). -/
def Block.putAcc (b : Block) (t row col : Nat) (v : Word) : Block :=
  let k := 64 * t + row
  let r := SMap.getD b.rows k {}
  { b with rows := SMap.set b.rows k { r with cells := SMap.set r.cells col v } }

/-- R228, R229: the poison of the accumulator pairs that a write of `n` bytes from byte `a` of the block's tiles covers whole is gone. -/
def Block.clearPairs (b : Block) (a n : Nat) : Block :=
  { b with accPoison := SMap.drop b.accPoison (fun k => a ≤ 8 * k && 8 * k + 8 ≤ a + n) }

/-- R228: the syndrome of the pair of accumulators that holds an element. -/
def Block.accSyndrome (b : Block) (t row col : Nat) : Option Nat :=
  (SMap.get b.accPoison ((64 * t + row) * 128 + col / 2)).map
    (syndromeOf 2 (0x100000 + 65536 * (b.tileBase + t) + 1024 * row + 4 * col))

/-- R168: SCRATCH of a block. -/
def Block.scratchSize (b : Block) : Nat := recScratch b.record

/-! ## The on-chip map -/

/-- R227: the owner's accesses reach a core: no block of another slice is resident there; the hypervisor and firmware reach
every core (log entry 16). -/
def State.chipOpen (s : State) (owner a : Nat) : Bool :=
  fld a 11 21 < Config.nCores &&
  (owner ≥ Config.nSlices || s.blocks.all (fun b => b.core != fld a 11 21 || b.owner == owner))

/-- What an on-chip address names (R226). -/
inductive ChipCell where
  | reg (blk tid idx : Nat)
  | scratch (blk off : Nat)
  | acc (blk tile row col : Nat)
  | idle
  | unassigned
deriving DecidableEq, Repr

/-- R226: what the word at an on-chip address is among blocks that stand, or have stood, on its core: `blk` is the place in the list. -/
def chipCellIn (bs : List Block) (a : Nat) : ChipCell :=
  let core := fld a 11 21
  let off := fld a 21 0
  let here := bs.zipIdx.filter (fun p => p.1.core == core)
  if off < 0x7E000 then
    let slot := off / 512
    let lane := off % 512 / 4
    match here.findSome? (fun p => (p.1.threads.find? (fun t =>
        t.lane == lane && t.slot ≤ slot && slot < t.slot + allocOf t.n)).map (fun t => (p.2, t.tid, slot - t.slot))) with
    | some (b, k, i) => .reg b k i
    | none => .idle
  else if 0x80000 ≤ off ∧ off < 0xC0000 then
    let y := off - 0x80000
    match here.find? (fun p => p.1.scratchBase ≤ y && y < p.1.scratchBase + p.1.scratchSize) with
    | some p => .scratch p.2 (y - p.1.scratchBase)
    | none => .idle
  else if 0x100000 ≤ off ∧ off < 0x180000 then
    let y := off - 0x100000
    match here.find? (fun p => p.1.tileBase ≤ y / 65536 && y / 65536 < p.1.tileBase + recTiles p.1.record) with
    | some p => .acc p.2 (y / 65536 - p.1.tileBase) (y % 65536 / 1024) (y % 1024 / 4)
    | none => .idle
  else .unassigned

/-- R226: what the word at an on-chip address is: `blk` is the block's place in the list of blocks. -/
def State.chipCell (s : State) (a : Nat) : ChipCell := chipCellIn s.blocks a

/-- The state with the block at place `i` changed. -/
def State.updBlock (s : State) (i : Nat) (f : Block → Block) : State := { s with blocks := upd s.blocks i f }

/-- The block with thread `k` changed. -/
def Block.updThread (b : Block) (k : Nat) (f : Thread → Thread) : Block := { b with threads := upd b.threads k f }

/-- R228, R230: the structure that holds an on-chip word: register file, scratchpad or accumulators. -/
def chipStruct (a : Nat) : Nat := if fld a 21 0 < 0x80000 then 0 else if fld a 21 0 < 0x100000 then 1 else 2

/-- R226: the word at an on-chip address in one of a list of blocks, with the syndrome if it is poisoned. -/
def chipWord (bs : List Block) (a : Nat) : ChipCell → Option (Word × Option Nat)
  | .reg b k i => ((bs[b]?).bind (fun x => x.threads[k]?)).map (fun t =>
      (t.regs.getD i 0, (SMap.get t.poison i).map (syndromeOf 0 (fld a 21 0))))
  | .scratch b x => (bs[b]?).map (fun y => (BitVec.ofNat 32 (ofBytes (y.scratchBytes x 4)), y.scratchSyndrome x 4))
  | .acc b t r c => (bs[b]?).map (fun y => (y.acc t r c, y.accSyndrome t r c))
  | _ => none

/-- R226, R228: an on-chip word that belongs to no resident block: what was written to it as such, else what the last block left there
that held it, else zero where the core has been cleared, else an undefined value. -/
def State.idleWord (s : State) (a : Nat) : Word × Option Nat :=
  let core := fld a 11 21
  let zero := s.cleared.contains core || chipStruct a == 2 && s.cleared.contains (2048 + core)
  let old : Word × Option Nat := match SMap.get s.sram a with
    | some v => (v, none)
    | none => (chipWord s.remains a (chipCellIn s.remains a)).getD (if zero then 0 else Config.freeWord 0 a, none)
  match SMap.get s.sramPoison a with
  | some m => (old.1, some (syndromeOf (chipStruct a) (fld a 21 0) m))
  | none => old

/-- R229: a write of one word of a pair of accumulators that belongs to no block leaves the pair's poison: its other word, and its own. -/
def State.pairPoison (s : State) (a : Nat) : SMap Bool :=
  let pair := [a / 8 * 8, a / 8 * 8 + 4]
  if chipStruct a = 2 then
    match pair.findSome? (fun x => (s.idleWord x).2) with
    | some w => pair.foldl (fun m x => SMap.set m x (fld w 4 28 == 9)) s.sramPoison
    | none => s.sramPoison
  else SMap.erase s.sramPoison a

/-- R227: a word read through the on-chip map, with the syndrome if it is poisoned; none where nothing is performed. -/
def State.chipRead (s : State) (owner a : Nat) : Option (Word × Option Nat) :=
  if !s.chipOpen owner a then none
  else match s.chipCell a with
    | .unassigned => none
    | .idle => some (s.idleWord a)
    | c => chipWord s.blocks a c

/-- R226: a block has left its core: what its regions hold stands there until something else is written. -/
def State.leaveCore (s : State) (b : Block) : State := { s with remains := b :: s.remains }

/-- R226: what was written to the words of the regions that a block now takes belongs to no block any more. -/
def State.takeRegions (s : State) (b : Block) : State :=
  let idle (a : Nat) : Bool := chipCellIn [b] a != .idle
  { s with sram := SMap.drop s.sram idle, sramPoison := SMap.drop s.sramPoison idle }

/-- R227, R217: a word written through the on-chip map and whether a live granule left it unwritten; none where nothing is
performed. -/
def State.chipWrite (s : State) (owner a : Nat) (v : Word) : Option (State × Bool) :=
  if !s.chipOpen owner a then none
  else match s.chipCell a with
    | .unassigned => none
    | .idle => some ({ s with sram := SMap.set s.sram a v, sramPoison := s.pairPoison a }, false)
    | .reg b k i => some (s.updBlock b (fun x => x.updThread k (fun t =>
        { t with regs := t.regs.set i v, poison := SMap.erase t.poison i })), false)
    | .scratch b x =>
      match s.blocks[b]? with
      | none => none
      | some y => if (y.liveIn x 4).isSome then some (s, true)
          else some (s.updBlock b (fun y => y.putScratch x (toBytes 4 v.toNat)), false)
    | .acc b t r c => some (s.updBlock b (fun y => y.putAcc t r c v), false)

/-! ## What engines may still read (R261, R262) -/

/-- R261: a thread's write with a stamp replaces bytes of a space: `olds` lists address and former value. -/
def State.noteStaleAt (s : State) (stamp space key : Nat) (olds : List (Nat × Byte)) : State :=
  { s with stale := olds.map (fun o => ⟨stamp, space, key, o.1, o.2⟩) ++ s.stale }

/-- R261: a thread's write takes the next stamp and replaces bytes. -/
def State.noteStale (s : State) (space key : Nat) (olds : List (Nat × Byte)) : State :=
  { s.noteStaleAt s.stamp space key olds with stamp := s.stamp + 1 }

/-- R261: the address of an element of a block's accumulator tiles, as `Stale` and the poison of pairs name it. -/
def accAddr (t row col : Nat) : Nat := 65536 * t + 1024 * row + 4 * col

/-- R261, R355: a thread writes elements of tile t of the block at place `bi`. -/
def State.noteTile (s : State) (bi t : Nat) (cells : List (Nat × Nat)) : State :=
  match s.blocks[bi]? with
  | none => s
  | some b => s.noteStale 2 b.uid (cells.flatMap (fun c => cellsAt (accAddr t c.1 c.2) (toBytes 4 (b.acc t c.1 c.2).toNat)))

/-- R261: the byte at an address as it stood at the cut `t` of the single order: what the first write from there on replaced. -/
def staleByte (l : List Stale) (space key addr t : Nat) (now : Byte) : Byte :=
  l.foldl (fun v e => if e.space == space && e.key == key && e.addr == addr && t ≤ e.stamp then e.old else v) now

/-- R261: bytes as an engine reads them: as they stand, or as they stood at any cut from the command's view point on. -/
def State.engineSees (s : State) (space key addr : Nat) (bytes : List Byte) : List Byte × State :=
  match s.view with
  | none => (bytes, s)
  | some v =>
    if s.stamp ≤ v then (bytes, s)
    else
      let t := v + Config.pick s.fresh % (s.stamp - v + 1)
      ((bytes.zipIdx).map (fun p => staleByte s.stale space key (addr + p.2) t p.1), { s with fresh := s.fresh + 1 })

/-- R301: the command at work has written `n` bytes. -/
def State.traced (s : State) (space key addr n : Nat) : State :=
  if s.view.isSome then { s with trace := s.trace ++ [(space, key, addr, n)] } else s

/-- R260: an engine's write replaces what stood there before for every later engine read. -/
def State.engineWrote (s : State) (space key addr n : Nat) : State :=
  { s with stale := s.stale.filter (fun e => !(e.space == space && e.key == key && addr ≤ e.addr && e.addr < addr + n)) }.traced space key addr n

/-- R261: how `Stale` names an on-chip word of a block: space, block and address. -/
def State.chipKey (s : State) (a : Nat) : Option (Nat × Nat × Nat) :=
  match s.chipCell a with
  | .scratch b x => (s.blocks[b]?).map (fun y => (1, y.uid, x))
  | .acc b t r c => (s.blocks[b]?).map (fun y => (2, y.uid, accAddr t r c))
  | _ => none

/-- R261, R227: a thread writes words through the on-chip map. -/
def State.noteChip (s : State) (owner : Nat) (words : List Nat) : State :=
  words.foldl (fun s w => match s.chipKey (4 * w) with
    | some (space, key, x) => s.noteStale space key (cellsAt x (toBytes 4 (((s.chipRead owner (4 * w)).map (·.1.toNat)).getD 0)))
    | none => s) s

/-- R261: words read by an engine through the on-chip map from an address. -/
def State.chipSees (s : State) (a : Nat) (bytes : List Byte) : List Byte × State :=
  (List.range (bytes.length / 4)).foldl (fun (acc : List Byte × State) i =>
    let w := (bytes.drop (4 * i)).take 4
    match acc.2.chipKey (a + 4 * i) with
    | some (space, key, x) => let r := acc.2.engineSees space key x w; (acc.1 ++ r.1, r.2)
    | none => (acc.1 ++ w, acc.2)) ([], s)

/-- R260: `n` bytes written by an engine through the on-chip map from an address. -/
def State.chipWrote (s : State) (a n : Nat) : State :=
  (List.range (n / 4)).foldl (fun s i => match s.chipKey (a + 4 * i) with
    | some (space, key, x) => s.engineWrote space key x 4
    | none => s.traced 3 0 (a + 4 * i) 4) s

/-- R257: the keys of the scopes B, N, Q and T (S) of a block; 4 is its start. -/
def Block.scopeKey (b : Block) (x : Nat) : Nat :=
  let n := recNrows b.record * recNcols b.record
  x + 8 * (match x with
    | 0 => b.uid
    | 1 => b.launch * 2 ^ 32 + (if n = 0 then b.num else b.num / n)
    | 2 => b.owner * 64 + quadOfCore b.core
    | 3 => b.owner
    | _ => b.uid)

/-- R257: the scopes whose fences cover a command of an engine kind: the block's matrix, Caliper, chisel and encoder commands from B on,
its work-graph commands from N on, its collective commands from Q on. Without a neighbourhood no fence has scope N (R278). -/
def scopesOf (kind : Nat) : List Nat := if kind = 3 then [2, 3] else if kind = 5 then [1, 2, 3] else [0, 1, 2, 3]

/-- R278: the scope of a fence of a block's thread: N is B where the launch has no neighbourhood. -/
def Block.scopeOf (b : Block) (x : Nat) : Nat := if x = 1 ∧ recNrows b.record * recNcols b.record = 0 then 0 else x

/-- R258: a fence of scope x completes: commands of the scope that start later read every write before it. -/
def State.noteFence (s : State) (b : Block) (x : Nat) : State := { s with views := SMap.set s.views (b.scopeKey (b.scopeOf x)) s.stamp }

/-- R258: the latest fence that covers a command of an engine kind of a block which starts now; no command sees less than what had been
written when its block was placed (R343, log entry 107). -/
def State.fenceView (s : State) (b : Block) (kind : Nat) : Nat :=
  ((4 :: scopesOf kind).map (fun x => SMap.getD s.views (b.scopeKey x) 0)).foldl max 0

/-- R257, R259: what an OFENCE, whose scope is B, orders for a command of an engine kind. -/
def ofenceView (kind v : Nat) : Nat := if (scopesOf kind).contains 0 then v else 0

/-! ## Waiting behind the side log -/

/-- R248: the entries of one core's side log, oldest first. -/
def State.logOf (s : State) (core : Nat) : List LogEntry := s.sideLog.filter (fun e => e.core == core)

/-- R248: the bytes at an address lie in the granule of an entry: by guest-virtual address, or by guest-physical address where the second
stage failed at the bytes' own address. -/
def LogEntry.granule (e : LogEntry) (va gpa : Nat) : Bool :=
  if e.byVa then e.va / 65536 == va / 65536 else e.gpa / 65536 == gpa / 65536

/-- R250: an access to the granules of an address waits behind an entry of the same owner. -/
def State.granuleHeld (s : State) (owner va gpa : Nat) : Bool := s.sideLog.any (fun e => e.owner == owner && e.granule va gpa)

/-- R250: an access to `n` bytes of an owner's guest-physical space, named by guest-physical address, waits behind an entry of the same
owner. -/
def State.gpaHeld (s : State) (owner gpa n : Nat) : Bool :=
  s.sideLog.any (fun e => e.owner == owner && !e.byVa && gpa / 65536 ≤ e.gpa / 65536 && e.gpa / 65536 ≤ (gpa + n - 1) / 65536)

/-- R250: a load by the logging core of bytes covered by one of its entries waits. -/
def State.coveredByLog (s : State) (core owner va n : Nat) : Bool :=
  (s.logOf core).any (fun e => e.owner == owner &&
    (e.cells.any (fun c => va ≤ c.1 && c.1 < va + n) || e.addend.isSome && e.va < va + n && va < e.va + 64))

/-- R250: a read waits: it is of bytes that its core has logged, or its translation reaches a granule with an entry. -/
def State.readHeld (s : State) (q : Req) (va n : Nat) : Bool :=
  s.coveredByLog (q.core.getD Config.armatureCore) q.owner va n || (match s.translate q va with
    | .ok x => s.granuleHeld q.owner va x.gpa
    | .error _ => false)

/-! ## Reading and writing by guest-virtual address -/

/-- The pieces of [a, a + n) cut at multiples of 32: address and length. -/
def pieces (a n : Nat) : List (Nat × Nat) :=
  (List.range ((a % 32 + n + 31) / 32)).map (fun i =>
    let st := max a ((a / 32 + i) * 32)
    (st, min (a + n) ((a / 32 + i + 1) * 32) - st))

/-- R227: an access reaches the on-chip map: a thread's at levels H and F; an engine's where its command says so. -/
def Req.chipOk (q : Req) (engine : Bool) : Bool := engine || q.level = .h || q.level = .f

/-- R437: an on-chip access under world 15, of a thread at level H or F or of a command at one, to a die latched to another world. -/
def State.chipLatched (s : State) (q : Req) (a : Nat) : Bool := Config.nSlices ≤ q.owner && s.latchedChip a

/-- One piece of a read (within a sector). An on-chip access that is not of whole aligned words performs nothing, as one that R227
refuses, and raises what that raises (log entry 117). -/
def State.readPiece (s : State) (q : Req) (engine : Bool) (va n : Nat) : Except MemFault (List Byte × State) :=
  if s.readHeld q va n then .error (.held n)
  else match s.translate q va with
  | .error f => .error f
  | .ok x =>
    let s := s.noteXl x
    if !s.homeReach q x.gpa then .error (.poison (syndromeOf 5 ((s.homeOf q.owner x.gpa).getD 0) true))
    else match x.place with
    | .line _ =>
      match s.dramBytes q.owner x.gpa 0 0 n with
      | (_, some syn) => .error (.poison syn)
      | (b, none) => .ok (b, s)
    | .dram h slot _ =>
      match s.dramBytes q.owner x.gpa h slot n with
      | (_, some syn) => .error (.poison syn)
      | (b, none) => .ok (b, s.takeSector x.t2 x.gpa h slot)
    | .host p a =>
      if !s.portReach q.owner x.gpa p then .error (.poison (syndromeOf 5 ((s.homeOf q.owner x.gpa).getD 0) true))
      else .ok ((List.range n).map (fun i => Config.hostByte p (a + i) s.fresh), { s with fresh := s.fresh + 1 })
    | .chip a =>
      if !q.chipOk engine || s.chipLatched q a || a % 4 != 0 || n % 4 != 0 then .error (.stage2 x.gpa false)
      else if !s.chipReach q.owner x.gpa a then .error (.poison (syndromeOf (chipStruct a) (fld a 21 0) true))
      else
        (List.range (n / 4)).foldl (fun acc i => match acc with
          | .error f => .error f
          | .ok (b, s) => match s.chipRead q.owner (a + 4 * i) with
            | none => .error (.stage2 x.gpa false)
            | some (_, some syn) => .error (.poison syn)
            | some (v, none) => .ok (b ++ toBytes 4 v.toNat, s)) (.ok ([], s))

/-- R141, R260: `n` bytes read at a guest-virtual address; a failure names the address that failed. -/
def State.readVa (s : State) (q : Req) (engine : Bool) (va n : Nat) : Except (MemFault × Nat) (List Byte × State) :=
  (pieces va n).foldl (fun acc p => match acc with
    | .error f => .error f
    | .ok (b, s) => match s.readPiece q engine p.1 p.2 with
      | .error f => .error (f, p.1)
      | .ok (b', s') => .ok (b ++ b', s')) (.ok ([], s))

/-- The sectors (address ÷ 32) that a list of cells touches, ascending in order of first use. -/
def sectorsOf (cells : List (Nat × Byte)) : List Nat := (cells.map (fun c => c.1 / 32)).eraseDups

/-- R229: after a write of whole on-chip words in one request, the accumulator pairs it covers whole are no longer poisoned. -/
def State.clearChipPairs (s : State) (words : List Nat) : State :=
  words.foldl (fun s w =>
    if w % 2 = 0 && words.contains (w + 1) then
      match s.chipCell (4 * w) with
      | .acc b t r c => s.updBlock b (fun y => y.clearPairs (accAddr t r c) 8)
      | .idle => if chipStruct (4 * w) = 2 then { s with sramPoison := SMap.drop s.sramPoison (fun a => a / 8 == w / 2) } else s
      | _ => s
    else s) s

/-- Cells of one 128-byte line written at their place once translation is done: the new state, and whether a live granule left
some unwritten. `rmw`: the values come from the sectors' own bytes (R229). A store that leaves the side log has the stamp of its
issue (R254). -/
def State.writeCells (s : State) (q : Req) (engine : Bool) (x : Xlated) (va : Nat) (cells : List (Nat × Byte)) (rmw : Bool)
    (stamp : Option Nat := none) : Except MemFault (State × Bool) :=
  let gcells := cells.map (fun c => (c.1 - va + x.gpa, c.2))
  let dropped : Except MemFault (State × Bool) := .ok ({ s with refused := s.refused + 1 }, false)
  let device (h slot : Nat) : Except MemFault (State × Bool) :=
    let olds := gcells.map (fun c => (c.1, ((s.dramBytes q.owner c.1 (h / 128 * 128 + c.1 % 128) slot 1).1).headD 0))
    let s := if engine then s else match stamp with
      | some k => s.noteStaleAt k 0 q.owner olds
      | none => s.noteStale 0 q.owner olds
    .ok ((sectorsOf gcells).foldl (fun s k =>
      s.putSector x.t2 (32 * k) (h / 128 * 128 + (32 * k) % 128) slot (gcells.filter (fun c => c.1 / 32 == k)) rmw) s, false)
  if !s.homeReach q x.gpa then dropped
  else match x.place with
  | .line _ => device 0 0
  | .dram h slot _ => device h slot
  | .host p a =>
    if !s.portReach q.owner x.gpa p then dropped
    else .ok ({ s with outbox := s.outbox ++ cells.map (fun c => OutMsg.hostWrite p (c.1 - va + a) [c.2]) }, false)
  | .chip a =>
    let words := (cells.map (fun c => (c.1 - va + a) / 4)).eraseDups
    let whole := words.all (fun w => (List.range 4).all (fun i => cells.any (fun c => c.1 - va + a == 4 * w + i)))
    if !q.chipOk engine || s.chipLatched q a || !whole then .error (.stage2 x.gpa false)
    else if !s.chipReach q.owner x.gpa a then dropped
    else
      let s := if engine then s else s.noteChip q.owner words
      let r : Except MemFault (State × Bool) := words.foldl (fun acc w => match acc with
        | .error f => .error f
        | .ok (s, cl) =>
          let v := ofBytes ((List.range 4).map (fun i =>
            ((cells.findRev? (fun c => c.1 - va + a == 4 * w + i)).map (·.2)).getD 0))
          match s.chipWrite q.owner (4 * w) (BitVec.ofNat 32 v) with
          | none => .error (.stage2 x.gpa false)
          | some (s', c) => .ok (s', cl || c)) (.ok (s, false))
      match r with
      | .error f => .error f
      | .ok (s, cl) => .ok (s.clearChipPairs words, cl)

/-- R260: bytes written at a guest-virtual address by pieces; a failure leaves the pieces before it written and names the address
that failed. The flag says that a live granule left some bytes unwritten. -/
def State.writeVa (s : State) (q : Req) (engine : Bool) (va : Nat) (bytes : List Byte) :
    (State × Bool) × Option (MemFault × Nat) :=
  (pieces va bytes.length).foldl (fun acc p => match acc with
    | (sc, some f) => (sc, some f)
    | ((s, cl), none) =>
      match s.translate q p.1 with
      | .error f => ((s, cl), some (f, p.1))
      | .ok x =>
        if s.granuleHeld q.owner p.1 x.gpa then ((s, cl), some (.held p.2, p.1))
        else match (s.noteXl x).writeCells q engine x p.1 (cellsAt p.1 ((bytes.drop (p.1 - va)).take p.2)) false with
        | .error f => ((s, cl), some (f, p.1))
        | .ok (s', c) => ((s', cl || c), none)) ((s, false), none)

/-! ## Device accesses by guest-physical address -/

/-- `n` bytes of an owner's guest-physical space. -/
def State.devRead (s : State) (owner gpa n : Nat) : Except MemFault (List Byte) :=
  (pieces gpa n).foldl (fun acc p => match acc with
    | .error f => .error f
    | .ok b => match s.readGpa owner p.1 p.2 with
      | .error f => .error f
      | .ok b' => .ok (b ++ b')) (.ok [])

/-- R228, R423, R448: what a read of `n` bytes of an owner's guest-physical space counts. -/
def State.noteDev (s : State) (owner gpa n : Nat) : State := (pieces gpa n).foldl (fun s p => s.noteGpa owner p.1) s

/-- Bytes written to an owner's guest-physical space; none if some piece does not translate to writable memory. -/
def State.devWrite (s : State) (owner gpa : Nat) (bytes : List Byte) : Option State :=
  (pieces gpa bytes.length).foldl (fun acc p => match acc with
    | none => none
    | some s => match s.translate2 owner p.1 with
      | .error _ => none
      | .ok t =>
        let s := s.noteWalk2 owner p.1
        if !permits2 (s.entryAt t p.1) (Req.store owner .s) then none
        else match s.placeOf t p.1 with
          | .ok (.dram h slot _) => some (s.putSector t p.1 h slot (cellsAt p.1 ((bytes.drop (p.1 - gpa)).take p.2)) false)
          | .ok (.host port a) => some { s with outbox := s.outbox ++ [OutMsg.hostWrite port a ((bytes.drop (p.1 - gpa)).take p.2)] }
          | _ => none) (some s)

/-- R411: a 16-byte record posted to a ring (EVQ, FAULTQ or HVFAULTQ) of an owner; a record that finds no room, or no readable
and writable ring, is dropped and counted. -/
def State.postRing (s : State) (owner ring : Nat) (rec : List Byte) : State :=
  let base := fld ring 40 12 * 4096
  let n := fld ring 5 0
  let dropped (s : State) : State := s.count owner (fun c => { c with recsDropped := satAdd c.recsDropped 1 })
  if n < 4 ∨ 16 < n then dropped s
  else match s.devRead owner base 8 with
    | .error _ => dropped (s.noteDev owner base 8)
    | .ok hdr =>
      let s := s.noteDev owner base 8
      let tail := ofBytes (hdr.take 4)
      let head := ofBytes (hdr.drop 4)
      if (tail + 2 ^ 32 - head) % 2 ^ 32 = 2 ^ n then dropped s
      else
        match s.devWrite owner (base + 64 + 16 * (tail % 2 ^ n)) rec with
        | none => dropped s
        | some s => (s.devWrite owner base (toBytes 4 ((tail + 1) % 2 ^ 32))).getD s

/-- The hypervisor's fault ring (R410 module word 1). -/
def State.postHv (s : State) (rec : List Byte) : State := s.postRing Config.ownerHv s.hvFaultQ.toNat rec

/-- R430: the VF of a slice exists on its link. -/
def State.vfExists (s : State) (port vf : Nat) : Bool :=
  match s.ports[port]? with
  | some p => s.boot.ready && p.vfEnable && 1 ≤ vf && vf ≤ p.numVfs
  | none => false

/-- R410: VFNUM of a slice. -/
def State.vfOf (s : State) (o : Nat) : Nat := fld (s.sliceWord o 0) 6 16

/-- R431: an MSI-X vector of a slice's VF raised. -/
def State.msix (s : State) (o v : Nat) : State :=
  if o < Config.nSlices ∧ s.vfExists (s.portOf o) (s.vfOf o) then { s with outbox := s.outbox ++ [.msix (s.portOf o) (s.vfOf o) v] } else s

/-! ## Messages to the armature core -/

/-- R454: the command link of a quadrant controller changed. -/
def State.updCmdLink (s : State) (quad : Nat) (f : CmdLink → CmdLink) : State := { s with cmdLinks := upd s.cmdLinks quad f }

/-- R454: two messages are of one class and direction. -/
def Message.alike (x y : Message) : Bool := x.response == y.response && x.toArmature == y.toArmature

/-- R454: messages of one class and direction that hold a send permit. -/
def CmdLink.inFlight (l : CmdLink) (m : Message) : Nat := (l.sent.filter m.alike).length

/-- R454: a message takes one of the sixteen send permits of its class and direction, or waits for one. -/
def CmdLink.send (l : CmdLink) (m : Message) : CmdLink :=
  if l.inFlight m < 16 && !l.waiting.any m.alike then { l with sent := l.sent ++ [m] } else { l with waiting := l.waiting ++ [m] }

/-- R454: the receiver frees the buffer of the oldest message of a class and direction: its permit goes to the oldest such message that waits,
and a request is answered by a response, which waits for no request. -/
def CmdLink.free (l : CmdLink) (response toArmature : Bool) : CmdLink :=
  match l.sent.find? (fun x => x.response == response && x.toArmature == toArmature) with
  | none => l
  | some m =>
    let l' : CmdLink := match l.waiting.find? m.alike with
      | none => { l with sent := l.sent.erase m }
      | some w => { sent := l.sent.erase m ++ [w], waiting := l.waiting.erase w }
    if response then l' else l'.send ⟨true, !toArmature, m.data⟩

/-- R249, R454: a core's quadrant controller sends the armature core a request; the armature core itself needs none. -/
def State.armatureMessage (s : State) (core : Nat) (data : List Byte) : State :=
  if core < Config.nCores then s.updCmdLink (quadOfCore core) (fun l => l.send ⟨false, true, toBytes 64 (ofBytes data)⟩) else s

/-- R452 step 4, R454: the armature core sends quadrant controllers requests. -/
def State.tellQuads (s : State) (quads : List Nat) (data : Nat → List Byte) : State :=
  quads.foldl (fun s q => s.updCmdLink q (fun l => l.send ⟨false, false, toBytes 64 (ofBytes (data q))⟩)) s

/-! ## The side log -/

/-- R249: the 16 bytes of an entry's deferred fault record. -/
def LogEntry.record (e : LogEntry) : List Byte :=
  toBytes 16 (e.seq % 2 ^ 32 * 2 ^ 96 + (if e.stage2 then 2 ^ 83 else 0) + (if e.np then 2 ^ 82 else 0) + (if e.rmw then 2 else 1) * 2 ^ 80 +
    e.core % 2048 * 2 ^ 64 + (if e.stage2 then e.gpa else e.va) / 128 * 128)

/-- R249: the deferred fault record of an entry, posted to the ring its stage and owner name. -/
def State.postDeferred (s : State) (e : LogEntry) : State :=
  if e.stage2 ∨ e.owner = Config.ownerHv then s.postHv e.record
  else if e.owner < Config.nSlices then
    let s' := s.postRing e.owner (s.sliceWord e.owner 10) e.record
    if (s'.slice e.owner).counters.recsDropped = (s.slice e.owner).counters.recsDropped then s'.msix e.owner 1 else s'
  else s.armatureMessage e.core e.record

/-- R248, R249: a failed line request retires into the side log of its core; none when the log is full. -/
def State.enterLog (s : State) (e : LogEntry) (np : Bool) : Option State :=
  if 64 ≤ (s.logOf e.core).length then none
  else
    let n := SMap.getD s.logSeq e.core 0
    let e := { e with seq := n, np := np, stamp := s.stamp }
    some (State.postDeferred { s with
      stamp := s.stamp + 1
      sideLog := s.sideLog ++ [e]
      logTried := if (s.logOf e.core).isEmpty then SMap.set s.logTried e.core s.clock else s.logTried
      logSeq := SMap.set s.logSeq e.core ((n + 1) % 2 ^ 32) } e)

/-- R258, R250: a thread's own entries have not drained. -/
def State.ownLogged (s : State) (blk tid : Nat) : Bool := s.sideLog.any (fun e => e.blk == blk && e.tids.contains tid)

end Sys2Proof.Machine
end

