-- ==== Sys2Proof/Machine/Ops.lean ====
section
/-! DEFINITION. The operations every meaning is made of: registers and the window (R15 to R17, R23), the spill engine (R18 to R22),
taking a trap (R31 to R35) and returning from one (R146), and running one issue over its threads (R54, R55, R58). -/

namespace Sys2Proof.Machine

/-! ## Registers -/

/-- R16: the slot of the position that field n names. -/
def Thread.slotOf (t : Thread) (n : Nat) : Nat := (t.wb + n) % t.n

/-- R16: v(n). -/
def Thread.get (t : Thread) (n : Nat) : Word := t.regs.getD (t.slotOf n) 0

/-- v(n) ← x. A write clears the slot's poison (R228, R229). -/
def Thread.put (t : Thread) (n : Nat) (x : Word) : Thread :=
  { t with regs := t.regs.set (t.slotOf n) x, poison := SMap.erase t.poison (t.slotOf n) }

/-- R62: the pair v(n + 1) : v(n). -/
def Thread.get64 (t : Thread) (n : Nat) : DWord := t.get (n + 1) ++ t.get n

/-- R62: the pair v(n + 1) : v(n) ← x. -/
def Thread.put64 (t : Thread) (n : Nat) (x : DWord) : Thread :=
  (t.put n (x.setWidth 32)).put (n + 1) ((x >>> 32).setWidth 32)

/-- Words written to v(n), v(n + 1), … -/
def Thread.putList (t : Thread) (n : Nat) : List Word → Thread
  | [] => t
  | x :: xs => Thread.putList (t.put n x) (n + 1) xs

/-- R25: predicate p. -/
def Thread.pred (t : Thread) (p : Nat) : Bool := t.preds.getLsbD p

/-- Predicate p ← v. -/
def Thread.putPred (t : Thread) (p : Nat) (v : Bool) : Thread :=
  { t with preds := if v then t.preds ||| BitVec.twoPow 8 p else t.preds &&& ~~~(BitVec.twoPow 8 p) }

/-- R23: s(SWB + n) as a thread sees it. -/
def Block.sget (b : Block) (t : Thread) (n : Nat) : Word := b.sregs.getD (t.swb + n) 0

/-- R23, R62: a scalar pair. -/
def Block.sget64 (b : Block) (t : Thread) (n : Nat) : DWord := b.sget t (n + 1) ++ b.sget t n

/-- s(i) ← x, by block register number. -/
def Block.sput (b : Block) (i : Nat) (x : Word) : Block := { b with sregs := b.sregs.set i x }

/-- R31, R58: the trap of an offending index. -/
def Trap.regBound (i : Nat) : Trap := { cause := .regBound, extra := BitVec.ofNat 64 (i % 2 ^ 32) }

/-- R17, R23, R87: the first vector field at or beyond F, then the first scalar register at or beyond .sregs. The spec names the
extra word of a scalar register only as the offending index; here it is the block's register number SWB + n (log entry 20). -/
def checkRegs (b : Block) (t : Thread) (vs ss : List Nat) : Option Trap :=
  match vs.find? (fun v => t.f ≤ v) with
  | some v => some (.regBound v)
  | none => (ss.find? (fun n => b.sregs.length ≤ t.swb + n)).map (fun n => .regBound (t.swb + n))

/-- R230: reading a poisoned slot raises UNCORRECTABLE. -/
def checkPoison (t : Thread) (srcs : List Nat) : Option Trap :=
  srcs.findSome? (fun n => (SMap.get t.poison (t.slotOf n)).map (fun m =>
    { cause := .uncorrectable
      extra := BitVec.ofNat 64 (syndromeOf 0 (512 * (t.slot + t.slotOf n) + 4 * t.lane) m) }))

/-! ## Levels and owners -/

/-- The level above. -/
def Level.above : Level → Option Level
  | .u => some .s | .s => some .h | .h => some .f | .f => none

/-- The higher of two levels. -/
def Level.max (a b : Level) : Level := if a.toNat < b.toNat then b else a

/-- The level is at least another. -/
def Level.ge (a b : Level) : Bool := b.toNat ≤ a.toNat

/-- R143, R31: the trap of a failed access of a thread; an access that waits (R250) raises none. -/
def MemFault.trap (f : MemFault) (q : Req) (va : Nat) : Trap :=
  match f with
  | .page np => { cause := .pageFault, extra := BitVec.ofNat 64 (q.code + if np then 4 else 0), addr := BitVec.ofNat 64 va }
  | .stage2 g _ => { cause := .stage2Fault, extra := BitVec.ofNat 64 g, addr := BitVec.ofNat 64 va }
  | .poison w => { cause := .uncorrectable, extra := BitVec.ofNat 64 w, addr := BitVec.ofNat 64 va }
  | .held _ => { cause := .uncorrectable, addr := BitVec.ofNat 64 va }

/-- What keeps an instruction of one thread from going on: a condition, or a wait at its group (`Wait.none`: it runs again). -/
inductive Stop where
  | trap (tr : Trap)
  | wait (w : Wait)
deriving DecidableEq, Repr

/-- How a failed access of a thread keeps it from going on (R143, R250). -/
def MemFault.stop (f : MemFault) (q : Req) (va : Nat) : Stop :=
  match f with
  | .held n => .wait (.load va n false)
  | f => .trap (f.trap q va)

/-! ## Prefix state -/

/-- R56: the pending prefix state as the word at frame offset 36. -/
def Pfx.encode (p : Pfx) : Nat :=
  let f (b : Bool) (k : Nat) : Nat := if b then 2 ^ k else 0
  if p.repv ∨ p.ifpv then
    (if p.repv then 2 ^ 31 + p.next % 64 * 2 ^ 25 + p.cnt % 64 * 2 ^ 19 + f p.sd 18 + f p.sa 17 + f p.sb 16 + p.stride.toNat * 2 ^ 12 else 0) +
    (if p.ifpv then 2 ^ 11 + p.gpred % 8 * 2 ^ 8 + f p.gsense 7 else 0) + f p.limmv 6
  else 0

/-- R56: the pending prefix state that a frame word names; none where the word fails R56. -/
def Pfx.ofWord (w : Nat) : Option Pfx :=
  let p : Pfx :=
    { repv := bit w 31, next := fld w 6 25, cnt := fld w 6 19, sd := bit w 18, sa := bit w 17, sb := bit w 16
      stride := BitVec.ofNat 4 (fld w 4 12), ifpv := bit w 11, gpred := fld w 3 8, gsense := bit w 7, limmv := bit w 6 }
  if fld w 6 0 ≠ 0 ∨ p.cnt < p.next ∨ (p.limmv ∧ ¬(p.repv ∨ p.ifpv)) then none else some p

/-- R54: the thread's guard passes. -/
def Thread.guardOk (t : Thread) : Bool := !t.pfx.ifpv || (t.pred t.pfx.gpred != t.pfx.gsense)

/-! ## The spill engine -/

/-- R20: the word of lane j in a slot packed in a class. -/
def unpackLane (cls width : Nat) (w : List Nat) (j : Nat) : Nat :=
  match cls with
  | 1 => w.getD 0 0
  | 2 => (w.getD 0 0 + j * w.getD 1 0) % 2 ^ 32
  | 3 => if width = 0 then (sextI (fld (w.getD 0 0) 8 (8 * j)) 8 % 2 ^ 32).toNat
         else (sextI (fld (w.getD (j / 2) 0) 16 (16 * (j % 2))) 16 % 2 ^ 32).toNat
  | _ => w.getD j 0

/-- The inverse of 3 modulo 2^32, for two lanes three apart. -/
def inv3 : Nat := 2863311531

/-- R20: b and d of the Affine class for values by lane, lanes ascending; for lanes an even distance apart, the d whose bit 31 is
clear unless a third lane decides. -/
def affineOf (vals : List (Nat × Nat)) : Option (Nat × Nat) :=
  match vals with
  | (i, x) :: (k, y) :: _ =>
    let delta := (y + 2 ^ 32 - x) % 2 ^ 32
    let cands := if k - i = 1 then [delta] else if k - i = 3 then [delta * inv3 % 2 ^ 32]
      else if delta % 2 = 1 then [] else [delta / 2, delta / 2 + 2 ^ 31]
    cands.findSome? (fun d =>
      let b := (x + 2 ^ 36 - i * d) % 2 ^ 32
      if vals.all (fun v => (b + v.1 * d) % 2 ^ 32 == v.2) then some (b, d) else none)
  | _ => none

/-- R20: the value is sign-extended from n bits. -/
def narrowFits (n x : Nat) : Bool := (sextI x n % 2 ^ 32).toNat == x

/-- R20: class, width and the four words of the slot for the values of a set of lanes, ascending. -/
def packLanes (vals : List (Nat × Nat)) : Nat × Nat × List Nat :=
  let x0 := (vals.map (·.2)).headD 0
  if vals.all (fun v => v.2 == x0) then (1, 0, [x0, 0, 0, 0])
  else match affineOf vals with
    | some (b, d) => (2, 0, [b, d, 0, 0])
    | none =>
      if vals.all (fun v => narrowFits 8 v.2) then
        (3, 0, [vals.foldl (fun w v => w + v.2 % 256 * 2 ^ (8 * v.1)) 0, 0, 0, 0])
      else if vals.all (fun v => narrowFits 16 v.2) then
        let half (k : Nat) := (vals.filter (fun v => v.1 / 2 == k)).foldl (fun w v => w + v.2 % 65536 * 2 ^ (16 * (v.1 % 2))) 0
        (3, 1, [half 0, half 1, 0, 0])
      else (0, 0, (List.range 4).map (fun j => ((vals.find? (fun v => v.1 == j)).map (·.2)).getD 0))

/-- The words of 16 bytes. -/
def wordsOf (bytes : List Byte) : List Nat := (List.range 4).map (fun j => ofBytes ((bytes.drop (4 * j)).take 4))

/-- The sector of a guest-virtual address is marked poisoned (R229: poison travels through spills and casts). -/
def State.poisonVa (s : State) (q : Req) (va : Nat) : State :=
  match s.translate q va with
  | .ok x =>
    match SMap.get s.l2 (l2Key q.owner x.gpa), x.place with
    | some sec, _ => { s with l2 := SMap.set s.l2 (l2Key q.owner x.gpa) { sec with poison := some true } }
    | none, .dram h _ _ => { s with dramPoison := SMap.set s.dramPoison (h / 32) true }
    | _, _ => s
  | .error _ => s

/-- R19, R229: bytes of one sector that a spill reads back in order to pack them: as they are stored, poisoned or not. -/
def State.readBack (s : State) (q : Req) (va n : Nat) : Except (MemFault × Nat) (List Byte × State) :=
  match s.readVa q false va n, s.translate q va n with
  | .error (.poison w, a), .ok x =>
    match x.place.device with
    | some (h, slot) => .ok ((s.dramBytes q.owner x.gpa h slot n).1, s.notePoison q va)
    | none => .error (.poison w, a)
  | r, _ => r

/-- R156: lane group of a block's quad. -/
def Block.laneGroupOf (b : Block) (q : Nat) : Nat := (b.g0 + q) % 32

/-- The thread at place k of the block at place i. -/
def State.thread? (s : State) (i k : Nat) : Option (Block × Thread) :=
  (s.blocks[i]?).bind (fun b => (b.threads[k]?).map (fun t => (b, t)))

/-- The state with thread k of the block at place i changed. -/
def State.updThread (s : State) (i k : Nat) (f : Thread → Thread) : State := s.updBlock i (fun b => b.updThread k f)

/-- An address whose place is in host memory. -/
def State.hostAt (s : State) (q : Req) (va : Nat) : Bool :=
  match s.translate q va with
  | .ok x => x.place.inHost
  | .error _ => false

/-- R264: an access of thread k of a block to host memory waits for what the thread has logged (log entry 99). -/
def State.hostWaits (s : State) (b : Block) (k : Nat) (q : Req) (va : Nat) : Bool := s.ownLogged b.uid k && s.hostAt q va

/-- R264: thread k of the block at place i has written at an address: a host write, which a FENCE.S of its waits for. -/
def State.postsAt (s : State) (i k : Nat) (q : Req) (va : Nat) : State :=
  if s.hostAt q va then s.updThread i k (fun t => { t with posted := true }) else s

/-- R19, R20: position LOW of thread k is spilled and LOW advances; on a fault, or where an access waits, nothing moves. -/
def State.spillOne (s : State) (i k : Nat) : Except Stop State :=
  match s.thread? i k with
  | none => .ok s
  | some (b, t) =>
    let pos := t.low
    let d := (b.spillDepth.getD (k / 4) 0).toNat
    let base := (b.spillBase.getD (k / 4) 0).toNat
    let q := b.rmwReq t.level
    let j := k % 4
    if d ≤ pos then .error (.trap { cause := .stackOverflow, extra := BitVec.ofNat 64 pos })
    else if s.hostWaits b k q (base + pos) || s.hostWaits b k q (base + d + 16 * pos) then .error (.wait .fence)
    else match s.readBack q (base + pos) 1 with
      | .error (f, va) => .error (f.stop q va)
      | .ok (tag, s) =>
        match s.readBack q (base + d + 16 * pos) 16 with
        | .error (f, va) => .error (f.stop q va)
        | .ok (old, s) =>
          let tg := ofBytes tag
          let others := (List.range 4).filter (fun l => l != j && bit tg (4 + l))
          let vals := (List.range 4).filterMap (fun l =>
            if l = j then some (l, (t.regs.getD (pos % t.n) 0).toNat)
            else if others.contains l then some (l, unpackLane (fld tg 2 2) (fld tg 1 1) (wordsOf old) l) else none)
          let (cls, w, ws) := packLanes vals
          let tag' := vals.foldl (fun m v => m + 2 ^ (4 + v.1)) 0 + cls * 4 + w * 2
          match s.writeVa q false (base + d + 16 * pos) (ws.flatMap (toBytes 4)) with
          | (_, some (f, va)) => .error (f.stop q va)
          | ((s, _), none) =>
            match s.writeVa q false (base + pos) (toBytes 1 tag') with
            | (_, some (f, va)) => .error (f.stop q va)
            | ((s, _), none) =>
              let s := if (SMap.get t.poison (pos % t.n)).isSome then s.poisonVa q (base + d + 16 * pos) else s
              .ok (((s.postsAt i k q (base + d + 16 * pos)).postsAt i k q (base + pos)).updThread i k (fun t => { t with low := t.low + 1 }))

/-- R21: position LOW − 1 of thread k is filled and LOW is lowered; on a fault, or where an access waits, nothing moves. -/
def State.fillOne (s : State) (i k : Nat) : Except Stop State :=
  match s.thread? i k with
  | none => .ok s
  | some (b, t) =>
    let pos := t.low - 1
    let d := (b.spillDepth.getD (k / 4) 0).toNat
    let base := (b.spillBase.getD (k / 4) 0).toNat
    let q := b.rmwReq t.level
    let j := k % 4
    if s.hostWaits b k q (base + pos) || s.hostWaits b k q (base + d + 16 * pos) then .error (.wait .fence)
    else match s.readVa q false (base + pos) 1 with
    | .error (f, va) => .error (f.stop q va)
    | .ok (tag, s) =>
      let tg := ofBytes tag
      if bit tg 0 || !bit tg (4 + j) then .error (.trap { cause := .spillCorrupt, extra := BitVec.ofNat 64 pos })
      else match s.readVa q false (base + d + 16 * pos) 16 with
        | .error (f, va) => .error (f.stop q va)
        | .ok (old, s) =>
          match s.writeVa q false (base + pos) (toBytes 1 (tg - 2 ^ (4 + j))) with
          | (_, some (f, va)) => .error (f.stop q va)
          | ((s, _), none) =>
            let v := BitVec.ofNat 32 (unpackLane (fld tg 2 2) (fld tg 1 1) (wordsOf old) j)
            .ok ((s.postsAt i k q (base + pos)).updThread i k (fun t => { t with
              regs := t.regs.set (pos % t.n) v, poison := SMap.erase t.poison (pos % t.n), low := pos }))

/-- R136: positions `start`, …, `start` + n − 1 hold undefined values. -/
def State.undefine (s : State) (i k start n : Nat) : State :=
  { s.updThread i k (fun t => { t with
      regs := (List.range n).foldl (fun r j => r.set ((start + j) % t.n) (Config.freeWord s.fresh j)) t.regs
      poison := SMap.drop t.poison (fun p => (List.range n).any (fun j => (start + j) % t.n == p)) })
    with fresh := s.fresh + 1 }

/-- R18: spills before a commit, LOW first, until `top` ≤ LOW + N. What stops them leaves the positions already spilled. -/
def State.makeRoom (s : State) (i k top : Nat) : Nat → State × Option Stop
  | 0 => (s, none)
  | n + 1 =>
    match s.thread? i k with
    | none => (s, none)
    | some (_, t) =>
      if top ≤ t.low + t.n then (s, none)
      else match s.spillOne i k with
        | .error x => (s, some x)
        | .ok s' => State.makeRoom s' i k top n

/-- R18, R22: room for a window before a commit. All its spills come in one step, or one in each, so that a stop may fall between them
(log entry 95): the instruction then executes again. -/
def State.roomFor (s : State) (i k top : Nat) : State × Option Stop :=
  match s.thread? i k with
  | none => (s, none)
  | some (_, t) =>
    match s.makeRoom i k top (if s.later then 1 else t.low + top) with
    | (s', some x) => (s', some x)
    | (s', none) => (s', if (s'.thread? i k).any (fun x => x.2.low + x.2.n < top) then some (.wait .none) else none)

/-- R22: in a move after the commit the extra word of PAGE_FAULT and SPILL_CORRUPT is the position (for PAGE_FAULT, R19 names access
kind 2 instead: log entry 96); another cause keeps its own. -/
def Stop.atPosition (x : Stop) (pos : Nat) : Stop :=
  match x with
  | .trap tr => .trap (if tr.cause = .pageFault ∨ tr.cause = .spillCorrupt then { tr with extra := BitVec.ofNat 64 pos } else tr)
  | x => x

/-- R18, R22: one move after a commit, where one is called for: a fill down towards WB, or a spill for a window whose top has risen,
whose slot then holds the undefined value of the position that came into the window. -/
def State.moveOne (s : State) (i k : Nat) : Option (Except Stop State) :=
  match s.thread? i k with
  | none => none
  | some (_, t) =>
    if t.wb < t.low then some (match s.fillOne i k with
      | .error x => .error (x.atPosition (t.low - 1))
      | .ok s' => .ok s')
    else if t.low + t.n < t.wb + t.f then some (match s.spillOne i k with
      | .error x => .error (x.atPosition t.low)
      | .ok s' => .ok (s'.undefine i k (t.low + t.n) 1))
    else none

/-- R18, R22: moves after a commit, one after another. -/
def State.settle (s : State) (i k : Nat) : Nat → State × Option Stop
  | 0 => (s, none)
  | n + 1 =>
    match s.moveOne i k with
    | none => (s, none)
    | some (.error x) => (s, some x)
    | some (.ok s') => State.settle s' i k n

/-- R22: of the positions from `start` up that come into a window by a commit, those whose slots hold nothing still to be spilled
become undefined at once; the others, when a spill frees their slots. -/
def State.undefineIn (s : State) (i k start n : Nat) : State :=
  match s.thread? i k with
  | none => s
  | some (_, t) => s.undefine i k start (min n (t.low + t.n - start))

/-- Moves enough for any window: every position up to the top may move once. -/
def moveFuel (t : Thread) : Nat := t.low + t.wb + t.f + t.n + 16

/-! ## Traps -/

/-- R33: the vector table base of a level. -/
def Thread.tvb (t : Thread) : Level → DWord
  | .u => 0 | .s => t.tvbs | .h => t.tvbh | .f => t.tvbf

/-- R32: the trap stack pointer of a level. -/
def Thread.tsp (t : Thread) : Level → DWord
  | .u => 0 | .s => t.tsps | .h => t.tsph | .f => t.tspf

/-- The trap stack pointer of a level moved. -/
def Thread.setTsp (t : Thread) (l : Level) (x : DWord) : Thread :=
  match l with
  | .u => t | .s => { t with tsps := x } | .h => { t with tsph := x } | .f => { t with tspf := x }

/-- R34: the 64 bytes of a trap frame for a thread as it stands. -/
def frameBytes (e : Entry) (t : Thread) : List Byte :=
  toBytes 8 e.pc.toNat ++ toBytes 8 e.addr.toNat ++ toBytes 4 (e.cause.code * 2 ^ 24 + t.level.toNat * 2 ^ 22) ++
  toBytes 4 e.word.toNat ++ toBytes 4 (t.preds.toNat * 2 ^ 24 + t.swb / 32 * 2 ^ 16) ++ toBytes 4 t.wb ++
  toBytes 4 (t.low * 256 + t.f) ++ toBytes 4 t.pfx.encode ++ toBytes 8 e.extra.toNat ++ toBytes 16 0

/-- R14: the word at an address, fetched for a thread of a block at a level, as memory now holds it: of the values that a store to the
words of a running launch leaves open, always the new one (log entry 97). -/
def State.fetchAt (s : State) (b : Block) (l : Level) (pc : Nat) : Except (MemFault × Nat) (Word × State) :=
  match s.readVa (b.fetchReq l) false pc 4 with
  | .error f => .error f
  | .ok (b, s') => .ok (BitVec.ofNat 32 (ofBytes b), s')

/-- The LAND word (R57). -/
def landWord : Word := 0x90000003

/-- R32 step 1, R33: how reading the vector table ends. -/
inductive Vector where
  | handler (pc : DWord)
  | disabled
  | fault (c : Cause)
  /-- R250: the read waits. -/
  | held
deriving DecidableEq, Repr

/-- R32 step 1, R33: entry c of level T's vector table. -/
def State.vector (s : State) (b : Block) (t : Thread) (l : Level) (c : Cause) : Vector :=
  let q := b.loadReq l
  if s.hostWaits b t.tid q ((t.tvb l).toNat + 8 * c.code) then .held
  else match s.readVa q false (((t.tvb l).toNat + 8 * c.code)) 8 with
  | .error (.held _, _) => .held
  | .error (f, va) => .fault (f.trap q va).cause
  | .ok (bytes, _) =>
    let e := ofBytes bytes
    if !bit e 63 || fld e 7 56 != 0 || fld e 2 0 != 0 then .disabled
    else .handler (BitVec.ofNat 64 (fld e 56 0))

/-- R32, R35, R454: a thread stops at level F, and its quadrant's controller reports that to the armature core. What the report holds
is the model's choice: the block's uid and the %tid (log entry 98). A thread of the armature core needs no report. -/
def State.stopThread (s : State) (i k : Nat) : State :=
  match s.thread? i k with
  | none => s
  | some (b, _) =>
    let s := s.updThread i k (fun t => { t with stopped := true, wait := .none, pend := none })
    s.armatureMessage b.core (toBytes 64 (b.uid % 2 ^ 64 + k * 2 ^ 64))

/-- R228, R448: what the read of entry c of level l's vector table counts. -/
def State.noteVector (s : State) (b : Block) (t : Thread) (l : Level) (c : Cause) : State :=
  if s.hostWaits b t.tid (b.loadReq l) ((t.tvb l).toNat + 8 * c.code) then s
  else match s.readVa (b.loadReq l) false ((t.tvb l).toNat + 8 * c.code) 8 with
  | .error (.held _, _) => s
  | .error (_, va) => s.notePoison (b.loadReq l) va
  | .ok (_, s') => s'

/-- R18, R32 step 3: room for a handler's window, all its spills in one step, or one in each, so that a stop may fall between them (R22, log
entry 95). -/
def State.handlerRoom (s : State) (i k top : Nat) (t : Thread) : State × Option Stop :=
  if s.later then s.roomFor i k top else s.makeRoom i k top (moveFuel t)

/-- R32, R35: trap entry of thread k of the block at place i at target level l, the levels above it still to try. Where an access must
wait (R250), or a spill has been made after which a stop may come (R22), nothing of the entry stands but what it has spilled, and it is
still to come. -/
def State.enterAt (s : State) (i k : Nat) (e : Entry) (orig : Cause) : Nat → Level → State
  | 0, _ => s
  | n + 1, l =>
    match s.thread? i k with
    | none => s
    | some (b, t) =>
      let double (s : State) (met : Cause) : State :=
        match l.above with
        | none => s.stopThread i k
        | some l' => s.enterAt i k { e with cause := .doubleTrap
                                            extra := BitVec.ofNat 64 (orig.code + 256 * met.code) } orig n l'
      let s0 := s
      let s := s.noteVector b t l e.cause
      match s0.vector b t l e.cause with
      | .held => s
      | .disabled => match l.above with
        | none => s.stopThread i k
        | some l' => s.enterAt i k e orig n l'
      | .fault c => double s c
      | .handler pc =>
        let sp := t.tsp l - 64
        let q := b.storeReq l
        if s.hostWaits b k q sp.toNat then s
        else match s.writeVa q false sp.toNat (frameBytes e t) with
        | (_, some (.held _, _)) => s
        | ((s', _), some (f, va)) => double s' (f.trap q va).cause
        | ((s', _), none) =>
          let size := min 16 t.n
          match (s'.postsAt i k q sp.toNat).handlerRoom i k (t.wb + t.f + size) t with
          | (s', some (.trap tr)) => double s' tr.cause
          | (s', some (.wait _)) => s'
          | (s', none) =>
            (s'.updThread i k (fun t => { (t.setTsp l sp) with
              level := l, swb := 0, wb := t.wb + t.f, f := size, preds := 0, pfx := {}, pc := pc, wait := .none, pend := none })
              ).undefine i k (t.wb + t.f) size

/-- R32: the level that first handles a condition. -/
def targetLevel (x : Level) (c : Cause) : Level := Level.max x c.minLevel

/-- R191, R198: the arrivals that BARSYNCs and NBARSYNCs have made, as they stand when a trap with a frame PC takes the thread's wait. -/
def Thread.arrivals (t : Thread) (pc : DWord) : List Synced :=
  match t.wait with
  | .barrier win addr token true => { pc := pc, win := win, addr := addr, token := token, level := t.level, freed := t.freed } :: t.synced
  | _ => t.synced

/-- R35, R381: a condition met by thread k of the block at place i, its entry still to come. Its clocks of waiting end here, also where
the thread was in no issue (a member that a rendezvous fails, HANG): to take a trap counts as running for R157's rule 1 (log entry 118). -/
def State.pending (s : State) (i k : Nat) (e : Entry) : State :=
  s.updThread i k (fun t => { t with pend := some e, wait := .none, waited := 0, freed := false, synced := t.arrivals e.pc })

/-- R230, R231, R423: what UNCORRECTABLE brings with it: the count of the owner's status, and what the access left behind. -/
def State.noteUncorrectable (s : State) (b : Block) (l : Level) (tr : Trap) : State :=
  let s := s.count b.owner (fun c => { c with uncorrectable := satAdd c.uncorrectable 1 })
  if 5 ≤ fld tr.extra.toNat 4 28 ∧ fld tr.extra.toNat 4 28 ≠ 6 then s.notePoison (b.loadReq l) tr.addr.toNat else s

/-- R230, R231, R448: what a condition leaves behind beside its trap: UNCORRECTABLE its count, a failed translation what its walks count. -/
def State.noteCause (s : State) (b : Block) (l : Level) (tr : Trap) : State :=
  match tr.cause with
  | .uncorrectable => s.noteUncorrectable b l tr
  | .pageFault => s.noteWalks (b.loadReq l) tr.addr.toNat
  | .stage2Fault => s.noteWalks (b.loadReq l) tr.addr.toNat
  | .fetchFault => s.noteWalks (b.fetchReq l) tr.addr.toNat
  | _ => s

/-- R167: what a gang's outstanding register writes are: those of its own quads, and those that a split or a merge left to it. -/
def Block.boardOf (b : Block) (g : Gang) : List Return := b.returns.filter (fun r => g.quads.contains (r.tid / 4) || g.board.contains r)

/-- R167: the outstanding register writes of the gang of a quad; of the quad alone where it is in no gang. -/
def Block.boardFor (b : Block) (q : Nat) : List Return :=
  match b.gangs.find? (fun g => g.quads.contains q) with
  | some g => b.boardOf g
  | none => b.returns.filter (fun r => r.tid / 4 == q)

/-- R32: thread k of the block at place i takes a trap with the frame PC and instruction word given: at once, or in a step of its own
(R35, log entry 95), as it must where register writes of its gang are still outstanding (R167). -/
def State.takeTrapAt (s : State) (i k : Nat) (tr : Trap) (pc : DWord) (word : Word) : State :=
  match s.thread? i k with
  | none => s
  | some (b, t) =>
    let s := s.noteCause b t.level tr
    let e : Entry := ⟨tr.cause, tr.extra, tr.addr, pc, word⟩
    if s.later || !(b.boardFor (k / 4)).isEmpty then s.pending i k e else (s.pending i k e).enterAt i k e tr.cause 8 (targetLevel t.level tr.cause)

/-- R34, R56: the frame PC of a thread in the issue: the instruction word while prefix state is pending, else the group. -/
def framePc (c : Issue) (t : Thread) : DWord := if t.pfx.repv ∨ t.pfx.ifpv then c.pc else t.pc

/-- R32: thread k of the block in issue takes a trap. -/
def State.takeTrap (s : State) (k : Nat) (tr : Trap) : State :=
  match s.thread? s.cur.blk k with
  | none => s
  | some (_, t) => s.takeTrapAt s.cur.blk k tr (framePc s.cur t) s.cur.word

/-! ## One issue -/

/-- R13, R55, R56: the thread has executed the group, or one repeat of it. -/
def Thread.retire (t : Thread) (c : Issue) : Thread :=
  if t.pfx.repv ∧ t.pfx.next < t.pfx.cnt then
    { t with pc := c.pc, pfx := { t.pfx with next := t.pfx.next + 1 }, wait := .none, waited := 0 }
  else { t with pc := c.next, pfx := {}, wait := .none, waited := 0 }

/-- A thread that begins or goes on waiting at its group (R164, R198). -/
def Thread.hold (t : Thread) (c : Issue) (w : Wait) : Thread :=
  { t with wait := w, waitWord := c.word, pfx := if t.pc = c.pc then t.pfx else {}, waited := 0 }

/-- A thread that has gone elsewhere (R131, R134, R137). -/
def Thread.jump (t : Thread) (pc : DWord) : Thread :=
  { t with pc := pc, pfx := {}, wait := .none, waited := 0 }

/-- What one lane of an issue comes to when it acts on its own thread alone; `close` is what ends it. -/
def laneOut (s : State) (close : Thread → Thread) (b : Block) (f : Block → Thread → Except Trap Thread) (t : Thread) :
    Thread × Option Trap :=
  if !s.cur.tids.contains t.tid then (t, none)
  else if !t.guardOk then (t.retire s.cur, none)
  else match f b t with
    | .ok t' => (close t', none)
    | .error tr => (t, some tr)

/-- R32, R54, R58: a group that acts on each thread alone: every active thread whose guard passes runs `f` and is closed; then those
that met a condition take their traps, in ascending %tid. -/
def State.lanesBy (s : State) (close : Thread → Thread) (f : Block → Thread → Except Trap Thread) : State :=
  match s.blocks[s.cur.blk]? with
  | none => s
  | some b =>
    let outs := b.threads.map (laneOut s close b f)
    (outs.filterMap (fun o => o.2.map (fun tr => (o.1.tid, tr)))).foldl (fun s p => s.takeTrap p.1 p.2)
      (s.updBlock s.cur.blk (fun b => { b with threads := outs.map (·.1), progress := s.clock }))

/-- As `lanesBy`, each thread going on to its next group or repeat. -/
def State.lanes (s : State) (f : Block → Thread → Except Trap Thread) : State := s.lanesBy (fun t => t.retire s.cur) f

/-- R84 to R88: an instruction of registers alone: REG_BOUND over the vector fields `vs` and scalar fields `ss` it names, poison
over its vector sources `srcs`, then `f`. -/
def State.alu (s : State) (vs ss srcs : List Nat) (f : Block → Thread → Thread) : Outcome :=
  .next (s.lanes (fun b t =>
    match checkRegs b t vs ss with
    | some tr => .error tr
    | none => match checkPoison t srcs with
      | some tr => .error tr
      | none => .ok (f b t)))

/-- What one lane of an issue comes to when it reaches beyond its thread. -/
inductive LaneRes where
  /-- Done; the thread retires. -/
  | done (s : State)
  /-- Done; the thread's PC and waits are already as they should be. -/
  | moved (s : State)
  /-- A condition. -/
  | trap (s : State) (tr : Trap)
  /-- The thread waits at the group. -/
  | wait (w : Wait)

/-- The lane's thread retires. -/
def State.retireLane (s : State) (k : Nat) : State := s.updThread s.cur.blk k (fun t => t.retire s.cur)

/-- R22, R143, R250: what keeps a lane's thread from going on, in a state with what has been done so far. -/
def State.stopLane (s : State) (k : Nat) : Stop → LaneRes
  | .trap tr => .trap s tr
  | .wait w => .moved (s.updThread s.cur.blk k (fun t => t.hold s.cur w))

/-- What follows one lane. -/
def State.closeLane (s : State) (k : Nat) : LaneRes → State
  | .done s' => s'.retireLane k
  | .moved s' => s'
  | .trap s' tr => s'.takeTrap k tr
  | .wait w => s.updThread s.cur.blk k (fun t => t.hold s.cur w)

/-- R54, R58: a group whose lanes act one after another, in ascending %tid, each seeing what those before it did. -/
def State.foldLanes (s : State) (f : State → Block → Thread → LaneRes) : State :=
  let s := s.updBlock s.cur.blk (fun b => { b with progress := s.clock })
  s.cur.tids.foldl (fun s k =>
    match s.thread? s.cur.blk k with
    | none => s
    | some (b, t) => if !t.guardOk then s.retireLane k else s.closeLane k (f s b t)) s

/-- R270, R141: the data operand written from bytes, zero-extended below 4. -/
def Thread.putBytes (t : Thread) (d : Nat) (bytes : List Byte) : Thread :=
  t.putList d ((List.range ((bytes.length + 3) / 4)).map (fun j => BitVec.ofNat 32 (ofBytes ((bytes.drop (4 * j)).take 4))))

/-- R155, R107: what a load or a divide brings to the register of field d of a lane: at once, or by a result that is still on its way
(log entry 95), for which the groups that name the register wait (R167). -/
def State.deliver (s : State) (t : Thread) (d : Nat) (bytes : List Byte) (divide : Bool) : State :=
  if s.later then s.updBlock s.cur.blk (fun b => { b with returns := b.returns ++ [{ tid := t.tid, width := 4 * ((bytes.length + 3) / 4), pos := t.wb + d, value := ofBytes bytes, divide := divide }] })
  else s.updThread s.cur.blk t.tid (fun u => u.putBytes d bytes)

/-- A lane's checks of fields and poison before what it does. -/
def laneChecked (b : Block) (t : Thread) (vs ss srcs : List Nat) (s : State) (f : Unit → LaneRes) : LaneRes :=
  match checkRegs b t vs ss with
  | some tr => .trap s tr
  | none => match checkPoison t srcs with
    | some tr => .trap s tr
    | none => f ()

/-- The condition `tr` in every active thread, whatever its guard (R58 steps 1 to 3). -/
def State.trapAll (s : State) (tr : Trap) : State := s.cur.tids.foldl (fun s k => s.takeTrap k tr) s

/-- R57: the extra word of ILLEGAL_OP and PRIV is the instruction word. -/
def State.wordTrap (s : State) (c : Cause) : Trap := { cause := c, extra := s.cur.word.setWidth 64 }

/-- R30, R58 step 3: below level l, every thread that reaches the word raises PRIV; else `f`. The threads of an issue share their
level (R157). -/
def State.needLevel (s : State) (l : Level) (f : Unit → Outcome) : Outcome :=
  match s.cur.tids.head?.bind (fun k => s.thread? s.cur.blk k) with
  | some (_, t) => if t.level.ge l then f () else .next (s.trapAll (s.wordTrap .priv))
  | none => .next s

/-- Active threads of the issue whose guards pass, ascending. -/
def State.passing (s : State) : List Thread :=
  s.cur.tids.filterMap (fun k => (s.thread? s.cur.blk k).bind (fun p => if p.2.guardOk then some p.2 else none))

end Sys2Proof.Machine
end

