-- ==== Sys2Proof/Machine/Operands.lean ====
section
/-! DEFINITION. The operand forms of the register classes (R37, R38, R53, R84 to R87): each shape once, over the value function of an
instruction. In every shape the vector fields are checked in the order d, a, b, then the scalar field (log entry 20). -/

namespace Sys2Proof.Machine

/-- R53: the literal that stands for an operand. -/
def State.litFor (s : State) (x : LimmTarget) : Option Word :=
  match s.cur.lit with
  | some (y, v) => if y = x then some v else none
  | none => none

/-- Vector positions that field a names, `w` of them; none under a literal. -/
def State.vecA (s : State) (a w : Nat) : List Nat := if (s.litFor .a).isSome then [] else upto a 1 w

/-- Vector positions that field b names under SB = 0. -/
def State.vecB (s : State) (b w : Nat) (sb : Bool) : List Nat := if sb || (s.litFor .b).isSome then [] else upto b 1 w

/-- Scalar registers that field b names under SB = 1. -/
def State.scaB (b w : Nat) (sb : Bool) : List Nat := if sb then upto b 1 w else []

/-- R84: the value A. -/
def State.opA (s : State) (t : Thread) (a : Nat) : Word := (s.litFor .a).getD (t.get a)

/-- R84: the value B. -/
def State.opB (s : State) (b : Block) (t : Thread) (n : Nat) (sb : Bool) : Word :=
  (s.litFor .b).getD (if sb then b.sget t n else t.get n)

/-- R84, R53: the value A64; a literal is sign-extended. -/
def State.opA64 (s : State) (t : Thread) (a : Nat) : DWord := ((s.litFor .a).map (·.signExtend 64)).getD (t.get64 a)

/-- R84, R53: the value B64. -/
def State.opB64 (s : State) (b : Block) (t : Thread) (n : Nat) (sb : Bool) : DWord :=
  ((s.litFor .b).map (·.signExtend 64)).getD (if sb then b.sget64 t n else t.get64 n)

/-- D ← f A. -/
def State.un (s : State) (d a : Reg) (f : Word → Word) : Outcome :=
  s.alu (d.toNat :: s.vecA a.toNat 1) [] (s.vecA a.toNat 1) (fun _ t => t.put d.toNat (f (s.opA t a.toNat)))

/-- D ← f A64. -/
def State.un64 (s : State) (d a : Reg) (f : DWord → Word) : Outcome :=
  s.alu (d.toNat :: s.vecA a.toNat 2) [] (s.vecA a.toNat 2) (fun _ t => t.put d.toNat (f (s.opA64 t a.toNat)))

/-- D64 ← f A. -/
def State.widen (s : State) (d a : Reg) (f : Word → DWord) : Outcome :=
  s.alu (upto d.toNat 1 2 ++ s.vecA a.toNat 1) [] (s.vecA a.toNat 1) (fun _ t => t.put64 d.toNat (f (s.opA t a.toNat)))

/-- D64 ← f A64. -/
def State.unPair (s : State) (d a : Reg) (f : DWord → DWord) : Outcome :=
  s.alu (upto d.toNat 1 2 ++ s.vecA a.toNat 2) [] (s.vecA a.toNat 2) (fun _ t => t.put64 d.toNat (f (s.opA64 t a.toNat)))

/-- D ← f A B. -/
def State.bin (s : State) (d a b : Reg) (sb : Bool) (f : Word → Word → Word) : Outcome :=
  s.alu (d.toNat :: (s.vecA a.toNat 1 ++ s.vecB b.toNat 1 sb)) (State.scaB b.toNat 1 sb) (s.vecA a.toNat 1 ++ s.vecB b.toNat 1 sb)
    (fun blk t => t.put d.toNat (f (s.opA t a.toNat) (s.opB blk t b.toNat sb)))

/-- D ← f A B D. -/
def State.tern (s : State) (d a b : Reg) (sb : Bool) (f : Word → Word → Word → Word) : Outcome :=
  s.alu (d.toNat :: (s.vecA a.toNat 1 ++ s.vecB b.toNat 1 sb)) (State.scaB b.toNat 1 sb)
    (d.toNat :: (s.vecA a.toNat 1 ++ s.vecB b.toNat 1 sb))
    (fun blk t => t.put d.toNat (f (s.opA t a.toNat) (s.opB blk t b.toNat sb) (t.get d.toNat)))

/-- D64 ← f A B. -/
def State.binWide (s : State) (d a b : Reg) (sb : Bool) (f : Word → Word → DWord) : Outcome :=
  s.alu (upto d.toNat 1 2 ++ (s.vecA a.toNat 1 ++ s.vecB b.toNat 1 sb)) (State.scaB b.toNat 1 sb)
    (s.vecA a.toNat 1 ++ s.vecB b.toNat 1 sb)
    (fun blk t => t.put64 d.toNat (f (s.opA t a.toNat) (s.opB blk t b.toNat sb)))

/-- D64 ← f A64 B64. -/
def State.bin64 (s : State) (d a b : Reg) (sb : Bool) (f : DWord → DWord → DWord) : Outcome :=
  s.alu (upto d.toNat 1 2 ++ (s.vecA a.toNat 2 ++ s.vecB b.toNat 2 sb)) (State.scaB b.toNat 2 sb)
    (s.vecA a.toNat 2 ++ s.vecB b.toNat 2 sb)
    (fun blk t => t.put64 d.toNat (f (s.opA64 t a.toNat) (s.opB64 blk t b.toNat sb)))

/-- D64 ← f A64 B64 D64. -/
def State.tern64 (s : State) (d a b : Reg) (sb : Bool) (f : DWord → DWord → DWord → DWord) : Outcome :=
  s.alu (upto d.toNat 1 2 ++ (s.vecA a.toNat 2 ++ s.vecB b.toNat 2 sb)) (State.scaB b.toNat 2 sb)
    (upto d.toNat 1 2 ++ (s.vecA a.toNat 2 ++ s.vecB b.toNat 2 sb))
    (fun blk t => t.put64 d.toNat (f (s.opA64 t a.toNat) (s.opB64 blk t b.toNat sb) (t.get64 d.toNat)))

/-- R98: D64 ← f A64 B, B a single register. -/
def State.shift64 (s : State) (d a b : Reg) (sb : Bool) (f : DWord → Word → DWord) : Outcome :=
  s.alu (upto d.toNat 1 2 ++ (s.vecA a.toNat 2 ++ s.vecB b.toNat 1 sb)) (State.scaB b.toNat 1 sb)
    (s.vecA a.toNat 2 ++ s.vecB b.toNat 1 sb)
    (fun blk t => t.put64 d.toNat (f (s.opA64 t a.toNat) (s.opB blk t b.toNat sb)))

/-- R41, R88: predicate p ← f A B. -/
def State.cmp (s : State) (p : BitVec 3) (a b : Reg) (sb : Bool) (f : Word → Word → Bool) : Outcome :=
  s.alu (s.vecA a.toNat 1 ++ s.vecB b.toNat 1 sb) (State.scaB b.toNat 1 sb) (s.vecA a.toNat 1 ++ s.vecB b.toNat 1 sb)
    (fun blk t => t.putPred p.toNat (f (s.opA t a.toNat) (s.opB blk t b.toNat sb)))

/-- R41, R88: predicate p ← f A64 B64. -/
def State.cmp64 (s : State) (p : BitVec 3) (a b : Reg) (sb : Bool) (f : DWord → DWord → Bool) : Outcome :=
  s.alu (s.vecA a.toNat 2 ++ s.vecB b.toNat 2 sb) (State.scaB b.toNat 2 sb) (s.vecA a.toNat 2 ++ s.vecB b.toNat 2 sb)
    (fun blk t => t.putPred p.toNat (f (s.opA64 t a.toNat) (s.opB64 blk t b.toNat sb)))

/-- R42, R96: the immediate of class 0x1, or the literal. -/
def State.immOr (s : State) (x : Word) : Word := (s.litFor .imm11).getD x

/-- R96: D ← f A. The class takes no literal for a. -/
def State.imm (s : State) (d a : Reg) (f : Word → Word) : Outcome :=
  s.alu [d.toNat, a.toNat] [] [a.toNat] (fun _ t => t.put d.toNat (f (t.get a.toNat)))

end Sys2Proof.Machine
end

