-- ==== Sys2Proof/Machine/Waits.lean ====
section
/-! DEFINITION. What a waiting thread waits for, and when each wait is over (R164, R176, R179, R198, R214, R250, R302, R303). -/

namespace Sys2Proof.Machine

/-! ## Neighbourhoods and barrier objects -/

/-- R173: the place in the list of blocks of block i of the neighbourhood of the block at place `bi`. -/
def State.nbhdBlock (s : State) (bi i : Nat) : Option Nat :=
  match s.blocks[bi]? with
  | none => none
  | some b =>
    let n := recNrows b.record * recNcols b.record
    if n = 0 ∨ n ≤ i then none
    else s.blocks.findIdx? (fun x => x.launch == b.launch && x.num == b.num / n * n + i)

/-- R189: where a barrier object lies. -/
inductive BarLoc where
  | scratch (place off : Nat)
  | device (va : Nat)
deriving DecidableEq, Repr

/-- R189, R190: the object of an address that has passed the checks of R190: a window offset, or the 64-bit address of a BAR form. -/
def State.barLoc (s : State) (bi : Nat) (win : Bool) (addr : Nat) : Option BarLoc :=
  if win then (s.nbhdBlock bi (addr / 262144)).map (fun p => .scratch p (addr % 262144))
  else if bit addr 63 then some (.device (fld addr 56 0)) else some (.scratch bi (fld addr 18 0))

/-- R189: a barrier object as read: live, PHASE, ARRIVED, EXPECT, and the reserved bits with bit 127 as stored. -/
structure Barrier where
  live : Bool
  phase : Nat
  arrived : Nat
  expect : Nat
  top : Nat
deriving DecidableEq, Repr

/-- R189: the object that 16 bytes hold, its live bit given where the space keeps it apart. -/
def Barrier.ofNat (x : Nat) (live : Bool) : Barrier := ⟨live, fld x 32 64, fld x 32 32, fld x 32 0, fld x 32 96⟩

/-- R189: the 16 bytes of an object. -/
def Barrier.bytes (o : Barrier) : List Byte :=
  toBytes 4 o.expect ++ toBytes 4 o.arrived ++ toBytes 4 (o.phase % 2 ^ 32) ++ toBytes 4 (if o.live then 2 ^ 31 else 0)

/-- R190: an object read by a thread of a block at a level; device memory as a read-modify-write. A live object with a poisoned word is
poisoned data (R230). -/
def State.barRead (s : State) (blk : Block) (l : Level) : BarLoc → Except (MemFault × Nat) (Barrier × State)
  | .scratch p off =>
    match s.blocks[p]? with
    | none => .ok (Barrier.ofNat 0 false, s)
    | some b =>
      match b.live.contains (off / 16), b.scratchSyndrome off 16 with
      | true, some syn => .error (.poison syn, off)
      | live, _ => .ok (Barrier.ofNat (ofBytes (b.scratchBytes off 16)) live, s)
  | .device va =>
    match s.readVa (blk.rmwReq l) false va 16 with
    | .error f => .error f
    | .ok (bytes, s') => .ok (Barrier.ofNat (ofBytes bytes) (bit (ofBytes bytes) 127), s')

/-- R191: a wait at a level of a thread of the block at place `bi`, for an object and a token, is on the object at `l`, which, as it now
is, releases it. -/
def State.releases (s : State) (owner bi : Nat) (b : Block) (l : BarLoc) (o : Barrier) (win : Bool) (addr : Nat) (token : Word)
    (level : Level) : Bool :=
  s.barLoc bi win addr == some l && (match l with | .device _ => ownerAt b.owner level == owner | .scratch _ _ => true) &&
    (!o.live || o.phase % 2 ^ 32 != token.toNat)

/-- R191: a thread of the block at place `bi` waits on the object at `l` with a token that the object, as it now is, releases. -/
def State.released (s : State) (owner bi : Nat) (b : Block) (l : BarLoc) (o : Barrier) (t : Thread) : Bool :=
  match t.wait with
  | .barrier win addr token _ => s.releases owner bi b l o win addr token t.level
  | _ => false

/-- R191, R198: the thread once an object has been written: what the object releases of its wait and of its arrivals is free. -/
def State.freeThread (s : State) (owner bi : Nat) (b : Block) (l : BarLoc) (o : Barrier) (t : Thread) : Thread :=
  { t with
    freed := t.freed || s.released owner bi b l o t
    synced := t.synced.map (fun a => if s.releases owner bi b l o a.win a.addr a.token a.level then { a with freed := true } else a) }

/-- R191, R198, R375: the waiters that an object releases are free from then on, also while they are cast; a release is progress. -/
def State.barRelease (s : State) (owner : Nat) (l : BarLoc) (o : Barrier) : State :=
  let free (bi : Nat) (b : Block) : Block :=
    { b with
      threads := b.threads.map (s.freeThread owner bi b l o)
      progress := if b.halted.isNone && b.threads.any (s.released owner bi b l o) then s.clock else b.progress }
  { s with
    blocks := s.blocks.zipIdx.map (fun p => free p.2 p.1)
    casts := match l with
      | .device _ => s.casts.map (fun c => { c with blk := free s.blocks.length c.blk })
      | .scratch _ _ => s.casts }

/-- R189: an object written whole by a thread of a block; the live bit of scratchpad and window objects follows, and its waiters. -/
def State.barWrite (s : State) (blk : Block) (l : Level) (o : Barrier) (loc : BarLoc) : Except (MemFault × Nat) State :=
  match loc with
  | .scratch p off => .ok ((s.updBlock p (fun b =>
      let b := b.putScratch off o.bytes
      { b with live := if o.live then (if b.live.contains (off / 16) then b.live else off / 16 :: b.live)
                        else b.live.filter (· != off / 16) })).barRelease (ownerAt blk.owner l) loc o)
  | .device va =>
    match s.writeVa (blk.rmwReq l) false va o.bytes with
    | (_, some f) => .error f
    | ((s', _), none) => .ok (s'.barRelease (ownerAt blk.owner l) loc o)

/-! ## Convergence registers, tiles, the window -/

/-- R194: GEN, COUNT and EXPECTM1 of a convergence register. -/
def convGen (c : Word) : Nat := fld c.toNat 12 0
/-- R194: COUNT. -/
def convCount (c : Word) : Nat := fld c.toNat 10 12
/-- R194: EXPECTM1. -/
def convExpect (c : Word) : Nat := fld c.toNat 10 22
/-- R194: a convergence register's word. -/
def convWord (expectM1 count gen : Nat) : Word := BitVec.ofNat 32 (expectM1 % 1024 * 2 ^ 22 + count % 1024 * 2 ^ 12 + gen % 4096)

/-- R212: entry n of the tile table. -/
def Block.tile (b : Block) (n : Nat) : TileEntry := b.ttab.getD n {}

/-- R298: the command that occupies entry `id`. -/
def Block.command (b : Block) (id : Nat) : Option Cmd := b.window.find? (fun c => c.id == id)

/-- R303: closed batches of a thread that are outstanding: from the first that still holds an unretired command on. -/
def Block.outstanding (b : Block) (t : Thread) : List (List Nat) :=
  t.closedB.dropWhile (fun batch => batch.all (fun u => !b.window.any (fun c => c.uid == u)))

/-! ## Niches and queues -/

/-- R334: the niche of a launch's node, as far as it holds anything. -/
def State.niche? (s : State) (launch node : Nat) : Option Niche := s.niches.find? (fun n => n.launch == launch && n.node == node)

/-- R336: the niche holds no pending and no claimed record. -/
def State.nicheEmpty (s : State) (launch node : Nat) : Bool :=
  match s.niche? launch node with
  | none => true
  | some n => n.pending.isEmpty && n.claimed.all (fun c => c.2.isEmpty)

/-- R389: the queue controller's counters for a queue. -/
def State.queue? (s : State) (sl q : Nat) : Option Queue := s.queues.find? (fun x => x.sl == sl && x.q == q)

/-! ## The end of a wait -/

/-- R167: a command that the thread has issued, and that has not retired, writes the tile of entry n. -/
def Block.ownWriter (b : Block) (t : Thread) (n : Nat) : Bool :=
  b.window.any (fun c => (t.openB.contains c.uid || t.closedB.any (fun l => l.contains c.uid)) && c.tiles.contains n)

/-- R278: a word is FENCE.B to FENCE.S. -/
def isFence (w : Word) : Bool := fld w.toNat 4 28 == 10 && 0x30 ≤ fld w.toNat 7 0 && fld w.toNat 7 0 ≤ 0x34

/-- R158: two threads of a block issue together: their quads are in one gang. -/
def Block.together (b : Block) (t u : Thread) : Bool :=
  t.tid / 4 == u.tid / 4 || b.gangs.any (fun g => g.quads.contains (t.tid / 4) && g.quads.contains (u.tid / 4))

/-- R250, R264: nothing of the thread holds back its fence. -/
def State.fenceDone (s : State) (b : Block) (t : Thread) : Bool := !t.flushing && !s.ownLogged b.uid t.tid

/-- The wait of a thread of the block at place `bi` is over, or is worth trying again: so is one on a barrier object that is no longer
there or can no longer be read, whose instruction meets that condition when it executes again (log entry 53). -/
def State.waitOver (s : State) (bi : Nat) (b : Block) (t : Thread) : Bool :=
  match t.wait with
  | .none => true
  | .rendezvous _ => false
  | .barrier win addr token _ =>
    t.freed || match s.barLoc bi win addr with
    | none => true
    | some l => match s.barRead b t.level l with
      | .error (.held _, _) => false
      | .error _ => true
      | .ok (o, _) => !o.live || o.phase != token.toNat
  | .conv n token => t.freed || convGen (b.cregs.getD n 0) != token
  | .tile n orEmpty => !(b.tile n).decl || if orEmpty then (b.tile n).state == 2 || (b.tile n).state == 0
      else (b.tile n).state == 2 && !b.ownWriter t n
  | .batch n _ => (b.outstanding t).length ≤ n
  | .seq kind target => (b.csn.getD kind 0 + 2 ^ 32 - target) % 2 ^ 32 < 2 ^ 31
  | .niche launch node => s.nicheEmpty launch node
  | .queue _ sl q take target =>
    match s.queue? sl q with
    | none => false
    | some x => if take then x.tail != x.head else (x.done - target).toNat < 2 ^ 31
  | .fence => s.fenceDone b t &&
      (!isFence t.waitWord || b.threads.all (fun u => u.wait != .fence || u.pc != t.pc || !b.together t u || u.exited || u.stopped || s.fenceDone b u))
  | .window id => (b.command id).isNone
  | .load va n full =>
    if full then (s.logOf b.core).length < 64
    else if bit va 63 then !s.gpaHeld b.owner (va - 2 ^ 63) n
    else !s.readHeld (b.loadReq t.level) va n

/-- R157: the thread may issue: it exists, is not waiting, and its block is not halted. -/
def State.runnable (s : State) (bi : Nat) (b : Block) (t : Thread) : Bool :=
  !t.exited && !t.stopped && t.pend.isNone && b.halted.isNone && s.waitOver bi b t

end Sys2Proof.Machine
end

