-- ==== Sys2Proof/Machine/Local.lean ====
section
/-! DEFINITION. Thread accesses to scratchpads and the neighbourhood window: where an address lies (R271), what a load returns (R214,
R230), and the fate of a store (R214, R216). -/

namespace Sys2Proof.Machine

/-- R271: the scratchpad an access reaches: the block's place in the list of blocks and the offset there. -/
inductive Spot where
  | here (place off : Nat)
deriving DecidableEq, Repr

/-- R271: locate(x) for an access of w bytes; none where the lane raises BOUND. The blocks of a neighbourhood retire together, so that no
thread of one runs beside a scratchpad that is gone; an address without its block would be outside the neighbourhood (log entry 23). -/
def State.spot (s : State) (bi : Nat) (b : Block) (win : Bool) (x w : Nat) : Option Spot :=
  if !win then (if x + w ≤ b.scratchSize then some (.here bi x) else none)
  else
    let n := recNrows b.record * recNcols b.record
    if n ≤ x / 262144 ∨ b.scratchSize < x % 262144 + w then none
    else (s.nbhdBlock bi (x / 262144)).map (fun p => .here p (x % 262144))

/-- R214: bytes [x, x + n) of a scratchpad meet a tile that is filling or draining. -/
def Block.inBusyTile (b : Block) (x n : Nat) : Bool :=
  (b.ttab.drop 8).any (fun e => e.decl && (e.state == 1 || e.state == 3) && 16 * e.base < x + n && x < 16 * e.base + e.size)

/-- R214: the tiles that a store to [x, x + n) spoils. -/
def Block.spoil (b : Block) (x n : Nat) : Block :=
  { b with ttab := b.ttab.map (fun e =>
      if e.decl && (e.state == 1 || e.state == 3) && 16 * e.base < x + n && x < 16 * e.base + e.size then { e with spoilt := true } else e) }

/-- R301: byte x of a space lies in one of a list of ranges (as in `Cmd.writes`). -/
def inRange (ws : List (Nat × Nat × Nat)) (space x : Nat) : Bool := ws.any (fun r => r.1 == space && r.2.1 ≤ x && x < r.2.1 + r.2.2)

/-- R301: byte x of a space and key lies in what a command has written (as in `Cmd.wrote`). -/
def inWrote (ws : List (Nat × Nat × Nat × Nat)) (space key x : Nat) : Bool :=
  ws.any (fun r => r.1 == space && r.2.1 == key && r.2.2.1 ≤ x && x < r.2.2.1 + r.2.2.2)

/-- The guest-physical address of a guest-virtual one. -/
def State.gpaOf (s : State) (q : Req) (va : Nat) : Option Nat :=
  match s.translate1 q.owner va with
  | .ok t => some (t.gpa + (va - t.va))
  | .error _ => none

/-- R301: the byte at a guest-virtual address lies in a range of device memory, under that address or another one of its page. -/
def State.inDevice (s : State) (q : Req) (ws : List (Nat × Nat × Nat)) (va : Nat) : Bool :=
  inRange ws 1 va || ws.any (fun r => r.1 == 1 && (List.range (r.2.2 / 65536 + 2)).any (fun k =>
    let a := (r.2.1 / 65536 + k) * 65536 + va % 65536
    r.2.1 ≤ a && a < r.2.1 + r.2.2 && (s.gpaOf q a).isSome && s.gpaOf q a == s.gpaOf q va))

/-- R301: what a retired command wrote is not covered by a wait of the thread; for a thread that did not issue it, by no wait of any
thread. -/
def Past.open (p : Past) (t : Thread) : Bool := t.unwaited.contains p.uid || !p.covered

/-- R301: the byte at a guest-virtual address was written by a retired command of the thread's block that no wait covers. -/
def State.devUncovered (s : State) (b : Block) (t : Thread) (q : Req) (va : Nat) : Bool :=
  b.past.any (fun p => p.open t && (s.gpaOf q va).any (inWrote p.wrote 0 q.owner))

/-- R301: as `devUncovered`, or a command of the block that has not retired may write it (log entry 49). -/
def State.devPending (s : State) (b : Block) (t : Thread) (q : Req) (va : Nat) : Bool :=
  b.window.any (fun c => s.inDevice q c.writes va) || s.devUncovered b t q va

/-- R301, R271: byte x of the scratchpad of the block `c`, reached by a thread of the block `b`, was written by a retired command of either
that no wait covers. -/
def Block.spUncovered (b : Block) (t : Thread) (c : Block) (x : Nat) : Bool :=
  b.past.any (fun p => p.open t && inWrote p.wrote 1 c.uid x) ||
  b.uid != c.uid && c.past.any (fun p => !p.covered && inWrote p.wrote 1 c.uid x)

/-- R173: the window offset at which byte x of the scratchpad of the block `c` stands in its neighbourhood; none without one. -/
def Block.windowAt (c : Block) (x : Nat) : Option Nat :=
  let size := recNrows c.record * recNcols c.record
  if size = 0 then none else some (c.num % size * 262144 + x)

/-- R301: as `spUncovered`, or a command of either block that has not retired may write the byte. -/
def Block.spPending (b : Block) (t : Thread) (c : Block) (x : Nat) : Bool :=
  c.window.any (fun k => inRange k.writes 0 x) || (c.windowAt x).any (fun y => b.window.any (fun k => inRange k.writes 2 y)) || b.spUncovered t c x

/-- R301: waits of a thread now cover the commands for which `f` holds; one that every thread which issued it has waited for is
forgotten. -/
def Block.cover (b : Block) (k : Nat) (f : Nat → Bool) : Block :=
  let b := b.updThread k (fun t => { t with unwaited := t.unwaited.filter (fun u => !f u) })
  let past := b.past.map (fun p => if f p.uid then { p with covered := true, late := [] } else p)
  { b with past := past.filter (fun p => !p.covered || b.threads.any (fun t => !t.exited && t.unwaited.contains p.uid)) }

/-- R301: a thread has stored to bytes that the commands for which `f` holds may write. -/
def Block.spoilWhere (b : Block) (f : Cmd → Bool) (r : Nat × Nat × Nat) : Block :=
  { b with window := b.window.map (fun c => if f c then { c with spoilt := r :: c.spoilt } else c) }

/-- R301: a thread has stored to bytes [x, x + n) of a space that commands of the block may write. -/
def Block.spoilWrites (b : Block) (space x n : Nat) : Block :=
  b.spoilWhere (fun c => (List.range n).any (fun i => inRange c.writes space (x + i))) (space, x, n)

/-- R301: a thread of the block at place `bi` has stored to bytes of device memory that commands of its block may write. -/
def State.spoilDevice (s : State) (bi : Nat) (q : Req) (va n : Nat) : State :=
  s.updBlock bi (fun b => b.spoilWhere (fun c => (List.range n).any (fun i => s.inDevice q c.writes (va + i))) (1, va, n))

/-! ## Register slots that commands write (R226, R301) -/

/-- The register slot at an on-chip address: block's place, %tid and place in the thread's allocation. -/
def State.slotAt (s : State) (a : Nat) : Option (Nat × Nat × Nat) :=
  match s.chipCell a with
  | .reg b k i => some (b, k, i)
  | _ => none

/-- The word in a register slot; 0 where the address is none. -/
def State.slotWord (s : State) (a : Nat) : Word :=
  match s.slotAt a with
  | some (b, k, i) => ((s.thread? b k).map (fun p => p.2.regs.getD i 0)).getD 0
  | none => 0

/-- The word in a register slot changed, its poison left as it is. -/
def State.setSlot (s : State) (a : Nat) (v : Word) : State :=
  match s.slotAt a with
  | some (b, k, i) => s.updThread b k (fun t => { t with regs := t.regs.set i v })
  | none => s

/-- The on-chip addresses of the register slots in ranges of device memory, as they translate. -/
def State.slotsIn (s : State) (q : Req) (ws : List (Nat × Nat × Nat)) : List Nat :=
  ws.flatMap (fun r => if r.1 != 1 then [] else (List.range (r.2.2 / 65536 + 2)).flatMap (fun k =>
    let lo := max r.2.1 ((r.2.1 / 65536 + k) * 65536)
    let hi := min (r.2.1 + r.2.2) ((r.2.1 / 65536 + k + 1) * 65536)
    if hi ≤ lo then [] else match s.translate q lo with
      | .ok x => match x.place with
        | .chip a => ((List.range ((hi - lo) / 4)).map (fun i => a + 4 * i)).filter (fun a => (s.slotAt a).isSome)
        | _ => []
      | .error _ => []))

/-- R301: at the issue of a command, the register slots in its ranges become undefined: the state, and what they hold in truth. -/
def State.blurSlots (s : State) (q : Req) (ws : List (Nat × Nat × Nat)) : State × List Late :=
  let slots := s.slotsIn q ws
  if slots.isEmpty then (s, [])
  else
    let late : List Late := slots.zipIdx.map (fun p => { addr := p.1, shown := Config.freeWord s.fresh p.2, value := s.slotWord p.1 })
    (late.foldl (fun s l => s.setSlot l.addr l.shown) { s with fresh := s.fresh + 1 }, late)

/-- R301: the step of a command, from the state `s0` on, has written register slots: they go on showing an undefined value. One that a thread
had stored to before is left undefined. -/
def State.hideSlots (s s0 : State) (late : List Late) : State × List Late :=
  late.foldl (fun (acc : State × List Late) l =>
    let s := acc.1
    if inWrote s.trace 3 0 l.addr then
      let stored := !l.written && s0.slotWord l.addr != l.shown
      ({ s.setSlot l.addr l.shown with fresh := s.fresh + 1 },
        acc.2 ++ [{ l with value := if stored then Config.freeWord s.fresh 0 else s.slotWord l.addr, written := true }])
    else (s, acc.2 ++ [l])) (s, [])

/-- R301: register slots show what they hold: what a command wrote, an undefined value where a thread has stored since, and what stood
there before where the command has not written. -/
def State.showSlots (s : State) (late : List Late) : State :=
  late.foldl (fun s l =>
    if s.slotWord l.addr = l.shown then s.setSlot l.addr l.value
    else if l.written then { s.setSlot l.addr (Config.freeWord s.fresh 0) with fresh := s.fresh + 1 } else s) s

/-- R301: as `Block.cover`, for thread k of the block at place `bi`, with the register slots that the commands wrote. -/
def State.cover (s : State) (bi k : Nat) (f : Nat → Bool) : State :=
  match s.blocks[bi]? with
  | none => s
  | some b => (s.showSlots ((b.past.filter (fun p => f p.uid)).flatMap (·.late))).updBlock bi (fun b => b.cover k f)

/-! ## Loads and stores -/

/-- `n` undefined bytes (R10). -/
def State.freeBytes (s : State) (n : Nat) : List Byte × State :=
  ((List.range n).map (Config.freeByte s.fresh), { s with fresh := s.fresh + 1 })

/-- R10: bytes of which those at the places where `f` holds are undefined. -/
def State.freeWhere (s : State) (f : Nat → Bool) (bytes : List Byte) : List Byte × State :=
  if (List.range bytes.length).any f then
    (bytes.zipIdx.map (fun p => if f p.2 then Config.freeByte s.fresh p.2 else p.1), { s with fresh := s.fresh + 1 })
  else (bytes, s)

/-- R214, R230, R301: the bytes a thread loads, or the syndrome of poison among those that are defined. -/
def State.localLoad (s : State) (t : Thread) (sp : Spot) (n : Nat) : Except Nat (List Byte × State) :=
  match sp with
  | .here p x =>
    match s.blocks[s.cur.blk]?, s.blocks[p]? with
    | some b, some c =>
      let undef (i : Nat) : Bool := c.inBusyTile (x + i) 1 || b.spPending t c (x + i)
      match (if (List.range n).any undef then (List.range n).findSome? (fun i => if undef i then none else c.scratchSyndrome (x + i) 1)
        else c.scratchSyndrome x n) with
      | some syn => .error syn
      | none => .ok (s.freeWhere undef (c.scratchBytes x n))
    | _, _ => .ok (s.freeBytes n)

/-- R214, R216: bytes a thread stores; the offset of a live granule they overlap when nothing is written. Where a command wrote them that
no wait of the thread covers, the location is left undefined (R301). -/
def State.localStore (s : State) (t : Thread) (sp : Spot) (bytes : List Byte) : Except Nat State :=
  match sp with
  | .here p x =>
    match s.blocks[s.cur.blk]?, s.blocks[p]? with
    | some b, some c =>
      match c.liveIn x bytes.length with
      | some g => .error (16 * g)
      | none =>
        let (bytes, s) := s.freeWhere (fun i => b.spUncovered t c (x + i)) bytes
        let s := (s.noteStale 1 c.uid (cellsAt x (c.scratchBytes x bytes.length))).updBlock p
          (fun b => ((b.putScratch x bytes).spoil x bytes.length).spoilWrites 0 x bytes.length)
        .ok (match c.windowAt x with
          | none => s
          | some y => s.updBlock s.cur.blk (fun b => b.spoilWrites 2 y bytes.length))
    | _, _ => .ok s

/-- R270: MISALIGN of an address. -/
def Trap.misalign (w x : Nat) : Trap := { cause := .misalign, extra := BitVec.ofNat 64 w, addr := BitVec.ofNat 64 x }

/-- R271: BOUND of an address. -/
def Trap.boundAt (x : Nat) : Trap :=
  { cause := .bound, extra := BitVec.ofNat 64 (x % 2 ^ 32), addr := BitVec.ofNat 64 x }

/-- R216: BARRIER_CLOBBER at a granule, named by its scratchpad or window offset. -/
def Trap.clobber (win : Bool) (x off : Nat) : Trap :=
  { cause := .barrierClobber, extra := BitVec.ofNat 64 ((if win then x / 262144 * 262144 else 0) + off), addr := BitVec.ofNat 64 x }

/-- R230: UNCORRECTABLE at an address. -/
def Trap.poisonAt (syn x : Nat) : Trap :=
  { cause := .uncorrectable, extra := BitVec.ofNat 64 syn, addr := BitVec.ofNat 64 x }

/-- R270, R271: MISALIGN, then BOUND; else the place of an access. -/
def State.place (s : State) (b : Block) (win : Bool) (x w : Nat) : Except Trap Spot :=
  if x % w ≠ 0 then .error (.misalign w x)
  else match s.spot s.cur.blk b win x w with
    | none => .error (.boundAt x)
    | some sp => .ok sp

/-- R270: bytes of a data operand of w bytes. -/
def Thread.dataBytes (t : Thread) (d w : Nat) : List Byte :=
  if w ≤ 4 then toBytes w (t.get d).toNat else (List.range (w / 4)).flatMap (fun j => toBytes 4 (t.get (d + j)).toNat)

/-- Positions of a data operand of w bytes. -/
def dataRegs (d w : Nat) : List Nat := upto d 1 ((w + 3) / 4)

end Sys2Proof.Machine
end

