-- ==== Sys2Proof/Machine/Mem.lean ====
section
/-! DEFINITION. Loads, stores and atomics of threads (R141 to R143, R247, R248, R270 to R277), cache operations (R280) and the sampler
(R281 to R283). -/

namespace Sys2Proof.Machine

/-! ## Scratchpad and window -/

/-- R270: x = zext(A, 32) + b × w. -/
def localAddr (t : Thread) (a b : Nat) (w : Nat) : Nat := (t.get a).toNat + b * w

/-- R270: a load of 2^c bytes. -/
def State.localLd (s : State) (win : Bool) (d a b : Reg) (c : Nat) : Outcome :=
  let w := 2 ^ c
  .next (s.foldLanes (fun s blk t => laneChecked blk t (dataRegs d.toNat w ++ [a.toNat]) [] [a.toNat] s (fun _ =>
    let x := localAddr t a.toNat b.toNat w
    match s.place blk win x w with
    | .error tr => .trap s tr
    | .ok sp => match s.localLoad t sp w with
      | .error syn => .trap s (.poisonAt syn x)
      | .ok (bytes, s') => .done (s'.deliver t d.toNat bytes false))))

/-- R270: a store of 2^c bytes. -/
def State.localSt (s : State) (win : Bool) (d a b : Reg) (c : Nat) : Outcome :=
  let w := 2 ^ c
  .next (s.foldLanes (fun s blk t => laneChecked blk t (dataRegs d.toNat w ++ [a.toNat]) [] (dataRegs d.toNat w ++ [a.toNat]) s (fun _ =>
    let x := localAddr t a.toNat b.toNat w
    match s.place blk win x w with
    | .error tr => .trap s tr
    | .ok sp => match s.localStore t sp (t.dataBytes d.toNat w) with
      | .error g => .trap s (.clobber win x g)
      | .ok s' => .done s')))

/-- SLD (R270). -/
def execSld (d a b : Reg) (w : BitVec 3) (s : State) : Outcome := s.localLd false d a b w.toNat
/-- SST (R270). -/
def execSst (d a b : Reg) (w : BitVec 3) (s : State) : Outcome := s.localSt false d a b w.toNat
/-- NLD (R270). -/
def execNld (d a b : Reg) (w : BitVec 3) (s : State) : Outcome := s.localLd true d a b w.toNat
/-- NST (R270). -/
def execNst (d a b : Reg) (w : BitVec 3) (s : State) : Outcome := s.localSt true d a b w.toNat

/-! ## Atomics -/

/-- R274: new(q, old, V, C) at 32 or 64 bits; `add` is the floating-point sum. -/
def atomNew {w : Nat} (add : BitVec w → BitVec w → BitVec w) (q : Nat) (old v c : BitVec w) : BitVec w :=
  match q with
  | 0 => old + v
  | 1 => if old.sle v then old else v
  | 2 => if old.sle v then v else old
  | 3 => if old.ule v then old else v
  | 4 => if old.ule v then v else old
  | 5 => old &&& v
  | 6 => old ||| v
  | 7 => old ^^^ v
  | 8 => v
  | 9 => if old = c then v else old
  | _ => add old v

/-- R274: FADD in the sense of R111, or DADD in the sense of R119, under RNE. -/
def atomAdd (f : Fmt) {w : Nat} (x y : BitVec w) : BitVec w := BitVec.ofNat w (f.add 0 x.toNat y.toNat)

/-- R274: positions that an atomic of `w` words names for d. -/
def atomRegs (d w q : Nat) : List Nat := upto d 1 (if q = 9 then 2 * w else w)

/-- R274: the new bytes of a location, from the operands in d. -/
def atomBytes (t : Thread) (d w q : Nat) (old : Nat) : List Byte :=
  if w = 1 then
    let v := if q = 9 then t.get (d + 1) else t.get d
    toBytes 4 (atomNew (atomAdd fp32) q (BitVec.ofNat 32 old) v (t.get d)).toNat
  else
    let v := if q = 9 then t.get64 (d + 2) else t.get64 d
    toBytes 8 (atomNew (atomAdd fp64) q (BitVec.ofNat 64 old) v (t.get64 d)).toNat

/-- R273: a scratchpad or window atomic. The stop waits for the passes of one on the scratchpad (R210), so its old value comes at once. -/
def State.localAtom (s : State) (win : Bool) (d a b : Reg) (q : Nat) : Outcome :=
  .next (s.foldLanes (fun s blk t => laneChecked blk t (atomRegs d.toNat 1 q ++ [a.toNat]) [] (atomRegs d.toNat 1 q ++ [a.toNat]) s (fun _ =>
    let x := localAddr t a.toNat b.toNat 4
    match s.place blk win x 4 with
    | .error tr => .trap s tr
    | .ok sp => match s.localLoad t sp 4 with
      | .error syn => .trap s (.poisonAt syn x)
      | .ok (old, s') => match s'.localStore t sp (atomBytes t d.toNat 1 q (ofBytes old)) with
        | .error g => .trap s (.clobber win x g)
        | .ok s'' => .done (if win then s''.deliver t d.toNat old false else s''.updThread s.cur.blk t.tid (fun u => u.putBytes d.toNat old)))))

/-- ATOM on the scratchpad (R273). -/
def execAtomSp (d a b : Reg) (q : BitVec 4) (s : State) : Outcome := s.localAtom false d a b q.toNat
/-- ATOM on the window (R273). -/
def execAtomNb (d a b : Reg) (q : BitVec 4) (s : State) : Outcome := s.localAtom true d a b q.toNat

/-! ## Buffer records -/

/-- R27: record k of a thread's window of the scalar registers. -/
def Block.recOf (b : Block) (t : Thread) (k : Nat) : Nat :=
  ofBytes ((List.range 4).flatMap (fun j => toBytes 4 (b.sget t (4 * k + j)).toNat))

/-- R27: BASE. -/
def bufBase (r : Nat) : Nat := fld r 56 0
/-- R27: COUNT. -/
def bufCount (r : Nat) : Nat := fld r 32 64
/-- R27: STRIDE. -/
def bufStride (r : Nat) : Nat := fld r 16 96
/-- R27: ESIZE. -/
def bufEsize (r : Nat) : Nat := fld r 12 112

/-- R28: the record breaks no rule of its form. -/
def bufOk (r : Nat) : Bool := fld r 4 56 == 0 && fld r 4 124 ≤ 3 && bufEsize r != 0

/-- R29: swizzle(o, mode). -/
def swizzle (o mode : Nat) : Nat :=
  match mode with
  | 1 => Nat.xor o (fld o 5 7 * 4)
  | 2 => Nat.xor o (fld o 4 7 * 8)
  | 3 => Nat.xor o (fld o 3 7 * 16)
  | _ => o

/-- A trap that names a record. -/
def Trap.ofRecord (c : Cause) (k : Nat) : Trap := { cause := c, extra := BitVec.ofNat 64 k }

/-- R28: the checks of an access; the address of an access in bounds, none for a lane out of bounds. -/
def bufAddr (r k i off w : Nat) (reads writes : Bool) : Except Trap (Option Nat) :=
  if !bufOk r then .error (.ofRecord .badRecord k)
  else if reads && !bit r 63 || writes && !bit r 62 then .error (.ofRecord .permDenied k)
  else
    let a := bufBase r + swizzle (i * bufStride r + off) (fld r 4 124)
    if i < bufCount r ∧ off + w ≤ bufEsize r ∧ a + w ≤ 2 ^ 56 then
      if a % w ≠ 0 then .error (.misalign w a) else .ok (some a)
    else if writes && bit r 60 || !writes && reads && bit r 61 then
      .error { cause := .bound, extra := BitVec.ofNat 64 i, addr := BitVec.ofNat 64 (a % 2 ^ 64) }
    else .ok none

/-! ## Device memory -/

/-- How one thread access to device memory ends. -/
inductive Dev where
  | ok (bytes : List Byte) (s : State)
  | trap (tr : Trap)
  | wait (w : Wait)

/-- R141, R143, R247, R250, R301: `n` bytes loaded; `dramOnly` keeps the access off host and on-chip pages (R275, R277, R283). A sampler's
read, an engine's, has a view point (R261), and what commands of the block are to write is no matter to it. A host read waits for what its
thread has logged (R264, log entry 99). -/
def State.devLoad (s : State) (b : Block) (t : Thread) (q : Req) (dramOnly : Bool) (view : Option Nat) (va n : Nat) : Dev :=
  if s.readHeld q va n then .wait (.load va n false)
  else match s.translate q va with
    | .error f => .trap (f.trap q va)
    | .ok x =>
      if dramOnly && x.place.device.isNone then .trap ((MemFault.stage2 x.gpa).trap q va)
      else if x.place.inHost && s.ownLogged b.uid t.tid then .wait .fence
      else
        let undef (i : Nat) : Bool := view.isNone && s.devPending b t q (va + i)
        if n != 0 && (List.range n).all undef then let (bytes, s') := s.freeBytes n; .ok bytes s'
        else match s.readVa q false va n with
        | .error (f, _) => .trap (f.trap q va)
        | .ok (bytes, s') =>
          if view.isSome then
            let (bytes, s') := { s' with view := view }.engineSees 0 q.owner x.gpa bytes
            .ok bytes { s' with view := none }
          else let (bytes, s') := s'.freeWhere undef bytes; .ok bytes s'

/-- R243, R267: the line of an address written back and dropped from its home cache slice. -/
def State.evictLine (s : State) (owner gpa : Nat) : State :=
  (List.range 4).foldl (fun s i => s.flushSector (l2Key owner (gpa / 128 * 128 + 32 * i))) s

/-- R280: a sector of L2 written to memory; it stays, clean. -/
def State.cleanSector (s : State) (key : Nat) : State :=
  match SMap.get s.l2 key with
  | none => s
  | some x => let s' := s.flushSector key; { s' with l2 := SMap.set s'.l2 key { x with dirty := false } }

/-- R243, R267: the holder of a line for a read-modify-write: its memory controller where the line has AHOME, once the home cache
slice has written back and invalidated its copy. -/
def State.rmwHolder (s : State) (q : Req) (x : Xlated) : Except MemFault (State × Xlated × Bool) :=
  match x.place with
  | .line false => .ok (s, x, false)
  | .dram _ _ false => .ok (s, x, false)
  | .line true =>
    let s := s.evictLine q.owner x.gpa
    match s.translatePast q x.t1 x.gpa with
    | .error f => .error f
    | .ok y => if y.place.device.isSome then .ok (s, y, true) else .error (.stage2 x.gpa)
  | .dram _ _ true => .ok (s.evictLine q.owner x.gpa, x, true)
  | _ => .error (.stage2 x.gpa)

/-- R229, R243, R275: cells of one line written by a read-modify-write at the line's holder. `keep`: they are computed from what they
replace. `stamp` is that of the issue of one that leaves the side log (R254). -/
def State.rmwCells (s : State) (q : Req) (x : Xlated) (va : Nat) (cells : List (Nat × Byte)) (keep : Bool)
    (stamp : Option Nat := none) : Except MemFault State :=
  match s.rmwHolder q x with
  | .error f => .error f
  | .ok (s, x, controller) =>
    match (if controller then x.place.device else none) with
    | none => (s.writeCells q false x va cells keep stamp).map (·.1)
    | some (h, slot) =>
      if !s.homeReach q x.gpa then .ok { s with refused := s.refused + 1 }
      else
        let gcells := cells.map (fun c => (c.1 - va + x.gpa, c.2))
        let at' (g : Nat) : Nat := h / 128 * 128 + g % 128
        let olds := gcells.map (fun c => (c.1, ((s.dramBytes q.owner c.1 (at' c.1) slot 1).1).headD 0))
        let s := match stamp with
          | some k => s.noteStaleAt k 0 q.owner olds
          | none => s.noteStale 0 q.owner olds
        .ok ((sectorsOf gcells).foldl (fun s k =>
          let (old, syn) := s.sectorAt q.owner (32 * k) (at' (32 * k)) slot
          let new := (List.range 32).map (fun i => match gcells.find? (fun c => c.1 == 32 * k + i) with
            | some c => c.2 | none => old.getD i 0)
          let whole := !keep && (List.range 32).all (fun i => gcells.any (fun c => c.1 == 32 * k + i))
          s.routeSector q.owner (32 * k) slot (at' (32 * k)) new (if whole then none else syn.map (fun _ => true))) s)

/-- LD (R141). -/
def execLd (d a : Reg) (k : BitVec 5) (w : BitVec 2) (o : BitVec 6) (s : State) : Outcome :=
  let n := 2 ^ w.toNat
  .next (s.foldLanes (fun s blk t =>
    laneChecked blk t (dataRegs d.toNat n ++ [a.toNat]) (upto (4 * k.toNat) 1 4) [a.toNat] s (fun _ =>
      match bufAddr (blk.recOf t k.toNat) k.toNat (t.get a.toNat).toNat (o.toNat * n) n true false with
      | .error tr => .trap s tr
      | .ok none => .done (s.deliver t d.toNat (List.replicate n 0) false)
      | .ok (some va) =>
        match s.devLoad blk t (blk.loadReq t.level) false none va n with
        | .trap tr => .trap s tr
        | .wait w => .wait w
        | .ok bytes s' => .done (s'.deliver t d.toNat bytes false))))

/-- What the checks of one lane of a store, an FADDX or an RCCLR come to. -/
inductive StoreLane where
  | skip
  | trap (tr : Trap)
  | store (va : Nat) (bytes : List Byte) (term : Int × Bool × Bool × Bool)

/-- R81: the terms that FADDX adds to a cell. -/
abbrev CellTerms := Int × Bool × Bool × Bool

/-- A lane's request: %tid, address, bytes and, for FADDX, its term. -/
abbrev StoreReq := Nat × Nat × List Byte × CellTerms

/-- R248: how the requests of one line end, for all the threads that share it. -/
inductive LineOut where
  | done
  /-- A failure at the lowest address of the line's requests, given. -/
  | fault (f : MemFault) (va : Nat)
  | wait (w : Wait)

/-- R143, R277: the trap of a line's failure in the thread of one of its requests: each lane's own addresses. -/
def MemFault.laneTrap (f : MemFault) (q : Req) (va lane : Nat) : Trap :=
  match f with
  | .stage2 g np => (MemFault.stage2 (g + (lane - va)) np).trap q lane
  | f => f.trap q lane

/-- The lowest address of the requests of one line. -/
def lineBase (lanes : List StoreReq) : Nat := (lanes.map (·.2.1)).foldl min (2 ^ 64)

/-- R232, R277: the translation that a line's requests need: of every byte stored, or of the cell; FADDX and RCCLR meet their page rule
under TSCOPE too. -/
def State.lineXl (s : State) (q : Req) (rmw add : Bool) (lanes : List StoreReq) : Except MemFault Xlated :=
  let va := lineBase lanes
  let top := (lanes.map (fun l => l.2.1 + if add then 64 else l.2.2.1.length)).foldl max 0
  s.translate (if rmw then { q with code := 3 } else q) va (top - va)

/-- R248: the requests of one line fail a stage, and go to the side log. -/
def State.lineFails (s : State) (q : Req) (rmw add : Bool) (lanes : List StoreReq) : Bool :=
  match s.lineXl q rmw add lanes with
  | .error (.page _) => true
  | .error (.stage2 _ _) => true
  | _ => false

/-- R301: the bytes of requests to locations that a command wrote and no wait of the thread covers are undefined. -/
def State.storedBytes (s : State) (b : Block) (q : Req) (lanes : List StoreReq) : List StoreReq × State :=
  lanes.foldl (fun acc l =>
    match b.threads[l.1]? with
    | none => (acc.1 ++ [l], acc.2)
    | some t =>
      let (bytes, s') := acc.2.freeWhere (fun i => s.devUncovered b t q (l.2.1 + i)) l.2.2.1
      (acc.1 ++ [(l.1, l.2.1, bytes, l.2.2.2)], s')) ([], s)

/-- R82, R301: an FADDX of the terms `sum` to the cell at an address: its new bytes. Bytes that a command has written, or is to write, enter
the sum as undefined ones, and those that no wait covers stay undefined. -/
def State.addCell (s : State) (b : Block) (q : Req) (x : Xlated) (va : Nat) (lanes : List StoreReq) (sum : CellTerms) : List Byte × State :=
  let anyLane (f : Thread → Bool) : Bool := lanes.any (fun l => (b.threads[l.1]?).any f)
  let (h, slot) := x.place.device.getD (0, 0)
  let s0 := s
  let s := (s.noteSector q.owner x.gpa h).noteSector q.owner (x.gpa + 32) (h + 32)
  let (old, s) := s.freeWhere (fun i => anyLane (fun t => s0.devPending b t q (va + i))) (s0.dramBytes q.owner x.gpa h slot 64).1
  s.freeWhere (fun i => anyLane (fun t => s0.devUncovered b t q (va + i))) (toBytes 64 (cellAdd (ofBytes old) sum))

/-- R143, R248, R250: the requests of one line (or of one cell): performed, or retired into the side log. `rmw` marks FADDX and
RCCLR, with their page rule (R277), and FADDX (`add`) adds the terms. Of two threads of one issue that store to one location the spec
lets either come last; here the one with the higher %tid does (log entry 100). Host writes wait for what their threads have logged
(log entry 99). -/
def State.storeLine (s : State) (b : Block) (q : Req) (rmw add : Bool) (lanes : List StoreReq) : State × LineOut :=
  let va := lineBase lanes
  let (lanes, s) := s.storedBytes b q lanes
  let cells := lanes.flatMap (fun l => cellsAt l.2.1 l.2.2.1)
  let sum : CellTerms := lanes.foldl (fun x l =>
    (x.1 + l.2.2.2.1, x.2.1 || l.2.2.2.2.1, x.2.2.1 || l.2.2.2.2.2.1, x.2.2.2 || l.2.2.2.2.2.2)) (0, false, false, false)
  let log (stage2 np : Bool) (gpa : Nat) : State × LineOut :=
    let byVa : Bool := !stage2 || (match s.translate1 q.owner va with | .ok _ => false | .error _ => true)
    let e : LogEntry :=
      { core := b.core, owner := q.owner, slice := b.owner, blk := b.uid, tids := lanes.map (·.1), level := q.level, stage2 := stage2
        byVa := byVa, va := if add then va else va / 128 * 128, gpa := gpa / 128 * 128, cells := cells
        addend := if add then some sum else none, rmw := rmw, seq := 0 }
    match (s.noteWalks q va).enterLog e np with
    | some s' => (s', .done)
    | none => (s, .wait (.load va 1 true))
  let close (r : Except MemFault State) : State × LineOut :=
    match r with
    | .ok s' => (s', .done)
    | .error f => (s, .fault f va)
  match s.lineXl q rmw add lanes with
  | .error (.page np) => log false np 0
  | .error (.stage2 g np) => log true np g
  | .error f => (s, .fault f va)
  | .ok x =>
    if s.granuleHeld q.owner va x.gpa then (s, .wait (.load va 1 false))
    else if rmw && x.place.device.isNone then (s, .fault (.stage2 x.gpa) va)
    else if x.place.inHost && lanes.any (fun l => s.ownLogged b.uid l.1) then (s, .wait .fence)
    else
      let s := s.noteXl x
      let s := lanes.foldl (fun s l => (s.spoilDevice s.cur.blk q l.2.1 (if add then 64 else l.2.2.1.length)).updThread s.cur.blk l.1
        (fun t => { t with posted := t.posted || x.place.inHost })) s
      if add then
        let (bytes, s) := s.addCell b q x va lanes sum
        close (s.rmwCells q x va (cellsAt va bytes) true)
      else if rmw then close (s.rmwCells q x va cells false)
      else close ((s.writeCells q false x va cells false).map (·.1))

/-- R248: the lanes of a store, grouped by line (128 bytes) or cell (64 bytes), in order of first use. -/
def lineGroups (unit : Nat) (lanes : List StoreReq) : List (List StoreReq) :=
  ((lanes.map (fun l => l.2.1 / unit)).eraseDups).map (fun k => lanes.filter (fun l => l.2.1 / unit == k))

/-- R250: the side log has no room for the requests of the issue that fail, so that the whole issue is held (log entry 101). -/
def State.logFull (s : State) (b : Block) (q : Req) (rmw add : Bool) (groups : List (List StoreReq)) : Bool :=
  let n := (groups.filter (s.lineFails q rmw add)).length
  n != 0 && 64 < (s.logOf b.core).length + min n 64

/-- A store, FADDX or RCCLR of an issue: the lanes' checks, the requests by line, then each lane's end in ascending %tid. -/
def State.storeIssue (s : State) (q : Block → Level → Req) (rmw add : Bool) (unit : Nat)
    (lane : Block → Thread → StoreLane) : Outcome :=
  match s.blocks[s.cur.blk]? with
  | none => .next s
  | some b =>
    let s0 := s.updBlock s.cur.blk (fun b => { b with progress := s.clock })
    let pre := s.passing.map (fun t => (t, lane b t))
    let reqs := pre.filterMap (fun p => match p.2 with
      | .store va bytes term => some (p.1.tid, va, bytes, term)
      | _ => none)
    let q := q b (((s.passing.head?).map (·.level)).getD .u)
    let groups := lineGroups unit reqs
    if s0.logFull b q rmw add groups then
      .next (s.lanesBy id (fun _ t => .ok (t.hold s.cur (.load (lineBase reqs) 1 true))))
    else
      let r : State × List (Nat × LineOut) := groups.foldl (fun (acc : State × List (Nat × LineOut)) g =>
        let (s', o) := acc.1.storeLine b q rmw add g
        (s', acc.2 ++ g.map (fun l => (l.1, o)))) (s0, [])
      .next (s.cur.tids.foldl (fun s' k =>
        match pre.find? (fun p => p.1.tid == k) with
        | none => s'.retireLane k
        | some (_, .skip) => s'.retireLane k
        | some (_, .trap tr) => s'.takeTrap k tr
        | some (_, .store va _ _) =>
          match r.2.find? (fun e => e.1 == k) with
          | some (_, .fault f base) => s'.takeTrap k (f.laneTrap q base va)
          | some (_, .wait w) => s'.updThread s'.cur.blk k (fun t => t.hold s'.cur w)
          | _ => s'.retireLane k) r.1)

/-- The checks of fields, poison and record of one lane of a store. -/
def storeLane (b : Block) (t : Thread) (vs ss srcs : List Nat) (addr : Except Trap (Option Nat)) (bytes : List Byte)
    (term : CellTerms) : StoreLane :=
  match checkRegs b t vs ss with
  | some tr => .trap tr
  | none => match checkPoison t srcs with
    | some tr => .trap tr
    | none => match addr with
      | .error tr => .trap tr
      | .ok none => .skip
      | .ok (some va) => .store va bytes term

/-- ST (R141). -/
def execSt (d a : Reg) (k : BitVec 5) (w : BitVec 2) (o : BitVec 6) (s : State) : Outcome :=
  let n := 2 ^ w.toNat
  s.storeIssue Block.storeReq false false 128 (fun blk t =>
    storeLane blk t (dataRegs d.toNat n ++ [a.toNat]) (upto (4 * k.toNat) 1 4) (dataRegs d.toNat n ++ [a.toNat])
      (bufAddr (blk.recOf t k.toNat) k.toNat (t.get a.toNat).toNat (o.toNat * n) n false true)
      (t.dataBytes d.toNat n) (0, false, false, false))

/-- FADDX (R277, R82). -/
def execFaddx (d a : Reg) (k : BitVec 5) (s : State) : Outcome :=
  s.storeIssue Block.rmwReq true true 64 (fun blk t =>
    storeLane blk t [d.toNat, a.toNat] (upto (4 * k.toNat) 1 4) [d.toNat, a.toNat]
      (bufAddr (blk.recOf t k.toNat) k.toNat (t.get a.toNat).toNat 0 64 true true) [] (cellTerm (t.get d.toNat).toNat))

/-- RCCLR (R277). -/
def execRcclr (a : Reg) (k : BitVec 5) (s : State) : Outcome :=
  s.storeIssue Block.storeReq true false 128 (fun blk t =>
    storeLane blk t [a.toNat] (upto (4 * k.toNat) 1 4) [a.toNat]
      (bufAddr (blk.recOf t k.toNat) k.toNat (t.get a.toNat).toNat 0 64 false true) (List.replicate 64 0) (0, false, false, false))

/-- R277: RCRD. -/
def execRcrd (d a : Reg) (k : BitVec 5) (s : State) : Outcome :=
  .next (s.foldLanes (fun s blk t =>
    laneChecked blk t [d.toNat, a.toNat] (upto (4 * k.toNat) 1 4) [a.toNat] s (fun _ =>
      let put (s : State) (x : Nat) : LaneRes := .done (s.deliver t d.toNat (toBytes 4 x) false)
      match bufAddr (blk.recOf t k.toNat) k.toNat (t.get a.toNat).toNat 0 64 true false with
      | .error tr => .trap s tr
      | .ok none => put s 0
      | .ok (some va) =>
        match s.devLoad blk t (blk.loadReq t.level) true none va 64 with
        | .trap tr => .trap s tr
        | .wait w => .wait w
        | .ok bytes s' => put s' (cellRead (ofBytes bytes)))))

/-- R275: a record atomic of `w` words. -/
def State.recordAtom (s : State) (d a : Reg) (k : BitVec 5) (w q : Nat) : Outcome :=
  .next (s.foldLanes (fun s blk t =>
    laneChecked blk t (atomRegs d.toNat w q ++ [a.toNat]) (upto (4 * k.toNat) 1 4) (atomRegs d.toNat w q ++ [a.toNat]) s (fun _ =>
      let put (s : State) (bytes : List Byte) : LaneRes := .done (s.deliver t d.toNat bytes false)
      let req := blk.rmwReq t.level
      match bufAddr (blk.recOf t k.toNat) k.toNat (t.get a.toNat).toNat 0 (4 * w) true true with
      | .error tr => .trap s tr
      | .ok none => put s (List.replicate (4 * w) 0)
      | .ok (some va) =>
        match s.devLoad blk t req true none va (4 * w) with
        | .trap tr => .trap s tr
        | .wait w => .wait w
        | .ok old s' =>
          match s'.translate req va with
          | .error f => .trap s (f.trap req va)
          | .ok x =>
            let (bytes, s') := (s'.spoilDevice s'.cur.blk req va (4 * w)).freeWhere (fun i => s.devUncovered blk t req (va + i)) (atomBytes t d.toNat w q (ofBytes old))
            match s'.rmwCells req x va (cellsAt va bytes) true with
            | .error f => .trap s (f.trap req va)
            | .ok s' => put s' old)))

/-- ATOM through a record (R275). -/
def execAtomRec (d a : Reg) (k : BitVec 5) (q : BitVec 4) (s : State) : Outcome := s.recordAtom d a k 1 q.toNat
/-- ATOM.64 through a record (R275). -/
def execAtom64 (d a : Reg) (k : BitVec 5) (q : BitVec 4) (s : State) : Outcome := s.recordAtom d a k 2 q.toNat

/-! ## Prefetch and cache operations -/

/-- R280: the line of an address comes into its home cache slice, where its owner may allocate (R221). -/
def State.prefetchLine (s : State) (q : Req) (va : Nat) : State :=
  match s.translate q (va / 128 * 128) 128 with
  | .error _ => s.noteWalks q va
  | .ok x =>
    match x.place with
    | .dram h slot _ =>
      if !s.homeReach q x.gpa || s.cached q.owner x.gpa && !s.holds q.owner x.gpa 128 && !s.routeOk q.owner x.gpa h then
        { s.noteXl x with refused := s.refused + 1 }
      else (List.range 4).foldl (fun s i => s.fetchSector x.t2 (x.gpa + 32 * i) (h + 32 * i) slot) (s.noteXl x)
    | _ => s

/-- PREF (R280): the line comes into its home cache slice; from there it would come into L1, whose clean copies change no result (R218). -/
def execPref (_l : Bool) (a : Reg) (k : BitVec 5) (s : State) : Outcome :=
  .next (s.foldLanes (fun s blk t => laneChecked blk t [a.toNat] (upto (4 * k.toNat) 1 4) [a.toNat] s (fun _ =>
    let r := blk.recOf t k.toNat
    if !bufOk r then .trap s (.ofRecord .badRecord k.toNat)
    else if !bit r 63 then .done s
    else match bufAddr r k.toNat (t.get a.toNat).toNat 0 1 false false with
      | .ok (some va) =>
        .done (s.prefetchLine (blk.prefetchReq t.level) va)
      | _ => .done s)))

/-- R280: CWB and CINV: the line's dirty sectors written to memory, and the line kept clean or invalidated. -/
def State.writeBackLine (s : State) (a : Reg) (k : BitVec 5) (inv : Bool) : Outcome :=
  .next (s.foldLanes (fun s blk t => laneChecked blk t [a.toNat] (upto (4 * k.toNat) 1 4) [a.toNat] s (fun _ =>
    let r := blk.recOf t k.toNat
    let q := blk.writeBackReq t.level
    if !bufOk r then .trap s (.ofRecord .badRecord k.toNat)
    else if !bit r 62 then .trap s (.ofRecord .permDenied k.toNat)
    else match bufAddr r k.toNat (t.get a.toNat).toNat 0 1 false false with
      | .ok (some va) =>
        match s.translate q va with
        | .error f => .trap s (f.trap q va)
        | .ok x =>
          if s.granuleHeld q.owner va x.gpa then .wait (.load va 1 false)
          else if x.place.device.isNone then .done s
          else if !s.homeReach q x.gpa then .done { s with refused := s.refused + 1 }
          else if inv then .done ((s.noteXl x).evictLine q.owner x.gpa)
          else .done ((List.range 4).foldl (fun s i => s.cleanSector (l2Key q.owner (x.gpa / 128 * 128 + 32 * i))) (s.noteXl x))
      | _ => .done s)))

/-- CWB (R280). -/
def execCwb (a : Reg) (k : BitVec 5) (s : State) : Outcome := s.writeBackLine a k false
/-- CINV (R280). -/
def execCinv (a : Reg) (k : BitVec 5) (s : State) : Outcome := s.writeBackLine a k true

/-! ## The sampler -/

/-- R281: bytes of a texel by FMT. -/
def texelBytes (fmt : Nat) : Nat := match fmt with | 0 => 4 | 1 => 8 | 2 => 16 | _ => 4

/-- R281: channel c of a texel's bytes; an RGBA8 channel is n, its 1 ÷ 255 taken at the end. -/
def texelChannel (fmt c : Nat) (bytes : List Byte) : Num :=
  let x := ofBytes bytes
  match fmt with
  | 0 => .fin false (fld x 8 (8 * c)) 0
  | 1 => fp16.decode (fld x 16 (16 * c))
  | 2 => fp32.decode (fld x 32 (32 * c))
  | _ => if c = 0 then fp32.decode (fld x 32 0) else if c = 3 then .fin false 1 0 else .fin false 0 0

/-- R282: a coordinate ±m × 2^e times an extent, as an integer over 2^p with p at least 1. -/
def coordFix (neg : Bool) (m : Nat) (e : Int) (extent : Nat) : Int × Nat :=
  let p := max 1 (-e).toNat
  (scaled neg (m * extent) e (-p), p)

/-- R282: the wrap modes; none is the border. -/
def wrapIndex (mode : Nat) (i : Int) (w : Nat) : Option Nat :=
  match mode with
  | 0 => some (min (max i 0).toNat (w - 1))
  | 1 => some (i % w).toNat
  | 2 => let m := (i % (2 * w)).toNat; some (if m < w then m else 2 * w - 1 - m)
  | _ => if 0 ≤ i ∧ i < w then some i.toNat else none

/-- R282: the taps of a sample: i, j and weight in units of 2^−16, those of weight 0 left out. -/
def taps (bilinear : Bool) (u v : Bool × Nat × Int) (w h : Nat) : List (Int × Int × Nat) :=
  let (x, p) := coordFix u.1 u.2.1 u.2.2 w
  let (y, r) := coordFix v.1 v.2.1 v.2.2 h
  if !bilinear then [(x / (2 ^ p : Nat), y / (2 ^ r : Nat), 65536)]
  else
    let x := x - (2 ^ (p - 1) : Nat)
    let y := y - (2 ^ (r - 1) : Nat)
    let fx := (x % (2 ^ p : Nat) * 256 / (2 ^ p : Nat)).toNat
    let fy := (y % (2 ^ r : Nat) * 256 / (2 ^ r : Nat)).toNat
    let i := x / (2 ^ p : Nat)
    let j := y / (2 ^ r : Nat)
    [(i, j, (256 - fx) * (256 - fy)), (i + 1, j, fx * (256 - fy)), (i, j + 1, (256 - fx) * fy), (i + 1, j + 1, fx * fy)].filter
      (fun t => t.2.2 != 0)

/-- R282: the weighted sum of a channel, rounded once. -/
def sampleChannel (fmt : Nat) (cs : List (Num × Nat)) : Nat :=
  if fmt = 0 then
    let n := cs.foldl (fun a c => match c.1 with | .fin _ m _ => a + m * c.2 | _ => a) 0
    let q := n * 2 ^ 64 / 255
    if n = 0 then 0 else fp32.round 0 false (2 * q + if n * 2 ^ 64 % 255 = 0 then 0 else 1) (-81)
  else
    let sum := cs.foldl (fun a c => Num.add false a (match c.1 with
      | .fin neg m e => .fin neg (m * c.2) (e - 16)
      | x => x)) (.fin false 0 0)
    match sum with
    | .fin _ 0 _ => 0
    | x => fp32.encode 0 x

/-- R282, R283: the texels of the taps, in order, read as a command of scope B that starts now reads them. -/
def State.readTaps (s : State) (b : Block) (t : Thread) (r k sm : Nat) : List (Int × Int × Nat) → Except (Except Trap Wait) (List (List Num × Nat) × State)
  | [] => .ok ([], s)
  | (i, j, wt) :: rest =>
    let fmt := fld sm 4 12
    let n := texelBytes fmt
    let w := fld sm 16 48 + 1
    let h := fld sm 16 64 + 1
    let next (s : State) (bytes : List Byte) (border : Bool) : Except (Except Trap Wait) (List (List Num × Nat) × State) :=
      match State.readTaps s b t r k sm rest with
      | .error e => .error e
      | .ok (l, s') => .ok (((List.range 4).map (fun c => if border then Num.fin false 0 0 else texelChannel fmt c bytes), wt) :: l, s')
    match wrapIndex (fld sm 2 6) i w, wrapIndex (fld sm 2 8) j h with
    | some i, some j =>
      match bufAddr r k (j * w + i) 0 n true false with
      | .error tr => .error (.error tr)
      | .ok none => next s (List.replicate n 0) false
      | .ok (some va) =>
        match s.devLoad b t (b.loadReq t.level) true (some (max (s.fenceView b 0) t.oview)) va n with
        | .trap tr => .error (.error tr)
        | .wait w => .error (.ok w)
        | .ok bytes s' => next s' bytes false
    | _, _ => next s [] true

/-- SAMPLE (R281 to R283). -/
def execSample (d a : Reg) (k : BitVec 5) (s : State) : Outcome :=
  .next (s.foldLanes (fun s blk t =>
    laneChecked blk t (upto d.toNat 1 4 ++ upto a.toNat 1 2) (upto (4 * k.toNat) 1 8) (upto a.toNat 1 2) s (fun _ =>
      let r := blk.recOf t k.toNat
      let sm := blk.recOf t (k.toNat + 1)
      let put (s : State) (xs : List Nat) : LaneRes :=
        .done (s.deliver t d.toNat (xs.flatMap (toBytes 4)) false)
      if !bufOk r then .trap s (.ofRecord .badRecord k.toNat)
      else if !bit r 63 then .trap s (.ofRecord .permDenied k.toNat)
      else if fld sm 48 80 ≠ 0 ∨ fld sm 32 16 ≠ 0 ∨ fld sm 6 0 ≠ 0 ∨ 4 ≤ fld sm 4 12 ∨ 2 ≤ fld sm 2 10 ∨
          bufEsize r < texelBytes (fld sm 4 12) then .trap s (.ofRecord .badRecord k.toNat)
      else match fp32.decode (t.get a.toNat).toNat, fp32.decode (t.get (a.toNat + 1)).toNat with
        | .fin n1 m1 e1, .fin n2 m2 e2 =>
          let ts := taps (fld sm 2 10 == 1) (n1, m1, e1) (n2, m2, e2) (fld sm 16 48 + 1) (fld sm 16 64 + 1)
          match s.readTaps blk t r k.toNat sm ts with
          | .error (.error tr) => .trap s tr
          | .error (.ok w) => .wait w
          | .ok (cs, s') => put s' ((List.range 4).map (fun c =>
              sampleChannel (fld sm 4 12) (cs.map (fun x => (x.1.getD c (.fin false 0 0), x.2)))))
        | _, _ => put s (List.replicate 4 0x7FC00000))))

end Sys2Proof.Machine
end

