-- ==== Sys2Proof/Machine/EngineCmd.lean ====
section
/-! DEFINITION. Class 0xC at issue: the parameter block, the tiles, slots and records that a command names, its place in the window
(R298, R344, R345), and the declaration that TFILL makes at issue (R353). -/

namespace Sys2Proof.Machine

/-- R344: parameter word n. -/
def pbw (pb : List Word) (n : Nat) : Nat := (pb.getD n 0).toNat

/-- R297: the engine kind of an op5. -/
def kindOf (op : Nat) : Nat :=
  if op ≤ 5 then 0 else if op ≤ 9 then 1 else if op ≤ 0x12 then 2 else if op = 0x13 then 3 else if op = 0x18 then 4 else 5

/-- A tile that a command names: whether it is a scratchpad tile, its number, and whether the command writes it (R213). -/
structure TileRef where
  st : Bool
  n : Nat
  writes : Bool
deriving DecidableEq, Repr

/-- R212: the entry of a named tile. -/
def TileRef.entry (r : TileRef) : Nat := if r.st then 8 + r.n else r.n

/-- The tiles a command names (R351 to R354, R358). -/
def tileRefs (op : Nat) (pb : List Word) : List TileRef :=
  let p0 := pbw pb 0
  match op with
  | 1 | 2 =>
    (if bit p0 31 then [⟨true, fld p0 4 26, false⟩] else []) ++
      (if bit p0 15 then (List.range 4).map (fun m => ⟨false, fld p0 3 16 + m, true⟩) else [⟨false, fld p0 3 16, true⟩])
  | 3 => if !bit p0 31 && bit p0 30 then [] else [⟨bit p0 31, fld p0 4 27, true⟩]
  | 4 => [⟨bit p0 23, fld p0 4 19, false⟩]
  | 5 => if fld p0 2 25 = 1 ∨ bit p0 31 then [⟨bit p0 31, fld p0 4 27, true⟩] else []
  | 0x10 => if bit p0 17 then [⟨true, fld p0 4 13, true⟩] else []
  | _ => []

/-- The B slots a command names: macros and slot, and whether it writes them (R308). -/
def slotRefs (op : Nat) (pb : List Word) : Option (List Nat × Nat × Bool) :=
  let p0 := pbw pb 0
  match op with
  | 0 => some (bitsOf 4 (fld p0 4 14), fld p0 2 18, true)
  | 1 | 2 => some ([0, 1, 2, 3], fld p0 2 19, bit p0 21)
  | _ => none

/-- The buffer records a parameter block names, in the order of their fields (R382). -/
def recRefs (op : Nat) (pb : List Word) : List Nat :=
  let p0 := pbw pb 0
  let p3 := pbw pb 3
  let p4 := pbw pb 4
  match op with
  | 0 => if bit p0 31 then [] else [fld p0 5 26]
  | 1 | 2 => (if bit p0 31 then [] else [fld p0 5 26]) ++ (if bit p0 21 then [fld p3 5 27] else [])
  | 4 => if bit p0 31 then [] else [fld p0 5 26]
  | 5 => if fld p0 2 25 = 1 ∧ !bit p0 24 then [fld p0 5 19] else []
  | 8 | 9 => [fld p4 5 19, fld p4 5 14]
  | 0x10 | 0x11 => (if fld p0 2 20 = 0 then [fld p0 5 27] else []) ++ (if fld p0 2 18 = 0 then [fld p0 5 22] else [])
  | 0x13 => [fld p0 5 20, fld p0 5 15]
  | 0x18 => [fld p3 5 27, fld p3 5 22]
  | _ => []

/-- R214, R344: REG_BOUND for the first named tile that is not declared; TFILL in mode 0 is exempt. -/
def Block.tileFault (b : Block) (op : Nat) (pb : List Word) : Option Trap :=
  if op = 5 ∧ fld (pbw pb 0) 2 25 = 0 then none
  else ((tileRefs op pb).find? (fun r => if r.st then !(b.tile (8 + r.n)).decl else recTiles b.record ≤ r.n)).map
    (fun r => .regBound r.entry)

/-- R353: the region that a TFILL in mode 0 declares: base and size; none when it is not declared. -/
def Block.declares (b : Block) (op : Nat) (pb : List Word) : Option (Nat × Nat) :=
  let p0 := pbw pb 0
  let base := pbw pb 1
  let size := pbw pb 2
  if op = 5 ∧ bit p0 31 ∧ fld p0 2 25 = 0 ∧ fld p0 25 0 = 0 ∧ pbw pb 3 = 0 ∧ pbw pb 4 = 0 ∧ pbw pb 5 = 0 ∧ pbw pb 6 = 0 ∧
      base % 16 = 0 ∧ size % 16 = 0 ∧ 16 ≤ size ∧ size ≤ 262144 ∧ base + size ≤ b.scratchSize ∧
      !(b.tile (8 + fld p0 4 27)).decl ∧ (b.ttab.drop 8).all (fun e => !e.decl || 16 * e.base + e.size ≤ base || base + size ≤ 16 * e.base)
  then some (base, size) else none

/-- R301: bytes of device memory as a command will find them unless they change before, as a number. -/
def State.foresee (s : State) (q : Req) (va n : Nat) : Nat :=
  match s.readVa q false va n with
  | .ok (bytes, _) => ofBytes bytes
  | .error _ => 0

/-- R301, R359: what a SCATTER is to write: the elements that its list of indices names as it stands, up to the first outside the
destination; the whole destination where a command is still to write the list. -/
def Block.scatterWrites (b : Block) (t : Thread) (pb : List Word) (r : Nat) : List (Nat × Nat × Nat) :=
  let p0 := pbw pb 0
  let list := pbw pb 2
  let n := min (pbw pb 3) 65536
  let e := pbw pb 4
  let (space, base, size) := match fld p0 2 18 with
    | 0 => (1, bufBase r, bufCount r * bufStride r)
    | 1 => (0, 0, b.scratchSize)
    | _ => (2, 0, recNrows b.record * recNcols b.record * 262144)
  if (List.range (4 * n)).any (fun i => b.inBusyTile (list + i) 1 || b.spPending t b (list + i)) then [(space, base, size)]
  else
    let idx := (List.range n).map (fun i => ofBytes (b.scratchBytes (list + 4 * i) 4))
    (idx.takeWhile (fun i => i * e + e ≤ size)).map (fun i => (space, base + i * e, e))

/-- R301, R361: what a COLL is to write: nothing where it is a REDUCE and not the root, as many elements as all members have in an
ALLGATHER, whose group descriptor is taken as it stands. -/
def State.collWrites (s : State) (q : Req) (pb : List Word) (r : Nat) : List (Nat × Nat × Nat) :=
  let p0 := pbw pb 0
  let es := if fld p0 3 25 = 4 then 2 else 4
  let members := if fld p0 4 28 = 3 then fld (s.foresee q (pbw pb 1 + 2 ^ 32 * pbw pb 2) 32) 32 128 else 1
  if fld p0 4 28 = 1 ∧ fld (pbw pb 4) 16 16 ≠ fld (pbw pb 4) 16 0 then []
  else [(1, bufBase r + pbw pb 6, min (members * pbw pb 3 * es) (bufCount r * bufStride r - pbw pb 6))]

/-- R301, R363, R364: what an ENC is to write: the session's work area and, for a frame, the bitstream, whose length the codec
decides (log entry 49). -/
def State.encWrites (s : State) (q : Req) (pb : List Word) (r : Nat) : List (Nat × Nat × Nat) :=
  let session := s.foresee q (pbw pb 1 + 2 ^ 32 * pbw pb 2) 64
  let work := (1, fld session 64 256, 6 * fld session 16 160 * fld session 16 176 * if fld session 8 152 = 10 then 2 else 1)
  match fld (pbw pb 0) 2 0 with
  | 0 => [work]
  | 1 => [work, (1, bufBase r + pbw pb 4, bufCount r * bufStride r - pbw pb 4)]
  | _ => []

/-- R301, R333, R334: the ring of the niche that a command emits into, whose slots it takes as they come. -/
def State.nicheWrites (s : State) (b : Block) (q : Req) (node : Nat) : List (Nat × Nat × Nat) :=
  match s.niche? b.launch node with
  | some n => [(1, n.buffer, 16 * n.capacity)]
  | none =>
    let e := if recNodetab b.record = 0 then 0 else s.foresee q (recNodetab b.record + 32 * node) 32
    [(1, fld e 64 192, 16 * fld e 32 64)]

/-- R301, R343: what the retirement of a task control block is to write: its word at offset 8, DONE, and its successors' words. -/
def State.tcbWrites (s : State) (q : Req) (a : Nat) : List (Nat × Nat × Nat) :=
  let x := s.foresee q a 64
  [(1, a + 8, 8), (1, a + 40, 8)] ++
    (List.range (min (fld x 8 120) 64)).map (fun i => (1, s.foresee q (fld x 64 128 + 8 * i) 8 + 8, 8))

/-- R301: what a command may write, by space (0 the block's scratchpad, 1 device memory, 2 the neighbourhood window), first byte and
length, as its parameters and what they name stand at the issue (log entry 49). -/
def State.cmdWrites (s : State) (b : Block) (t : Thread) (op : Nat) (pb : List Word) (recs : SMap Nat) : List (Nat × Nat × Nat) :=
  let p0 := pbw pb 0
  let p3 := pbw pb 3
  let q := b.loadReq t.level
  let rec' (j : Nat) : Nat := SMap.getD recs j 0
  let base (j : Nat) : Nat := bufBase (rec' j)
  let extent (j : Nat) : Nat := bufCount (rec' j) * bufStride (rec' j)
  let tile (n : Nat) : List (Nat × Nat × Nat) := [(0, 16 * (b.tile (8 + n)).base, (b.tile (8 + n)).size)]
  (if bit (pbw pb 7) 14 then [(0, 16 * fld (pbw pb 7) 14 0, 16)] else []) ++
  match op with
  | 3 => if bit p0 31 then tile (fld p0 4 27) else []
  | 4 =>
    let es := if fld p0 2 24 = 0 then 4 else 2
    let rows := if bit p0 23 then [(pbw pb 1, (b.tile (8 + fld p0 4 19)).size)]
      else (List.range (fld p0 6 13 + 1)).map (fun i => (pbw pb 1 + i * pbw pb 2, 256 * es))
    rows.map (fun r => if bit p0 31 then (0, r.1, r.2) else (1, base (fld p0 5 26) + r.1, r.2))
  | 5 => if fld p0 2 25 = 1 ∧ bit p0 31 then tile (fld p0 4 27) else []
  | 8 | 9 => [(1, base (fld (pbw pb 4) 5 14), 8192), (1, base (fld (pbw pb 4) 5 19), extent (fld (pbw pb 4) 5 19))] ++
      s.nicheWrites b q (fld (pbw pb 4) 8 24)
  | 0x10 =>
    match fld p0 2 18 with
    | 0 => [(1, base (fld p0 5 22) + pbw pb 2, p3)]
    | 1 => if bit p0 17 then tile (fld p0 4 13) else [(0, pbw pb 2, p3)]
    | _ => [(2, pbw pb 2, p3)]
  | 0x11 => b.scatterWrites t pb (rec' (fld p0 5 22))
  | 0x13 => s.collWrites q pb (rec' (fld p0 5 15))
  | 0x18 => s.encWrites q pb (rec' (fld p3 5 22))
  | 0x19 => s.nicheWrites b q (fld p0 8 24)
  | 0x1B => [(1, p0 + 2 ^ 32 * pbw pb 1 + 8, 8)]
  | 0x1C => if recTcb b.record = 0 then [] else s.tcbWrites q (recTcb b.record)
  | _ => []

/-- What an issue brings to the command beside its words: register slots that it may write (R301), and for a COLL its group descriptor, as it
stands, and its match number (R425). -/
structure AtIssue where
  late : List Late := []
  group : Nat := 0
  matchNo : Nat := 0
deriving DecidableEq, Repr

/-- The key of a rank's count (R425). -/
def collKey (owner gid rank : Nat) : Nat := owner * 2 ^ 48 + gid * 65536 + rank

/-- R425: one more COLL that names a group has been issued, or found at its start to name it: its match number. -/
def State.countColl (s : State) (owner gid rank : Nat) : State × Nat :=
  let key := collKey owner gid rank
  let k := SMap.getD s.collCount key 0 + 1
  ({ s with collCount := SMap.set s.collCount key k }, k)

/-- R301, R425: what the issue of a command does beside its place in the window: register slots that a COPY or a SCATTER may write become
undefined, and a COLL counts for the group that its descriptor, as it stands, names (log entry 32). -/
def State.atIssue (s : State) (b : Block) (l : Level) (op : Nat) (pb : List Word) (writes : List (Nat × Nat × Nat)) : State × AtIssue :=
  if op = 0x10 ∨ op = 0x11 then
    let r := s.blurSlots (b.storeReq l) writes
    (r.1, { late := r.2 })
  else if op = 0x13 then
    match s.readVa (b.loadReq l) false (pbw pb 1 + 2 ^ 32 * pbw pb 2) 32 with
    | .ok (bytes, _) =>
      let r := s.countColl b.owner (fld (ofBytes bytes) 32 160) (fld (pbw pb 4) 16 16)
      (r.1, { group := ofBytes bytes, matchNo := r.2 })
    | .error _ => (s, {})
  else (s, {})

/-- R167, R213: the entries of the tile table that a command fills or drains. -/
def tilesWritten (op : Nat) (pb : List Word) : List Nat :=
  ((tileRefs op pb).filter (fun r => r.writes || op == 4)).map TileRef.entry

/-- R299 rule 1: what a predecessor field binds to. -/
def Block.bindPred (b : Block) (p : Nat) : Option (Nat × Nat × Nat) :=
  if p = 63 then none else (b.command p).map (fun c => (c.uid, c.seq, kindOf c.op5))

/-- R298: a command placed in its block's window, with its view point and what it is to write. -/
def Block.placeCmd (b : Block) (uid op id p q : Nat) (pb : List Word) (recs : SMap Nat) (l : Level) (view : Nat)
    (writes : List (Nat × Nat × Nat)) (more : AtIssue) : Block :=
  let kind := kindOf op
  let seq := b.issued.getD kind 0 + 1
  let decl := b.declares op pb
  let entry := 8 + fld (pbw pb 0) 4 27
  let engine := !(op ≤ 2) || recMatrix b.record
  let cmd : Cmd :=
    { uid := uid, id := id, op5 := op, seq := seq % 2 ^ 32, preds := [b.bindPred p, b.bindPred q], pb := pb, recs := recs
      view := view, level := l, declared := decl.isSome, fin := if engine then none else some 8, writes := writes
      tiles := tilesWritten op pb, late := more.late, group := more.group, matchNo := more.matchNo }
  { b with
    window := b.window ++ [cmd]
    issued := upd b.issued kind (fun n => (n + 1) % 2 ^ 32)
    ttab := match decl with
      | none => b.ttab
      | some (base, size) => upd b.ttab entry (fun _ => { state := 1, decl := true, cmd := id, base := base / 16, size := size }) }

/-- R298, R344: a class 0xC group: once per issue. The OFENCEs of every thread of the issue order their writes before it (R259). -/
def State.issueCmd (s : State) (op : Nat) (id p q : BitVec 6) (k : BitVec 5) : Outcome :=
  match s.blocks[s.cur.blk]? with
  | none => .next s
  | some b =>
    match s.passing.head? with
    | none => .next (s.lanes (fun _ t => .ok t))
    | some lead =>
      let base := 8 * k.toNat
      let pb := (List.range 8).map (fun i => b.sget lead (base + i))
      match checkRegs b lead [] (upto base 1 8), b.tileFault op pb with
      | some tr, _ => .next (s.lanes (fun _ _ => .error tr))
      | none, some tr => .next (s.lanes (fun _ _ => .error tr))
      | none, none =>
        if (b.command id.toNat).isSome then .next (s.lanesBy (fun t => t) (fun _ t => .ok (t.hold s.cur (.window id.toNat))))
        else
          let recs := (recRefs op pb).foldl (fun m j =>
            if lead.swb + 4 * j + 3 < b.sregs.length then SMap.set m j (b.recOf lead j) else m) ([] : SMap Nat)
          let view := s.passing.foldl (fun v t => max v (ofenceView (kindOf op) t.oview)) 0
          let writes := s.cmdWrites b lead op pb recs
          let (s1, more) := s.atIssue b lead.level op pb writes
          let s' := ({ s1 with uids := s.uids + 1 }).updBlock s.cur.blk
            (fun b => b.placeCmd s.uids op id.toNat p.toNat q.toNat pb recs lead.level view writes more)
          .next (s'.lanes (fun _ t => .ok { t with openB := t.openB ++ [s.uids], unwaited := t.unwaited ++ [s.uids] }))

/-- BLOAD (R350). -/
def execBload (id p q : BitVec 6) (k : BitVec 5) (s : State) : Outcome := s.issueCmd 0x00 id p q k
/-- MMA (R351). -/
def execMma (id p q : BitVec 6) (k : BitVec 5) (s : State) : Outcome := s.issueCmd 0x01 id p q k
/-- MMAS (R351). -/
def execMmas (id p q : BitVec 6) (k : BitVec 5) (s : State) : Outcome := s.issueCmd 0x02 id p q k
/-- TZERO (R352). -/
def execTzero (id p q : BitVec 6) (k : BitVec 5) (s : State) : Outcome := s.issueCmd 0x03 id p q k
/-- TDRAIN (R354). -/
def execTdrain (id p q : BitVec 6) (k : BitVec 5) (s : State) : Outcome := s.issueCmd 0x04 id p q k
/-- TFILL (R353). -/
def execTfill (id p q : BitVec 6) (k : BitVec 5) (s : State) : Outcome := s.issueCmd 0x05 id p q k
/-- XTRAV (R357). -/
def execXtrav (id p q : BitVec 6) (k : BitVec 5) (s : State) : Outcome := s.issueCmd 0x08 id p q k
/-- XTRAV.RES (R357). -/
def execXtravRes (id p q : BitVec 6) (k : BitVec 5) (s : State) : Outcome := s.issueCmd 0x09 id p q k
/-- COPY (R358). -/
def execCopy (id p q : BitVec 6) (k : BitVec 5) (s : State) : Outcome := s.issueCmd 0x10 id p q k
/-- SCATTER (R359). -/
def execScatter (id p q : BitVec 6) (k : BitVec 5) (s : State) : Outcome := s.issueCmd 0x11 id p q k
/-- RESTRIPE (R360). -/
def execRestripe (id p q : BitVec 6) (k : BitVec 5) (s : State) : Outcome := s.issueCmd 0x12 id p q k
/-- COLL (R361). -/
def execColl (id p q : BitVec 6) (k : BitVec 5) (s : State) : Outcome := s.issueCmd 0x13 id p q k
/-- ENC (R364). -/
def execEnc (id p q : BitVec 6) (k : BitVec 5) (s : State) : Outcome := s.issueCmd 0x18 id p q k
/-- EMIT (R365). -/
def execEmit (id p q : BitVec 6) (k : BitVec 5) (s : State) : Outcome := s.issueCmd 0x19 id p q k
/-- NDONE (R365). -/
def execNdone (id p q : BitVec 6) (k : BitVec 5) (s : State) : Outcome := s.issueCmd 0x1A id p q k
/-- TCBARM (R365). -/
def execTcbarm (id p q : BitVec 6) (k : BitVec 5) (s : State) : Outcome := s.issueCmd 0x1B id p q k
/-- TCBRET (R365). -/
def execTcbret (id p q : BitVec 6) (k : BitVec 5) (s : State) : Outcome := s.issueCmd 0x1C id p q k

end Sys2Proof.Machine
end

