-- ==== Sys2Proof/Machine/Engine.lean ====
section
/-! DEFINITION. What engines share: their accesses to memory and scratchpads (R227, R250, R347), start conditions (R299), failure
(R300), the status record (R346) and retirement (R302, R303, R213). -/

namespace Sys2Proof.Machine

/-- How a piece of engine work ends: a result; a status with its DETAIL and AUX (R346); or nothing yet (R250). -/
inductive Eng (α : Type) where
  | ok (a : α) (s : State)
  | fail (code detail aux : Nat) (s : State)
  | wait

/-- One piece of work, then another. -/
def Eng.andThen {α β : Type} (x : Eng α) (f : α → State → Eng β) : Eng β :=
  match x with
  | .ok a s => f a s
  | .fail c d a s => .fail c d a s
  | .wait => .wait

/-- A test that ends the command with a status when it fails. -/
def Eng.need {α : Type} (ok : Bool) (code detail : Nat) (s : State) (k : Unit → Eng α) : Eng α :=
  if ok then k () else .fail code detail 0 s

/-! ## Memory -/

/-- Which pages an engine reaches (R347, R331): 0 DRAM alone; 1 a chisel engine, host and on-chip pages too; 2 the Caliper, for which
such a page is a PAGE_FAULT. -/
abbrev EngMode := Nat

/-- R410: REMOTE lets a slice's chisel engines reach pages of tier 2 (log entry 26). -/
def State.remoteOk (s : State) (owner : Nat) : Bool := Config.nSlices ≤ owner || bit (s.sliceWord owner 1) 1

/-- R347, R250: the place of an address for an engine. -/
def State.engAt (s : State) (q : Req) (m : EngMode) (va : Nat) : Eng Xlated :=
  match s.translate q va with
  | .error (.page np) => .fail 5 va (if np then 2 else 0) s
  | .error (.poison _) => .fail 6 0 0 s
  | .error (.held _) => .wait
  | .error (.stage2 g np) =>
    let host := !np && match s.translate2 q.owner g with
      | .ok t => fld (s.entryAt t g) 2 6 == 1 && permits2 (s.entryAt t g) q
      | .error _ => false
    if host && m != 2 then .fail 4 0 0 s else .fail 5 g (1 + if np then 2 else 0) s
  | .ok x =>
    if s.granuleHeld q.owner va x.gpa then .wait
    else match x.place with
      | .line _ => .ok x s
      | .dram _ _ _ => .ok x s
      | .host _ _ => if m = 1 then .ok x s else if m = 2 then .fail 5 va 0 s else .fail 4 0 0 s
      | .chip _ => if m = 1 && s.remoteOk q.owner then .ok x s else if m = 2 then .fail 5 va 0 s else .fail 4 0 0 s

/-- `n` bytes read by an engine, as its command sees them (R261). Where the on-chip map gives nothing (an unassigned range, a core of
another slice) R227 names a command fault and no status; the model's choice is DENIED (log entry 121). -/
def State.engRead (s : State) (q : Req) (m : EngMode) (va n : Nat) : Eng (List Byte) :=
  (pieces va n).foldl (fun acc p => acc.andThen (fun bytes s =>
    (s.engAt q m p.1).andThen (fun x s => match s.readPiece q true p.1 p.2 with
      | .ok (b, s') =>
        let r := match x.place with
          | .chip a => s'.chipSees a b
          | .host _ _ => (b, s')
          | _ => s'.engineSees 0 q.owner x.gpa b
        .ok (bytes ++ r.1) r.2
      | .error (.poison _) => .fail 6 0 0 (s.notePoison q p.1)
      | .error (.held _) => .wait
      | .error _ => .fail 4 0 0 s))) (.ok [] s)

/-- R217: the first live granule that an on-chip write of `n` bytes meets, as an offset in its block's scratchpad. -/
def chipGranule (s : State) (x : Xlated) (n : Nat) : Nat :=
  match x.place with
  | .chip a => ((List.range (n / 4)).findSome? (fun i => match s.chipCell (a + 4 * i) with
    | .scratch b off => if (s.blocks[b]?).any (fun y => (y.liveIn off 4).isSome) then some (off / 16 * 16) else none
    | _ => none)).getD 0
  | _ => 0

/-- Bytes written by an engine; the result is the first live granule left unwritten (R217). -/
def State.engWrite (s : State) (q : Req) (m : EngMode) (va : Nat) (bytes : List Byte) : Eng (Option Nat) :=
  (pieces va bytes.length).foldl (fun acc p => acc.andThen (fun cl s =>
    (s.engAt q m p.1).andThen (fun x s =>
      match (s.noteXl x).writeCells q true x p.1 (cellsAt p.1 ((bytes.drop (p.1 - va)).take p.2)) false with
      | .ok (s', c) =>
        .ok (if cl.isNone && c then some (chipGranule s x p.2) else cl) (match x.place with
          | .chip a => s'.chipWrote a p.2
          | .host port a => s'.traced 4 port a p.2
          | _ => s'.engineWrote 0 q.owner x.gpa p.2)
      | .error _ => .fail 4 0 0 s))) (.ok none s)

/-! ## Scratchpads -/

/-- Scratchpad bytes read by an engine (R230). -/
def State.spRead (s : State) (place x n : Nat) : Eng (List Byte) :=
  match s.blocks[place]? with
  | none => .fail 3 x 0 s
  | some b =>
    if (b.scratchSyndrome x n).isSome then .fail 6 0 0 s
    else
      let r := (pieces x n).foldl (fun (acc : List Byte × State) p =>
        let y := acc.2.engineSees 1 b.uid p.1 (b.scratchBytes p.1 p.2)
        (acc.1 ++ y.1, y.2)) ([], s)
      .ok r.1 r.2

/-- R217: scratchpad bytes written by an engine; bytes of live granules stay, and the first such granule is the result. -/
def State.spWrite (s : State) (place x : Nat) (bytes : List Byte) : Eng (Option Nat) :=
  match s.blocks[place]? with
  | none => .fail 3 x 0 s
  | some b =>
    let s := s.engineWrote 1 b.uid x bytes.length
    match b.liveIn x bytes.length with
    | none => .ok none (s.updBlock place (fun b => b.putScratch x bytes))
    | some _ =>
      let live := (List.range ((x % 16 + bytes.length + 15) / 16)).map (fun i => x / 16 + i)
      let hit := live.filter (fun g => b.live.contains g)
      .ok ((hit.head?).map (16 * ·)) (s.updBlock place (fun b => (pieces16 x bytes.length).foldl (fun b p =>
        if b.live.contains (p.1 / 16) then b else b.putScratch p.1 ((bytes.drop (p.1 - x)).take p.2)) b))
where
  pieces16 (a n : Nat) : List (Nat × Nat) :=
    (List.range ((a % 16 + n + 15) / 16)).map (fun i =>
      let st := max a ((a / 16 + i) * 16)
      (st, min (a + n) ((a / 16 + i + 1) * 16) - st))

/-! ## Accumulators -/

/-- R261: elements `lo` to `lo` + n − 1 of a row of an accumulator tile, as a command sees them. -/
def State.accRead (s : State) (b : Block) (t row lo n : Nat) : List Word × State :=
  (List.range n).foldl (fun (acc : List Word × State) i =>
    let y := acc.2.engineSees 2 b.uid (accAddr t row (lo + i)) (toBytes 4 (b.acc t row (lo + i)).toNat)
    (acc.1 ++ [BitVec.ofNat 32 (ofBytes y.1)], y.2)) ([], s)

/-- R228, R229, R260: words written by an engine from an element of an accumulator row on, in one request: the poison of the pairs
that they cover is gone. -/
def State.accWrite (s : State) (p t row lo : Nat) (ws : List Word) : State :=
  match s.blocks[p]? with
  | none => s
  | some b =>
    (s.engineWrote 2 b.uid (accAddr t row lo) (4 * ws.length)).updBlock p (fun b =>
      (ws.zipIdx.foldl (fun b w => b.putAcc t row (lo + w.2) w.1) b).clearPairs (accAddr t row lo) (4 * ws.length))

/-! ## Records -/

/-- R347: a record that an engine uses: present, valid, without a swizzle. -/
def recUsable (recs : SMap Nat) (j : Nat) : Bool :=
  match SMap.get recs j with
  | none => false
  | some r => bufOk r && fld r 4 124 == 0

/-- R347: the extent of a record in bytes. -/
def recBytes (r : Nat) : Nat := bufCount r * bufStride r

/-- R347: a range lies within a record's extent and below 2^56. -/
def recHolds (r o n : Nat) : Bool := o + n ≤ recBytes r && bufBase r + o + n ≤ 2 ^ 56

/-! ## Commands in the window -/

/-- The place of a block in the list by its uid. -/
def State.placeOfUid (s : State) (uid : Nat) : Option Nat := s.blocks.findIdx? (fun b => b.uid == uid)

/-- The command of an event's arguments: place of the block, the block, the command. -/
def State.cmdAt (s : State) (b i : Nat) : Option (Nat × Block × Cmd) :=
  match s.placeOfUid b with
  | none => none
  | some p => (s.blocks[p]?).bind (fun blk => (blk.command i).map (fun c => (p, blk, c)))

/-- A command of a block changed, by its uid. -/
def Block.updCmd (b : Block) (uid : Nat) (f : Cmd → Cmd) : Block :=
  { b with window := b.window.map (fun c => if c.uid = uid then f c else c) }

/-- A command changed wherever its block stands, resident or cast (R366). -/
def State.updCmdOf (s : State) (uid : Nat) (f : Cmd → Cmd) : State :=
  { s with blocks := s.blocks.map (fun b => b.updCmd uid f), casts := s.casts.map (fun x => { x with blk := x.blk.updCmd uid f }) }

/-- R261: the state as a command that takes a step sees it. -/
def State.opened (s : State) (c : Cmd) : State := { s with view := some c.view, trace := [] }

/-- R301: the end of a step of a command that began at `s0`: what it has written is noted for it, and register slots that it has written go on
showing undefined values. -/
def State.closed (s s0 : State) (c : Cmd) : State :=
  let (s', late) := s.hideSlots s0 c.late
  { (if s.trace.isEmpty then s' else s'.updCmdOf c.uid (fun d => { d with wrote := d.wrote ++ s.trace, late := late })) with view := none, trace := [] }

/-- R261, R301: the step of a command, from its view point on. -/
def State.seeing (s : State) (c : Cmd) (f : State → State) : State := (f (s.opened c)).closed s c

/-- A command of the block at a place changed; this is progress (R375). -/
def State.updCmd (s : State) (p uid : Nat) (f : Cmd → Cmd) : State :=
  s.updBlock p (fun b => { b.updCmd uid f with progress := s.clock })

/-- An access of a command (R235, R347). -/
def Cmd.req (c : Cmd) (b : Block) (w : Bool) : Req := if w then b.storeReq c.level else b.loadReq c.level

/-- What a command reports in DETAIL of what it has done, where its status does not report something else there (R353, R358, R365): a COPY
its bytes, those of the piece at which it failed included. -/
def State.doneSoFar (s : State) (c : Cmd) (b : Block) : Nat :=
  match c.op5 with
  | 5 => if bit (pbw c.pb 0) 31 then (b.tile (8 + fld (pbw c.pb 0) 4 27)).size else 0
  | 0x10 => c.cursor + (s.trace.map (fun r => r.2.2.2)).foldl (· + ·) 0
  | 0x19 => c.cursor
  | _ => 0

/-- Undefined words in rows and columns of an accumulator tile. -/
def Block.undefRows (b : Block) (seed t lo hi : Nat) : Block :=
  { b with rows := (List.range (hi - lo)).foldl (fun m i => SMap.set m (64 * t + (lo + i)) ({ seed := some (seed + i), cells := [] } : Row)) b.rows }

/-- Undefined words in a row of an accumulator tile from column `col` on. -/
def Block.undefTail (b : Block) (seed t row col : Nat) : Block :=
  let r := SMap.getD b.rows (64 * t + row) {}
  { b with rows := SMap.set b.rows (64 * t + row) ({ seed := some seed, cells := r.cells.filter (fun x => x.1 < col) } : Row) }

/-- Undefined bytes in a scratchpad, poison and live granules aside. -/
def Block.undefScratch (b : Block) (seed x n : Nat) : Block := b.putScratch x ((List.range n).map (Config.freeByte seed))

/-- R300, R351: what a command that fails at its work leaves in the tiles it was filling. -/
def State.undefTiles (s : State) (p : Nat) (c : Cmd) : State :=
  match c.op5 with
  | 1 | 2 =>
    let m := fld (pbw c.pb 0) 6 9 + 1
    { (tileRefs c.op5 c.pb).foldl (fun s r => if r.st then s else
        { s.updBlock p (fun b => b.undefRows s.fresh r.n 0 m) with fresh := s.fresh + 64 }) s with fresh := s.fresh + 512 }
  | 3 | 5 | 0x10 =>
    match (tileRefs c.op5 c.pb).head? with
    | none => s
    | some r =>
      if r.st then
        let off := c.cursor
        { s.updBlock p (fun b =>
            let e := b.tile r.entry
            if c.op5 = 5 && fld (pbw c.pb 0) 2 25 != 1 then b else b.undefScratch s.fresh (16 * e.base + off) (e.size - off)) with fresh := s.fresh + 1 }
      else
        let rows := if c.op5 = 3 then 64 else fld (pbw c.pb 0) 6 13 + 1
        let row := c.cursor / 1024
        let half := c.cursor % 1024 / 4
        { s.updBlock p (fun b =>
            let b := b.undefRows s.fresh r.n (if half = 0 then row else row + 1) rows
            if half = 0 then b else b.undefTail (s.fresh + 64) r.n row half) with fresh := s.fresh + 65 }
  | _ => s

/-- A command's work is over: its status, DETAIL and AUX stand, and a failure leaves its tiles as R300 says. Where the status has no
DETAIL of its own (R346), the command's is reported (R353, R358, R365). -/
def State.finish (s : State) (p : Nat) (c : Cmd) (code detail aux : Nat) : State :=
  let own := ((s.blocks[p]?).map (s.doneSoFar c)).getD 0
  let detail := if code = 2 ∨ code = 4 ∨ code = 6 ∨ code = 10 then (if detail = 0 then own else detail) else detail
  let s := if code ≠ 0 ∧ c.running then s.undefTiles p c else s
  s.updCmd p c.uid (fun c => { c with fin := some code, detail := detail, aux := aux })

/-- The end of a piece of work: its state; or the command's failure; or, waiting, nothing. -/
def State.endPiece {α : Type} (s : State) (p : Nat) (c : Cmd) (x : Eng α) (f : α → State → State) : State :=
  match x with
  | .ok a s' => f a s'
  | .fail code d aux s' => s'.finish p c code d aux
  | .wait => s

/-- A command's cursor moved on; at `total` the work is over with a DETAIL. A write that met a live granule ends the command at once
(R217, R300). -/
def State.advance (s : State) (p : Nat) (c : Cmd) (n total : Nat) (clob : Option Nat) (detail : Nat) : State :=
  let s := s.updCmd p c.uid (fun c => { c with cursor := c.cursor + n })
  match clob with
  | some g => s.finish p { c with cursor := c.cursor + n } 7 g 0
  | none => if c.cursor + n < total then s else s.finish p { c with cursor := c.cursor + n } 0 detail 0

/-! ## Starting -/

/-- R299 rule 1: its predecessors have retired. -/
def Block.predsDone (b : Block) (c : Cmd) : Bool :=
  c.preds.all (fun p => match p with | none => true | some x => !b.window.any (fun d => d.uid == x.1))

/-- R299 rule 3: an earlier command shares a tile or slot with this one and one of the two writes it. -/
def conflicts (c d : Cmd) : Bool :=
  (tileRefs c.op5 c.pb).any (fun x => (tileRefs d.op5 d.pb).any (fun y => x.st == y.st && x.n == y.n && (x.writes || y.writes))) ||
  match slotRefs c.op5 c.pb, slotRefs d.op5 d.pb with
  | some x, some y => x.2.1 == y.2.1 && x.1.any (fun m => y.1.contains m) && (x.2.2 || y.2.2)
  | _, _ => false

/-- R299, R213, R214: the named tiles are in the states that the command needs; a tile no longer declared holds nothing back. -/
def Block.tilesReady (b : Block) (c : Cmd) : Bool :=
  (tileRefs c.op5 c.pb).all (fun r =>
    let e := b.tile r.entry
    !e.decl || c.declared || (if r.writes then e.state == 0 || e.state == 2 else e.state == 2))

/-- R308: the copies of a resident slot are not filling. -/
def Block.slotsSettled (b : Block) (c : Cmd) : Bool :=
  match slotRefs c.op5 c.pb with
  | some (ms, sl, false) => ms.all (fun m => match SMap.get b.slots (4 * m + sl) with | some x => x.state != 1 | none => true)
  | _ => true

/-- R299: every start condition holds. -/
def Block.startOk (b : Block) (c : Cmd) : Bool :=
  let w := pbw c.pb 7
  b.predsDone c && b.tilesReady c && b.slotsSettled c &&
  !b.window.any (fun d => d.uid < c.uid && conflicts c d) &&
  (!bit w 31 || c.fired || convGen (b.cregs.getD (fld w 4 27) 0) != fld w 12 15)

/-- R213: the tile states that a start changes. -/
def Block.markTiles (b : Block) (c : Cmd) : Block :=
  { b with ttab := (tileRefs c.op5 c.pb).foldl (fun tt r =>
      if c.op5 = 5 && fld (pbw c.pb 0) 2 25 != 1 then tt
      else upd tt r.entry (fun e => if !e.decl then e
        else if c.op5 = 4 then { e with state := 3, cmd := c.id } else if r.writes then { e with state := 1, cmd := c.id } else e)) b.ttab }

/-- R345: the control word is well-formed and its status record lies within SCRATCH. -/
def Block.ctlOk (b : Block) (c : Cmd) : Bool :=
  let w := pbw c.pb 7
  (bit w 31 || fld w 16 15 == 0) && (if bit w 14 then 16 * fld w 14 0 + 16 ≤ b.scratchSize else fld w 14 0 == 0)

/-! ## Retiring -/

/-- R317 step 4: the accumulator memory of a helper is cleared, but for tiles of blocks that are resident there. -/
def State.clearAcc (s : State) (core : Nat) : State :=
  let acc (a : Nat) : Bool := fld a 11 21 == core && chipStruct a == 2
  { s with
    sram := SMap.drop s.sram acc
    sramPoison := SMap.drop s.sramPoison acc
    remains := s.remains.map (fun b => if b.core = core then { b with rows := [], accPoison := [] } else b)
    cleared := if s.cleared.contains (2048 + core) then s.cleared else (2048 + core) :: s.cleared }

/-- R302: one more command of a kind has retired. -/
def Block.countRetired (b : Block) (kind seq : Nat) : Block :=
  let g := seq :: b.gaps.getD kind []
  let rec run : Nat → Nat → List Nat → Nat × List Nat
    | 0, n, g => (n, g)
    | k + 1, n, g => if g.contains ((n + 1) % 2 ^ 32) then run k ((n + 1) % 2 ^ 32) (g.filter (· != (n + 1) % 2 ^ 32)) else (n, g)
  let r := run (g.length + 1) (b.csn.getD kind 0) g
  { b with csn := upd b.csn kind (fun _ => r.1), gaps := upd b.gaps kind (fun _ => r.2) }

/-- R213, R354: what retirement does to the tiles of a command that has started or declared its tile. -/
def Block.settleTiles (b : Block) (c : Cmd) : Block :=
  if !(c.running || c.declared) then b
  else (tileRefs c.op5 c.pb).foldl (fun b r =>
    let e := b.tile r.entry
    if !e.decl || e.cmd != c.id then b
    else if c.op5 = 4 then
      let b := if r.st then b else { b with
        rows := SMap.drop b.rows (fun k => k / 64 == r.n), accPoison := SMap.drop b.accPoison (fun k => k / 8192 == r.n) }
      { b with ttab := upd b.ttab r.entry (fun e => { e with state := 0, cmd := c.id }) }
    else if e.state = 1 then { b with ttab := upd b.ttab r.entry (fun e => { e with state := 2, cmd := c.id }) }
    else b) b

/-- R308, R350: what retirement does to the B slots of a command: a streamed B leaves its slot empty in every macro, and a BLOAD that
failed leaves every slot that it named empty. -/
def Block.settleSlots (b : Block) (c : Cmd) (code : Nat) : Block :=
  match slotRefs c.op5 c.pb with
  | some (ms, sl, true) =>
    if c.op5 = 0 && code < 2 then b else { b with slots := SMap.drop b.slots (fun k => ms.any (fun m => k == 4 * m + sl)) }
  | _ => b

/-- R301: the place of the block that holds a byte of a space (0 the block's scratchpad, 2 its neighbourhood's window). -/
def State.spotOf (s : State) (p space : Nat) (x : Nat) : Option (Nat × Nat) :=
  if space = 0 then some (p, x) else (s.nbhdBlock p (x / 262144)).map (fun y => (y, x % 262144))

/-- R301: a byte to which a thread stored, named as in `Cmd.spoilt`, is undefined where the command, which retires, has written it. -/
def State.settleByte (s : State) (p : Nat) (q : Req) (c : Cmd) (space x : Nat) : State :=
  let (bytes, s') := s.freeBytes 1
  if space = 1 then
    if (s.gpaOf q x).any (inWrote c.wrote 0 q.owner) then (s'.writeVa q true x bytes).1.1 else s
  else match s.spotOf p space x with
    | some (y, o) => if (s.blocks[y]?).any (fun b => inWrote c.wrote 1 b.uid o) then s'.updBlock y (fun b => b.putScratch o bytes) else s
    | none => s

/-- R214: tiles of a retiring command that threads stored into hold undefined bytes; R301 for what else it wrote. -/
def State.settleSpoilt (s : State) (p : Nat) (c : Cmd) : State :=
  match s.blocks[p]? with
  | none => s
  | some b =>
    let q := c.req b true
    let s := (tileRefs c.op5 c.pb).foldl (fun s r =>
      let e := b.tile r.entry
      if r.st && e.spoilt && e.cmd == c.id then
        { s.updBlock p (fun b => { b.undefScratch s.fresh (16 * e.base) e.size with
            ttab := upd b.ttab r.entry (fun e => { e with spoilt := false }) }) with fresh := s.fresh + 1 }
      else s) s
    c.spoilt.foldl (fun s r => (List.range r.2.2).foldl (fun s i => s.settleByte p q c r.1 (r.2.1 + i)) s) s

/-- R346: the status record of a command. -/
def statusRecord (c : Cmd) (code : Nat) : List Byte :=
  toBytes 4 (c.aux % 256 * 256 + code + c.id * 65536 + kindOf c.op5 * 2 ^ 24) ++ toBytes 4 c.seq ++ toBytes 8 c.detail

/-- R301: what a retiring command leaves for the waits that are still to cover it. -/
def Cmd.toPast (c : Cmd) : Past :=
  { uid := c.uid, kind := kindOf c.op5, seq := c.seq, wrote := c.wrote, late := c.late, tiles := c.tiles }

/-- R300, R302, R303, R346: a command whose work is over retires; commands that name it as predecessor are cancelled if it failed. -/
def State.retireCmd (s : State) (p : Nat) (c : Cmd) : State :=
  match s.blocks[p]?, c.fin with
  | some b, some code0 =>
    let w := pbw c.pb 7
    let soff := 16 * fld w 14 0
    let write := bit w 14 && soff + 16 ≤ b.scratchSize
    let clob := write && b.live.contains (soff / 16)
    let code := if clob && code0 == 0 then 7 else code0
    let c := if clob && code0 == 0 then { c with detail := soff } else c
    let s := if clob && code0 == 0 && c.running then s.undefTiles p c else s
    let c := if write && !clob then { c with wrote := c.wrote ++ [(1, b.uid, soff, 16)] } else c
    let s := if code = 6 then s.count b.owner (fun k => { k with uncorrectable := satAdd k.uncorrectable 1 }) else s
    let s := if write && !clob then (s.engineWrote 1 b.uid soff 16).updBlock p (fun b => b.putScratch soff (statusRecord c code)) else s
    let s := s.settleSpoilt p c
    let s := match c.helper with | some core => s.clearAcc core | none => s
    let s := if c.op5 = 4 && !bit (pbw c.pb 0) 23 && c.running then s.engineWrote 2 b.uid (accAddr (fld (pbw c.pb 0) 3 19) 0 0) 65536 else s
    let s := s.updBlock p (fun b => (((b.settleTiles c).settleSlots c code).countRetired (kindOf c.op5) c.seq))
    s.updBlock p (fun b => { b with
      window := (b.window.filter (fun d => d.uid != c.uid)).map (fun d =>
        if code != 0 && d.fin.isNone && d.preds.any (fun x => (x.map (·.1)) == some c.uid) then { d with fin := some 1, detail := 0, aux := 0 } else d)
      past := b.past ++ [c.toPast]
      progress := s.clock })
  | _, _ => s

end Sys2Proof.Machine
end

