-- ==== Sys2Proof/Machine/Matrix.lean ====
section
/-! DEFINITION. The matrix engine (R306 to R316, R348 to R354): B slots, exact arithmetic, tile commands, each a piece at a time. -/

namespace Sys2Proof.Machine

/-! ## Formats and layouts -/

/-- R348: W of a format; 0 for a reserved one. -/
def fmtWidth (f : Nat) : Nat := match f with | 0 => 4 | 1 => 8 | 2 => 8 | 3 => 8 | 4 => 16 | 5 => 16 | _ => 0

/-- R348: the format goes with the scale bit. -/
def fmtOk (f : Nat) (sc : Bool) : Bool := match f with | 0 => sc | 1 => true | 2 => true | 3 => !sc | 4 => !sc | 5 => !sc | _ => false

/-- R310: the sparsity factor. -/
def sparFactor (p : Nat) : Nat := match p with | 0 => 1 | 1 => 2 | _ => 4

/-- R307: a slot number within its width class. -/
def slotOk (w sl : Nat) : Bool := match w with | 4 => sl < 4 | 8 => sl < 2 | 16 => sl == 0 | _ => false

/-- R307: the positions of a slot. -/
def slotPositions (w sl : Nat) : List Nat := match w with | 4 => [sl] | 8 => [2 * sl, 2 * sl + 1] | _ => [0, 1, 2, 3]

/-- R67, R68: the number of an element's bits. -/
def elemNum (f x : Nat) : Num :=
  match f with
  | 0 => e2m1.decode x
  | 1 => e4m3.decode x
  | 2 => e5m2.decode x
  | 3 => .fin (128 ≤ x) (if 128 ≤ x then 256 - x else x) 0
  | 4 => bf16.decode x
  | _ => fp16.decode x

/-- R67: element i of packed bytes, W bits each. -/
def packedElem (w : Nat) (bytes : List Byte) (i : Nat) : Nat :=
  match w with
  | 4 => fld ((bytes.getD (i / 2) 0).toNat) 4 (4 * (i % 2))
  | 8 => (bytes.getD i 0).toNat
  | _ => (bytes.getD (2 * i) 0).toNat + 256 * (bytes.getD (2 * i + 1) 0).toNat

/-- R349: the logical element (r, n) of one macro's B tile. -/
def BSlot.elem (x : BSlot) (r n : Nat) : Nat :=
  let w := fmtWidth x.fmt
  let stored (k : Nat) : Nat := packedElem w (x.vals.drop (32 * w * k)) n
  if x.spar = 0 then stored r
  else
    let m := (x.masks.getD (256 * (r / 8) + n) 0).toNat
    if bit m (r % 8) then stored (8 / sparFactor x.spar * (r / 8) + popcount (r % 8) m) else 0

/-- R349: the scale of logical row r of column n. -/
def BSlot.scale (x : BSlot) (r n : Nat) : Nat := if x.sc then (x.scales.getD (256 * (r / 32) + n) 0).toNat else 127

/-- R349, R310: no mask selects too many elements, and unused stored positions hold +0. -/
def BSlot.masksOk (x : BSlot) : Bool :=
  x.spar == 0 ||
  (let per := 8 / sparFactor x.spar
   (List.range (16 * sparFactor x.spar)).all (fun h => (List.range 256).all (fun n =>
     let k := popcount 8 (x.masks.getD (256 * h + n) 0).toNat
     k ≤ per && (List.range (per - k)).all (fun i =>
       packedElem (fmtWidth x.fmt) (x.vals.drop (32 * fmtWidth x.fmt * (per * h + k + i))) n == 0))))

/-! ## Exact arithmetic -/

/-- R312: the exponent of ±m × 2^e scaled by S: the floor of its binary logarithm. -/
def numExp (sc : Nat) : Num → Option Int
  | .fin _ m e => if m = 0 then none else some ((m.log2 : Int) + e + sc - 127)
  | _ => none

/-- R312: E of a group; none where every element is zero. -/
def groupExp (sc : Nat) (xs : List Num) : Option Int :=
  (xs.filterMap (numExp sc)).foldl (fun a e => some (match a with | none => e | some b => max b e)) none

/-- R312: q of one element. -/
def alignNum (w sc : Nat) (top : Int) : Num → Int
  | .fin neg m e =>
    let k := e + sc - 127 + w - 1 - top
    let mag : Nat := if 0 ≤ k then m * 2 ^ k.toNat else m / 2 ^ (-k).toNat
    if neg then -(mag : Int) else mag
  | _ => 0

/-- R314: an operand that makes the result a NaN. -/
def specialGroup (sc : Nat) (xs : List Num) : Bool := sc == 255 || xs.any (fun x => match x with | .fin _ _ _ => false | _ => true)

/-- R312, R313: G and e of one group; none where it contributes nothing. -/
def groupSum (w sa sb : Nat) (xs ys : List Num) : Option (Int × Int) :=
  match groupExp sa xs, groupExp sb ys with
  | some ea, some eb =>
    let g := ((xs.zip ys).map (fun p => alignNum w sa ea p.1 * alignNum w sb eb p.2)).foldl (· + ·) 0
    if g = 0 then none else some (g, ea + eb - 2 * ((w : Int) - 1))
  | _, _ => none

/-- R313: T and F − 40 of a pass, from its groups. -/
def passSum (gs : List (Int × Int)) : Int × Int :=
  match gs with
  | [] => (0, 0)
  | g :: rest =>
    let top := rest.foldl (fun a x => max a x.2) g.2
    let term (x : Int × Int) : Int :=
      let k := x.2 - top + 40
      let mag : Nat := if 0 ≤ k then x.1.natAbs * 2 ^ k.toNat else x.1.natAbs / 2 ^ (-k).toNat
      if x.1 < 0 then -(mag : Int) else mag
    ((gs.map term).foldl (· + ·) 0, top - 40)

/-- R314: an FP32 accumulator after a pass of result r × 2^e. -/
def accFloat (c : Word) (special : Bool) (r e : Int) : Word :=
  match fp32.decode c.toNat with
  | .nan => 0x7FC00000
  | .inf _ => if special then 0x7FC00000 else c
  | .fin neg m g =>
    if special then 0x7FC00000
    else match Num.add false (.fin neg m g) (.fin (r < 0) r.natAbs e) with
      | .fin n m e => if m = 0 then 0 else BitVec.ofNat 32 (fp32.round 0 n m e)
      | _ => 0x7FC00000

/-- R312 to R314: one pass: 128 elements of A with their four scales, and of B. -/
def accPass (int : Bool) (w : Nat) (c : Word) (as bs : List Num) (sa sb : Nat → Nat) : Word :=
  if int then
    let val (x : Num) : Int := match x with | .fin neg m _ => if neg then -(m : Int) else m | _ => 0
    c + BitVec.ofInt 32 (((as.zip bs).map (fun p => val p.1 * val p.2)).foldl (· + ·) 0)
  else
    let grp (l : List Num) (g : Nat) : List Num := (l.drop (32 * g)).take 32
    let special := (List.range 4).any (fun g => specialGroup (sa g) (grp as g) || specialGroup (sb g) (grp bs g))
    let r := passSum ((List.range 4).filterMap (fun g => groupSum w (sa g) (sb g) (grp as g) (grp bs g)))
    accFloat c special r.1 r.2

/-- R309: one element of a result row: column n of the slots that supply it, its passes in ascending K. -/
def accElem (afmt : Nat) (asc : Bool) (av asb : List Byte) (slots : List BSlot) (c : Word) (n : Nat) : Word :=
  let w := fmtWidth afmt
  (slots.zipIdx.flatMap (fun x => (List.range (sparFactor x.1.spar)).map (fun p => (x.1, x.2, p)))).foldl (fun c x =>
    let (sl, m, p) := x
    let local0 := 128 * p
    let k0 := 128 * sparFactor sl.spar * m + local0
    accPass (afmt == 3) w c
      ((List.range 128).map (fun j => elemNum afmt (packedElem w av (k0 + j))))
      ((List.range 128).map (fun j => elemNum sl.fmt (sl.elem (local0 + j) n)))
      (fun g => if asc then (asb.getD (k0 / 32 + g) 0).toNat else 127)
      (fun g => sl.scale (local0 + 32 * g) n)) c

/-! ## B slots -/

/-- The B slot of a macro. -/
def Block.slot (b : Block) (m sl : Nat) : Option BSlot := SMap.get b.slots (4 * m + sl)

/-- R308: a slot of a macro begins to fill: others that share a position are empty. -/
def Block.beginSlot (b : Block) (m sl : Nat) (x : BSlot) : Block :=
  let pos := slotPositions (fmtWidth x.fmt) sl
  { b with slots := SMap.set (b.slots.filter (fun e =>
      e.1 / 4 != m || (slotPositions (fmtWidth e.2.fmt) (e.1 % 4)).all (fun p => !pos.contains p))) (4 * m + sl) x }

/-- Slots of the named macros made empty. -/
def Block.emptySlots (b : Block) (ms : List Nat) (sl : Nat) : Block := { b with slots := SMap.drop b.slots (fun k => ms.any (fun m => k == 4 * m + sl)) }

/-- R349: the sections of B for n macros: offset, bytes per macro, for values, scales and masks. -/
def bSections (fmt : Nat) (sc : Bool) (spar o1 o2 o3 : Nat) : List (Nat × Nat) :=
  [(o1, 4096 * fmtWidth fmt)] ++ (if sc then [(o2, 1024 * sparFactor spar)] else []) ++ (if spar = 0 then [] else [(o3, 4096 * sparFactor spar)])

/-- A source or destination of engine work: a record, or a scratchpad region from a base. -/
inductive Area where
  | record (r : Nat)
  | scratch (place base : Nat)
deriving DecidableEq, Repr

/-- Bytes of an area at an offset. -/
def State.areaRead (s : State) (q : Req) (a : Area) (o n : Nat) : Eng (List Byte) :=
  match a with
  | .record r => s.engRead q 0 (bufBase r + o) n
  | .scratch p b => s.spRead p (b + o) n

/-- Bytes written to an area at an offset. -/
def State.areaWrite (s : State) (q : Req) (a : Area) (o : Nat) (bytes : List Byte) : Eng (Option Nat) :=
  match a with
  | .record r => s.engWrite q 0 (bufBase r + o) bytes
  | .scratch p b => s.spWrite p (b + o) bytes

/-- R347: DENIED, then BOUND, for a range of an area; `lim` is the size of a scratchpad area. -/
def areaFault (a : Area) (write : Bool) (lim o n : Nat) : Option (Nat × Nat) :=
  match a with
  | .record r => if !bit r (if write then 62 else 63) then some (4, 0) else if recHolds r o n then none else some (3, o)
  | .scratch _ _ => if o + n ≤ lim then none else some (3, o)

/-- The area that a source or destination field names, if it is usable: scratchpad at base 0, or record j. -/
def Cmd.area (c : Cmd) (p : Nat) (scratch : Bool) (j : Nat) : Option Area :=
  if scratch then (if j = 0 then some (.scratch p 0) else none)
  else if recUsable c.recs j then (SMap.get c.recs j).map Area.record else none

/-- Every offset is a multiple of 16. -/
def aligned16 (xs : List Nat) : Bool := xs.all (fun x => x % 16 == 0)

/-- Words `lo` to 6 of the parameter block are zero. -/
def restZero (pb : List Word) (lo : Nat) : Bool := (List.range (7 - lo)).all (fun i => pbw pb (lo + i) == 0)

/-- The first fault of a list of range checks. -/
def firstFault (l : List (Option (Nat × Nat))) : Option (Nat × Nat) := l.findSome? id

/-- Starting that ends at once with a status, or goes on. -/
def State.startChecked (s : State) (p : Nat) (c : Cmd) (params : Bool) (fault : Option (Nat × Nat)) (go : State → State) : State :=
  if !params then s.finish p c 2 0 0
  else match fault with
    | some (code, d) => s.finish p c code d 0
    | none => go s

/-- Starting that may have to wait (R250): none where the command has not started. -/
def State.startTry (s : State) (p : Nat) (c : Cmd) (params : Bool) (fault : Option (Nat × Nat)) (go : State → Option State) : Option State :=
  if !params then some (s.finish p c 2 0 0)
  else match fault with
    | some (code, d) => some (s.finish p c code d 0)
    | none => go s

/-- The end of a piece of starting: as `endPiece`, but none where it waits. -/
def State.endStart {α : Type} (_s : State) (p : Nat) (c : Cmd) (x : Eng α) (f : α → State → Option State) : Option State :=
  match x with
  | .ok a s' => f a s'
  | .fail code d aux s' => some (s'.finish p c code d aux)
  | .wait => none

/-! ## BLOAD -/

/-- R350: BLOAD at its start. -/
def State.startBload (s : State) (p : Nat) (b : Block) (c : Cmd) : State :=
  let p0 := pbw c.pb 0
  let fmt := fld p0 3 22
  let sc := bit p0 25
  let spar := fld p0 2 20
  let sl := fld p0 2 18
  let ms := bitsOf 4 (fld p0 4 14)
  let area := c.area p (bit p0 31) (fld p0 5 26)
  let secs := bSections fmt sc spar (pbw c.pb 1) (pbw c.pb 2) (pbw c.pb 3)
  let params := fmtOk fmt sc && spar < 3 && slotOk (fmtWidth fmt) sl && !ms.isEmpty && fld p0 14 0 == 0 && restZero c.pb 4 &&
    (sc || pbw c.pb 2 == 0) && (spar != 0 || pbw c.pb 3 == 0) && aligned16 [pbw c.pb 1, pbw c.pb 2, pbw c.pb 3] && area.isSome
  let a := area.getD (.scratch p 0)
  let fault := firstFault (secs.map (fun x => areaFault a false b.scratchSize x.1 (ms.length * x.2)))
  let clear (s : State) : State := s.updBlock p (fun b => b.emptySlots ms sl)
  let s' := s.startChecked p c params fault (fun s => s.updBlock p (fun b => ms.foldl (fun b m => b.beginSlot m sl
    { state := 1, fmt := fmt, sc := sc, spar := spar, src := c.pb.take 4, srcRec := SMap.getD c.recs (fld p0 5 26) 0, vals := [], scales := []
      masks := [] }) b))
  if !params || fault.isSome then clear s' else s'

/-- R350: the next 512 bytes of a BLOAD; after the last, the slots are ready. -/
def State.moveBload (s : State) (p : Nat) (b : Block) (c : Cmd) : State :=
  let p0 := pbw c.pb 0
  let fmt := fld p0 3 22
  let sc := bit p0 25
  let spar := fld p0 2 20
  let sl := fld p0 2 18
  let ms := bitsOf 4 (fld p0 4 14)
  let n := ms.length
  let a := (c.area p (bit p0 31) (fld p0 5 26)).getD (.scratch p 0)
  let w := 4096 * fmtWidth fmt
  let g := if sc then 1024 * sparFactor spar else 0
  let k := if spar = 0 then 0 else 4096 * sparFactor spar
  let total := n * (w + g + k)
  let o := c.cursor
  let (src, j, sec) := if o < n * w then (pbw c.pb 1 + o, o / w, 0)
    else if o < n * (w + g) then (pbw c.pb 2 + (o - n * w), (o - n * w) / max g 1, 1)
    else (pbw c.pb 3 + (o - n * (w + g)), (o - n * (w + g)) / max k 1, 2)
  let m := ms.getD j 0
  match s.areaRead (c.req b false) a src 512 with
  | .wait => s
  | .fail code d aux s' => (s'.updBlock p (fun b => b.emptySlots ms sl)).finish p c code d aux
  | .ok bytes s' =>
    let s' := s'.updBlock p (fun b => match b.slot m sl with
      | none => b
      | some x =>
        let x := if sec = 0 then { x with vals := x.vals ++ bytes } else if sec = 1 then { x with scales := x.scales ++ bytes }
          else { x with masks := x.masks ++ bytes }
        { b with slots := SMap.set b.slots (4 * m + sl) x })
    if o + 512 < total then s'.advance p c 512 total none 0
    else
      let slots := ms.filterMap (fun m => (s'.blocks[p]?).bind (fun b => b.slot m sl))
      if slots.all BSlot.masksOk then
        (s'.updBlock p (fun b => { b with slots := b.slots.map (fun e =>
          if ms.any (fun m => e.1 == 4 * m + sl) then (e.1, { e.2 with state := 2 }) else e) })).advance p c 512 total none 0
      else (s'.updBlock p (fun b => b.emptySlots ms sl)).finish p c 2 0 0

/-! ## MMA and MMAS -/

/-- R351: the fields of an MMA. -/
structure MmaParams where
  asp : Bool
  aref : Nat
  asc : Bool
  afmt : Nat
  bstr : Bool
  slot : Nat
  tile : Nat
  n1024 : Bool
  rows : Nat
deriving DecidableEq, Repr

/-- R351: PB0 of an MMA. -/
def mmaParams (pb : List Word) : MmaParams :=
  let p0 := pbw pb 0
  { asp := bit p0 31, aref := fld p0 5 26, asc := bit p0 25, afmt := fld p0 3 22, bstr := bit p0 21, slot := fld p0 2 19, tile := fld p0 3 16
    n1024 := bit p0 15, rows := fld p0 6 9 + 1 }

/-- R351: the A area and its limit. -/
def Block.mmaA (b : Block) (p : Nat) (c : Cmd) : Option (Area × Nat) :=
  let m := mmaParams c.pb
  if m.asp then
    let e := b.tile (8 + m.aref % 16)
    if m.aref < 16 ∧ e.decl then some (.scratch p (16 * e.base), e.size) else none
  else if recUsable c.recs m.aref then (SMap.get c.recs m.aref).map (fun r => (Area.record r, 0)) else none

/-- R349: bytes of one row of A and of its scales, for a sparsity factor. -/
def mmaRow (m : MmaParams) (sf : Nat) : Nat × Nat :=
  let k := if m.n1024 then 128 * sf else 512 * sf
  (k * fmtWidth m.afmt / 8, if m.asc then k / 32 else 0)

/-- R351: MMA and MMAS at their start. -/
def State.startMma (s : State) (p : Nat) (b : Block) (c : Cmd) : State :=
  let m := mmaParams c.pb
  let p3 := pbw c.pb 3
  let bfmt := fld p3 3 23
  let bsc := bit p3 26
  let bspar := fld p3 2 21
  let slots := (List.range 4).filterMap (fun i => b.slot i m.slot)
  let fmtB := if m.bstr then bfmt else ((slots.head?).map (·.fmt)).getD 0
  let sparB := if m.bstr then bspar else ((slots.head?).map (·.spar)).getD 0
  let a := b.mmaA p c
  let shape := fld (pbw c.pb 0) 9 0 == 0 && (!m.asp || m.aref < 16) && fmtOk m.afmt m.asc && (m.asc || pbw c.pb 2 == 0) &&
    aligned16 [pbw c.pb 1, pbw c.pb 2, pbw c.pb 4, pbw c.pb 5, pbw c.pb 6] && a.isSome &&
    if m.bstr then fld p3 21 0 == 0 && fmtOk bfmt bsc && bspar < 3 && slotOk (fmtWidth bfmt) m.slot && (bsc || pbw c.pb 5 == 0) &&
      (bspar != 0 || pbw c.pb 6 == 0) && recUsable c.recs (fld p3 5 27)
    else restZero c.pb 3
  let noslot := !m.bstr && (slots.length != 4 || slots.any (fun x => x.state != 2 || x.fmt != fmtB || x.spar != sparB))
  let kinds := (sparB != 0) == (c.op5 == 2) && fmtWidth m.afmt == fmtWidth fmtB && (m.afmt == 3) == (fmtB == 3)
  let row := mmaRow m (sparFactor sparB)
  let (ar, lim) := a.getD (.scratch p 0, 0)
  let brec := SMap.getD c.recs (fld p3 5 27) 0
  let fault := if !shape then none
    else if noslot then some (9, 0)
    else if !kinds then some (2, 0)
    else firstFault ([areaFault ar false lim (pbw c.pb 1) (m.rows * row.1), areaFault ar false lim (pbw c.pb 2) (m.rows * row.2)] ++
      if m.bstr then (bSections bfmt bsc bspar (pbw c.pb 4) (pbw c.pb 5) (pbw c.pb 6)).map (fun x =>
        areaFault (.record brec) false 0 x.1 (4 * x.2)) else [])
  let s := s.startChecked p c shape fault (fun s =>
    if !m.bstr then s
    else s.updBlock p (fun b => [0, 1, 2, 3].foldl (fun b i => b.beginSlot i m.slot
      { state := 1, fmt := bfmt, sc := bsc, spar := bspar, src := [], srcRec := 0, vals := [], scales := [], masks := [] }) b))
  if m.bstr && (!shape || fault.isSome) then s.updBlock p (fun b => b.emptySlots [0, 1, 2, 3] m.slot) else s

/-- R308: a streamed B staged in its slot in all four macros. -/
def State.stageB (s : State) (p : Nat) (b : Block) (c : Cmd) : Eng (List BSlot) :=
  let m := mmaParams c.pb
  let p3 := pbw c.pb 3
  let a := Area.record (SMap.getD c.recs (fld p3 5 27) 0)
  let spar := fld p3 2 21
  let w := 4096 * fmtWidth (fld p3 3 23)
  let g := if bit p3 26 then 1024 * sparFactor spar else 0
  let k := if spar = 0 then 0 else 4096 * sparFactor spar
  [0, 1, 2, 3].foldl (fun acc i => acc.andThen (fun l s =>
    (s.areaRead (c.req b false) a (pbw c.pb 4 + i * w) w).andThen (fun vals s =>
    (s.areaRead (c.req b false) a (pbw c.pb 5 + i * g) g).andThen (fun scales s =>
    (s.areaRead (c.req b false) a (pbw c.pb 6 + i * k) k).andThen (fun masks s =>
      let x : BSlot := { state := 2, fmt := fld p3 3 23, sc := bit p3 26, spar := spar, src := [], srcRec := 0, vals := vals, scales := scales
                         masks := masks }
      if x.masksOk then .ok (l ++ [x]) (s.updBlock p (fun b => { b with slots := SMap.set b.slots (4 * i + m.slot) x }))
      else .fail 2 0 0 s))))) (.ok [] s)

/-- R309: one row of the product added into the result tiles. -/
def State.mmaRowInto (s : State) (p : Nat) (m : MmaParams) (slots : List BSlot) (i : Nat) (av asb : List Byte) : State :=
  let one (s : State) (t : Nat) (sl : List BSlot) : State :=
    match s.blocks[p]? with
    | none => s
    | some b =>
      let (old, s) := s.accRead b t i 0 256
      s.accWrite p t i 0 (old.zipIdx.map (fun x => accElem m.afmt m.asc av asb sl x.1 x.2))
  if m.n1024 then slots.zipIdx.foldl (fun s x => one s (m.tile + x.2) [x.1]) s else one s m.tile slots

/-- R316: the next row of an MMA or MMAS, its B staged first where it is streamed. -/
def State.moveMma (s : State) (p : Nat) (b : Block) (c : Cmd) : State :=
  let m := mmaParams c.pb
  let drop (s : State) : State := if m.bstr then s.updBlock p (fun b => b.emptySlots [0, 1, 2, 3] m.slot) else s
  let have4 := (List.range 4).filterMap (fun i => b.slot i m.slot)
  let staged : Eng (List BSlot) :=
    if m.bstr && have4.any (fun x => x.state == 1) then s.stageB p b c
    else if have4.length = 4 then .ok have4 s else .fail 9 0 0 s
  let bad := (List.range 4).filter (fun i => match b.slot i m.slot with | some x => x.bad | none => false)
  if !bad.isEmpty then drop ((s.updBlock p (fun b => b.emptySlots bad m.slot)).finish p c 6 0 0)
  else
    match staged with
    | .wait => s
    | .fail code d aux s' => drop (s'.finish p c code d aux)
    | .ok slots s' =>
      let row := mmaRow m (sparFactor (((slots.head?).map (·.spar)).getD 0))
      let ar := ((b.mmaA p c).getD (.scratch p 0, 0)).1
      let i := c.cursor
      let tiles := if m.n1024 then (List.range 4).map (m.tile + ·) else [m.tile]
      match (s'.areaRead (c.req b false) ar (pbw c.pb 1 + i * row.1) row.1).andThen (fun av s =>
          (s.areaRead (c.req b false) ar (pbw c.pb 2 + i * row.2) row.2).andThen (fun asb s => Eng.ok (av, asb) s)) with
      | .wait => s
      | .fail code d aux s' => drop (s'.finish p c code d aux)
      | .ok (av, asb) s' =>
        if tiles.any (fun t => (List.range 128).any (fun j => (b.accSyndrome t i (2 * j)).isSome)) then drop (s'.finish p c 6 0 0)
        else
          let s' := (s'.mmaRowInto p m slots i av asb).advance p c 1 m.rows none 0
          if i + 1 < m.rows then s' else drop s'

/-! ## Tile commands -/

/-- R352: TZERO at its start. -/
def State.startTzero (s : State) (p : Nat) (_b : Block) (c : Cmd) : State :=
  s.startChecked p c (fld (pbw c.pb 0) 27 0 == 0 && restZero c.pb 1 && (bit (pbw c.pb 0) 31 || !bit (pbw c.pb 0) 30)) none id

/-- R352: the next 512 bytes of a TZERO. -/
def State.moveTzero (s : State) (p : Nat) (b : Block) (c : Cmd) : State :=
  let r : TileRef := ⟨bit (pbw c.pb 0) 31, fld (pbw c.pb 0) 4 27, true⟩
  let o := c.cursor
  if r.st then
    let e := b.tile r.entry
    let n := min 512 (e.size - o)
    s.endPiece p c (s.spWrite p (16 * e.base + o) (List.replicate n 0)) (fun cl s => s.advance p c n e.size cl 0)
  else (s.accWrite p r.n (o / 1024) (o % 1024 / 4) (List.replicate 128 0)).advance p c 512 65536 none 0

/-- R353: TFILL at its start, any mode. -/
def State.startTfill (s : State) (p : Nat) (b : Block) (c : Cmd) : State :=
  let p0 := pbw c.pb 0
  let st := bit p0 31
  let e := b.tile (8 + fld p0 4 27)
  match fld p0 2 25 with
  | 0 => s.startChecked p c c.declared none id
  | 1 =>
    let area := c.area p (bit p0 24) (fld p0 5 19)
    let rows := fld p0 6 13 + 1
    let params := fld p0 13 0 == 0 && pbw c.pb 1 == 0 && pbw c.pb 2 == 0 && restZero c.pb 5 && aligned16 [pbw c.pb 3, pbw c.pb 4] && area.isSome &&
      if st then fld p0 6 13 == 0 && pbw c.pb 4 == 0 && e.decl else 1024 ≤ pbw c.pb 4
    let n := if st then e.size else (rows - 1) * pbw c.pb 4 + 1024
    s.startChecked p c params (areaFault (area.getD (.scratch p 0)) false b.scratchSize (pbw c.pb 3) n) id
  | 2 => s.startChecked p c (st && fld p0 25 0 == 0 && restZero c.pb 1 && e.decl) none id
  | _ => s.startChecked p c false none id

/-- R353: TFILL in mode 0: the tile declared at issue is ready when the command retires. -/
def State.moveDeclare (s : State) (p : Nat) (c : Cmd) : State := s.finish p c 0 (pbw c.pb 2) 0

/-- R353: the next 512 bytes of a TFILL in mode 1. -/
def State.moveFill (s : State) (p : Nat) (b : Block) (c : Cmd) : State :=
  let p0 := pbw c.pb 0
  let r : TileRef := ⟨bit p0 31, fld p0 4 27, true⟩
  let a := (c.area p (bit p0 24) (fld p0 5 19)).getD (.scratch p 0)
  let o := c.cursor
  let q := c.req b false
  if r.st then
    let e := b.tile r.entry
    let n := min 512 (e.size - o)
    s.endPiece p c ((s.areaRead q a (pbw c.pb 3 + o) n).andThen (fun bytes s => s.spWrite p (16 * e.base + o) bytes))
      (fun cl s => s.advance p c n e.size cl e.size)
  else
    let row := o / 1024
    let half := o / 512 % 2
    s.endPiece p c (s.areaRead q a (pbw c.pb 3 + row * pbw c.pb 4 + 512 * half) 512) (fun bytes s =>
      (s.accWrite p r.n row (128 * half)
        ((List.range 128).map (fun i => BitVec.ofNat 32 (ofBytes ((bytes.drop (4 * i)).take 4))))).advance p c 512 (1024 * (fld p0 6 13 + 1)) none 0)

/-- R353: TFILL in mode 2: the entry is no longer declared. -/
def State.moveRelease (s : State) (p : Nat) (b : Block) (c : Cmd) : State :=
  let n := 8 + fld (pbw c.pb 0) 4 27
  (s.updBlock p (fun b => { b with ttab := upd b.ttab n (fun _ => {}) })).finish p c 0 (b.tile n).size 0

/-- R354: TDRAIN at its start. -/
def State.startTdrain (s : State) (p : Nat) (b : Block) (c : Cmd) : State :=
  let p0 := pbw c.pb 0
  let st := bit p0 23
  let e := b.tile (8 + fld p0 4 19)
  let es := if fld p0 2 24 = 0 then 4 else 2
  let rows := fld p0 6 13 + 1
  let area := c.area p (bit p0 31) (fld p0 5 26)
  let params := fld p0 13 0 == 0 && restZero c.pb 3 && aligned16 [pbw c.pb 1, pbw c.pb 2] && fld p0 2 24 != 3 && area.isSome &&
    if st then fld p0 2 24 == 0 && rows == 1 && pbw c.pb 2 == 0 && e.decl else 256 * es ≤ pbw c.pb 2
  let n := if st then e.size else (rows - 1) * pbw c.pb 2 + 256 * es
  s.startChecked p c params (areaFault (area.getD (.scratch p 0)) true b.scratchSize (pbw c.pb 1) n) id

/-- R354, R76: an accumulator word in an output format. -/
def drainWord (ofmt : Nat) (x : Word) : List Byte :=
  match ofmt with
  | 0 => toBytes 4 x.toNat
  | 1 => toBytes 2 (bf16.encode 0 (fp32.decode x.toNat))
  | _ => toBytes 2 (fp16.encode 0 (fp32.decode x.toNat))

/-- R354: the next 512 bytes of a TDRAIN's tile. -/
def State.moveTdrain (s : State) (p : Nat) (b : Block) (c : Cmd) : State :=
  let p0 := pbw c.pb 0
  let a := (c.area p (bit p0 31) (fld p0 5 26)).getD (.scratch p 0)
  let o := c.cursor
  let n0 := fld p0 4 19
  let q := c.req b true
  if bit p0 23 then
    let e := b.tile (8 + n0)
    let n := min 512 (e.size - o)
    s.endPiece p c ((s.spRead p (16 * e.base + o) n).andThen (fun bytes s => s.areaWrite q a (pbw c.pb 1 + o) bytes))
      (fun cl s => s.advance p c n e.size cl 0)
  else
    let row := o / 1024
    let half := o / 512 % 2
    let es := if fld p0 2 24 = 0 then 4 else 2
    if (List.range 64).any (fun j => (b.accSyndrome n0 row (128 * half + 2 * j)).isSome) then s.finish p c 6 0 0
    else
      let (ws, s) := s.accRead b n0 row (128 * half) 128
      let bytes := ws.flatMap (drainWord (fld p0 2 24))
      s.endPiece p c (s.areaWrite q a (pbw c.pb 1 + row * pbw c.pb 2 + 128 * es * half) bytes)
        (fun cl s => s.advance p c 512 (1024 * (fld p0 6 13 + 1)) cl 0)

end Sys2Proof.Machine
end

