-- ==== Sys2Proof/Machine/Chisel.lean ====
section
/-! DEFINITION. The chisel engines: COPY (R358), SCATTER (R359) and RESTRIPE (R244 to R246, R360). -/

namespace Sys2Proof.Machine

/-! ## Commands whose block may be away -/

/-- R375: the resident block of a command makes progress. -/
def State.noteProgress (s : State) (uid : Nat) : State :=
  { s with blocks := s.blocks.map (fun b => if b.halted.isNone && b.window.any (fun c => c.uid == uid) then { b with progress := s.clock } else b) }

/-- A command's work is over, wherever its block stands. -/
def State.finishOf (s : State) (uid code detail aux : Nat) : State :=
  s.updCmdOf uid (fun c => { c with fin := some code, detail := detail, aux := aux })

/-- The command of an event's arguments, its block resident or cast. -/
def State.cmdOf (s : State) (b i : Nat) : Option (Block × Cmd) :=
  ((s.blocks ++ s.casts.map (·.blk)).find? (fun x => x.uid == b)).bind (fun x => (x.command i).map (fun c => (x, c)))

/-! ## Spaces -/

/-- R358: the fields of PB0. -/
structure CopyParams where
  sk : Nat
  dk : Nat
  sspace : Nat
  dspace : Nat
  dtile : Bool
  dt : Nat
deriving DecidableEq, Repr

/-- R358: PB0 of COPY and SCATTER. -/
def copyParams (pb : List Word) : CopyParams :=
  let p0 := pbw pb 0
  { sk := fld p0 5 27, dk := fld p0 5 22, sspace := fld p0 2 20, dspace := fld p0 2 18, dtile := bit p0 17, dt := fld p0 4 13 }

/-- R358, R344: a space field with its record. -/
def spaceOk (recs : SMap Nat) (space k : Nat) : Bool :=
  match space with | 0 => recUsable recs k | 1 => k == 0 | 2 => k == 0 | _ => false

/-- R271: the first offset of [o, o + n) in the window that no scratchpad holds. -/
def windowFault (b : Block) (o n : Nat) : Option Nat :=
  let blocks := recNrows b.record * recNcols b.record
  if blocks ≤ o / 262144 ∨ b.scratchSize < o % 262144 + min n 4 then some o
  else if b.scratchSize = 262144 then (if o + n ≤ blocks * 262144 then none else some (blocks * 262144))
  else if o % 262144 + n ≤ b.scratchSize then none else some (o / 262144 * 262144 + b.scratchSize)

/-- R347, R358: DENIED, then BOUND, for [o, o + n) of a space. -/
def spaceFault (b : Block) (recs : SMap Nat) (space k : Nat) (write : Bool) (o n : Nat) : Option (Nat × Nat) :=
  match space with
  | 0 => areaFault (.record (SMap.getD recs k 0)) write 0 o n
  | 1 => if o + n ≤ b.scratchSize then none else some (3, o)
  | _ => (windowFault b o n).map (fun x => (3, x))

/-- `n` bytes of a space at an offset; of the window, word by word. -/
def State.spaceRead (s : State) (p : Nat) (b : Block) (c : Cmd) (space k o n : Nat) : Eng (List Byte) :=
  match space with
  | 0 => s.engRead (c.req b false) 1 (bufBase (SMap.getD c.recs k 0) + o) n
  | 1 => s.spRead p o n
  | _ => (List.range ((n + 3) / 4)).foldl (fun acc i => acc.andThen (fun bytes s =>
      match s.spot p b true (o + 4 * i) 4 with
      | none => .fail 3 (o + 4 * i) 0 s
      | some (.here pl y) => (s.spRead pl y 4).andThen (fun u s => .ok (bytes ++ u) s))) (.ok [] s)

/-- Bytes written to a space at an offset; the result is the first live granule left unwritten (R217). R217 does not say how DETAIL names a
granule met through the window: here by its offset in the scratchpad that holds it (log entry 119). -/
def State.spaceWrite (s : State) (p : Nat) (b : Block) (c : Cmd) (space k o : Nat) (bytes : List Byte) : Eng (Option Nat) :=
  match space with
  | 0 => s.engWrite (c.req b true) 1 (bufBase (SMap.getD c.recs k 0) + o) bytes
  | 1 => s.spWrite p o bytes
  | _ => (List.range ((bytes.length + 3) / 4)).foldl (fun acc i => acc.andThen (fun cl s =>
      match s.spot p b true (o + 4 * i) 4 with
      | none => .fail 3 (o + 4 * i) 0 s
      | some (.here pl y) => (s.spWrite pl y ((bytes.drop (4 * i)).take 4)).andThen (fun g s => .ok (cl.or g) s))) (.ok none s)

/-- Where the byte at an offset of a space stands: 0 and an address, or a block's place and one more, and a scratchpad offset. -/
def State.spacePos (s : State) (p : Nat) (c : Cmd) (space k o : Nat) : Option (Nat × Nat) :=
  match space with
  | 0 => some (0, bufBase (SMap.getD c.recs k 0) + o)
  | 1 => some (1 + p, o)
  | _ => (s.nbhdBlock p (o / 262144)).map (fun pl => (1 + pl, o % 262144))

/-- R358: the four bytes from a position meet the source range [o, o + n). -/
def State.inSource (s : State) (p : Nat) (b : Block) (c : Cmd) (space k o n : Nat) (x : Nat × Nat) : Bool :=
  match space with
  | 0 => x.1 == 0 && x.2 < bufBase (SMap.getD c.recs k 0) + o + n && bufBase (SMap.getD c.recs k 0) + o < x.2 + 4
  | 1 => x.1 == 1 + p && x.2 < o + n && o < x.2 + 4
  | _ => (List.range (recNrows b.record * recNcols b.record)).any (fun i =>
      (s.nbhdBlock p i).any (fun pl => x.1 == 1 + pl) && i * 262144 + x.2 < o + n && o < i * 262144 + x.2 + 4)

/-! ## COPY -/

/-- R358: the destination of a COPY: space, record and offset, a tile's region being scratchpad. -/
def Block.copyDest (b : Block) (c : Cmd) : Nat × Nat × Nat :=
  let m := copyParams c.pb
  if m.dtile then (1, 0, 16 * (b.tile (8 + m.dt)).base) else (m.dspace, m.dk, pbw c.pb 2)

/-- R358: COPY at its start. -/
def State.startCopy (s : State) (p : Nat) (b : Block) (c : Cmd) : State :=
  let m := copyParams c.pb
  let n := pbw c.pb 3
  let e := b.tile (8 + m.dt)
  let d := b.copyDest c
  let params := fld (pbw c.pb 0) 13 0 == 0 && restZero c.pb 4 && spaceOk c.recs m.sspace m.sk && spaceOk c.recs m.dspace m.dk &&
    n % 4 == 0 && 4 ≤ n && pbw c.pb 1 % 4 == 0 && pbw c.pb 2 % 4 == 0 &&
    if m.dtile then m.dspace == 1 && pbw c.pb 2 == 0 && e.decl && n == e.size else m.dt == 0
  s.startChecked p c params (firstFault [spaceFault b c.recs m.sspace m.sk false (pbw c.pb 1) n, spaceFault b c.recs d.1 d.2.1 true d.2.2 n]) id

/-- R358: the next 512 bytes of a COPY; destination words that overlap the source range receive undefined values. -/
def State.moveCopy (s : State) (p : Nat) (b : Block) (c : Cmd) : State :=
  let m := copyParams c.pb
  let total := pbw c.pb 3
  let d := b.copyDest c
  let o := c.cursor
  let n := min 512 (total - o)
  s.endPiece p c ((s.spaceRead p b c m.sspace m.sk (pbw c.pb 1 + o) n).andThen (fun bytes s =>
    let out := (List.range (n / 4)).flatMap (fun i =>
      let met := (s.spacePos p c d.1 d.2.1 (d.2.2 + o + 4 * i)).any (fun x => s.inSource p b c m.sspace m.sk (pbw c.pb 1) total x)
      if met then (List.range 4).map (fun j => Config.freeByte s.fresh (4 * i + j)) else (bytes.drop (4 * i)).take 4)
    State.spaceWrite { s with fresh := s.fresh + 1 } p b c d.1 d.2.1 (d.2.2 + o) out))
    (fun cl s => s.advance p c n total cl total)

/-! ## SCATTER -/

/-- R359: SCATTER at its start. -/
def State.startScatter (s : State) (p : Nat) (b : Block) (c : Cmd) : State :=
  let m := copyParams c.pb
  let n := pbw c.pb 3
  let e := pbw c.pb 4
  let params := fld (pbw c.pb 0) 18 0 == 0 && restZero c.pb 5 && spaceOk c.recs m.sspace m.sk && spaceOk c.recs m.dspace m.dk &&
    1 ≤ n && n ≤ 65536 && e % 4 == 0 && 4 ≤ e && e ≤ 4096 && aligned16 [pbw c.pb 1, pbw c.pb 2]
  let permission := if m.dspace = 0 ∧ !bit (SMap.getD c.recs m.dk 0) 62 then some (4, 0) else none
  s.startChecked p c params (firstFault [spaceFault b c.recs m.sspace m.sk false (pbw c.pb 1) (n * e),
    if pbw c.pb 2 + 4 * n ≤ b.scratchSize then none else some (3, pbw c.pb 2), permission]) id

/-- R359: the next element of a SCATTER. -/
def State.moveScatter (s : State) (p : Nat) (b : Block) (c : Cmd) : State :=
  let m := copyParams c.pb
  let i := c.cursor
  let e := pbw c.pb 4
  s.endPiece p c ((s.spRead p (pbw c.pb 2 + 4 * i) 4).andThen (fun ix s =>
    let o := ofBytes ix * e
    if (spaceFault b c.recs m.dspace m.dk true o e).isSome then .fail 3 i 0 s
    else (s.spaceRead p b c m.sspace m.sk (pbw c.pb 1 + i * e) e).andThen (fun bytes s => s.spaceWrite p b c m.dspace m.dk o bytes)))
    (fun cl s => s.advance p c 1 (pbw c.pb 3) cl 0)

/-! ## RESTRIPE -/

/-- R237: the host-physical address of the leaf that the walk from `table` finds for a guest-physical address. -/
def State.leafAddr (s : State) (gpa : Nat) : List (Nat × Nat × Bool × Nat) → Nat → Option (Nat × Nat × Nat)
  | [], _ => none
  | (sh, w, leafOk, al) :: rest, table =>
    let h := table + 16 * fld gpa w sh
    if !hpaOk h then none
    else match s.dramSector Config.ownerHv Config.hvKeySlot h with
      | (_, some _) => none
      | (bytes, none) =>
        let e := ofBytes ((bytes.drop (h % 32)).take 16)
        if !entry2Ok e sh leafOk al then none
        else if bit e 1 then some (2 ^ sh, e, h)
        else s.leafAddr gpa rest (fld e 48 8 * 256)

/-- R244: a second-stage entry written in memory, and every cached copy of its page dropped. -/
def State.writeEntry (s : State) (owner gpa size h e : Nat) : State :=
  let (old, syn) := s.dramSector Config.ownerHv Config.hvKeySlot h
  let new := old.take (h % 32) ++ toBytes 16 e ++ old.drop (h % 32 + 16)
  let s := s.putDramSector Config.ownerHv Config.hvKeySlot h new (syn.map (fun _ => true))
  { s with tlb2 := s.tlb2.filter (fun t => !(t.owner == owner && t.gpa < gpa + size && gpa < t.gpa + t.size)) }

/-- R360: the entry that a RESTRIPE asks for. -/
def restripeEntry (c : Cmd) (old : Nat) : Nat :=
  let e := setFld old 32 96 (pbw c.pb 2)
  if bit (pbw c.pb 4) 0 then setFld e 48 8 (fld (pbw c.pb 3) 30 0) else e

/-- Dies times channels of a placement word for an owner (R241). -/
def State.spreadOf (s : State) (owner p : Nat) : Nat :=
  let cs := s.csetOf owner (fld p 6 16)
  popcount 8 (fld p 8 22) * if fld p 2 30 = 0 then popcount 32 (fld cs 32 0) else popcount 4 (fld cs 4 32)

/-- R246, R360: the changes that the level allows. -/
def State.restripeOk (s : State) (owner : Nat) (l : Level) (old new size : Nat) : Bool :=
  let po := fld old 32 96
  let pn := fld new 32 96
  let same (w lo : Nat) : Bool := fld po w lo == fld pn w lo
  fld old 2 6 == 0 && fld po 2 30 < 2 && fld pn 2 30 < 2 && same 8 0 && (s.locate owner new size 0).isSome &&
  (l.ge .h || same 2 30 && s.spreadOf owner po == s.spreadOf owner pn)

/-- R360, R244: RESTRIPE at its start: MOVING is set and every cached copy of the entry dropped. -/
def State.startRestripe (s : State) (p : Nat) (b : Block) (c : Cmd) : State :=
  let va := pbw c.pb 0 + 2 ^ 32 * pbw c.pb 1
  let q := c.req b false
  let hyp := c.level.ge .h
  let params := fld va 8 56 == 0 && fld (pbw c.pb 2) 2 8 == 0 && restZero c.pb 5 &&
    if hyp && bit (pbw c.pb 4) 0 then pbw c.pb 4 == 1 && fld (pbw c.pb 3) 2 30 == 0 else pbw c.pb 3 == 0 && pbw c.pb 4 == 0
  if !params then s.finish p c 2 0 0
  else
    let s := s.noteWalks q va
    match s.translate1 q.owner va with
    | .error (.stage2 g np) => s.finish p c 5 g (1 + if np then 2 else 0)
    | .error (.page np) => s.finish p c 5 va (if np then 2 else 0)
    | .error _ => s.finish p c 6 0 0
    | .ok t =>
      let gpa := t.gpa + (va - t.va)
      let root := s.root2 q.owner
      if !permits1 t.bits q then s.finish p c 5 va 0
      else if !bit root 0 || fld root 16 1 != 0 || fld root 12 52 != 0 then s.finish p c 5 gpa 3
      else match s.walk2 gpa levels2 (fld root 35 17 * 131072), s.leafAddr gpa levels2 (fld root 35 17 * 131072) with
        | .error (.poison _), _ => s.finish p c 6 0 0
        | _, none => s.finish p c 5 gpa 3
        | _, some (size, e, h) =>
          let page := gpa / size * size
          let old := setFld e 1 105 0
          let new := restripeEntry c old
          if !s.restripeOk q.owner c.level old new size then s.finish p c 4 0 0
          else if s.moving.any (fun m => m.owner == q.owner && m.gpa < page + size && page < m.gpa + m.size) then s.finish p c 14 0 0
          else
            let s := s.writeEntry q.owner page size h (setFld old 1 105 1)
            { s with moving := s.moving ++ [⟨q.owner, page, size, h, old, new, 0, c.uid⟩] }

/-- R245: line `m.cursor` of a moving page goes to its new place. -/
def State.moveLine (s : State) (m : Moving) : State :=
  let o := 128 * m.cursor
  let gpa := m.gpa + o
  let flush := bit (fld m.new 32 96) 10
  let s := if flush then (List.range 4).foldl (fun s i => s.flushSector (l2Key m.owner (gpa + 32 * i))) s else s
  let slot := fld (fld m.old 32 96) 8 0
  (List.range 4).foldl (fun s i =>
    match s.locate m.owner m.old m.size (o + 32 * i), s.locate m.owner m.new m.size (o + 32 * i) with
    | some a, some z =>
      let (bytes, syn) := s.dramSector m.owner slot a
      ((s.moved m.owner a 32).correctRead m.owner a).putDramSector m.owner slot z bytes (syn.map (fun _ => true))
    | _, _ => s) s

/-- R244, R245: one line of a page is moved; after the last the new entry is written with MOVING clear, and the command's work is
over. -/
def State.moveRestripe (s : State) (c : Cmd) : State :=
  match s.moving.find? (fun m => m.cmd == c.uid) with
  | none => s
  | some m =>
    let s := (s.moveLine m).noteProgress c.uid
    if m.cursor + 1 < m.size / 128 then
      { s with moving := s.moving.map (fun x => if x.cmd = c.uid then { x with cursor := x.cursor + 1 } else x) }
    else
      let s := s.writeEntry m.owner m.gpa m.size m.entryAddr m.new
      ({ s with moving := s.moving.filter (fun x => x.cmd != c.uid) }).finishOf c.uid 0 (m.size / 128) 0

/-- RESTRIPE_LINE_MOVE (R245): the chisel engine that runs command `i` of block `b` moves one line. -/
def execRestripeLineMove (b i : Nat) (s : State) : Outcome :=
  .next (match s.cmdOf b i with
  | none => s
  | some (_, c) => if c.op5 = 0x12 ∧ c.running ∧ c.fin.isNone then s.moveRestripe c else s)

end Sys2Proof.Machine
end

