-- ==== Sys2Proof/Machine/Queues.lean ====
section
/-! DEFINITION. Event records (R376), queues, handles and grants (R389 to R391), LAUNCH (R147, R150), QWAIT (R392), notify writes. -/

namespace Sys2Proof.Machine

/-! ## Events and interrupts -/

/-- R376: an event record. -/
def eventBytes (ty reason q arg detail : Nat) : List Byte :=
  toBytes 16 (detail % 2 ^ 64 * 2 ^ 64 + arg % 2 ^ 32 * 2 ^ 32 + ty % 256 * 2 ^ 24 + reason % 256 * 2 ^ 16 + q % 64 * 2 ^ 10)

/-- R376, R411: an event record posted to a slice's event ring, with its interrupt (R431). -/
def State.postEvent (s : State) (o ty reason q arg detail : Nat) : State :=
  let s' := s.postRing o (s.sliceWord o 5) (eventBytes ty reason q arg detail)
  if (s'.slice o).counters.recsDropped = (s.slice o).counters.recsDropped then s'.msix o 0 else s'

/-- R423, R428, R432: an event record posted to the hypervisor's fault ring. -/
def State.postHvEvent (s : State) (ty arg detail : Nat) : State := s.postHv (eventBytes ty 0 0 arg detail)

/-! ## Queue descriptors -/

/-- R389: the bytes of a queue's descriptor as a number. -/
def State.queueDesc (s : State) (o q : Nat) : Option Nat :=
  if o < Config.nSlices then
    match s.devRead o (s.sliceWord o 4 + 64 * q) 64 with
    | .ok b => some (ofBytes b)
    | .error _ => none
  else none

/-- R389: LOG2N. -/
def descLog (d : Nat) : Nat := fld d 8 328
/-- R389: RING. -/
def descRing (d : Nat) : Nat := fld d 64 448
/-- R389: EN. -/
def descEn (d : Nat) : Bool := bit d 327
/-- R389: HOST. -/
def descHost (d : Nat) : Bool := bit d 326
/-- R389: DISP. -/
def descDisp (d : Nat) : Bool := bit d 325

/-- R389: a malformed descriptor. -/
def descBad (d : Nat) : Bool :=
  !(4 ≤ descLog d && descLog d ≤ 16) || descRing d % 256 != 0 || fld (descRing d) 8 56 != 0 || fld d 16 336 != 0 || fld d 68 256 != 0 ||
  (List.range 8).any (fun g => fld d 16 (32 * g + 1) != 0)

/-- R389: the controller's counters for a queue; it takes them from the descriptor when EN is set (log entry 25). -/
def State.queueOf (s : State) (o q d : Nat) : Queue :=
  (s.queue? o q).getD
    { sl := o, q := q, head := BitVec.ofNat 32 (fld d 32 384), tail := BitVec.ofNat 32 (fld d 32 352), done := BitVec.ofNat 32 (fld d 32 416)
      times := List.replicate ((fld d 32 352 + 2 ^ 32 - fld d 32 384) % 2 ^ 32 % 65537) s.clock }

/-- R389: the controller's counters for a queue changed, and from now on held, and mirrored into the descriptor. -/
def State.putQueue (s : State) (x : Queue) : State :=
  let s := State.updSlice { s with queues := x :: s.queues.filter (fun y => !(y.sl == x.sl && y.q == x.q)) } x.sl (fun y => { y with unheld := y.unheld.erase x.q })
  (s.devWrite x.sl (s.sliceWord x.sl 4 + 64 * x.q + 44) (toBytes 4 x.tail.toNat ++ toBytes 4 x.head.toNat ++ toBytes 4 x.done.toNat)).getD s

/-- R389: the controller holds a queue's counters while its EN is 1, and no longer. -/
def State.dropQueues (s : State) : State :=
  let on (o q : Nat) : Bool := (s.queueDesc o q).all descEn
  { s with
    queues := s.queues.filter (fun x => on x.sl x.q)
    slices := s.slices.zipIdx.map (fun x => { x.1 with unheld := x.1.unheld.filter (on x.2) }) }

/-- R389, R456: the controller holds the counters of every queue whose EN is 1, as the descriptor gives them when EN is set (log entry 25); after a
reset, from the queue's first notify or LAUNCH on. -/
def State.holdQueues (s : State) : State :=
  (List.range Config.nSlices).foldl (fun s o => if (s.slice o).state = .free then s else
    ((List.range 64).filter (fun q => !(s.slice o).unheld.contains q)).foldl (fun s q => match s.queueDesc o q with
      | some d => if descEn d && !descBad d && (s.queue? o q).isNone then { s with queues := s.queueOf o q d :: s.queues } else s
      | none => s) s) s

/-- R389: guest-physical address of an entry. -/
def entryAddr (d i : Nat) : Nat := descRing d + 256 * (i % 2 ^ descLog d)

/-- R390: the queue that a handle names, its descriptor included, when a check that needs right `need` accepts it: 0 E, 1 D or S by the
queue, 2 any right. -/
def State.handle (s : State) (o h need : Nat) : Option (Nat × Nat) :=
  let q := fld h 6 0
  match s.queueDesc o q with
  | none => none
  | some d =>
    let g := fld d 32 (32 * fld h 3 6)
    let right := if need = 0 then bit h 51 else if need = 1 then bit h (if descDisp d then 49 else 50) else fld h 3 49 != 0
    if fld h 40 9 = 0 ∧ descEn d ∧ !descBad d ∧ bit g 0 ∧ fld g 12 20 = fld h 12 52 ∧ (!bit h 51 || bit g 19) ∧ (!bit h 50 || bit g 18) ∧
        (!bit h 49 || bit g 17) ∧ right then some (q, d) else none

/-- R150: a launch record enqueued; none when the queue is full. -/
def State.enqueue (s : State) (o q d : Nat) (rec : List Byte) : Option State :=
  let x := s.queueOf o q d
  if 2 ^ descLog d ≤ (x.tail - x.head).toNat then none
  else (s.devWrite o (entryAddr d x.tail.toNat) rec).map (fun s =>
    s.putQueue { x with tail := x.tail + 1, times := x.times ++ [s.clock] })

/-! ## LAUNCH -/

/-- R250, R251: a thread's access to an entry of a queue's ring waits behind the side log: the wait, on the entry's guest-physical address. -/
def State.entryHeld (s : State) (o a : Nat) : Option Wait := if s.gpaHeld o a 256 then some (.load (2 ^ 63 + a) 256 false) else none

/-- LAUNCH (R147, R148, R150): a store of the thread to the ring (R251). -/
def execLaunch (d a b : Reg) (s : State) : Outcome :=
  .next (s.foldLanes (fun s blk t =>
    laneChecked blk t (d.toNat :: (upto a.toNat 1 2 ++ upto b.toNat 1 2)) [] (upto a.toNat 1 2 ++ upto b.toNat 1 2) s (fun _ =>
      let put (s : State) (x : Nat) : LaneRes := .done (s.updThread s.cur.blk t.tid (fun u => u.put d.toNat (BitVec.ofNat 32 x)))
      let addr := (t.get64 a.toNat).toNat
      if fld addr 8 56 ≠ 0 then put s 3
      else match s.handle blk.owner (t.get64 b.toNat).toNat 0 with
        | none => put s 2
        | some (q, desc) =>
          if descHost desc then put s 2
          else if addr % 256 ≠ 0 then put s 3
          else match s.devLoad blk t (blk.loadReq t.level) false none addr 256 with
            | .wait w => .wait w
            | .trap _ => put s 3
            | .ok rec s' =>
              let at' := entryAddr desc (s'.queueOf blk.owner q desc).tail.toNat
              match s'.entryHeld blk.owner at', s'.enqueue blk.owner q desc rec with
              | some w, some _ => .wait w
              | _, none => put s' 1
              | none, some s'' => put (s''.noteStale 0 blk.owner (cellsAt at' ((s'.devRead blk.owner at' 256).toOption.getD []))) 0)))

/-! ## QWAIT -/

/-- R392: QUEUE_REFUSED. -/
def Trap.queueRefused (h : Nat) : Trap := { cause := .queueRefused, extra := BitVec.ofNat 64 (h % 2 ^ 32) }

/-- QWAIT.DONE (R392). -/
def execQwaitDone (d : BitVec 6) (a b : Reg) (s : State) : Outcome :=
  .next (s.foldLanes (fun s blk t => laneChecked blk t [d.toNat, b.toNat] (upto a.toNat 1 2) [b.toNat] s (fun _ =>
    let h := (blk.sget64 t a.toNat).toNat
    match s.handle blk.owner h 2 with
    | none => .trap s (.queueRefused h)
    | some (q, desc) =>
      let x := s.queueOf blk.owner q desc
      if (x.done - t.get b.toNat).toNat < 2 ^ 31 then .done (s.updThread s.cur.blk t.tid (fun u => u.put d.toNat x.done))
      else .wait (.queue h blk.owner q false (t.get b.toNat)))))

/-- QWAIT.TAKE (R392). -/
def execQwaitTake (d : BitVec 6) (a b : Reg) (s : State) : Outcome :=
  .next (s.foldLanes (fun s blk t => laneChecked blk t [d.toNat, b.toNat] (upto a.toNat 1 2) [b.toNat] s (fun _ =>
    let h := (blk.sget64 t a.toNat).toNat
    let x := (t.get b.toNat).toNat
    match s.handle blk.owner h 1 with
    | none => .trap s (.queueRefused h)
    | some (q, desc) =>
      if x % 16 ≠ 0 then .trap s (.misalign 16 x)
      else if blk.scratchSize < x + 256 then .trap s (.boundAt x)
      else match blk.liveIn x 256 with
        | some g => .trap s (.clobber false x (16 * g))
        | none =>
          let y := s.queueOf blk.owner q desc
          let at' := entryAddr desc y.head.toNat
          if y.tail = y.head then .wait (.queue h blk.owner q true 0)
          else match s.entryHeld blk.owner at' with
          | some w => .wait w
          | none =>
            let (bytes, s') : List Byte × State := match s.devRead blk.owner at' 256 with
              | .ok bytes => (bytes, s.noteDev blk.owner at' 256)
              | .error _ => (s.noteDev blk.owner at' 256).freeBytes 256
            match s'.localStore t (.here s.cur.blk x) bytes with
            | .error g => .trap s (.clobber false x g)
            | .ok s' =>
              .done ((s'.putQueue { y with head := y.head + 1, times := y.times.drop 1 }).updThread s.cur.blk t.tid
                (fun u => u.put d.toNat y.head)))))

/-! ## Notify writes -/

/-- R430: the slice bound to a VF of a port, when the VF exists. -/
def State.boundSlice (s : State) (port vf : Nat) : Option Nat :=
  if s.vfExists port vf then
    (List.range Config.nSlices).find? (fun o => (s.slice o).state != .free && s.portOf o == port && s.vfOf o == vf)
  else none

/-- R391, R415: a notify dropped: counted, and an event record posted. -/
def State.refuseNotify (s : State) (o q : Nat) (v : Word) : State :=
  (s.count o (fun c => { c with refusals := satAdd c.refusals 1 })).postEvent o 7 0 q 0 v.toNat

/-- NOTIFY_WRITE (R391): the host writes `v` to notify register q of a VF. -/
def execNotifyWrite (port vf q : Nat) (v : Word) (s : State) : Outcome :=
  .next (match s.boundSlice port vf with
  | none => s
  | some o =>
    if !(s.slice o).ready || (s.slice o).resetting then s.count o (fun c => { c with refusals := satAdd c.refusals 1 })
    else if 64 ≤ q then s
    else match s.queueDesc o q with
      | none => s.refuseNotify o q v
      | some d =>
        if !descEn d then s.refuseNotify o q v
        else
          let x := s.queueOf o q d
          if !descBad d && descHost d && (v - x.head).toNat ≤ 2 ^ descLog d then
            s.putQueue { x with tail := v, times := (x.times ++ List.replicate (v - x.head).toNat s.clock).take (v - x.head).toNat }
          else
            let at40 := s.sliceWord o 4 + 64 * q + 40
            let s := (s.devWrite o at40 (toBytes 1 (fld d 8 320 ||| 16))).getD s
            s.refuseNotify o q v)

end Sys2Proof.Machine
end

