-- ==== Sys2Proof/Machine/Graph.lean ====
section
/-! DEFINITION. Work graphs: niches and their batches (R333 to R336), EMIT and NDONE (R365), task control blocks (R341 to R343) and the
completion of launches. -/

namespace Sys2Proof.Machine

/-! ## Nodes and niches -/

/-- R333: the fields of a node-table entry. -/
structure NodeEntry where
  buffer : Nat
  consumer : Nat
  timer : Nat
  capacity : Nat
  count : Nat
  valid : Bool
  reserved : Nat
deriving DecidableEq, Repr

/-- R333: the entry that 32 bytes hold. -/
def NodeEntry.ofNat (e : Nat) : NodeEntry :=
  { buffer := fld e 64 192, consumer := fld e 64 128, timer := fld e 32 96, capacity := fld e 32 64, count := fld e 16 48, valid := bit e 0
    reserved := fld e 47 1 }

/-- R333: the entry is within its limits. -/
def NodeEntry.ok (e : NodeEntry) : Bool :=
  e.reserved == 0 && 1 ≤ e.capacity && e.capacity ≤ 65536 && 1 ≤ e.count && e.count ≤ min e.capacity 4096 && e.buffer % 16 == 0 &&
  fld e.buffer 8 56 == 0 && e.consumer % 256 == 0

/-- R333: a consumer record describes one block. -/
def oneBlock (r : Nat) : Bool := recBlocks r ≤ 1

/-- R334: a niche changed. -/
def State.updNiche (s : State) (launch node : Nat) (f : Niche → Niche) : State :=
  { s with niches := s.niches.map (fun n => if n.launch = launch ∧ n.node = node then f n else n) }

/-- R333: the niche that a command of block `b` names, its entry and consumer record read and checked at the first naming. -/
def State.openNiche (s : State) (b : Block) (c : Cmd) (m : EngMode) (node : Nat) : Eng Niche :=
  match s.niche? b.launch node with
  | some n => .ok n s
  | none =>
    let tab := recNodetab b.record
    if tab = 0 then .fail 10 0 0 s
    else
      (s.engRead (c.req b false) m (tab + 32 * node) 32).andThen (fun bytes s =>
        let e := NodeEntry.ofNat (ofBytes bytes)
        if !e.valid || !e.ok then .fail 10 0 0 s
        else (s.engRead (c.req b false) m e.consumer 256).andThen (fun rcd s =>
          if !oneBlock (ofBytes rcd) then .fail 10 0 0 s
          else
            let n : Niche := { launch := b.launch, owner := b.owner, node := node, buffer := e.buffer, capacity := e.capacity, count := e.count
                               timer := e.timer, consumer := e.consumer }
            .ok n { s with niches := s.niches ++ [n] }))

/-- R334: the niche is full. -/
def Niche.full (n : Niche) : Bool := n.pending.any (fun x => x.1 == n.nextSlot) || n.claimed.any (fun c => c.2.contains n.nextSlot)

/-- R168: DEADLINE of a record, the one in force where it is zero. -/
def withDeadline (rec deadline : Nat) : Nat := if recDeadline rec = 0 then setFld rec 64 704 deadline else rec

/-- R335: a batch of the `k` oldest pending records handed to a consumer launch, which waits in its slice's niche list. Its record holds
the four parameters and the inherited deadline until its admission copies the consumer record (R393). -/
def State.launchBatch (s : State) (launch node k : Nat) : State :=
  match s.niche? launch node with
  | none => s
  | some n =>
    if n.pending.isEmpty || k = 0 then s
    else
      let slots := (n.pending.take k).map (·.1)
      let uid := s.uids
      let own := ((s.launches.find? (fun l => l.uid == launch)).map (fun l => recDeadline l.record)).getD 0
      let rcd := setFld (setFld (setFld (setFld (setFld 0 64 704 own) 32 896 (slots.headD 0)) 32 928 slots.length) 32 960 n.capacity) 32 992 node
      let l : Launch :=
        { uid := uid + 1, owner := n.owner, q := 64, seq := 0, record := rcd, nblocks := 1, unplaced := [0]
          enqueuedAt := s.clock, batch := some ⟨launch, node, uid⟩, source := some n.consumer }
      let s := s.updNiche launch node (fun n => { n with pending := n.pending.drop k, claimed := n.claimed ++ [(uid, slots)] })
      { s with uids := s.uids + 2, launches := s.launches ++ [l] }.updSlice n.owner (fun x => { x with nicheList := x.nicheList ++ [uid + 1] })

/-- R333, R335, R393: the record of a niche's consumer launch as its admission copies it, read at level S (log entry 28); none where it
cannot be read, for which admission refuses it (R394 reason 6). -/
def State.consumerRecord (s : State) (l : Launch) (a : Nat) : Option Nat :=
  match s.readVa (Req.load l.owner .s) true a 256 with
  | .ok (bytes, _) => some (withDeadline (setFld (ofBytes bytes) 128 896 (fld l.record 128 896)) (recDeadline l.record))
  | .error _ => none

/-- R334, R335: a record written into the niche's next slot; at COUNT pending records a batch is launched. -/
def State.nichePut (s : State) (q : Req) (m : EngMode) (n : Niche) (rec : List Byte) : Eng Unit :=
  (s.engWrite q m (n.buffer + 16 * n.nextSlot) rec).andThen (fun _ s =>
    let s := s.updNiche n.launch n.node (fun n => { n with
      nextSlot := (n.nextSlot + 1) % n.capacity, pending := n.pending ++ [(n.nextSlot, s.clock)] })
    .ok () (if n.pending.length + 1 = n.count then s.launchBatch n.launch n.node n.count else s))

/-- R335, R365: the claimed records of a batch are released. -/
def State.releaseBatch (s : State) (r : BatchRef) : State :=
  s.updNiche r.launch r.node (fun n => { n with claimed := n.claimed.filter (fun c => c.1 != r.batch) })

/-- NICHE_TIMER_EXPIRY (R335): the oldest pending record has waited TIMER clocks. -/
def execNicheTimerExpiry (launch node : Nat) (s : State) : Outcome :=
  .next (match s.niche? launch node with
  | none => s
  | some n => match n.pending.head? with
    | none => s
    | some (_, t) => if n.timer ≠ 0 ∧ t + n.timer ≤ s.clock then s.launchBatch launch node n.pending.length else s)

/-- NICHEWAIT (R336). -/
def execNichewait (a : Reg) (s : State) : Outcome :=
  .next (s.foldLanes (fun s blk t => laneChecked blk t [] [a.toNat] [] s (fun _ =>
    let node := (blk.sget t a.toNat).toNat
    let bound : Trap := { cause := .bound, extra := BitVec.ofNat 64 node }
    let q := blk.loadReq t.level
    let tab := recNodetab blk.record
    if 256 ≤ node ∨ tab = 0 then .trap s bound
    else match s.devLoad blk t q false none (tab + 32 * node) 32 with
      | .wait w => .wait w
      | .trap tr => .trap s tr
      | .ok bytes s =>
        let e := NodeEntry.ofNat (ofBytes bytes)
        if !e.valid || !e.ok then .trap s bound
        else match s.devLoad blk t q false none e.consumer 256 with
          | .wait w => .wait w
          | .trap tr => .trap s tr
          | .ok rcd s =>
            if !oneBlock (ofBytes rcd) then .trap s bound
            else if s.nicheEmpty blk.launch node then .done s
            else .wait (.niche blk.launch node))))

/-! ## EMIT and NDONE -/

/-- R365: EMIT at its start. -/
def State.startEmit (s : State) (p : Nat) (b : Block) (c : Cmd) : Option State :=
  let n := pbw c.pb 2
  let o := pbw c.pb 1
  s.startTry p c (fld (pbw c.pb 0) 24 0 == 0 && o % 16 == 0 && 1 ≤ n && n ≤ 4096 && restZero c.pb 3)
    (if o + 16 * n ≤ b.scratchSize then none else some (3, o))
    (fun s => s.endStart p c (s.openNiche b c 0 (fld (pbw c.pb 0) 8 24)) (fun _ s => some s))

/-- R365: the next record of an EMIT; a full niche holds it back. -/
def State.moveEmit (s : State) (p : Nat) (b : Block) (c : Cmd) : State :=
  s.endPiece p c ((s.openNiche b c 0 (fld (pbw c.pb 0) 8 24)).andThen (fun n s =>
    if n.full then .wait
    else (s.spRead p (pbw c.pb 1 + 16 * c.cursor) 16).andThen (fun rcd s => s.nichePut (c.req b true) 0 n rcd)))
    (fun _ s => s.advance p c 1 (pbw c.pb 2) none (c.cursor + 1))

/-- R365: REL of an NDONE. -/
def State.ndoneRel (s : State) (b : Block) : State := match b.batch with | some r => s.releaseBatch r | none => s

/-- R365, R366: NDONE in one event: its checks, REL, then FLUSH. -/
def State.startNdone (s : State) (p : Nat) (b : Block) (c : Cmd) : Option State :=
  let p0 := pbw c.pb 0
  let node := fld p0 8 24
  let rel := bit p0 23
  let done (s : State) : State := (if rel then s.ndoneRel b else s)
  s.startTry p c (fld p0 22 0 == 0 && (rel || bit p0 22) && restZero c.pb 1 && (!rel || b.batch.any (fun r => r.node == node))) none
    (fun s =>
      if bit p0 22 then s.endStart p c (s.openNiche b c 0 node) (fun _ s =>
        let s := done s
        some ((s.launchBatch b.launch node (((s.niche? b.launch node).map (fun n => n.pending.length)).getD 0)).finish p c 0 0 0))
      else some ((done s).finish p c 0 0 0))

/-! ## Task control blocks -/

/-- R341, R342: the 64 bytes of a task control block as their holder has them. -/
def State.tcbRead (s : State) (o : Nat) (l : Level) (a : Nat) : Eng Nat :=
  if a % 64 ≠ 0 ∨ 2 ^ 56 ≤ a then .fail 2 0 0 s
  else ({ s with view := none }.engRead (Req.rmw o l) 0 a 64).andThen (fun b s' => .ok (ofBytes b) { s' with view := s.view })

/-- R341: bytes of a task control block written. -/
def State.tcbPut (s : State) (o : Nat) (l : Level) (a off : Nat) (bytes : List Byte) : State :=
  match s.engWrite (Req.rmw o l) 0 (a + off) bytes with
  | .ok _ s' => s'
  | _ => s

/-- R341: PREDCNT. -/
def tcbPred (x : Nat) : Nat := fld x 32 64
/-- R341: STATE. -/
def tcbState (x : Nat) : Nat := fld x 2 96
/-- R341: NSUCC. -/
def tcbNsucc (x : Nat) : Nat := min (fld x 8 120) 64

/-- R342: the word at offset 8 written: PREDCNT, STATE, and ERR where it changes. -/
def State.tcbWord (s : State) (o : Nat) (l : Level) (a x pred state err : Nat) : State :=
  s.tcbPut o l a 8 (toBytes 8 (fld (setFld (setFld (setFld x 32 64 pred) 2 96 state) 4 100 err) 64 64))

/-- R342, R250: an operation on a task control block that is still to be done. -/
def State.tcbLater (s : State) (r : TcbRetry) : State := { s with tcbRetries := s.tcbRetries ++ [r] }

/-- R342: submission of a task control block whose STATE is submitted: its launch record enqueued through QHANDLE; a full queue is
retried later, and so is a record whose reading must wait; a refusal retires the block with ERR 1 or 3 (a record that cannot be read names
no block, log entry 29). -/
def State.tcbSubmit (s : State) (o : Nat) (l : Level) (a x : Nat) : State :=
  let s := { s with tcbRetries := s.tcbRetries.filter (fun r => !(r.owner == o && r.addr == a && r.op == 0)) }
  match s.handle o (fld x 64 256) 0 with
  | none => s.tcbWord o l a x (tcbPred x) 3 1
  | some (q, d) =>
    if descHost d then s.tcbWord o l a x (tcbPred x) 3 1
    else if fld x 64 0 % 256 ≠ 0 then s.tcbWord o l a x (tcbPred x) 3 3
    else match { s with view := none }.engRead (Req.load o l) 0 (fld x 64 0) 256 with
      | .wait => s.tcbLater { owner := o, addr := a, level := l }
      | .fail _ _ _ _ => s.tcbWord o l a x (tcbPred x) 3 3
      | .ok bytes _ =>
        let r := ofBytes bytes
        if recTcb r ≠ a then s.tcbWord o l a x (tcbPred x) 3 3
        else
          let r := if fld x 64 192 = 0 then r else setFld r 64 704 (fld x 64 192)
          match s.enqueue o q d (toBytes 256 r) with
          | some s' => s'
          | none => s.tcbLater { owner := o, addr := a, level := l }

/-- R342: the arm event; the result is STATE before it. -/
def State.tcbArm (s : State) (o : Nat) (l : Level) (a : Nat) : Eng Nat :=
  (s.tcbRead o l a).andThen (fun x s =>
    if tcbState x ≠ 0 then .ok (tcbState x) s
    else if tcbPred x ≠ 0 then .ok 0 (s.tcbWord o l a x (tcbPred x) 1 (fld x 4 100))
    else
      let s := s.tcbWord o l a x 0 2 (fld x 4 100)
      .ok 0 (s.tcbSubmit o l a (setFld x 2 96 2)))

/-- R342: a predecessor of the block retires; none where the event must wait. -/
def State.tcbDecrement (s : State) (o : Nat) (l : Level) (a : Nat) : Option State :=
  match s.tcbRead o l a with
  | .ok x s' => some (
    if tcbPred x = 0 then s'.tcbWord o l a x 0 (tcbState x) 2
    else if tcbState x = 1 ∧ tcbPred x = 1 then
      (s'.tcbWord o l a x 0 2 (fld x 4 100)).tcbSubmit o l a (setFld (setFld x 32 64 0) 2 96 2)
    else if tcbState x ≤ 1 then s'.tcbWord o l a x (tcbPred x - 1) (tcbState x) (fld x 4 100)
    else s')
  | .wait => none
  | .fail _ _ _ _ => some s

/-- R343: the successors of a retired block from the i-th on are decremented, in order; from the first that must wait on, later. -/
def State.tcbSuccs (s : State) (o : Nat) (l : Level) (a succs : Nat) : Nat → Nat → State
  | 0, _ => s
  | k + 1, i =>
    let later := s.tcbLater { owner := o, addr := a, op := 2, n := i, level := l }
    match { s with view := none }.engRead (Req.load o l) 0 (succs + 8 * i) 8 with
    | .ok b _ => match s.tcbDecrement o l (ofBytes b) with
      | some s' => State.tcbSuccs s' o l a succs k (i + 1)
      | none => later
    | .wait => later
    | .fail _ _ _ _ => State.tcbSuccs s o l a succs k (i + 1)

/-- R343: a submitted block retires at a device time: DONE, MISS, STATE, then its successors in order; none where that must wait. -/
def State.tcbRetire (s : State) (o : Nat) (l : Level) (a now : Nat) : Option State :=
  match s.tcbRead o l a with
  | .ok x s' =>
    if tcbState x ≠ 2 then some s'
    else
      let dl := fld x 64 192
      let x' := setFld x 1 99 (if dl ≠ 0 ∧ dl < now then 1 else 0)
      let s' := (s'.tcbPut o l a 40 (toBytes 8 now)).tcbWord o l a x' (tcbPred x) 3 (fld x 4 100)
      let s' := { s' with tcbRetries := s'.tcbRetries.filter (fun r => !(r.owner == o && r.addr == a && r.op == 0)) }
      some (s'.tcbSuccs o l a (fld x 64 128) (tcbNsucc x) 0)
  | .wait => none
  | .fail _ _ _ _ => some s

/-- R343, R250: a submitted block retires now, or, where its retirement must wait, later, as of now. -/
def State.tcbRetireNow (s : State) (o : Nat) (l : Level) (a : Nat) : State :=
  (s.tcbRetire o l a s.devTime).getD (s.tcbLater { owner := o, addr := a, op := 3, n := s.devTime, level := l })

/-- R365, R342, R366: TCBARM in one event. -/
def State.startTcbarm (s : State) (p : Nat) (b : Block) (c : Cmd) : Option State :=
  let a := pbw c.pb 0 + 2 ^ 32 * pbw c.pb 1
  s.startTry p c (a % 64 == 0 && a < 2 ^ 56 && restZero c.pb 2) none (fun s =>
    s.endStart p c (s.tcbArm (ownerAt b.owner c.level) c.level a) (fun st s => some (s.finish p c 0 st 0)))

/-- R365, R343, R366: TCBRET in one event. -/
def State.startTcbret (s : State) (p : Nat) (b : Block) (c : Cmd) : Option State :=
  let o := ownerAt b.owner c.level
  let a := recTcb b.record
  s.startTry p c (restZero c.pb 0 && recTcb b.record != 0) none (fun s =>
    s.endStart p c (s.tcbRead o c.level a) (fun x s =>
      if tcbState x ≠ 2 then some (s.finish p c 2 0 0) else (s.tcbRetire o c.level a s.devTime).map (fun s => s.finish p c 0 0 0)))

/-- R342, R250: an operation on a task control block tried again. -/
def State.tcbRetry (s : State) (r : TcbRetry) : State :=
  let s := { s with tcbRetries := s.tcbRetries.erase r }
  match r.op with
  | 3 => (s.tcbRetire r.owner r.level r.addr r.n).getD (s.tcbLater r)
  | op => match s.tcbRead r.owner r.level r.addr with
    | .ok x s' =>
      if op = 2 then s'.tcbSuccs r.owner r.level r.addr (fld x 64 128) (tcbNsucc x - r.n) r.n
      else if tcbState x = 2 then s'.tcbSubmit r.owner r.level r.addr x else s'
    | .wait => s.tcbLater r
    | .fail _ _ _ _ => s

/-- TCB_SUBMIT_RETRY (R342): a submission that found its queue full, or an event on the block that had to wait, is tried again. -/
def execTcbSubmitRetry (owner addr : Nat) (s : State) : Outcome :=
  .next (match s.tcbRetries.find? (fun r => r.owner == owner && r.addr == addr) with
  | some r => s.tcbRetry r
  | none => s)

/-! ## Completion -/

/-- R380: the launch identifier; a consumer launch has none of its own and shows an undefined one (log entry 27). -/
def Launch.id (l : Launch) : Nat := if l.q < 64 then l.q * 2 ^ 58 + l.seq % 2 ^ 32 else Config.freeNat l.uid % 2 ^ 64

/-- R343, R389, R398, R433: a launch completes: DONE advances, its task control block retires, and a late one is reported. A queue that
is not enabled takes no note of it. -/
def State.completeLaunch (s : State) (l : Launch) : State :=
  let s := { s with launches := s.launches.map (fun (x : Launch) => if x.uid = l.uid then { x with completed := true, unplaced := [] } else x) }
  let s := match (s.queueDesc l.owner l.q).filter (fun d => l.q < 64 && descEn d) with
    | some d => (s.putQueue (let x := s.queueOf l.owner l.q d; { x with done := x.done + 1 })).msix l.owner 2
    | none => s
  let s : State := if 65 ≤ l.q then { s with
      ports := upd s.ports (l.q - 65) (fun p => { p with cqDone := p.cqDone + 1 }), outbox := s.outbox ++ [.msix (l.q - 65) 0 0] } else s
  let s := if l.batch.isSome then s.releaseBatch (l.batch.getD ⟨0, 0, 0⟩) else s
  let s := if recTcb l.record ≠ 0 then s.tcbRetireNow l.owner .s (recTcb l.record) else s
  let dl := recDeadline l.record
  if dl ≠ 0 ∧ dl < s.devTime ∧ l.owner < Config.nSlices then s.postEvent l.owner 6 0 (l.q % 64) dl s.devTime else s

/-- R343: all blocks of a launch have been placed and have retired, none is cast, and their commands have retired with them. -/
def State.launchDone (s : State) (l : Launch) : Bool :=
  l.admitted && !l.completed && l.unplaced.isEmpty && !s.blocks.any (fun b => b.launch == l.uid) && !s.casts.any (fun c => c.blk.launch == l.uid)

/-- LAUNCH_COMPLETION (R343). -/
def execLaunchCompletion (uid : Nat) (s : State) : Outcome :=
  .next (match s.launches.find? (fun l => l.uid == uid) with
  | none => s
  | some l => if s.launchDone l then s.completeLaunch l else s)

end Sys2Proof.Machine
end

