-- ==== Sys2Proof/Machine/Caliper.lean ====
section
/-! DEFINITION. The Caliper (R320 to R331, R337 to R340, R357): boxes and rays on exact numbers, descent a pair at a time, the overflow
region and the resume token. -/

namespace Sys2Proof.Machine

/-! ## Boxes -/

/-- A box by axis: lower and upper bound in units of 2^−149; an infinite bound is ±2^400. -/
abbrev Box := List (Int × Int)

/-- R323: an FP32 bound in units of 2^−149; none for a NaN. -/
def fpUnits (w : Nat) : Option Int :=
  match fp32.decode w with
  | .nan => none
  | .inf neg => some (if neg then -(2 ^ 400) else 2 ^ 400)
  | .fin neg m e => some (scaled neg m e (-149))

/-- R324: two closed boxes overlap; an empty box overlaps nothing. -/
def boxOverlap (p q : Option Box) : Bool :=
  match p, q with
  | some p, some q => (p.zip q).all (fun x => x.1.1 ≤ x.2.2 && x.2.1 ≤ x.1.2)
  | _, _ => false

/-- R324: the bounding box of non-empty boxes. -/
def boundingBox (bs : List (Option Box)) : Option Box :=
  match bs.filterMap id with
  | [] => none
  | b :: rest => some (rest.foldl (fun a c => (a.zip c).map (fun x => (min x.1.1 x.2.1, max x.1.2 x.2.2))) b)

/-- R324: the extent of a node's box, which is finite. -/
def boxExtent (b : Option Box) : Int := ((b.getD []).map (fun x => x.2 - x.1)).foldl (· + ·) 0

/-- 32-bit words of bytes. -/
def words32 (bytes : List Byte) (off n : Nat) : List Nat := (List.range n).map (fun i => ofBytes ((bytes.drop (off + 4 * i)).take 4))

/-- R323: a leaf's box and user word; none where the leaf breaks R323. -/
def parseLeaf (bytes : List Byte) : Option (Option Box × Nat) :=
  if ofBytes (bytes.drop 28) ≠ 0 then none
  else
    let v := (words32 bytes 0 6).map fpUnits
    let box := (v.take 3).zip (v.drop 3)
    let ok := box.all (fun x => match x with | (some l, some h) => l ≤ h | _ => false)
    some (if ok then some (box.map (fun x => (x.1.getD 0, x.2.getD 0))) else none, ofBytes ((bytes.drop 24).take 4))

/-- R322: a node's children, box and reference each; none where the node breaks R321 or R322. -/
def parseNode (bytes : List Byte) : Option (List (Option Box × Nat)) :=
  let origin := (words32 bytes 0 3).map fpUnits
  let n := ((bytes.getD 15 0).toNat) % 16
  let kid (c : Nat) : Option Box × Nat :=
    let q (i : Nat) : Nat := (bytes.getD (16 + 6 * c + i) 0).toNat
    let bound (a i : Nat) : Int :=
      (origin.getD a none).getD 0 + (q i * 2 ^ (sextI (bytes.getD (12 + a) 0).toNat 8 + 149).toNat : Nat)
    (if [0, 1, 2].any (fun a => q (3 + a) < q a) then none else some ([0, 1, 2].map (fun a => (bound a a, bound a (3 + a)))),
      ofBytes ((bytes.drop (64 + 4 * c)).take 4))
  let unused := (List.range 8).all (fun c => c < n ||
    ofBytes ((bytes.drop (16 + 6 * c)).take 6) == 0 && ofBytes ((bytes.drop (64 + 4 * c)).take 4) == 0)
  let kids := (List.range n).map kid
  if origin.all (fun x => match x with | some v => v.natAbs < 2 ^ 400 | none => false) && (bytes.getD 15 0).toNat < 16 && 1 ≤ n && n ≤ 8 &&
      unused && ofBytes (bytes.drop 96) == 0 && kids.all (fun k => fld k.2 7 24 == 0)
  then some kids else none

/-! ## Rays -/

/-- An exact ratio; a zero denominator makes it an infinity. -/
abbrev Ratio := Int × Nat

/-- The order of ratios and infinities. -/
def Ratio.le (a b : Ratio) : Bool := if a.2 = 0 ∧ b.2 = 0 then a.1 ≤ b.1 else a.1 * b.2 ≤ b.1 * a.2

/-- R323: a ray. -/
structure Ray where
  org : List Int
  dir : List Int
  tmin : Ratio
  tmax : Ratio
deriving DecidableEq, Repr

/-- A bound of t: a ratio, or an infinity. -/
def tBound (w : Nat) : Option Ratio :=
  match fp32.decode w with
  | .nan => none
  | .inf neg => some (if neg then -1 else 1, 0)
  | .fin neg m e => some (scaled neg m e (-149), 2 ^ 149)

/-- R325: the ray of 32 bytes; none for one that hits nothing. -/
def parseRay (bytes : List Byte) : Option Ray :=
  let v := (words32 bytes 0 6).map fpUnits
  let finite := v.all (fun x => match x with | some i => i.natAbs < 2 ^ 400 | none => false)
  match tBound (ofBytes ((bytes.drop 24).take 4)), tBound (ofBytes ((bytes.drop 28).take 4)) with
  | some a, some z =>
    if finite && Ratio.le a z then
      some { org := (v.take 3).map (·.getD 0), dir := (v.drop 3).map (·.getD 0), tmin := a, tmax := z }
    else none
  | _, _ => none

/-- R325: where a ray meets one bound of a slab. -/
def slabAt (bound org dir : Int) : Ratio :=
  if 2 ^ 400 ≤ bound.natAbs then ((if (0 < bound) = (0 < dir) then 1 else -1), 0)
  else ((bound - org) * (if 0 < dir then 1 else -1), dir.natAbs)

/-- R325: the entry parameter of a ray and a box, if it hits. -/
def rayHit (r : Option Ray) (b : Option Box) : Option Ratio :=
  match r, b with
  | some r, some b =>
    let axes := (r.org.zip r.dir).zip b
    let span := axes.foldl (fun (acc : Option (Ratio × Ratio)) x =>
      let ((o, d), (lo, hi)) := x
      match acc with
      | none => none
      | some (t0, t1) =>
        if d = 0 then (if lo ≤ o ∧ o ≤ hi then acc else none)
        else
          let a := slabAt (if 0 < d then lo else hi) o d
          let z := slabAt (if 0 < d then hi else lo) o d
          some (if Ratio.le t0 a then a else t0, if Ratio.le z t1 then z else t1)) (some (r.tmin, r.tmax))
    match span with
    | some (t0, t1) => if Ratio.le t0 t1 && !(t0.2 == 0 && 0 < t0.1) && !(t1.2 == 0 && t1.1 < 0) then some t0 else none
    | none => none
  | _, _ => none

/-- R330: round(x, FP32, RD). R69 defines round for x not zero and R71 gives signs to zeros of operations on signed operands: of x = 0 the spec states
no sign, and the model's choice is +0 (log entry 120). -/
def ratioFp32 (x : Ratio) : Nat :=
  if x.2 = 0 then fp32.encode 2 (.inf (x.1 < 0))
  else if x.1 = 0 then 0
  else
    let q := x.1.natAbs * 2 ^ 300 / x.2
    let r := x.1.natAbs * 2 ^ 300 % x.2
    fp32.encode 2 (.fin (x.1 < 0) (2 * q + if r = 0 then 0 else 1) (-301))

/-! ## Elements -/

/-- R320: the fields of a descriptor. -/
def descKind (d : Nat) : Nat := fld d 8 224
/-- R320: ROOT. -/
def descRoot (d : Nat) : Nat := fld d 32 192
/-- R320: NLEAF. -/
def descLeaves (d : Nat) : Nat := fld d 32 160
/-- R320: NNODE. -/
def descNodes (d : Nat) : Nat := fld d 32 128

/-- R320, R321: a descriptor is well-formed. -/
def descOk (d : Nat) : Bool :=
  fld d 24 232 == 0 && descKind d < 2 && descLeaves d ≤ 2 ^ 24 && descNodes d ≤ 2 ^ 24 && fld d 64 64 % 32 == 0 && fld d 8 120 == 0 &&
  fld d 64 0 % 128 == 0 && fld d 8 56 == 0 && (if descKind d = 1 then descRoot d == 0 else fld (descRoot d) 7 24 == 0)

/-- What a reference names, as read. -/
structure Elem where
  box : Option Box := none
  user : Nat := 0
  kids : List (Option Box × Nat) := []
  isRay : Bool := false
  ray : Option Ray := none
deriving DecidableEq, Repr

/-- A leaf by its reference: LEAF. -/
def refLeaf (r : Nat) : Bool := bit r 31
/-- R328: the depth that a reference on the stack carries. -/
def refDepth (r : Nat) : Nat := fld r 7 24
/-- R321: INDEX. -/
def refIndex (r : Nat) : Nat := fld r 24 0

/-- R321 to R323, R331: what a reference names under a descriptor, read by the Caliper. -/
def State.readElem (s : State) (q : Req) (d : Nat) (isRay : Bool) (r : Nat) : Eng Elem :=
  if refLeaf r then
    if descLeaves d ≤ refIndex r then .fail 10 0 0 s
    else (s.engRead q 2 (fld d 64 64 + 32 * refIndex r) 32).andThen (fun bytes s =>
      if isRay then .ok { isRay := true, ray := parseRay bytes } s
      else match parseLeaf bytes with
        | none => .fail 10 0 0 s
        | some (b, u) => .ok { box := b, user := u } s)
  else if descNodes d ≤ refIndex r then .fail 10 0 0 s
  else (s.engRead q 2 (fld d 64 0 + 128 * refIndex r) 128).andThen (fun bytes s =>
    match parseNode bytes with
    | none => .fail 10 0 0 s
    | some kids => .ok { box := boundingBox (kids.map (·.1)), kids := kids } s)

/-- R324, R325, R327: the test of an element against a box. -/
def Elem.meets (w : Elem) (b : Option Box) : Bool := if w.isRay then (rayHit w.ray b).isSome else boxOverlap w.box b

/-! ## One pair -/

/-- R326, R327: the children of the side that splits that meet the other side, tested in descending slot order; the last pushed stands
first. `mk` makes the pushed pair. -/
def State.splitKids (s : State) (q : Req) (d : Nat) (z w : Elem) (zr : Nat) (wLeaf : Bool) (mk : Nat → Nat × Nat) : Eng (List (Nat × Nat)) :=
  z.kids.reverse.foldl (fun acc k => acc.andThen (fun l s =>
    let go (b : Option Box) (s : State) : Eng (List (Nat × Nat)) :=
      if !w.meets b then .ok l s
      else if 64 ≤ refDepth zr then .fail 12 0 0 s
      else .ok (mk (k.2 + (refDepth zr + 1) * 2 ^ 24) :: l) s
    if refLeaf k.2 && wLeaf then (s.readElem q d false k.2).andThen (fun e s => go e.box s) else go k.1 s)) (.ok [] s)

/-- R330: a record as a number. -/
def recordOf (ia ib ua ub : Nat) : Nat := ia + ib * 2 ^ 32 + ua * 2 ^ 64 + ub * 2 ^ 96

/-- R326 to R328: the pair on top of the stack: what it pushes, or the record it emits. The root pair, which alone stands at depth 0
on both sides, is read and tested when it is taken; two leaves deeper down were when they were pushed. -/
def State.takePair (s : State) (q : Req) (t : Trav) (x y : Nat) : Eng (List (Nat × Nat) × Option Nat) :=
  let skip := t.self && refLeaf x && refLeaf y && refIndex y ≤ refIndex x
  let root := refDepth x == 0 && refDepth y == 0
  if skip && !root then .ok ([], none) s
  else
    (s.readElem q t.descA t.ray x).andThen (fun ex s => (s.readElem q t.descB false y).andThen (fun ey s =>
      if root && !ex.meets ey.box || skip then .ok ([], none) s
      else if refLeaf x && refLeaf y then
        let ua := if t.ray then ((rayHit ex.ray ey.box).map ratioFp32).getD 0 else ex.user
        .ok ([], some (recordOf (refIndex x) (refIndex y) ua ey.user)) s
      else if !refLeaf x && (refLeaf y || boxExtent ey.box ≤ boxExtent ex.box) then
        (s.splitKids q t.descA ex ey x (refLeaf y) (fun k => (k, y))).andThen (fun l s => .ok (l, none) s)
      else (s.splitKids q t.descB ey ex y (refLeaf x) (fun k => (x, k))).andThen (fun l s => .ok (l, none) s)))

/-! ## Records, the overflow region and the token -/

/-- R357: the overflow record's base and COUNT, and the token's address. -/
def Cmd.ovr (c : Cmd) : Nat := SMap.getD c.recs (fld (pbw c.pb 4) 5 19) 0
/-- R357: the token record. -/
def Cmd.tok (c : Cmd) : Nat := SMap.getD c.recs (fld (pbw c.pb 4) 5 14) 0
/-- R357: NODE. -/
def Cmd.node (c : Cmd) : Nat := fld (pbw c.pb 4) 8 24
/-- R357: DESCA and DESCB. -/
def Cmd.descAddr (c : Cmd) (k : Nat) : Nat := pbw c.pb (2 * k) + 2 ^ 32 * pbw c.pb (2 * k + 1)

/-- The Caliper's state of a command changed. -/
def State.setTrav (s : State) (p : Nat) (c : Cmd) (t : Trav) : State := s.updCmd p c.uid (fun c => { c with trav := some t })

/-- R338: the token of a traversal. -/
def Trav.token (t : Trav) (c : Cmd) : List Byte :=
  toBytes 4 t.stack.length ++
  toBytes 4 ((if t.self then 1 else 0) + (if t.ray then 2 else 0) + (if t.pendRec.isSome then 4 else 0)) ++
  toBytes 8 t.emitted ++ toBytes 4 (if t.ray then t.nextRay else 0) ++ toBytes 4 c.node ++ toBytes 16 (t.pendRec.getD 0) ++
  toBytes 8 (c.descAddr 0) ++ toBytes 8 (c.descAddr 1) ++ toBytes 4 (if t.ovrCnt = 0 then 0 else t.ovrHead) ++ toBytes 4 t.ovrCnt ++
  t.stack.reverse.flatMap (fun e => toBytes 4 e.1.toNat ++ toBytes 4 e.2.toNat)

/-- R331, R337, R357: the command ends, its token written first for OVERFLOW and PAGE_FAULT; a token that cannot be written makes the
status PAGE_FAULT and leaves undefined bytes. -/
def State.endTrav (s : State) (p : Nat) (b : Block) (c : Cmd) (t : Trav) (code detail aux : Nat) : State :=
  let detail := if code = 5 then detail else t.emitted
  if code = 5 ∨ code = 11 then
    match s.engWrite (c.req b true) 2 (bufBase c.tok) (t.token c) with
    | .ok _ s' => s'.finish p c code detail aux
    | .fail 5 a x s' =>
      let (u, s') := s'.freeBytes 8192
      let q := c.req b true
      let s' := (pieces (bufBase c.tok) 8192).foldl (fun s w =>
        match s.engWrite q 2 w.1 ((u.drop (w.1 - bufBase c.tok)).take w.2) with
        | .ok _ s'' => s''
        | _ => s) s'
      s'.finish p c 5 a x
    | .fail k _ x s' => s'.finish p c k t.emitted x
    | .wait => s
  else s.finish p c code detail aux

/-- The traversal is over with a status; the command ends once its region has drained. -/
def State.stopTrav (s : State) (p : Nat) (c : Cmd) (t : Trav) (code detail aux : Nat) : State :=
  s.setTrav p c { t with ending := some (code, detail, aux) }

/-- R337: a record goes to the niche, to the region, or is the one that did not fit. One that must wait is kept, which is progress once. -/
def State.placeRecord (s : State) (p : Nat) (b : Block) (c : Cmd) (t : Trav) (r : Nat) : State :=
  let q := c.req b true
  match s.niche? b.launch c.node with
  | none => s.stopTrav p c t 10 0 0
  | some n =>
    let kept := { t with pendRec := some r }
    let direct := t.ovrCnt = 0 ∧ !n.full
    let put : Eng Unit := if direct then s.nichePut q 2 n (toBytes 16 r)
      else if t.ovrHead + t.ovrCnt < bufCount c.ovr then
        (s.engWrite q 2 (bufBase c.ovr + 16 * (t.ovrHead + t.ovrCnt)) (toBytes 16 r)).andThen (fun _ s => .ok () s)
      else .fail 11 0 0 s
    match put with
    | .ok _ s' =>
      let t' := { t with pendRec := none, emitted := t.emitted + 1 }
      s'.setTrav p c (if direct then t' else { t' with ovrCnt := t'.ovrCnt + 1 })
    | .fail code d x s' => s'.stopTrav p c kept code d x
    | .wait => if t.pendRec.isSome then s else s.setTrav p c kept

/-- R337: the record at the head of the region goes into the niche. -/
def State.drainOne (s : State) (p : Nat) (b : Block) (c : Cmd) (t : Trav) : State :=
  match s.niche? b.launch c.node with
  | none => s
  | some n =>
    if t.ovrCnt = 0 || n.full then s
    else match (s.engRead (c.req b false) 2 (bufBase c.ovr + 16 * t.ovrHead) 16).andThen (fun r s => s.nichePut (c.req b true) 2 n r) with
      | .wait => s
      | .ok _ s' => s'.setTrav p c { t with ovrHead := if t.ovrCnt = 1 then 0 else t.ovrHead + 1, ovrCnt := t.ovrCnt - 1 }
      | .fail 6 _ _ s' => s'.finish p c 6 t.emitted 0
      | .fail code d x s' => s'.endTrav p b c t code d x

/-- R332: the Caliper of a core. -/
def caliperOf (core : Nat) : Nat := quadOfCore core * 10 + core % 40 / 4

/-- R332, R364: the order in which commands reach an engine that several cores share. -/
def State.earlier (s : State) (c d : Cmd) : Bool :=
  c.arrived.getD s.clock < d.arrived.getD s.clock || c.arrived.getD s.clock == d.arrived.getD s.clock && c.uid < d.uid

/-- R332: another traversal that this Caliper runs came before the command's (one that was restored comes behind those it meets). -/
def State.caliperTaken (s : State) (b : Block) (c : Cmd) : Bool :=
  s.blocks.any (fun x => caliperOf x.core == caliperOf b.core && x.halted.isNone &&
    x.window.any (fun d => kindOf d.op5 == 1 && d.running && d.fin.isNone && d.uid != c.uid && (!c.running || s.earlier d c)))

/-- OVERFLOW_DRAIN (R337). -/
def execOverflowDrain (b i : Nat) (s : State) : Outcome :=
  .next (match s.cmdAt b i with
  | none => s
  | some (p, blk, c) => match c.trav with
    | some t =>
      if c.running ∧ c.fin.isNone ∧ blk.halted.isNone ∧ !s.caliperTaken blk c then s.seeing c (fun s => s.drainOne p blk c t) else s
    | none => s)

/-! ## The commands -/

/-- R357, R347: the checks of the records. -/
def travFault (c : Cmd) : Option (Nat × Nat) :=
  let o := c.ovr
  let k := c.tok
  if !bit o 63 || !bit o 62 || !bit k 62 || c.op5 = 9 && !bit k 63 then some (4, 0)
  else if !recHolds o 0 (16 * bufCount o) || !recHolds k 0 8192 then some (3, 0) else none

/-- R357: the parameters are well-formed. -/
def travParams (c : Cmd) : Bool :=
  let o := c.ovr
  let k := c.tok
  fld (pbw c.pb 4) 14 0 == 0 && restZero c.pb 5 && c.descAddr 0 % 32 == 0 && c.descAddr 0 < 2 ^ 56 && c.descAddr 1 % 32 == 0 &&
  c.descAddr 1 < 2 ^ 56 && recUsable c.recs (fld (pbw c.pb 4) 5 19) && recUsable c.recs (fld (pbw c.pb 4) 5 14) &&
  bufStride o == 16 && bufEsize o == 16 && bufCount o ≤ 2 ^ 24 && bufBase o % 16 == 0 && 8192 ≤ recBytes k && bufBase k % 64 == 0

/-- R320: both descriptors read, and the mode they select; BADNODE for another combination. -/
def State.readDescs (s : State) (b : Block) (c : Cmd) : Eng Trav :=
  (s.engRead (c.req b false) 2 (c.descAddr 0) 32).andThen (fun da s => (s.engRead (c.req b false) 2 (c.descAddr 1) 32).andThen (fun db s =>
    let a := ofBytes da
    let z := ofBytes db
    if !descOk a || !descOk z || descKind z != 0 then .fail 10 0 0 s
    else .ok { self := c.descAddr 0 == c.descAddr 1, ray := descKind a == 1, descA := a, descB := z
               stack := if descKind a = 1 then [] else [(BitVec.ofNat 32 (descRoot a), BitVec.ofNat 32 (descRoot z))] } s))

/-- R339: the token's first 64 bytes agree with the command. -/
def tokenOk (c : Cmd) (x : Nat) : Bool :=
  fld x 16 16 == 0 && fld x 16 0 ≤ 1016 && fld x 29 35 == 0 && fld x 64 320 == c.descAddr 0 && fld x 64 384 == c.descAddr 1 &&
  fld x 32 160 == c.node && fld x 32 448 + fld x 32 480 ≤ bufCount c.ovr

/-- R357: a failure other than PAGE_FAULT reports EMITTED. -/
def Eng.emitted {α : Type} (x : Eng α) (n : Nat) : Eng α :=
  match x with
  | .fail code d a s => .fail code (if code = 5 then d else n) a s
  | x => x

/-- R339: the traversal that a token holds. -/
def State.readToken (s : State) (b : Block) (c : Cmd) : Eng Trav :=
  (s.engRead (c.req b false) 2 (bufBase c.tok) 64).andThen (fun h s =>
    let x := ofBytes h
    Eng.emitted (n := fld x 64 64) (if !tokenOk c x then .fail 13 0 0 s
    else (s.engRead (c.req b false) 2 (bufBase c.tok + 64) (8 * fld x 16 0)).andThen (fun st s =>
      let entry (j : Nat) : Word × Word := (BitVec.ofNat 32 (ofBytes ((st.drop (8 * j)).take 4)), BitVec.ofNat 32 (ofBytes ((st.drop (8 * j + 4)).take 4)))
      .ok { self := bit x 32, ray := bit x 33, nextRay := fld x 32 128, stack := ((List.range (fld x 16 0)).map entry).reverse
            emitted := fld x 64 64, base := fld x 64 64, pendRec := if bit x 34 then some (fld x 128 192) else none
            ovrHead := if fld x 32 480 = 0 then 0 else fld x 32 448, ovrCnt := fld x 32 480, drainFirst := fld x 32 480 != 0 } s)))

/-- R357: XTRAV and XTRAV.RES at their start. -/
def State.startTrav (s : State) (p : Nat) (b : Block) (c : Cmd) : Option State :=
  if !recCaliper b.record then some (s.finish p c 8 0 0)
  else s.startTry p c (travParams c) (travFault c) (fun s =>
    let token : Eng (Option Trav) := if c.op5 = 9 then (s.readToken b c).andThen (fun t s => .ok (some t) s) else .ok none s
    s.endStart p c (token.andThen (fun t s =>
      ((s.openNiche b c 2 c.node).andThen (fun _ s => (s.readDescs b c).andThen (fun d s =>
        .ok (match t with | none => d | some t => { t with descA := d.descA, descB := d.descB }) s))).emitted ((t.map (·.emitted)).getD 0)))
      (fun t s => some (s.setTrav p c t)))

/-- R326, R327, R337, R339: the next piece of a traversal: a drain that must come first, a pending record, the next ray or the next
pair with any record it emits; then, the traversal over, the draining of its region and its end. -/
def State.moveTrav (s : State) (p : Nat) (b : Block) (c : Cmd) : State :=
  match c.trav with
  | none => s
  | some t =>
    match t.ending with
    | some (code, d, x) => if t.ovrCnt ≠ 0 then s.drainOne p b c t else s.endTrav p b c t code d x
    | none =>
      if t.drainFirst then (if t.ovrCnt ≠ 0 then s.drainOne p b c t else s.setTrav p c { t with drainFirst := false })
      else match t.pendRec, t.stack with
        | some r, _ => s.placeRecord p b c t r
        | none, [] =>
          if t.ray ∧ t.nextRay < descLeaves t.descA then
            s.setTrav p c { t with stack := [(BitVec.ofNat 32 (2 ^ 31 + t.nextRay), BitVec.ofNat 32 (descRoot t.descB))] }
          else s.stopTrav p c t 0 0 0
        | none, (x, y) :: rest =>
          match s.takePair (c.req b false) t x.toNat y.toNat with
          | .wait => s
          | .fail code d a s' => s'.stopTrav p c t code d a
          | .ok (l, r) s' =>
            let next := if t.ray ∧ refDepth y.toNat = 0 then refIndex x.toNat + 1 else t.nextRay
            let t' := { t with stack := l.map (fun e => (BitVec.ofNat 32 e.1, BitVec.ofNat 32 e.2)) ++ rest, nextRay := next }
            match r with
            | none => s'.setTrav p c t'
            | some r => s'.placeRecord p b c t' r

end Sys2Proof.Machine
end

