-- ==== Sys2Proof/Machine/Links.lean ====
section
/-! DEFINITION. What a device link sends (R427, R428): its flits, their seal and check, its replay buffer, and the traffic that a port holds
until a rekey. -/

namespace Sys2Proof.Machine

/-- R380: one step of the CRC-64 of ECMA-182, most significant bit first. -/
def crcBit (c : DWord) : DWord := if c.msb then (c <<< 1) ^^^ 0x42F0E1EBA9EA3693 else c <<< 1

/-- R380: the CRC-64 of a byte string, from zero. -/
def crc64 (bs : List Byte) : DWord :=
  bs.foldl (fun (c : DWord) (b : Byte) => (List.range 8).foldl (fun c _ => crcBit c) (c ^^^ (b.setWidth 64 <<< 56))) (0 : DWord)

/-! ## Flits -/

/-- R427: bytes 0 to 7 of a flit. -/
def Flit.header (f : Flit) : List Byte := toBytes 2 f.seq ++ toBytes 2 f.ack ++ toBytes 1 f.type ++ toBytes 1 f.gen ++ toBytes 2 0

/-- R427: the GCM nonce of a flit: the link identifier, then the count of the flits sealed before it in its direction under its generation. -/
def Flit.nonce (f : Flit) (link : Nat) : List Byte := toBytes 4 (Config.linkId link) ++ toBytes 8 f.count

/-- R427: the 256 bytes of a flit on the link: header, sealed payload and tag, CRC-64. -/
def Flit.bytes (f : Flit) (link : Nat) : List Byte :=
  let sealed' := Config.sealFlit link f.key (f.nonce link) f.header f.payload
  let body := f.header ++ (List.range 240).map (fun i => sealed'.getD i 0)
  body ++ toBytes 8 (crc64 body).toNat

/-- R427: the port has sealed all that it may under its generation. -/
def Link.sealedOut (l : Link) : Bool := 2 ^ 40 ≤ l.sealedFlits

/-- R427: the flit in which a port seals a payload next; its ACK names the last SEQ received intact. -/
def Link.next (l : Link) (type : Nat) (payload : List Byte) : Flit :=
  { seq := l.txSeq, ack := (l.rxSeq + 65535) % 65536, type := type, gen := l.txGen, key := l.txKey, count := l.sealedFlits
    payload := (List.range 224).map (fun i => payload.getD i 0) }

/-- R427, R428: a flit that takes a SEQ has been sealed and sent: it stays in the 512-flit replay buffer. -/
def Link.sent (l : Link) (f : Flit) : Link :=
  { l with
    sealedFlits := l.sealedFlits + 1
    txSeq := (l.txSeq + 1) % 65536
    replay := (l.replay ++ [f]).drop (l.replay.length + 1 - 512) }

/-- The state with a device link changed. -/
def State.updLink (s : State) (k : Nat) (f : Link → Link) : State := { s with links := upd s.links k f }

/-- R427: a data flit or a rekey marker sealed and sent on a link. -/
def State.sendFlit (s : State) (k type : Nat) (payload : List Byte) : State :=
  match s.links[k]? with
  | none => s
  | some l => { s.updLink k (fun l => l.sent (l.next type payload)) with outbox := s.outbox ++ [.flit k ((l.next type payload).bytes k)] }

/-- R428: a replay request sealed and sent: it takes no SEQ, and its ACK names the flit before the one asked for (log entry 124). -/
def State.requestReplay (s : State) (k : Nat) : State :=
  match s.links[k]? with
  | none => s
  | some l =>
    if l.sealedOut then s
    else { s.updLink k (fun l => { l with sealedFlits := l.sealedFlits + 1 }) with outbox := s.outbox ++ [.flit k ((l.next 2 []).bytes k)] }

/-- R427: the data of a command, in the payloads of flits. -/
def flitPayloads (bytes : List Byte) : List (List Byte) :=
  (List.range ((bytes.length + 223) / 224)).map (fun i => (bytes.drop (224 * i)).take 224)

end Sys2Proof.Machine
end

