-- ==== Sys2Proof/Machine/Collective.lean ====
section
/-! DEFINITION. Collectives (R361, R362, R424 to R426): a COLL joins at its start; when every member on this device has joined, the
collective is decided. A group on one device is done in the same event; for one that reaches beyond, each member reads its source and sends
it flit by flit (R427), and the collective is done once all has gone. Members on other devices are outside this model (log entry 34): what they
contribute, and whether they end the collective, is free. -/

namespace Sys2Proof.Machine

/-- R361: the fields of a COLL. -/
structure CollParams where
  op : Nat
  dtype : Nat
  sk : Nat
  dk : Nat
  scope : Nat
  count : Nat
  rank : Nat
  root : Nat
  soff : Nat
  doff : Nat
deriving DecidableEq, Repr

/-- R361: the parameter block of a COLL. -/
def collParams (pb : List Word) : CollParams :=
  let p0 := pbw pb 0
  { op := fld p0 4 28, dtype := fld p0 3 25, sk := fld p0 5 20, dk := fld p0 5 15, scope := fld p0 3 12, count := pbw pb 3
    rank := fld (pbw pb 4) 16 16, root := fld (pbw pb 4) 16 0, soff := pbw pb 5, doff := pbw pb 6 }

/-- R424: DEVMASK, GID, NMEMB and PERDEV of a group descriptor. -/
structure CollGroup where
  devices : Nat
  gid : Nat
  members : Nat
  perDev : Nat
deriving DecidableEq, Repr

/-- R424: the fields of a descriptor. -/
def groupOf (d : Nat) : CollGroup := { devices := popcount 64 (fld d 64 192), gid := fld d 32 160, members := fld d 32 128, perDev := fld d 32 96 }

/-- R424: the descriptor keeps its limits. -/
def groupOk (d : Nat) : Bool :=
  let g := groupOf d
  1 ≤ g.members && g.members ≤ 65536 && g.members == g.perDev * g.devices && fld d 96 0 == 0

/-- Bytes of an element. -/
def CollParams.esize (m : CollParams) : Nat := if m.dtype = 4 then 2 else 4

/-- R361: elements that a member reads from its source. -/
def CollParams.reads (m : CollParams) (n : Nat) : Nat :=
  if m.op = 2 ∧ m.rank ≠ m.root then 0 else if m.op = 4 then n * m.count else m.count

/-- R361: elements that a member writes to its destination. -/
def CollParams.writes (m : CollParams) (n : Nat) : Nat :=
  if m.op = 1 ∧ m.rank ≠ m.root then 0 else if m.op = 3 then n * m.count else m.count

/-- R361: the parameters keep their limits. -/
def collOk (c : Cmd) : Bool :=
  let m := collParams c.pb
  let a := pbw c.pb 1 + 2 ^ 32 * pbw c.pb 2
  m.op < 5 && m.dtype < 5 && 2 ≤ m.scope && m.scope ≤ 4 && fld (pbw c.pb 0) 12 0 == 0 && 1 ≤ m.count && m.count ≤ 2 ^ 28 && m.soff % 4 == 0 &&
  m.doff % 4 == 0 && a % 32 == 0 && a < 2 ^ 56 && recUsable c.recs m.sk && recUsable c.recs m.dk

/-- R425: a COLL that has joined and is not decided. -/
def Cmd.joined (c : Cmd) : Bool := c.op5 == 0x13 && c.running && c.fin.isNone && c.group != 0

/-- Every command of the module with its block, resident or cast. -/
def State.allCmds (s : State) : List (Block × Cmd) := (s.blocks ++ s.casts.map (·.blk)).flatMap (fun b => b.window.map (fun c => (b, c)))

/-- R361, R424, R425: COLL at its start: it joins, or ends at once. Its match number is its issue's, where the descriptor names the group that
it named then (log entry 32). -/
def State.startColl (s : State) (p : Nat) (b : Block) (c : Cmd) : Option State :=
  let m := collParams c.pb
  s.startTry p c (collOk c) none (fun s => s.endStart p c (s.engRead (c.req b false) 0 (pbw c.pb 1 + 2 ^ 32 * pbw c.pb 2) 32) (fun bytes s =>
    let d := ofBytes bytes
    let g := groupOf d
    if !groupOk d || g.members ≤ m.rank || g.members ≤ m.root then some (s.finish p c 2 0 0)
    else
      let src := SMap.getD c.recs m.sk 0
      let dst := SMap.getD c.recs m.dk 0
      let range (r : Nat) (w : Bool) (o n : Nat) : Option (Nat × Nat) := if n = 0 then none else areaFault (.record r) w 0 o (n * m.esize)
      match firstFault [range src false m.soff (m.reads g.members), range dst true m.doff (m.writes g.members)] with
      | some (code, x) => some (s.finish p c code x 0)
      | none =>
        let demoted := m.scope = 4 ∧ s.tscope b.owner
        let s := if demoted then s.count b.owner (fun k => { k with scopeClamp := satAdd k.scopeClamp 1 }) else s
        if 1 < g.devices ∧ (m.scope < 4 ∨ demoted) then some (s.finish p c 4 0 0)
        else
          let twin := s.allCmds.find? (fun x => x.2.joined && x.1.owner == b.owner && (groupOf x.2.group).gid == g.gid &&
            (collParams x.2.pb).rank == m.rank && x.1.uid != b.uid)
          match twin with
          | some x => some ((s.finishOf x.2.uid 16 0 0).finish p c 16 0 0)
          | none =>
            let r := if c.matchNo ≠ 0 && (groupOf c.group).gid == g.gid then (s, c.matchNo) else s.countColl b.owner g.gid m.rank
            some (r.1.updCmd p c.uid (fun c => { c with group := d, matchNo := r.2 }))))

/-- R425: the members of a collective that have joined on this device, ascending in rank. -/
def State.collMembers (s : State) (b : Block) (c : Cmd) : List (Block × Cmd) :=
  let g := groupOf c.group
  let all := s.allCmds.filter (fun x => x.2.joined && x.1.owner == b.owner && (groupOf x.2.group).gid == g.gid && x.2.matchNo == c.matchNo)
  inOrder (fun x y => (collParams x.2.pb).rank ≤ (collParams y.2.pb).rank) all

/-- R361: a sum of BF16 values, rounded once. -/
def bf16Sum (xs : List Nat) : Nat :=
  let ts := xs.map (fun x => cellTerm (x * 65536))
  let sum : Int := ts.foldl (fun a t => a + t.1) 0
  let nan := ts.any (·.2.1)
  let pinf := ts.any (·.2.2.1)
  let ninf := ts.any (·.2.2.2)
  if nan || pinf && ninf then bf16.nan
  else if pinf then bf16.infCode
  else if ninf then bf16.signed true bf16.infCode
  else if sum = 0 then (if xs.all (· == 0x8000) then 0x8000 else 0)
  else bf16.round 0 (sum < 0) sum.natAbs (-149)

/-- R361: the reduction of one element over the members. -/
def collReduce (dtype : Nat) (xs : List Nat) : Nat :=
  let fold (f : Nat → Nat → Nat) : Nat := match xs with | [] => 0 | x :: r => r.foldl f x
  let canonical (x : Nat) : Nat := match fp32.decode x with | .nan => fp32.nan | _ => x
  match dtype with
  | 0 => (xs.foldl (· + ·) 0) % 2 ^ 32
  | 1 => fsum xs
  | 2 => canonical (fold (fp32.pick true false))
  | 3 => canonical (fold (fp32.pick false false))
  | _ => bf16Sum xs

/-- R361: what a member's destination receives, from every rank's source elements. -/
def collResult (m : CollParams) (n : Nat) (data : List (List Nat)) : List Nat :=
  let elem (r i : Nat) : Nat := (data.getD r []).getD i 0
  let reduce (i : Nat) : Nat := collReduce m.dtype ((List.range n).map (fun r => elem r i))
  match m.op with
  | 0 => (List.range m.count).map reduce
  | 1 => if m.rank = m.root then (List.range m.count).map reduce else []
  | 2 => (List.range m.count).map (elem m.root)
  | 3 => (List.range n).flatMap (fun r => (List.range m.count).map (elem r))
  | _ => (List.range m.count).map (fun i => reduce (m.rank * m.count + i))

/-- The elements that bytes hold. -/
def elemsOf (es : Nat) (bytes : List Byte) (n : Nat) : List Nat := (List.range n).map (fun i => ofBytes ((bytes.drop (es * i)).take es))

/-- Where an element of a member that is not on this device comes from: a draw. -/
def strangeElems (m : CollParams) (n seed r : Nat) : List Nat :=
  (List.range (({ m with rank := r } : CollParams).reads n)).map (fun i => (Config.freeWord (seed + 1 + r) i).toNat % 2 ^ (8 * m.esize))

/-- Every joined member of a collective on this device ends with a status. -/
def State.endColl (s : State) (ms : List (Block × Cmd)) (code : Nat) : State := ms.foldl (fun s x => s.finishOf x.2.uid code 0 0) s

/-- R361: a member reads its source. -/
def State.readSource (s : State) (x : Block × Cmd) (n : Nat) : Eng (List Byte) :=
  let k := collParams x.2.pb
  State.engRead { s with view := some x.2.view } (x.2.req x.1 false) 0 (bufBase (SMap.getD x.2.recs k.sk 0) + k.soff) (k.reads n * k.esize)

/-- R361, R426: the source of every member, by rank: what one has sent stands as it was when it was read. A member that cannot read its source
ends so. -/
def State.gather (s : State) (ms : List (Block × Cmd)) (n : Nat) : Eng (SMap (List Byte)) :=
  ms.foldl (fun acc x => acc.andThen (fun l s => match x.2.src with
    | some bytes => .ok (SMap.set l (collParams x.2.pb).rank bytes) s
    | none => match s.readSource x n with
      | .ok bytes s => .ok (SMap.set l (collParams x.2.pb).rank bytes) s
      | .fail code d a s => .fail code d a (s.finishOf x.2.uid code d a)
      | .wait => .wait)) (.ok [] s)

/-- R361, R362: a member's result written, and the member's end with a status. -/
def State.deliverColl (s : State) (x : Block × Cmd) (n code : Nat) (bytes : List Byte) : Option State :=
  let k := collParams x.2.pb
  if k.writes n = 0 then some (s.finishOf x.2.uid code 0 0)
  else match (s.opened x.2).engWrite (x.2.req x.1 true) 0 (bufBase (SMap.getD x.2.recs k.dk 0) + k.doff) bytes with
    | .ok clob s' =>
      let s' := s'.closed s x.2
      some (match clob with
        | some gran => s'.finishOf x.2.uid 7 gran 0
        | none => s'.finishOf x.2.uid code 0 0)
    | .fail code d a s' => some ((s'.closed s x.2).finishOf x.2.uid code d a)
    | .wait => none

/-- R361, R362: the collective done: every member on this device receives its result; or, where a member's slice on another device is reset
(ABORTED), undefined bytes. -/
def State.finishColl (s : State) (ms : List (Block × Cmd)) (m : CollParams) (n : Nat) (got : SMap (List Byte)) (aborted : Bool) : State :=
  let seed := s.fresh
  let data := (List.range n).map (fun r => match SMap.get got r with
    | some bytes => elemsOf m.esize bytes (({ m with rank := r } : CollParams).reads n)
    | none => strangeElems m n seed r)
  (ms.foldl (fun (acc : Option State) x => acc.bind (fun s =>
    let out := (collResult (collParams x.2.pb) n data).flatMap (toBytes m.esize)
    s.deliverColl x n (if aborted then 17 else 0) (if aborted then (List.range out.length).map (Config.freeByte seed) else out)))
    (some { s with fresh := s.fresh + 1 + n })).getD s

/-- Device link ports that are up. -/
def State.upPorts (s : State) : List Nat := (s.links.zipIdx.filter (fun l => l.1.up && l.1.trained)).map (·.2)

/-- R426, R427: every member has read its source and begins to send it over a port of the fabric's choice; none while no port is up. -/
def State.beginSending (s : State) (ms : List (Block × Cmd)) (n : Nat) : State :=
  if s.upPorts.isEmpty then s
  else match s.gather ms n with
    | .wait => s
    | .fail _ _ _ s' => s'
    | .ok got s' =>
      let rx := s.links.map (·.rxGen)
      ms.foldl (fun s x =>
        let bytes := SMap.getD got (collParams x.2.pb).rank []
        { s.updCmdOf x.2.uid (fun c => { c with
            src := some bytes, toSend := flitPayloads bytes, port := s.upPorts.getD (Config.pick s.fresh % s.upPorts.length) 0, gens := [], rxGens := rx }) with
          fresh := s.fresh + 1 }) s'

/-- R426: a member's flits have gone under a generation too. -/
def Cmd.addGen (c : Cmd) (gen : Nat) : Cmd := if c.gens.contains gen then c else { c with gens := gen :: c.gens }

/-- R427, R448: a member sends its next flit, or its port holds it until a rekey. -/
def State.sendNext (s : State) (x : Block × Cmd) : State :=
  match x.2.toSend, s.links[x.2.port]? with
  | payload :: rest, some l =>
    let held := l.sealedOut || !l.held.isEmpty
    let s := s.updCmdOf x.2.uid (fun c => if held then { c with toSend := rest } else { c.addGen l.txGen with toSend := rest })
    let s := if held then s.updLink x.2.port (fun l => { l with held := l.held ++ [(x.2.uid, payload)] }) else s.sendFlit x.2.port 1 payload
    s.updSlice x.1.owner (fun y => { y with usage := { y.usage with linkBytes := y.usage.linkBytes + payload.length } })
  | _, _ => s

/-- A port still holds flits of a command. -/
def State.heldFor (s : State) (uid : Nat) : Bool := s.links.any (fun l => l.held.any (fun h => h.1 == uid))

/-- R426: contributions that this device has sent over one port carry two generations. -/
def mixedGens (ms : List (Block × Cmd)) : Bool :=
  ms.any (fun x => ms.any (fun y => x.2.port == y.2.port && x.2.gens.any (fun g => y.2.gens.any (· != g))))

/-- R362, R426: how a collective that reaches beyond this device ends, all that this device sends having gone. KEYGEN_MIX where two generations
have carried it; what the other devices bring about is free, but for a mix of generations that only they could see: it takes a rekey of what a
port receives, or links between them. -/
def State.settleColl (s : State) (ms : List (Block × Cmd)) (m : CollParams) (g : CollGroup) : State :=
  let s' := { s with fresh := s.fresh + 1 }
  let rekeyed := ms.any (fun x => x.2.rxGens != s.links.map (·.rxGen))
  let away := Config.pick s.fresh % 5
  if mixedGens ms then s.endColl ms 15
  else if away = 1 && (rekeyed || 2 < g.devices) then s'.endColl ms 15
  else if away = 2 then s'.endColl ms 16
  else if away = 4 then s'.endColl ms 6
  else match s.gather ms g.members with
    | .ok got _ => s'.finishColl ms m g.members got (away == 3)
    | _ => s

/-- R361, R362, R425 to R428: the next piece of the collective of a joined command, once its members on this device have all joined. -/
def State.moveColl (s : State) (b : Block) (c : Cmd) : State :=
  let g := groupOf c.group
  let ms := s.collMembers b c
  let m := collParams c.pb
  if ms.length < g.perDev then s
  else
    let same (x : Block × Cmd) : Bool :=
      let k := collParams x.2.pb
      k.op == m.op && k.dtype == m.dtype && k.count == m.count && k.root == m.root && x.2.group == c.group
    let beyond := ms.filter (fun x => (collParams x.2.pb).scope == 2 && ms.any (fun y => quadOfCore y.1.core != quadOfCore x.1.core))
    if !ms.all same then s.endColl ms 16
    else if !beyond.isEmpty then s.endColl beyond 4
    else if g.devices ≤ 1 then
      match s.gather ms g.members with
      | .wait => s
      | .fail _ _ _ s' => State.closed s' s c
      | .ok got s' => (State.closed s' s c).finishColl ms m g.members got false
    else if ms.any (fun x => x.2.src.isNone) then State.closed (s.beginSending ms g.members) s c
    else match ms.find? (fun x => !x.2.toSend.isEmpty) with
      | some x => s.sendNext x
      | none => if ms.any (fun x => s.heldFor x.2.uid) then s else s.settleColl ms m g

/-- R428: what commands have in flight on a port that goes down is answered with poison: their collectives end so. -/
def State.linkFails (s : State) (k : Nat) : State :=
  let hit (x : Block × Cmd) : Bool := x.2.joined && x.2.src.isSome && x.2.port == k
  let lost := s.allCmds.filter (fun x => x.2.joined && s.allCmds.any (fun y => hit y && y.1.owner == x.1.owner &&
    (groupOf y.2.group).gid == (groupOf x.2.group).gid && y.2.matchNo == x.2.matchNo))
  (s.endColl lost 6).updLink k (fun l => { l with held := [] })

/-- A COLL of one operation moved on, its block resident or cast. -/
def State.collEvent (s : State) (op b i : Nat) : State :=
  match s.cmdOf b i with
  | none => s
  | some (blk, c) => if c.joined ∧ (collParams c.pb).op = op then s.moveColl blk c else s

/-- COLL_ALLREDUCE (R361). -/
def execCollAllreduce (b i : Nat) (s : State) : Outcome := .next (s.collEvent 0 b i)
/-- COLL_REDUCE (R361). -/
def execCollReduce (b i : Nat) (s : State) : Outcome := .next (s.collEvent 1 b i)
/-- COLL_BROADCAST (R361). -/
def execCollBroadcast (b i : Nat) (s : State) : Outcome := .next (s.collEvent 2 b i)
/-- COLL_ALLGATHER (R361). -/
def execCollAllgather (b i : Nat) (s : State) : Outcome := .next (s.collEvent 3 b i)
/-- COLL_REDUCESCATTER (R361). -/
def execCollReducescatter (b i : Nat) (s : State) : Outcome := .next (s.collEvent 4 b i)

end Sys2Proof.Machine
end

