-- ==== Sys2Proof/Machine/Encoder.lean ====
section
/-! DEFINITION. The encoder lane (R363, R364). What a codec emits for a picture is a free value; what the lane does with it is not. -/

namespace Sys2Proof.Machine

/-- R363: the fields of a session block. -/
structure Session where
  work : Nat
  qp : Nat
  rate : Nat
  gop : Nat
  height : Nat
  width : Nat
  depth : Nat
  codec : Nat
deriving DecidableEq, Repr

/-- R363: the session that 64 bytes describe. -/
def Session.ofNat (x : Nat) : Session :=
  { work := fld x 64 256, qp := fld x 8 216, rate := fld x 8 208, gop := fld x 16 192, height := fld x 16 176, width := fld x 16 160
    depth := fld x 8 152, codec := fld x 8 144 }

/-- R363: every field is in range and no reserved bit is set. -/
def sessionOk (x : Nat) : Bool :=
  let v := Session.ofNat x
  let even (n : Nat) : Bool := 64 ≤ n && n ≤ 4096 && n % 2 == 0
  fld x 144 0 == 0 && fld x 192 320 == 0 && v.codec < 2 && (v.depth == 8 || v.depth == 10) && even v.width && even v.height && 1 ≤ v.gop &&
  v.rate < 2 && (v.rate == 1 || v.codec == 0 || v.qp ≤ 51) && v.work % 4096 == 0 && v.work < 2 ^ 56

/-- R363: bytes of one sample. -/
def Session.sample (v : Session) : Nat := if 8 < v.depth then 2 else 1
/-- R363: bytes of the work area. -/
def Session.workBytes (v : Session) : Nat := 6 * v.width * v.height * v.sample

/-- R364: the session block's address. -/
def Cmd.session (c : Cmd) : Nat := pbw c.pb 1 + 2 ^ 32 * pbw c.pb 2
/-- R364: the operation. -/
def Cmd.encOp (c : Cmd) : Nat := fld (pbw c.pb 0) 2 0
/-- R364: the picture record. -/
def Cmd.picture (c : Cmd) : Nat := SMap.getD c.recs (fld (pbw c.pb 3) 5 27) 0
/-- R364: the bitstream record. -/
def Cmd.stream (c : Cmd) : Nat := SMap.getD c.recs (fld (pbw c.pb 3) 5 22) 0

/-- R410 word 14: the owner has an encoder lane. -/
def State.hasLane (s : State) (o : Nat) : Bool := o < Config.nSlices && s.sliceWord o 14 < 32

/-- R364, R346: ENC at its start; a slice that owns no lane is denied (log entry 114). -/
def State.startEnc (s : State) (p : Nat) (b : Block) (c : Cmd) : Option State :=
  let frame := c.encOp == 1
  let pic := c.picture
  let out := c.stream
  let params := fld (pbw c.pb 0) 30 2 == 0 && c.encOp < 3 && c.session % 64 == 0 && c.session < 2 ^ 56 && fld (pbw c.pb 3) 22 0 == 0 &&
    restZero c.pb 5 &&
    if frame then pbw c.pb 4 % 16 == 0 && recUsable c.recs (fld (pbw c.pb 3) 5 27) && recUsable c.recs (fld (pbw c.pb 3) 5 22) && bufStride pic % 16 == 0
    else fld (pbw c.pb 3) 10 22 == 0 && pbw c.pb 4 == 0
  s.startTry p c params (if s.hasLane b.owner then none else some (4, 0)) (fun s => s.endStart p c (s.engRead (c.req b false) 0 c.session 64) (fun bytes s =>
    let x := ofBytes bytes
    let v := Session.ofNat x
    if !sessionOk x || frame && bufStride pic < v.width * v.sample then some (s.finish p c 2 0 0)
    else if !frame then some s
    else match firstFault [areaFault (.record pic) false 0 0 (v.height * bufStride pic * 3 / 2), areaFault (.record out) true 0 (pbw c.pb 4) 0] with
      | some (code, d) => some (s.finish p c code d 0)
      | none => some s))

/-- R364: an earlier ENC of the same session has not retired, or the slice's lane has still to serve another session's that came
before. -/
def State.encBehind (s : State) (b : Block) (c : Cmd) : Bool :=
  let all := (s.allCmds.filter (fun x => x.2.op5 == 0x18 && x.1.owner == b.owner && x.2.fin.isNone)).map (·.2)
  let first (c : Cmd) : Bool := !all.any (fun x => x.session == c.session && x.uid < c.uid)
  !first c || all.any (fun x => x.session != c.session && x.running && first x && s.earlier x c)

/-- R364: the work area holds what the codec leaves there, which is undefined to software. -/
def State.touchWork (s : State) (b : Block) (c : Cmd) (v : Session) : Eng Unit :=
  let (u, s) := s.freeBytes v.workBytes
  (s.engWrite (c.req b true) 0 v.work u).andThen (fun _ s => .ok () s)

/-- R363, R364: one picture coded. -/
def State.encodeOne (s : State) (b : Block) (c : Cmd) (v : Session) : Eng Nat :=
  let key := b.owner * 2 ^ 56 + c.session
  let pic := c.picture
  let out := c.stream
  (s.engRead (c.req b false) 0 (bufBase pic) (v.height * bufStride pic * 3 / 2)).andThen (fun data s =>
    let bits := Config.encodeFrame key s.fresh data
    let s := { s with fresh := s.fresh + 1 }
    let room := recBytes out - pbw c.pb 4
    if room < bits.length then
      let (u, s) := s.freeBytes room
      match s.engWrite (c.req b true) 0 (bufBase out + pbw c.pb 4) u with
      | .ok _ s => .fail 18 0 0 s
      | .fail k d a s => .fail k d a s
      | .wait => .wait
    else (s.engWrite (c.req b true) 0 (bufBase out + pbw c.pb 4) bits).andThen (fun _ s => (s.touchWork b c v).andThen (fun _ s =>
      let isKey : Bool := match SMap.get s.sessions key with
        | some n => n % v.gop == 0
        | none => Config.pick s.fresh % 2 == 1
      let s := { s with fresh := s.fresh + 1, sessions := SMap.set s.sessions key (SMap.getD s.sessions key 0 + 1) }
      .ok (bits.length % 2 ^ 32 + if isKey then 2 ^ 32 else 0)
        (s.updSlice b.owner (fun x => { x with usage := { x.usage with frames := x.usage.frames + 1 } })))))

/-- R364: an ENC's work in one event. -/
def State.moveEnc (s : State) (b : Block) (c : Cmd) : State :=
  if s.encBehind b c then s
  else
    let key := b.owner * 2 ^ 56 + c.session
    let work : Eng Nat := (s.engRead (c.req b false) 0 c.session 64).andThen (fun bytes s =>
      let v := Session.ofNat (ofBytes bytes)
      if !sessionOk (ofBytes bytes) then .fail 2 0 0 s
      else match c.encOp with
        | 0 => (s.touchWork b c v).andThen (fun _ s => .ok 0 { s with sessions := SMap.set s.sessions key 0 })
        | 1 => s.encodeOne b c v
        | _ => .ok 0 s)
    match work with
    | .ok d s' => s'.finishOf c.uid 0 d 0
    | .fail code d a s' => s'.finishOf c.uid code d a
    | .wait => s

/-- An ENC of one operation moved on, its block resident or cast. -/
def State.encEvent (s : State) (op b i : Nat) : State :=
  match s.cmdOf b i with
  | none => s
  | some (blk, c) => if c.op5 = 0x18 ∧ c.running ∧ c.fin.isNone ∧ c.encOp = op then s.seeing c (fun s => s.moveEnc blk c) else s

/-- ENC_START (R364). -/
def execEncStart (b i : Nat) (s : State) : Outcome := .next (s.encEvent 0 b i)
/-- ENC_FRAME (R364). -/
def execEncFrame (b i : Nat) (s : State) : Outcome := .next (s.encEvent 1 b i)
/-- ENC_END (R364). -/
def execEncEnd (b i : Nat) (s : State) : Outcome := .next (s.encEvent 2 b i)

end Sys2Proof.Machine
end

