-- ==== Sys2Proof/Machine/Scalar.lean ====
section
/-! DEFINITION. The block's scalar unit, class 0xD (R186 to R188). -/

namespace Sys2Proof.Machine

/-- R186: a class 0xD group: once per issue, for the lowest thread whose guard passes and whose fields pass their checks; then `each`
in every such thread. A condition that the one execution meets is raised in every one of them (R187; log entry 24). -/
def State.scalarUnit (s : State) (vs ss : List Nat) (act : State → Block → Thread → Except Trap State)
    (each : Block → Thread → Thread) : Outcome :=
  match s.blocks[s.cur.blk]? with
  | none => .next s
  | some b =>
    match s.passing.find? (fun t => (checkRegs b t vs ss).isNone) with
    | none => .next (s.lanes (fun _ t => match checkRegs b t vs ss with | some tr => .error tr | none => .ok t))
    | some lead =>
      match act s b lead with
      | .error tr => .next (s.lanes (fun _ t => .error ((checkRegs b t vs ss).getD tr)))
      | .ok s' => .next (s'.lanes (fun _ t => match checkRegs b t vs ss with | some tr => .error tr | none => .ok (each b t)))

/-- Scalar registers that field a names; none under a literal. -/
def State.scA (s : State) (a w : Nat) : List Nat := if (s.litFor .a).isSome then [] else upto a 1 w
/-- Scalar registers that field b names; none under a literal. -/
def State.scB (s : State) (b w : Nat) : List Nat := if (s.litFor .b).isSome then [] else upto b 1 w
/-- The scalar operand of field a, or the literal. -/
def State.sopA (s : State) (b : Block) (t : Thread) (a : Nat) : Word := (s.litFor .a).getD (b.sget t a)
/-- The scalar operand of field b, or the literal. -/
def State.sopB (s : State) (b : Block) (t : Thread) (n : Nat) : Word := (s.litFor .b).getD (b.sget t n)

/-- s(SWB + d) ← x. -/
def State.setScalar (s : State) (t : Thread) (d : Nat) (x : Word) : State :=
  s.updBlock s.cur.blk (fun b => b.sput (t.swb + d) x)

/-- s(d) ← f s(a) s(b). -/
def State.sbin (s : State) (d a b : Reg) (f : Word → Word → Word) : Outcome :=
  s.scalarUnit [] (d.toNat :: (s.scA a.toNat 1 ++ s.scB b.toNat 1))
    (fun s blk t => .ok (s.setScalar t d.toNat (f (s.sopA blk t a.toNat) (s.sopB blk t b.toNat)))) (fun _ t => t)

/-- s(d) ← f s(a). -/
def State.sun (s : State) (d a : Reg) (f : Word → Word) : Outcome :=
  s.scalarUnit [] (d.toNat :: s.scA a.toNat 1)
    (fun s blk t => .ok (s.setScalar t d.toNat (f (s.sopA blk t a.toNat)))) (fun _ t => t)

/-- SADD (R186). -/
def execSadd (d a b : Reg) (s : State) : Outcome := s.sbin d a b (fun x y => x + y)
/-- SSUB (R186). -/
def execSsub (d a b : Reg) (s : State) : Outcome := s.sbin d a b (fun x y => x - y)
/-- SMUL (R186). -/
def execSmul (d a b : Reg) (s : State) : Outcome := s.sbin d a b (fun x y => x * y)
/-- SAND (R186). -/
def execSand (d a b : Reg) (s : State) : Outcome := s.sbin d a b (fun x y => x &&& y)
/-- SOR (R186). -/
def execSor (d a b : Reg) (s : State) : Outcome := s.sbin d a b (fun x y => x ||| y)
/-- SXOR (R186). -/
def execSxor (d a b : Reg) (s : State) : Outcome := s.sbin d a b (fun x y => x ^^^ y)
/-- SSHL (R186). -/
def execSshl (d a b : Reg) (s : State) : Outcome := s.sbin d a b (fun x y => x <<< (y.toNat % 32))
/-- SSHR (R186). -/
def execSshr (d a b : Reg) (s : State) : Outcome := s.sbin d a b (fun x y => x >>> (y.toNat % 32))
/-- SSAR (R186). -/
def execSsar (d a b : Reg) (s : State) : Outcome := s.sbin d a b (fun x y => x.sshiftRight (y.toNat % 32))
/-- SMIN (R186). -/
def execSmin (d a b : Reg) (s : State) : Outcome := s.sbin d a b minS
/-- SMAX (R186). -/
def execSmax (d a b : Reg) (s : State) : Outcome := s.sbin d a b maxS
/-- SMINU (R186). -/
def execSminu (d a b : Reg) (s : State) : Outcome := s.sbin d a b minU
/-- SMAXU (R186). -/
def execSmaxu (d a b : Reg) (s : State) : Outcome := s.sbin d a b maxU
/-- SMOV (R186). -/
def execSmov (d a : Reg) (s : State) : Outcome := s.sun d a id
/-- SADDI (R186). -/
def execSaddi (d a i : Reg) (s : State) : Outcome := s.sun d a (fun x => x + i.signExtend 32)
/-- SSHLI (R186). -/
def execSshli (d a : Reg) (n : BitVec 5) (s : State) : Outcome := s.sun d a (fun x => x <<< n.toNat)
/-- SSHRI (R186). -/
def execSshri (d a : Reg) (n : BitVec 5) (s : State) : Outcome := s.sun d a (fun x => x >>> n.toNat)
/-- SSARI (R186). -/
def execSsari (d a : Reg) (n : BitVec 5) (s : State) : Outcome := s.sun d a (fun x => x.sshiftRight n.toNat)

/-- SCMP (R186, R41). -/
def execScmp (c p : BitVec 3) (a b : Reg) (s : State) : Outcome :=
  s.scalarUnit [] (s.scA a.toNat 1 ++ s.scB b.toNat 1) (fun s _ _ => .ok s)
    (fun blk t => t.putPred p.toNat (icond c (s.sopA blk t a.toNat) (s.sopB blk t b.toNat)))

/-- V2S (R186). -/
def execV2s (d a : Reg) (s : State) : Outcome :=
  s.scalarUnit (s.vecA a.toNat 1) [d.toNat]
    (fun s _ t => match checkPoison t (s.vecA a.toNat 1) with
      | some tr => .error tr
      | none => .ok (s.setScalar t d.toNat (s.opA t a.toNat))) (fun _ t => t)

/-- S2V (R186). -/
def execS2v (d a : Reg) (s : State) : Outcome :=
  s.scalarUnit [d.toNat] (s.scA a.toNat 1) (fun s _ _ => .ok s) (fun blk t => t.put d.toNat (s.sopA blk t a.toNat))

/-- SADD64 (R186). -/
def execSadd64 (d a b : Reg) (s : State) : Outcome :=
  s.scalarUnit [] (upto d.toNat 1 2 ++ (s.scA a.toNat 2 ++ s.scB b.toNat 2))
    (fun s blk t =>
      let x : DWord := ((s.litFor .a).map (·.signExtend 64)).getD (blk.sget64 t a.toNat)
      let y : DWord := ((s.litFor .b).map (·.signExtend 64)).getD (blk.sget64 t b.toNat)
      let z := x + y
      .ok ((s.setScalar t d.toNat (z.setWidth 32)).setScalar t (d.toNat + 1) ((z >>> 32).setWidth 32))) (fun _ t => t)

/-- SLD.32 (R186, R187). -/
def execSld32 (d a b : Reg) (s : State) : Outcome :=
  s.scalarUnit [] (d.toNat :: s.scA a.toNat 1)
    (fun s blk t =>
      let x := (s.sopA blk t a.toNat).toNat + 4 * b.toNat
      match s.place blk false x 4 with
      | .error tr => .error tr
      | .ok sp => match s.localLoad t sp 4 with
        | .error syn => .error (.poisonAt syn x)
        | .ok (bytes, s') => .ok (s'.setScalar t d.toNat (BitVec.ofNat 32 (ofBytes bytes)))) (fun _ t => t)

/-- SST.32 (R186, R187, R216). -/
def execSst32 (d a b : Reg) (s : State) : Outcome :=
  s.scalarUnit [] (d.toNat :: s.scA a.toNat 1)
    (fun s blk t =>
      let x := (s.sopA blk t a.toNat).toNat + 4 * b.toNat
      match s.place blk false x 4 with
      | .error tr => .error tr
      | .ok sp => match s.localStore t sp (toBytes 4 (blk.sget t d.toNat).toNat) with
        | .error g => .error (.clobber false x g)
        | .ok s' => .ok s') (fun _ t => t)

end Sys2Proof.Machine
end

