-- ==== Sys2Proof/Machine/Sync.lean ====
section
/-! DEFINITION. Barrier objects (R189 to R193), convergence registers (R194, R195), fences (R257 to R259, R278), and waits for engines
(R303, R304, R356). -/

namespace Sys2Proof.Machine

/-! ## Barrier objects -/

/-- R190: the address register value of a barrier form. -/
def barAddr (b : Block) (t : Thread) (win : Bool) (a : Nat) : Nat := if win then (b.sget t a).toNat else (b.sget64 t a).toNat

/-- R190: the low word of a barrier's address, as BOUND and BARRIER_CLOBBER report it. -/
def Trap.bar (c : Cause) (addr : Nat) : Trap :=
  { cause := c, extra := BitVec.ofNat 64 (addr % 2 ^ 32), addr := BitVec.ofNat 64 (addr % 2 ^ 56) }

/-- R190: the faults of an object address, in the order of the list; a barrier object in device memory lies on a DRAM page
(R251). -/
def State.barCheck (s : State) (b : Block) (t : Thread) (win : Bool) (addr : Nat) : Option Trap :=
  if win then
    if addr % 16 ≠ 0 then some (.misalign 16 addr)
    else if (s.spot s.cur.blk b true addr 16).isNone then some (.bar .bound addr) else none
  else if bit addr 63 then
    if fld addr 7 56 ≠ 0 then some (.bar .bound addr)
    else if addr % 16 ≠ 0 then some (.misalign 16 (fld addr 56 0))
    else match s.translate (b.rmwReq t.level) (fld addr 56 0) 16 with
      | .error f => some (f.trap (b.rmwReq t.level) (fld addr 56 0))
      | .ok x => match x.place.device with
        | some _ => none
        | none => some ((MemFault.stage2 x.gpa).trap (b.rmwReq t.level) (fld addr 56 0))
  else if fld addr 45 18 ≠ 0 then some (.bar .bound addr)
  else if addr % 16 ≠ 0 then some (.misalign 16 addr)
  else if b.scratchSize < addr + 16 then some (.bar .bound addr) else none

/-- R250: a barrier access to device memory waits behind a side-log entry of its granule. -/
def State.barHeld (s : State) (b : Block) (t : Thread) (win : Bool) (addr : Nat) : Bool :=
  !win && bit addr 63 && s.readHeld (b.rmwReq t.level) (fld addr 56 0) 16

/-- R193: a device-memory object with LIVE = 1 whose bytes no barrier instruction wrote. -/
def Barrier.broken (o : Barrier) (addr : Nat) (win : Bool) : Bool :=
  !win && bit addr 63 && o.live && (o.top % 2 ^ 31 != 0 || o.expect == 0 || 2 ^ 31 ≤ o.expect || o.expect ≤ o.arrived)

/-- R191, R193: the object at an address that a barrier instruction acts on, with the state after reading it; a trap where it is
broken, or not live when `live` asks for it. An address whose block is not there is past the neighbourhood (log entry 23). -/
def State.barObject (s : State) (b : Block) (t : Thread) (win live : Bool) (addr : Nat) : Except Trap (BarLoc × Barrier × State) :=
  match s.barCheck b t win addr with
  | some tr => .error tr
  | none => match s.barLoc s.cur.blk win addr with
    | none => .error (.bar .bound addr)
    | some l => match s.barRead b t.level l with
      | .error (f, _) => .error (f.trap (b.rmwReq t.level) (fld addr 56 0))
      | .ok (o, s') =>
        if o.broken addr win || live && !o.live then .error (.bar .barrierClobber addr) else .ok (l, o, s')

/-- R191: an object written back by a thread. -/
def State.barPut (s : State) (b : Block) (t : Thread) (l : BarLoc) (o : Barrier) : Except Trap State :=
  match s.barWrite b t.level o l with
  | .error (f, va) => .error (f.trap (b.rmwReq t.level) va)
  | .ok s' => .ok s'

/-- R191: an object after one arrival. -/
def Barrier.arrive (o : Barrier) : Barrier :=
  if (o.arrived + 1) % 2 ^ 32 = o.expect then { o with phase := (o.phase + 1) % 2 ^ 32, arrived := 0 }
  else { o with arrived := (o.arrived + 1) % 2 ^ 32 }

/-- R259: the key of a barrier object in `Block.arrViews`, the same for every way in which the block's threads name it: its offset in the
block's own scratchpad, a window offset, or a guest-physical address. -/
def State.barKey (s : State) (b : Block) (t : Thread) (win : Bool) (addr : Nat) : Nat :=
  match s.barLoc s.cur.blk win addr with
  | some (.scratch p off) => if p = s.cur.blk then off else 2 ^ 65 + addr
  | some (.device va) => 2 ^ 64 + (match s.translate (b.rmwReq t.level) va 16 with | .ok x => x.gpa | .error _ => va)
  | none => 2 ^ 65 + addr

/-- The key of a convergence register in `Block.arrViews`. -/
def convKey (n : Nat) : Nat := 2 ^ 66 + n

/-- R259: a thread arrives at an object, or signs a register, with what its OFENCEs have ordered. -/
def Block.noteArrival (b : Block) (key : Nat) (t : Thread) : Block :=
  { b with arrViews := SMap.set b.arrViews key (max (SMap.getD b.arrViews key 0) t.oview) }

/-- R259, R191, R195: an object or a register set anew by an issue, which releases its waiters, brings what the OFENCEs of the issue's
threads have ordered. -/
def State.noteReset (s : State) (key : Nat) : State :=
  s.updBlock s.cur.blk (fun b => s.passing.foldl (fun b t => b.noteArrival key t) b)

/-- BARINIT (R191): once per issue. -/
def execBarinit (a b : Reg) (s : State) : Outcome :=
  let held := (s.blocks[s.cur.blk]?).bind (fun blk => (s.passing.find? (fun t =>
    (checkRegs blk t [] (upto a.toNat 1 2 ++ [b.toNat])).isNone && s.barHeld blk t false (barAddr blk t false a.toNat))).map
      (fun t => fld (barAddr blk t false a.toNat) 56 0))
  match held with
  | some va => .next (s.lanesBy id (fun _ t => .ok (t.hold s.cur (.load va 16 false))))
  | none =>
    s.scalarUnit [] (upto a.toNat 1 2 ++ [b.toNat])
      (fun s blk t =>
        let addr := barAddr blk t false a.toNat
        match s.barObject blk t false false addr with
        | .error tr => .error tr
        | .ok (l, o, s') =>
          let c := fld (blk.sget t b.toNat).toNat 31 0
          let phase := if o.live then (o.phase + 1) % 2 ^ 32 else 0
          let s' := s'.noteReset (s.barKey blk t false addr)
          s'.barPut blk t l (if c = 0 then { o with live := false, phase := phase }
            else { o with live := true, phase := phase, arrived := 0, expect := c })) (fun _ t => t)

/-- R259: the wait of a thread on an object or a register is over: it joins what the arrivals there had ordered. -/
def State.joinView (s : State) (k key : Nat) : State :=
  match s.blocks[s.cur.blk]? with
  | none => s
  | some b => s.updThread s.cur.blk k (fun t => { t with oview := max t.oview (SMap.getD b.arrViews key 0) })

/-- R191: one thread arrives; `k` is given the PHASE it met and the state after. -/
def State.barArrive (s : State) (b : Block) (t : Thread) (win : Bool) (addr : Nat) (k : State → Nat → LaneRes) : LaneRes :=
  if s.ownLogged b.uid t.tid then .wait .fence
  else if s.barHeld b t win addr then .wait (.load (fld addr 56 0) 16 false)
  else match s.barObject b t win true addr with
    | .error tr => .trap s tr
    | .ok (l, o, s') => match s'.barPut b t l o.arrive with
      | .error tr => .trap s tr
      | .ok s'' => k (s''.updBlock s''.cur.blk (fun b => b.noteArrival (s.barKey b t win addr) t)) o.phase

/-- BARARV, NBARARV (R191). -/
def State.barArv (s : State) (win : Bool) (d a : Reg) : Outcome :=
  .next (s.foldLanes (fun s blk t => laneChecked blk t [d.toNat] (upto a.toNat 1 (if win then 1 else 2)) [] s (fun _ =>
    s.barArrive blk t win (barAddr blk t win a.toNat) (fun s' p =>
      .done (s'.updThread s'.cur.blk t.tid (fun u => u.put d.toNat (BitVec.ofNat 32 p)))))))

/-- R191, R198: a thread that waits on the object of an address with a token goes on once the object has released it, or is not live, or
its phase has passed. What the object meanwhile raises when it is read, the thread meets (log entry 53). -/
def State.barWaitOn (s : State) (b : Block) (t : Thread) (win : Bool) (addr : Nat) (token : Word) (freed : Bool) : LaneRes :=
  let goOn (s : State) : LaneRes := .done ((s.updThread s.cur.blk t.tid (fun u => { u with freed := false })).joinView t.tid (s.barKey b t win addr))
  if freed then goOn s
  else if s.barHeld b t win addr then .wait t.wait
  else match s.barCheck b t win addr with
    | some tr => .trap s tr
    | none => match s.barLoc s.cur.blk win addr with
      | none => .trap s (.bar .bound addr)
      | some l => match s.barRead b t.level l with
        | .error (f, _) => .trap s (f.trap (b.rmwReq t.level) (fld addr 56 0))
        | .ok (o, s') => if !o.live || o.phase != token.toNat then goOn s' else .wait t.wait

/-- BARWAIT, NBARWAIT (R191). -/
def State.barWait (s : State) (win : Bool) (a b : Reg) : Outcome :=
  .next (s.foldLanes (fun s blk t => laneChecked blk t [b.toNat] (upto a.toNat 1 (if win then 1 else 2)) [b.toNat] s (fun _ =>
    let addr := barAddr blk t win a.toNat
    match t.wait with
    | .barrier w x token _ => s.barWaitOn blk t w x token t.freed
    | _ =>
      if s.barHeld blk t win addr then .wait (.load (fld addr 56 0) 16 false)
      else match s.barObject blk t win true addr with
        | .error tr => .trap s tr
        | .ok (_, o, s') => if o.phase ≠ (t.get b.toNat).toNat then .done (s'.joinView t.tid (s.barKey blk t win addr)) else .wait (.barrier win addr (t.get b.toNat) false))))

/-- R198: the arrival that the group at which a thread stands has made already, before a trap took its wait. -/
def Thread.arrivalAt (t : Thread) (win : Bool) (addr : Nat) : Option Synced :=
  t.synced.find? (fun a => a.pc == t.pc && a.win == win && a.addr == addr && a.level == t.level)

/-- BARSYNC, NBARSYNC (R191): arrives once, then waits on the token it keeps, also where a trap has come between (R198). -/
def State.barSync (s : State) (win : Bool) (a : Reg) : Outcome :=
  .next (s.foldLanes (fun s blk t => laneChecked blk t [] (upto a.toNat 1 (if win then 1 else 2)) [] s (fun _ =>
    let addr := barAddr blk t win a.toNat
    match t.wait, t.arrivalAt win addr with
    | .barrier w x token true, _ => s.barWaitOn blk t w x token t.freed
    | _, some y =>
      let w : Wait := .barrier win addr y.token true
      let s := s.updThread s.cur.blk t.tid (fun u => { u with synced := u.synced.erase y, wait := w, freed := y.freed })
      match s.barWaitOn blk { t with wait := w } win addr y.token y.freed with
      | .wait _ => .moved (s.updThread s.cur.blk t.tid (fun u => u.hold s.cur w))
      | r => r
    | _, none =>
      s.barArrive blk t win addr (fun s' p =>
        let w : Wait := .barrier win addr (BitVec.ofNat 32 p) true
        if s'.waitOver s'.cur.blk blk { t with wait := w } then .done (s'.joinView t.tid (s.barKey blk t win addr))
        else .moved (s'.updThread s'.cur.blk t.tid (fun u => u.hold s'.cur w))))))

/-- BARARV (R191). -/
def execBararv (d a : Reg) (s : State) : Outcome := s.barArv false d a
/-- BARWAIT (R191). -/
def execBarwait (a b : Reg) (s : State) : Outcome := s.barWait false a b
/-- BARSYNC (R191). -/
def execBarsync (a : Reg) (s : State) : Outcome := s.barSync false a
/-- NBARARV (R191). -/
def execNbararv (d a : Reg) (s : State) : Outcome := s.barArv true d a
/-- NBARWAIT (R191). -/
def execNbarwait (a b : Reg) (s : State) : Outcome := s.barWait true a b
/-- NBARSYNC (R191). -/
def execNbarsync (a : Reg) (s : State) : Outcome := s.barSync true a

/-! ## Convergence registers -/

/-- R195: register n has fired, or has been set anew: the threads and the engine commands that it now lets go on are released, whatever it
does later. -/
def Block.fire (b : Block) (n : Nat) : Block :=
  let gen := convGen (b.cregs.getD n 0)
  { b with
    threads := b.threads.map (fun t => match t.wait with
      | .conv r token => if r = n ∧ token ≠ gen then { t with freed := true } else t
      | _ => t)
    window := b.window.map (fun c =>
      let w := ((c.pb.getD 7 0).toNat)
      if bit w 31 && fld w 4 27 == n && fld w 12 15 != gen then { c with fired := true } else c) }

/-- CINIT (R195): once per issue. -/
def execCinit (n : BitVec 4) (a : Reg) (s : State) : Outcome :=
  s.scalarUnit [] [a.toNat]
    (fun s blk t =>
      let x := (blk.sget t a.toNat).toNat
      if x = 0 ∨ 1024 < x then .error { cause := .bound, extra := BitVec.ofNat 64 x }
      else .ok ((s.noteReset (convKey n.toNat)).updBlock s.cur.blk (fun b => { b with
        cregs := upd b.cregs n.toNat (fun c => convWord (x - 1) 0 (convGen c + 1)) }.fire n.toNat))) (fun _ t => t)

/-- R195: a convergence register after one signature. -/
def convSign (c : Word) : Word :=
  if convCount c = convExpect c then convWord (convExpect c) 0 (convGen c + 1) else convWord (convExpect c) (convCount c + 1) (convGen c)

/-- MSIGN (R195). -/
def execMsign (d : Reg) (n : BitVec 4) (s : State) : Outcome :=
  .next (s.foldLanes (fun s blk t => laneChecked blk t [d.toNat] [] [] s (fun _ =>
    .done ((s.updBlock s.cur.blk (fun b => { b.noteArrival (convKey n.toNat) t with cregs := upd b.cregs n.toNat convSign }.fire n.toNat)).updThread s.cur.blk t.tid
      (fun u => u.put d.toNat (BitVec.ofNat 32 (convGen (blk.cregs.getD n.toNat 0))))))))

/-- CWAIT (R195). -/
def execCwait (n : BitVec 4) (b : Reg) (s : State) : Outcome :=
  .next (s.foldLanes (fun s blk t => laneChecked blk t [b.toNat] [] [b.toNat] s (fun _ =>
    let w : Wait := match t.wait with
      | .conv r token => .conv r token
      | _ => .conv n.toNat (t.get b.toNat).toNat
    if s.waitOver s.cur.blk blk { t with wait := w } then
      .done ((s.updThread s.cur.blk t.tid (fun u => { u with freed := false })).joinView t.tid (convKey n.toNat))
    else .wait w)))

/-! ## Fences -/

/-- R264: a FENCE.S sends a flushing read for a thread whose host writes no read has acknowledged; the acknowledgment comes at once or
in a step of its own (ACCESS_PERFORMED, log entry 95). Under TSCOPE there is nothing to flush (R266). -/
def State.flushHost (s : State) (b : Block) (t : Thread) : State :=
  if t.posted && !t.flushing && !s.tscope (ownerAt b.owner t.level) then
    { s with outbox := s.outbox ++ [OutMsg.flushRead (s.portOf (ownerAt b.owner t.level))] }.updThread s.cur.blk t.tid
      (fun u => { u with posted := s.later, flushing := s.later })
  else s

/-- R258, R250, R279: a fence of scope `x` (0 B, 1 N, 2 Q, 3 T and S) completes in a thread once its own side-log entries have drained,
and a FENCE.S (`host`) once its host writes are acknowledged; the gang goes on when it is complete in every one of its threads. A
demotion is counted (R266). -/
def State.fence (s : State) (x : Nat) (host : Bool) : Outcome :=
  match s.blocks[s.cur.blk]? with
  | none => .next s
  | some b =>
    let s := if host then s.passing.foldl (fun s t => s.flushHost b t) s else s
    if s.passing.any (fun t => !s.fenceDone b t) then
      .next (s.cur.tids.foldl (fun s k => s.updThread s.cur.blk k (fun t => t.hold s.cur .fence)) (s.updBlock s.cur.blk (fun b => { b with progress := s.clock })))
    else .next (s.foldLanes (fun s blk t =>
      let s := s.noteFence blk x
      .done (if host && s.tscope (ownerAt blk.owner t.level) then
        s.count blk.owner (fun c => { c with scopeClamp := satAdd c.scopeClamp 1 }) else s)))

/-- FENCE.B (R278). -/
def execFenceB (s : State) : Outcome := s.fence 0 false
/-- FENCE.N (R278). -/
def execFenceN (s : State) : Outcome := s.fence 1 false
/-- FENCE.Q (R278). -/
def execFenceQ (s : State) : Outcome := s.fence 2 false
/-- FENCE.T (R278). -/
def execFenceT (s : State) : Outcome := s.fence 3 false
/-- FENCE.S (R278, R264, R266). -/
def execFenceS (s : State) : Outcome := s.fence 3 true
/-- OFENCE (R259): earlier stores and atomics are performed as they issue; the block's commands that start after it read them. -/
def execOfence (s : State) : Outcome := s.alu [] [] [] (fun _ t => { t with oview := s.stamp })

/-! ## Batches and sequence numbers -/

/-- R303: a thread after closing its open batch, or none when it must wait: fifteen closed batches are outstanding. -/
def Block.closeBatch (b : Block) (t : Thread) : Option Thread :=
  if t.openB.isEmpty then some t
  else if 15 ≤ (b.outstanding t).length then none
  else some { t with openB := [], closedB := b.outstanding t ++ [t.openB] }

/-- R301, R304: a WAITB ends: it covers the commands of the thread's complete batches. -/
def State.coverBatches (s : State) (k : Nat) : State :=
  match s.thread? s.cur.blk k with
  | none => s
  | some (b, t) => s.cover s.cur.blk k (fun u => t.unwaited.contains u && !(b.outstanding t).any (fun l => l.contains u))

/-- COMMIT (R303). -/
def execCommit (s : State) : Outcome :=
  .next (s.foldLanes (fun s blk t => match blk.closeBatch t with
    | none => .wait (.batch 14 none)
    | some t' => .done (s.updThread s.cur.blk t.tid (fun _ => t'))))

/-- WAITB (R304). -/
def execWaitb (n : BitVec 4) (s : State) : Outcome :=
  .next (s.foldLanes (fun s blk t => match blk.closeBatch t with
    | none => .wait (.batch 14 (some n.toNat))
    | some t' =>
      let s' := s.updThread s.cur.blk t.tid (fun _ => t')
      if (blk.outstanding t').length ≤ n.toNat then .done (s'.coverBatches t.tid)
      else .moved (s'.updThread s.cur.blk t.tid (fun u => u.hold s.cur (.batch n.toNat (some n.toNat))))))

/-- R301, R302: a WAITSEQ ends: it covers the commands of its kind up to the awaited number. -/
def State.coverSeq (s : State) (k kind n : Nat) : State :=
  let past := ((s.blocks[s.cur.blk]?).map (·.past)).getD []
  s.cover s.cur.blk k (fun u => past.any (fun p => p.uid == u && p.kind == kind && (n + 2 ^ 32 - p.seq) % 2 ^ 32 < 2 ^ 31))

/-- R301, R260: a tile wait ends: it covers the retired commands that wrote the tile. -/
def State.coverTile (s : State) (k n : Nat) : State :=
  let past := ((s.blocks[s.cur.blk]?).map (·.past)).getD []
  s.cover s.cur.blk k (fun u => past.any (fun p => p.uid == u && p.tiles.contains n))

/-- WAITSEQ (R356, R302). -/
def execWaitseq (a : Reg) (e : BitVec 3) (s : State) : Outcome :=
  .next (s.foldLanes (fun s blk t => laneChecked blk t [] [a.toNat] [] s (fun _ =>
    let w : Wait := .seq e.toNat (blk.sget t a.toNat).toNat
    if s.waitOver s.cur.blk blk { t with wait := w } then .done (s.coverSeq t.tid e.toNat (blk.sget t a.toNat).toNat) else .wait w)))

/-! ## Tiles -/

/-- R215: the tile-table entry of a TSTAT or TWAIT field. -/
def tileEntryOf (t : BitVec 5) : Nat := if t.getLsbD 4 then 8 + t.toNat % 16 else t.toNat % 8

/-- R214: REG_BOUND of a tile that is not declared. -/
def Block.tileCheck (b : Block) (n : Nat) : Option Trap := if (b.tile n).decl then none else some (.regBound n)

/-- R212: the word of a tile-table entry. -/
def TileEntry.word (e : TileEntry) : Word :=
  BitVec.ofNat 32 (e.state * 2 ^ 30 + (if e.decl then 2 ^ 29 else 0) + e.cmd % 64 * 2 ^ 18 + e.base % 2 ^ 14)

/-- TSTAT (R215). -/
def execTstat (d : Reg) (t : BitVec 5) (s : State) : Outcome :=
  .next (s.lanes (fun blk u =>
    match checkRegs blk u [d.toNat] [] with
    | some tr => .error tr
    | none => match blk.tileCheck (tileEntryOf t) with
      | some tr => .error tr
      | none => .ok (u.put d.toNat (blk.tile (tileEntryOf t)).word)))

/-- TWAIT (R215). -/
def execTwait (t : BitVec 5) (s : State) : Outcome :=
  .next (s.foldLanes (fun s blk u =>
    match blk.tileCheck (tileEntryOf t) with
    | some tr => .trap s tr
    | none =>
      let w : Wait := .tile (tileEntryOf t) true
      if s.waitOver s.cur.blk blk { u with wait := w } then .done (s.coverTile u.tid (tileEntryOf t)) else .wait w))

/-- R355: one direction of TMOV: `lim` bounds x; `act` moves for thread index j and slice x. -/
def State.tmov (s : State) (t : BitVec 3) (b : Reg) (o : BitVec 6) (lim : Nat) (vs srcs : List Nat)
    (act : State → Block → Thread → Nat → Nat → LaneRes) : Outcome :=
  .next (s.foldLanes (fun s blk u => laneChecked blk u vs [b.toNat] [] s (fun _ =>
    match blk.tileCheck t.toNat with
    | some tr => .trap s tr
    | none => match checkPoison u srcs with
      | some tr => .trap s tr
      | none =>
        let w : Wait := .tile t.toNat false
        if !s.waitOver s.cur.blk blk { u with wait := w } then .wait w
        else
          let x := ((blk.sget u b.toNat).toNat + o.toNat) % 2 ^ 32
          if lim ≤ x then .trap s { cause := .bound, extra := BitVec.ofNat 64 x }
          else act (s.coverTile u.tid t.toNat) blk u (u.tid % 64) x)))

/-- The elements of a slice: row and column of the i-th. -/
def rowSlice (x j : Nat) : List (Nat × Nat) := (List.range 4).map (fun i => (x, 64 * i + j))

/-- A slice of an accumulator tile into registers. -/
def State.tmovOut (s : State) (blk : Block) (u : Thread) (t d : Nat) (cells : List (Nat × Nat)) : LaneRes :=
  match cells.findSome? (fun c => blk.accSyndrome t c.1 c.2) with
  | some syn => .trap s { cause := .uncorrectable, extra := BitVec.ofNat 64 syn }
  | none => .done (s.updThread s.cur.blk u.tid (fun u => u.putList d (cells.map (fun c => blk.acc t c.1 c.2))))

/-- A slice of an accumulator tile from registers. -/
def State.tmovIn (s : State) (u : Thread) (t d : Nat) (cells : List (Nat × Nat)) : LaneRes :=
  .done ((s.noteTile s.cur.blk t cells).updBlock s.cur.blk (fun b => cells.zipIdx.foldl (fun b c => b.putAcc t c.1.1 c.1.2 (u.get (d + c.2))) b))

/-- TMOV.TR (R355). -/
def execTmovTr (d : Reg) (t : BitVec 3) (b : Reg) (o : BitVec 6) (s : State) : Outcome :=
  s.tmov t b o 64 (upto d.toNat 1 4) [] (fun s blk u j x => s.tmovOut blk u t.toNat d.toNat (rowSlice x j))
/-- TMOV.TC (R355). -/
def execTmovTc (d : Reg) (t : BitVec 3) (b : Reg) (o : BitVec 6) (s : State) : Outcome :=
  s.tmov t b o 256 [d.toNat] [] (fun s blk u j x => s.tmovOut blk u t.toNat d.toNat [(j, x)])
/-- TMOV.RT (R355). -/
def execTmovRt (d : Reg) (t : BitVec 3) (b : Reg) (o : BitVec 6) (s : State) : Outcome :=
  s.tmov t b o 64 (upto d.toNat 1 4) (upto d.toNat 1 4) (fun s _ u j x => s.tmovIn u t.toNat d.toNat (rowSlice x j))
/-- TMOV.CT (R355). -/
def execTmovCt (d : Reg) (t : BitVec 3) (b : Reg) (o : BitVec 6) (s : State) : Outcome :=
  s.tmov t b o 256 [d.toNat] [d.toNat] (fun s _ u j x => s.tmovIn u t.toNat d.toNat [(j, x)])

end Sys2Proof.Machine
end

