-- ==== Sys2Proof/Machine/Command.lean ====
section
/-! DEFINITION. The life of an engine command: start (R299), work piece by piece (R366), retirement (R300), and migration to a helper
under tokens and leases (R317 to R319, R419). -/

namespace Sys2Proof.Machine

/-! ## Tokens, helpers, leases -/

/-- R319: tokens that a slice holds. -/
def State.tokensHeld (s : State) (o : Nat) : Nat :=
  3 * ((s.blocks.filter (fun b => b.owner == o && recMatrix b.record)).length +
    ((s.blocks.filter (fun b => b.owner == o)).flatMap (fun b => b.window.filter (fun c => c.helper.isSome))).length)

/-- R319: tokens held of the pool. -/
def State.poolHeld (s : State) : Nat :=
  3 * ((s.blocks.filter (fun b => recMatrix b.record)).length + (s.blocks.flatMap (fun b => b.window.filter (fun c => c.helper.isSome))).length)

/-- R319: the slice's quota gives `n` tokens more. -/
def State.quotaFree (s : State) (o n : Nat) : Bool := s.tokensHeld o + n ≤ s.sliceWord o 13

/-- R319: the pool gives `n` tokens more. -/
def State.poolFree (s : State) (n : Nat) : Bool := s.poolHeld + n ≤ s.pool

/-- R319: a slice may take `n` tokens more. -/
def State.tokensFree (s : State) (o n : Nat) : Bool := s.quotaFree o n && s.poolFree n

/-- R419: the lease in force of a slice: LIMIT, LESSOR and QUAD. -/
def State.leaseOf (s : State) (o : Nat) : Option (Nat × Nat × Nat) :=
  let w := s.sliceWord o 15
  if o < Config.nSlices ∧ fld w 40 24 ≠ 0 then some (fld w 40 24, fld w 6 16, fld w 5 0) else none

/-- R318, R419: the quadrant is lent to another slice. -/
def State.lentAway (s : State) (o quad : Nat) : Bool :=
  (List.range Config.nSlices).any (fun u => u != o && (s.leaseOf u).any (fun l => l.2.2 == quad))

/-- R317, R318, R419: a core may help a block of an owner on a core: in its quadrant, or in the lent quadrant of its die; a lent core helps
no one but the lessee. -/
def State.helps (s : State) (o from' core : Nat) : Bool :=
  !s.lentAway o (quadOfCore core) &&
  (quadOfCore core == quadOfCore from' || (s.leaseOf o).any (fun l => quadOfCore core == l.2.2 && l.2.2 / 4 == quadOfCore from' / 4))

/-- R317: a matrix engine's own core runs a matrix command other than the given one. -/
def State.engineTaken (s : State) (core uid : Nat) : Bool :=
  s.blocks.any (fun b => b.core == core &&
    b.window.any (fun d => d.uid != uid && kindOf d.op5 == 0 && d.running && d.fin.isNone && d.helper.isNone))

/-- R317: the helper is free: no MATRIX block, no command running there. -/
def State.helperFree (s : State) (core uid : Nat) : Bool :=
  core < Config.nCores && !s.blocks.any (fun b => b.core == core && recMatrix b.record) && !s.engineTaken core uid &&
  !s.blocks.any (fun b => b.window.any (fun c => c.helper == some core && c.fin.isNone))

/-- R317: MMA and MMAS that stream B and A from records may migrate. -/
def Cmd.migratable (c : Cmd) : Bool := (c.op5 == 1 || c.op5 == 2) && bit (pbw c.pb 0) 21 && !bit (pbw c.pb 0) 31

/-- R299, R309: the block's own engine works on an earlier product. -/
def Block.engineBusy (b : Block) (c : Cmd) : Bool :=
  b.window.any (fun d => d.uid < c.uid && (d.op5 == 1 || d.op5 == 2) && d.running && d.fin.isNone && d.helper.isNone)

/-- MIGRATION (R317): command `i` of block `b` moves to the engine of a core. -/
def execMigration (b i core : Nat) (s : State) : Outcome :=
  .next (match s.cmdAt b i with
  | none => s
  | some (p, blk, c) =>
    if c.running && c.fin.isNone && c.helper.isNone && c.migratable && s.engineTaken blk.core c.uid && core != blk.core && s.helps blk.owner blk.core core &&
        s.helperFree core c.uid && s.tokensFree blk.owner 3
    then s.updCmd p c.uid (fun c => { c with helper := some core }) else s)

/-- R318, R317: commands leave the helpers for which `f` holds and go on where they are; the helpers are cleared. -/
def State.reclaim (s : State) (f : Block → Nat → Bool) : State :=
  let cores := s.blocks.flatMap (fun b => b.window.filterMap (fun c => c.helper.filter (f b)))
  let s := cores.foldl State.clearAcc s
  { s with blocks := s.blocks.map (fun b => { b with
      window := b.window.map (fun c => if c.helper.any (f b) then { c with helper := none } else c) }) }

/-- R318, R419: a slice's lease ends: its commands leave the lent quadrant. -/
def State.endLease (s : State) (o : Nat) : State :=
  match s.leaseOf o with
  | none => s
  | some l =>
    (s.reclaim (fun b core => b.owner == o && quadOfCore core == l.2.2)).updSlice o (fun x => { x with record := x.record.set 15 0, leaseUsed := 0 })

/-- LEASE_LAPSE (R419): the metered limit has been reached. -/
def execLeaseLapse (o : Nat) (s : State) : Outcome :=
  .next (match s.leaseOf o with
  | some l => if l.1 ≤ (s.slice o).leaseUsed then s.endLease o else s
  | none => s)

/-! ## Starting -/

/-- R332: another block's command for the same Caliper could have started before this one. -/
def State.caliperQueue (s : State) (b : Block) (c : Cmd) : Bool :=
  s.blocks.any (fun x => caliperOf x.core == caliperOf b.core && x.halted.isNone &&
    x.window.any (fun d => kindOf d.op5 == 1 && !d.running && d.fin.isNone && d.uid != c.uid && x.startOk d && s.earlier d c))

/-- R332, R299: the engine can take the command now. -/
def State.engineOpen (s : State) (b : Block) (c : Cmd) : Bool :=
  match c.op5 with
  | 8 | 9 => !s.caliperTaken b c && !s.caliperQueue b c
  | _ => true

/-- R299: the command may start. -/
def State.mayStart (s : State) (b : Block) (c : Cmd) : Bool :=
  !c.running && c.fin.isNone && b.halted.isNone && b.startOk c && s.engineOpen b c

/-- R213: an accumulator tile that is empty holds +0 when a product starts in it, and so no poison. -/
def Block.freshTiles (b : Block) (c : Cmd) : Block :=
  if c.op5 = 1 ∨ c.op5 = 2 then
    let fresh (n : Nat) : Bool := (tileRefs c.op5 c.pb).any (fun r => !r.st && r.n == n && (b.tile r.entry).state == 0)
    { b with rows := SMap.drop b.rows (fun k => fresh (k / 64)), accPoison := SMap.drop b.accPoison (fun k => fresh (k / 8192)) }
  else b

/-- R332, R364: commands that could start have reached the engine that they share with others. -/
def State.noteArrivals (s : State) : State :=
  { s with blocks := s.blocks.map (fun b => { b with
      window := b.window.map (fun c =>
        if kindOf c.op5 = 1 && c.arrived.isNone && b.halted.isNone && (c.running || b.startOk c) then { c with arrived := some s.clock } else c) }) }

/-- R299: a scratchpad tile that the command names has been released since its issue. -/
def Block.released (b : Block) (c : Cmd) : Bool :=
  !c.declared && !(c.op5 = 5 && fld (pbw c.pb 0) 2 25 = 0) && (tileRefs c.op5 c.pb).any (fun r => r.st && !(b.tile r.entry).decl)

/-- R299, R345, R347: a command starts; none where its first reads must wait (R250), so that it has not started. -/
def State.startCmd (s : State) (p : Nat) (b : Block) (c : Cmd) : Option State :=
  if b.released c then some (s.finish p c 2 0 0)
  else
    let s := s.updBlock p (fun b => (b.freshTiles c).markTiles c)
    let s := s.updCmd p c.uid (fun c => { c with running := true })
    let c := { c with running := true }
    if !b.ctlOk c then some (s.finish p c 2 0 0)
    else match c.op5 with
    | 0 => some (s.startBload p b c)
    | 1 => some (s.startMma p b c)
    | 2 => some (s.startMma p b c)
    | 3 => some (s.startTzero p b c)
    | 4 => some (s.startTdrain p b c)
    | 5 => some (s.startTfill p b c)
    | 8 => s.startTrav p b c
    | 9 => s.startTrav p b c
    | 0x10 => some (s.startCopy p b c)
    | 0x11 => some (s.startScatter p b c)
    | 0x12 => some (s.startRestripe p b c)
    | 0x13 => s.startColl p b c
    | 0x18 => s.startEnc p b c
    | 0x19 => s.startEmit p b c
    | 0x1A => s.startNdone p b c
    | 0x1B => s.startTcbarm p b c
    | 0x1C => s.startTcbret p b c
    | _ => some s

/-- R261, R258, R315: the view point that a command has when it starts: its issue's, the latest fence that covers it, and, behind a
convergence gate, what the signers' OFENCEs had ordered. -/
def State.startView (s : State) (b : Block) (c : Cmd) : Nat :=
  let kind := kindOf c.op5
  let gate := if bit (pbw c.pb 7) 31 then ofenceView kind (SMap.getD b.arrViews (convKey (fld (pbw c.pb 7) 4 27)) 0) else 0
  max (max c.view (s.fenceView b kind)) gate

/-- R299: command `i` of block `b` starts, if it may and `f` takes it. -/
def State.startEvent (s : State) (b i : Nat) (f : Cmd → Bool) : State :=
  match s.cmdAt b i with
  | none => s
  | some (p, blk, c) =>
    if s.mayStart blk c && f c then
      let c := { c with view := s.startView blk c, arrived := some (c.arrived.getD s.clock) }
      let s' := s.updCmd p c.uid (fun _ => c)
      match (s'.opened c).startCmd p blk c with
      | some s'' => s''.closed s' c
      | none => s
    else s

/-- COMMAND_START (R299). -/
def execCommandStart (b i : Nat) (s : State) : Outcome := .next (s.startEvent b i (fun _ => true))

/-- NDONE_REL (R365): an NDONE with REL, in one event. -/
def execNdoneRel (b i : Nat) (s : State) : Outcome := .next (s.startEvent b i (fun c => c.op5 == 0x1A && bit (pbw c.pb 0) 23))

/-- NDONE_FLUSH (R365): an NDONE with FLUSH, in one event. -/
def execNdoneFlush (b i : Nat) (s : State) : Outcome := .next (s.startEvent b i (fun c => c.op5 == 0x1A && bit (pbw c.pb 0) 22))

/-! ## Working -/

/-- R353: a TFILL moved on in its mode. -/
def State.moveTfill (s : State) (p : Nat) (b : Block) (c : Cmd) : State :=
  match fld (pbw c.pb 0) 2 25 with
  | 0 => s.moveDeclare p c
  | 1 => s.moveFill p b c
  | _ => s.moveRelease p b c

/-- R366: the next piece of a running command. -/
def State.moveCmd (s : State) (p : Nat) (b : Block) (c : Cmd) : State :=
  match c.op5 with
  | 0 => s.moveBload p b c
  | 1 => if c.helper.isNone && b.engineBusy c then s else s.moveMma p b c
  | 2 => if c.helper.isNone && b.engineBusy c then s else s.moveMma p b c
  | 3 => s.moveTzero p b c
  | 4 => s.moveTdrain p b c
  | 5 => s.moveTfill p b c
  | 8 => if s.caliperTaken b c then s else s.moveTrav p b c
  | 9 => if s.caliperTaken b c then s else s.moveTrav p b c
  | 0x10 => s.moveCopy p b c
  | 0x11 => s.moveScatter p b c
  | 0x19 => s.moveEmit p b c
  | _ => s

/-- R366: RESTRIPE and ENC go on whether their block is resident or cast; so does COLL. -/
def State.moveAny (s : State) (b : Block) (c : Cmd) : State := if c.op5 = 0x12 then s.moveRestripe c else s.moveEnc b c

/-- COMMAND_CURSOR_ADVANCE (R366). -/
def execCommandCursorAdvance (b i : Nat) (s : State) : Outcome :=
  .next (match s.cmdOf b i, s.cmdAt b i with
  | some (blk, c), at' =>
    if !c.running || c.fin.isSome then s
    else if c.op5 = 0x13 then (if c.joined then s.moveColl blk c else s)
    else if c.op5 = 0x12 ∨ c.op5 = 0x18 then s.seeing c (fun s => s.moveAny blk c)
    else match at' with
      | some (p, blk, c) => if blk.halted.isNone then s.seeing c (fun s => s.moveCmd p blk c) else s
      | none => s
  | none, _ => s)

/-- COMMAND_RETIRE (R300). -/
def execCommandRetire (b i : Nat) (s : State) : Outcome :=
  .next (match s.cmdAt b i with
  | none => s
  | some (p, blk, c) => if blk.halted.isNone then s.retireCmd p c else s)

/-- A TFILL of one mode moved on. -/
def State.tfillEvent (s : State) (mode b i : Nat) (f : State → Nat → Block → Cmd → State) : State :=
  match s.cmdAt b i with
  | none => s
  | some (p, blk, c) => if c.op5 = 5 ∧ c.running ∧ c.fin.isNone ∧ blk.halted.isNone ∧ fld (pbw c.pb 0) 2 25 = mode then s.seeing c (fun s => f s p blk c) else s

/-- TFILL_DECLARE (R353): TFILL in mode 0 makes the tile it declared ready. -/
def execTfillDeclare (b i : Nat) (s : State) : Outcome := .next (s.tfillEvent 0 b i (fun s p _ c => s.moveDeclare p c))
/-- TFILL_FILL (R353): TFILL in mode 1 moves 512 bytes. -/
def execTfillFill (b i : Nat) (s : State) : Outcome := .next (s.tfillEvent 1 b i (fun s p blk c => s.moveFill p blk c))
/-- TFILL_RELEASE (R353): TFILL in mode 2 ends the declaration. -/
def execTfillRelease (b i : Nat) (s : State) : Outcome := .next (s.tfillEvent 2 b i (fun s p blk c => s.moveRelease p blk c))

end Sys2Proof.Machine
end

