-- ==== Sys2Proof/Machine/Place.lean ====
section
/-! DEFINITION. What a launch record must satisfy (R168, R169, R394), what a core can hold (R15, R172, R173, R306), and the state of
a block at its start (R12, R156, R171). -/

namespace Sys2Proof.Machine

/-! ## Records -/

/-- R168: every field is within its limits and every reserved field is zero. -/
def recordOk (r : Nat) : Bool :=
  fld r 512 1536 == 0 && fld r 32 864 == 0 && fld r 30 162 == 0 &&
  (List.range 8).all (fun k => recNlevels r ≤ k || fld (recLevel r k) 16 16 == 0) &&
  fld (recEntry r) 2 0 == 0 && fld (recEntry r) 8 56 == 0 &&
  12 ≤ recNregs r && recNregs r ≤ 252 && recTiles r ≤ 8 && 16 ≤ recSregs r && recSregs r ≤ 256 &&
  recScratch r % 16 == 0 && recScratch r ≤ 262144 &&
  recNrows r ≤ 5 && recNcols r ≤ 8 && ((recNrows r == 0) == (recNcols r == 0)) && recNrows r * recNcols r ≤ 24 &&
  recProgress r < 3 && 2 ≤ recNlevels r && recNlevels r ≤ 8 &&
  recSpillBase r % 64 == 0 && fld (recSpillBase r) 8 56 == 0 && recSpillDepth r % 16 == 0 && recSpillDepth r ≤ 0x00FFFFF0

/-- R169: the narrowest scope of a domain. -/
def domainScope (d : Nat) : Nat := [0, 0, 0, 1, 2, 3, 3, 4].getD d 5

/-- R169: the declared levels break no rule. -/
def levelsOk (r : Nat) : Bool :=
  let n := recNlevels r
  let has (d : Nat) : Bool := (List.range n).any (fun k => recDomain r k == d)
  let blocks := recNrows r * recNcols r
  (List.range 8).all (fun k => k < n || recLevel r k == 0) &&
  recDomain r 0 == 0 &&
  (List.range (n - 1)).all (fun k => recDomain r k < recDomain r (k + 1)) &&
  has 2 && has 3 == (blocks != 0) &&
  (List.range n).all (fun k =>
    recDomain r k < 8 && recScope r k < 5 && domainScope (recDomain r k) ≤ recScope r k && 1 ≤ recExtent r k &&
    (k + 1 == n || recDomain r (k + 1) != 3 || recDomain r k == 2 && recExtent r k == blocks) &&
    (k + 1 == n || recDomain r (k + 1) != 1 || recExtent r k == 4) &&
    (recDomain r k != 6 || has 7 || recExtent r k == 1)) &&
  1 ≤ recThreads r && recThreads r ≤ 1024

/-- R173: blocks of one neighbourhood. -/
def nbhdSize (r : Nat) : Nat := recNrows r * recNcols r

/-! ## Room on a core -/

/-- The lowest multiple of `step` from which `size` places below `limit` are free of the regions in use. -/
def firstFit (used : List (Nat × Nat)) (size step limit : Nat) : Option Nat :=
  let starts := (0 :: used.map (fun u => (u.1 + u.2 + step - 1) / step * step)).filter (fun c =>
    c + size ≤ limit && used.all (fun u => u.2 == 0 || size == 0 || c + size ≤ u.1 || u.1 + u.2 ≤ c))
  starts.foldl (fun m c => match m with | none => some c | some x => some (min x c)) none

/-- The place that the dispatcher chooses (R172): with a draw, any free multiple of `step` (the drawn one where it is free, else the
lowest); without one, the lowest. -/
def chosenFit (draw : Option Nat) (i : Nat) (used : List (Nat × Nat)) (size step limit : Nat) : Option Nat :=
  match draw with
  | none => firstFit used size step limit
  | some k =>
    let c := Config.pick (k + i) % (limit / step) * step
    if c + size ≤ limit && used.all (fun u => u.2 == 0 || size == 0 || c + size ≤ u.1 || u.1 + u.2 ≤ c) then some c
    else firstFit used size step limit

/-- How many draws the choice of one seat may use. -/
def seatDraws : Nat := 2048

/-- Blocks that hold resources of a core. -/
def State.blocksOn (s : State) (core : Nat) : List Block := s.blocks.filter (fun b => b.core == core)

/-- R15, R156: lane and first register slot of each thread of a block of `t` threads in allocations of `a` slots, at base g0. -/
def slotsFor (draw : Option Nat) (bs : List Block) (t a g0 : Nat) : Option (List (Nat × Nat)) :=
  let held := bs.flatMap (fun b => b.threads.map (fun u => (u.lane, u.slot, allocOf u.n)))
  (List.range t).foldl (fun acc k => acc.bind (fun out =>
    let lane := 4 * ((g0 + k / 4) % 32) + k % 4
    let used := (held.filter (fun h => h.1 == lane)).map (·.2) ++ (out.filter (fun o => o.1 == lane)).map (fun o => (o.2, a))
    if 16 ≤ used.length then none else (chosenFit draw k used a 12 1008).map (fun c => out ++ [(lane, c)]))) (some [])

/-- Where a block goes on a core: base g0, register slots, scratchpad base and first tile. -/
structure Seat where
  g0 : Nat
  slots : List (Nat × Nat)
  scratchBase : Nat
  tileBase : Nat
deriving DecidableEq, Repr

/-- R172, R173, R306: a seat at base g0 for a block of record `r` beside blocks `bs` of the core. -/
def seatAt (draw : Option Nat) (bs : List Block) (r g0 : Nat) : Option Seat :=
  let sum (f : Nat → Nat) : Nat := (bs.map (fun b => f b.record)).foldl (· + ·) (f r)
  if bs.length < 16 && sum recScratch ≤ 262144 && sum recTiles ≤ 8 && sum (fun x => (recSregs x + 31) / 32 * 32) ≤ 4096 &&
      (!recMatrix r || bs.all (fun b => !recMatrix b.record)) && (nbhdSize r == 0 || bs.all (fun b => nbhdSize b.record == 0)) then
    match slotsFor draw bs (recThreads r) (allocOf (recNregs r)) g0,
        chosenFit draw 1024 (bs.map (fun b => (b.scratchBase, recScratch b.record))) (recScratch r) 16 262144,
        chosenFit draw 1025 (bs.map (fun b => (b.tileBase, recTiles b.record))) (recTiles r) 1 8 with
    | some sl, some sb, some tb => some ⟨g0, sl, sb, tb⟩
    | _, _, _ => none
  else none

/-- R172: a seat beside blocks `bs`, at either base, or at the base that a restored block had (R387). -/
def seatFor (draw : Option Nat) (bs : List Block) (r : Nat) (g0 : Option Nat) : Option Seat :=
  match g0 with
  | some g => seatAt draw bs r g
  | none =>
    if draw.any (fun k => Config.pick (k + 1026) % 2 == 1) then (seatAt draw bs r 16).or (seatAt draw bs r 0)
    else (seatAt draw bs r 0).or (seatAt draw bs r 16)

/-- R394 reason 3: a core with nothing on it would admit the block. -/
def blockFits (r : Nat) : Bool := (seatFor none [] r none).isSome

/-! ## Cores of a slice -/

/-- R3: cores of a quadrant that has not been removed (R455). -/
def State.coresOf (s : State) (quad : Nat) : List Nat := if bit s.removed quad then [] else (List.range 40).map (fun i => 40 * quad + i)

/-- R399, R408: quadrants on which a slice's blocks may run now. -/
def State.openQuads (s : State) (o : Nat) : List Nat :=
  (s.quadsOfSlice o).filter (fun q => bit (s.slice o).hard q || SMap.get s.onQuad q == some o)

/-- R173: row and column of a core in its quadrant. -/
def coreRow (core : Nat) : Nat := core % 40 / 8
/-- R173: column. -/
def coreCol (core : Nat) : Nat := core % 8

/-- R173: the cores of a rectangle from its top-left core, in the order of the blocks. -/
def rectangle (core rows cols : Nat) : Option (List Nat) :=
  if coreRow core + rows ≤ 5 ∧ coreCol core + cols ≤ 8 then
    some ((List.range (rows * cols)).map (fun i => core + 8 * (i / cols) + i % cols))
  else none

/-! ## The start of a block -/

/-- R12, R171: the threads of a block of record `r` in their seats. -/
def newThreads (r : Nat) (level : Level) (sl : List (Nat × Nat)) : List Thread :=
  sl.zipIdx.map (fun p =>
    { tid := p.2, lane := p.1.1, quad := p.2 / 4, pc := BitVec.ofNat 64 (recEntry r), slot := p.1.2
      regs := List.replicate (allocOf (recNregs r)) 0, n := recNregs r, f := min (recNregs r) 128, level := level })

/-- R159: at block start and after a restore the quads of each aligned group of 64 threads form one gang. -/
def startGangs (t now : Nat) : List Gang :=
  (List.range ((t + 63) / 64)).map (fun m =>
    { quads := (List.range (quadsOf t)).filter (fun q => q / 16 == m), since := now })

/-- R171: block `num` of a launch as it starts on a core. -/
def newBlock (s : State) (l : Launch) (num core : Nat) (x : Seat) (level : Level) : Block :=
  let r := l.record
  let t := recThreads r
  { uid := s.uids, launch := l.uid, owner := l.owner, num := num, core := core, g0 := x.g0, scratchBase := x.scratchBase, record := r
    threads := newThreads r level x.slots
    sregs := (List.range (recSregs r)).map (fun i => if i < 16 then BitVec.ofNat 32 (recParam r i) else 0)
    cregs := List.replicate 16 0
    ttab := (List.range 24).map (fun i => { decl := i < recTiles r })
    tileBase := x.tileBase
    scratchSeed := s.fresh
    spillBase := (List.range (quadsOf t)).map (fun i => BitVec.ofNat 64 (recSpillBase r + (num * quadsOf t + i) * spillStride (recSpillDepth r)))
    spillDepth := List.replicate (quadsOf t) (BitVec.ofNat 32 (recSpillDepth r))
    gangs := startGangs t s.clock
    batch := l.batch
    progress := s.clock
    placedAt := s.clock }

/-- R170: blocks in one unit of a domain above the block, where the launch declares a level of it. -/
def unitBlocks (r d : Nat) : Option Nat :=
  ((List.range (recNlevels r)).find? (fun k => recDomain r k == d)).map (fun k =>
    ((List.range k).filter (recBlockLevel r ≤ ·)).foldl (fun p j => p * recExtent r j) 1)

/-- R170: the name of a unit of domain `d` in `Launch.homes`. -/
def homeKey (d unit : Nat) : Nat := d * 2 ^ 32 + unit

/-- R170: a block of a launch placed on a core fixes the quadrant and the die of the units that it belongs to. -/
def Launch.settle (l : Launch) (num core : Nat) : Launch :=
  let at' (m : SMap Nat) (d part : Nat) : SMap Nat := match unitBlocks l.record d with
    | some z => SMap.set m (homeKey d (num / z)) part
    | none => m
  { l with homes := at' (at' l.homes 4 (quadOfCore core)) 5 (quadOfCore core / 4) }

/-- R226, R257: a block stands on its core from now on. -/
def State.standsOn (s : State) (b : Block) : State :=
  { s.takeRegions b with blocks := s.blocks ++ [b] }.noteFence b 4

/-- R171, R172: block `num` of a launch starts on a core, if the core admits it. -/
def State.placeBlock (s : State) (draw : Option Nat) (l : Launch) (num core : Nat) : Option State :=
  (seatFor (draw.map (fun _ => s.fresh)) (s.blocksOn core) l.record none).map (fun x =>
    { s.standsOn (newBlock s l num core x .u) with
      fresh := s.fresh + seatDraws
      uids := s.uids + 1
      slices := upd s.slices l.owner (fun y => { y with usedCores := if y.usedCores.contains core then y.usedCores else core :: y.usedCores })
      launches := s.launches.map (fun y => if y.uid = l.uid
        then { y.settle num core with unplaced := y.unplaced.filter (· != num), lastPlaced := s.clock } else y) })

/-! ## Choosing cores -/

/-- A list turned by a number of places. -/
def turned {α : Type} (xs : List α) (k : Nat) : List α := if xs.isEmpty then xs else xs.drop (k % xs.length) ++ xs.take (k % xs.length)

/-- A list in the order that a draw gives. -/
def drawn {α : Type} (draw : Option Nat) (xs : List α) : List α := match draw with | none => xs | some k => turned xs (Config.pick k)

/-- Steps that each may fail, one after another. -/
def eachOf {α : Type} (s : State) (xs : List α) (f : State → α → Option State) : Option State :=
  xs.foldl (fun acc x => acc.bind (fun s => f s x)) (some s)

/-- Block numbers in the parts that one unit of `z` blocks each holds. -/
def chunks (z : Nat) (nums : List Nat) : List (List Nat) :=
  ((nums.map (· / z)).eraseDups).map (fun u => nums.filter (fun n => n / z == u))

/-- R173: blocks `nums` of a launch put on cores of quadrants, neighbourhood by neighbourhood. -/
def State.seatNbhds (s : State) (draw : Option Nat) (r : Nat) (put : State → Nat → Nat → Option State) (quads nums : List Nat) :
    Option State :=
  let cores := drawn draw (quads.flatMap s.coresOf)
  if nbhdSize r = 0 then eachOf s nums (fun s n => cores.findSome? (put s n))
  else eachOf s (chunks (nbhdSize r) nums) (fun s ch => cores.findSome? (fun c =>
    (rectangle c (recNrows r) (recNcols r)).bind (fun cs => eachOf s ch (fun s n => (cs[n % nbhdSize r]?).bind (put s n)))))

/-- R170: as `seatNbhds`, each unit of domain `d` (4 quadrant, 5 die) in one of the parts that `part` makes of the quadrants, where its
blocks have been placed before. -/
def State.seatWithin (s : State) (l : Launch) (d : Nat) (part : Nat → Nat) (quads nums : List Nat)
    (go : State → List Nat → List Nat → Option State) : Option State :=
  match unitBlocks l.record d with
  | none => go s quads nums
  | some z => eachOf s (chunks z nums) (fun s ch =>
      let home := (s.launches.find? (fun x => x.uid == l.uid)).bind (fun x => SMap.get x.homes (homeKey d (ch.headD 0 / z)))
      (((quads.map part).eraseDups).filter (fun p => home.all (· == p))).findSome? (fun p => go s (quads.filter (fun q => part q == p)) ch))

/-- R170, R172, R173: blocks `nums` of a launch put on cores of quadrants by `put`, in the order that a draw gives. -/
def State.seatAll (s : State) (draw : Option Nat) (l : Launch) (put : State → Nat → Nat → Option State) (quads nums : List Nat) :
    Option State :=
  s.seatWithin l 5 (· / 4) (drawn draw quads) nums (fun s quads nums =>
    s.seatWithin l 4 id quads nums (fun s quads nums => s.seatNbhds draw l.record put quads nums))

end Sys2Proof.Machine
end

