-- ==== Sys2Proof/Machine/Cast.lean ====
section
/-! DEFINITION. Casts: their bytes (R380 to R384), writing one (R379, R385), reading one back (R386, R387). -/

namespace Sys2Proof.Machine

/-! ## Bytes, some of them poisoned (R229) -/

/-- Bytes on their way to memory, each with whether it carries poison. -/
abbrev Marked := List (Byte × Bool)

/-- Bytes without poison. -/
def clean (bs : List Byte) : Marked := bs.map (fun b => (b, false))

/-- A number's bytes. -/
def byt (n x : Nat) : Marked := clean (toBytes n x)

/-- Zeros up to a multiple of `k`. -/
def padTo (k : Nat) (bs : Marked) : Marked := bs ++ List.replicate ((k - bs.length % k) % k) (0, false)

/-! ## Sections -/

/-- R383: what a wait records: code, object, token, detail and ARV. -/
def Wait.fields : Wait → Nat × Nat × Nat × Nat × Bool
  | .none => (0, 0, 0, 0, false)
  | .rendezvous _ => (1, 0, 0, 0, false)
  | .barrier _ addr token arrived => (2, addr, token.toNat, 0, arrived)
  | .conv n token => (3, n, token, 0, false)
  | .tile n _ => (4, n, 0, 0, false)
  | .batch _ waitb => (5, 0, 0, waitb.getD 0, false)
  | .seq kind target => (6, 0, target, kind, false)
  | .niche _ node => (7, node, 0, 0, false)
  | .queue h _ _ _ target => (8, h, target.toNat, 0, false)
  | .fence => (9, 0, 0, 0, false)
  | .window _ => (10, 0, 0, 0, false)
  | .load _ _ _ => (11, 0, 0, 0, false)

/-- R383: the batch byte of a window entry for a thread. -/
def Block.batchByte (b : Block) (t : Thread) (id : Nat) : Nat :=
  match b.command id with
  | none => 0
  | some c => if t.openB.contains c.uid then 0x10
      else match (b.outstanding t).findIdx? (fun batch => batch.contains c.uid) with | some j => j + 1 | none => 0

/-- R383: a thread's record. -/
def Block.threadRecord (b : Block) (t : Thread) : Marked :=
  let w := t.wait.fields
  let pc := t.pc.toNat
  byt 8 pc ++ byt 8 w.2.1 ++
  byt 4 (w.1 * 2 ^ 28 + (if w.2.2.2.2 then 2 ^ 27 else 0) + (if t.exited then 2 ^ 26 else 0) + t.level.toNat * 2 ^ 24 + t.tid % 1024) ++
  byt 4 w.2.2.1 ++ byt 4 (t.preds.toNat * 2 ^ 24 + t.swb / 32 * 2 ^ 16) ++ byt 4 t.wb ++ byt 4 (t.low * 256 + t.f) ++ byt 4 t.pfx.encode ++
  byt 4 ((b.outstanding t).length % 16 * 2 ^ 28) ++ byt 4 w.2.2.2.1 ++
  clean ((List.range 64).map (fun i => BitVec.ofNat 8 (b.batchByte t i))) ++ byt 16 0

/-- R384: the resident positions of a quad, ascending. -/
def residentOf (ts : List Thread) : List Nat :=
  let lo := (ts.map (·.low)).foldl min (2 ^ 40)
  let hi := (ts.map (fun t => t.low + t.n)).foldl max 0
  (upto lo 1 (hi - lo)).filter (fun p => ts.any (fun t => t.low ≤ p && p < t.low + t.n))

/-- R384: one position of a quad: its tag and its data. -/
def positionBytes (packed : Bool) (ts : List Thread) (p : Nat) : Nat × Marked :=
  let here := ts.filter (fun t => t.low ≤ p && p < t.low + t.n)
  let vals := here.map (fun t => (t.tid % 4, (t.regs.getD (p % t.n) 0).toNat))
  let mask := vals.foldl (fun m v => m + 2 ^ (4 + v.1)) 0
  let bad := here.any (fun t => (SMap.get t.poison (p % t.n)).isSome)
  let (cls, w, ws) : Nat × Nat × List Nat :=
    if packed then packLanes vals else (0, 0, (List.range 4).map (fun j => ((vals.find? (fun v => v.1 == j)).map (·.2)).getD 0))
  let out : List Nat := if !packed then ws
    else match cls with
      | 1 => ws.take 1
      | 2 => ws.take 2
      | 3 => ws.take (1 + w)
      | _ => vals.map (·.2)
  (mask + cls * 4 + w * 2, (out.flatMap (toBytes 4)).map (fun b => (b, bad)))

/-- R384: a quad's part of VREGS. -/
def Block.vregPart (packed : Bool) (b : Block) (q : Nat) : Marked :=
  let ts := b.threads.filter (fun t => t.tid / 4 == q)
  let pos := (residentOf ts).map (positionBytes packed ts)
  byt 8 (b.spillBase.getD q 0).toNat ++ byt 4 (b.spillDepth.getD q 0).toNat ++ byt 4 pos.length ++
  (List.range 4).flatMap (fun j => byt 4 (((ts.find? (fun t => t.tid % 4 == j)).map (·.low)).getD 0)) ++
  padTo 16 (clean (pos.map (fun p => BitVec.ofNat 8 p.1))) ++ pos.flatMap (·.2)

/-- R382: a tile's part of TILES. -/
def Block.tilePart (packed : Bool) (b : Block) (t : Nat) : Marked :=
  let rows := (List.range 64).filter (fun i => !packed || (List.range 256).any (fun j => b.acc t i j != 0))
  byt 1 t ++ byt 1 (b.tile t).state ++ byt 6 0 ++ byt 8 (rows.foldl (fun m i => m + 2 ^ i) 0) ++
  rows.flatMap (fun i => (List.range 256).flatMap (fun j => (toBytes 4 (b.acc t i j).toNat).map (fun x => (x, (b.accSyndrome t i j).isSome))))

/-- R382: a predecessor word of a window entry. -/
def Block.predWord (b : Block) (p : Option (Nat × Nat × Nat)) : Nat :=
  match p with
  | none => 0
  | some (uid, seq, kind) => seq + kind * 2 ^ 32 + 2 ^ 35 + if b.window.any (fun d => d.uid == uid) then 0 else 2 ^ 36

/-- R382: the phase of a command. -/
def Cmd.phase (c : Cmd) : Nat :=
  if c.fin.isSome then 2
  else if !c.running then 0 else if c.op5 = 0x12 ∨ c.op5 = 0x13 ∨ c.op5 = 0x18 then 3 else 1

/-- R382: the cursor of a command: rows, bytes, elements or records placed; a traversal's records are counted by the Caliper. -/
def Cmd.place (c : Cmd) : Nat := match c.trav with | some t => t.emitted - t.base | none => c.cursor

/-- R382: a command's window entry. -/
def Block.windowEntry (b : Block) (c : Cmd) : Marked :=
  let recs := (recRefs c.op5 c.pb).map (fun k => SMap.getD c.recs k 0)
  byt 1 c.id ++ byt 1 (kindOf c.op5) ++ byt 1 c.phase ++ byt 1 (if c.phase = 2 then c.fin.getD 0 else 0) ++ byt 4 c.seq ++
  byt 8 (b.predWord (c.preds.getD 0 none)) ++ byt 8 (b.predWord (c.preds.getD 1 none)) ++
  byt 8 (if c.phase = 2 then c.detail else c.place) ++ (List.range 8).flatMap (fun i => byt 4 (pbw c.pb i)) ++
  byt 16 (recs.getD 0 0) ++ byt 16 (recs.getD 1 0)

/-- R382, R338: a traversal's part of CALIPER. -/
def travPart (c : Cmd) (t : Trav) : Marked :=
  byt 1 c.id ++ byt 1 (if c.op5 = 9 then 1 else 0) ++ byt 6 0 ++ byt 8 (t.emitted - t.base) ++ padTo 16 (clean (t.token c))

/-- R382: the ready slot sets: source words, source record, and the macros whose copies are ready. -/
def Block.slotSets (b : Block) : List (List Word × Nat × Nat) :=
  let ready := b.slots.filter (fun e => e.2.state == 2 && !e.2.src.isEmpty)
  ((ready.map (fun e => (e.2.src, e.2.srcRec))).eraseDups).map (fun k =>
    (k.1, k.2, (ready.filter (fun e => e.2.src == k.1 && e.2.srcRec == k.2)).foldl (fun m e => m ||| 2 ^ (e.1 / 4)) 0))

/-- R381: a side-log entry's 288 bytes. -/
def sidePart (e : LogEntry) : Marked :=
  let base := e.va / 128 * 128
  let sum := match e.addend with | some t => cellsAt e.va (toBytes 64 (cellAdd 0 t)) | none => e.cells
  let at' (i : Nat) : Option Byte := (sum.findRev? (fun c => c.1 == base + i)).map (·.2)
  clean e.record ++ byt 16 ((List.range 128).foldl (fun m i => if (at' i).isSome then m + 2 ^ i else m) 0) ++
  clean ((List.range 128).map (fun i => (at' i).getD 0)) ++ byt 128 (e.tids.eraseDups.foldl (fun m k => m + 2 ^ k) 0)

/-- R381: a pending return. -/
def returnPart (r : Return) : Marked :=
  byt 2 r.tid ++ byt 1 r.width ++ byt 1 0 ++ byt 4 r.pos ++ byt 8 0 ++ (toBytes 16 r.value).map (fun b => (b, r.bad))

/-- R381: a pending trap entry. -/
def trapPart (t : Thread) (e : Entry) : Marked :=
  byt 2 t.tid ++ byt 1 e.cause.code ++ byt 1 t.level.toNat ++ byt 4 e.word.toNat ++ byt 8 e.pc.toNat ++ byt 8 e.addr.toNat ++ byt 8 e.extra.toNat

/-- R381: the sections of a block with its side-log entries: type, count and body. -/
def Block.sections (packed : Bool) (b : Block) (log : List LogEntry) : List (Nat × Nat × Marked) :=
  let tiles := (List.range 8).filter (fun t => t < recTiles b.record && (b.tile t).state != 0)
  let travs := b.window.filterMap (fun c => c.trav.map (fun t => (c, t)))
  let traps := b.threads.filterMap (fun t => t.pend.map (fun e => trapPart t e))
  let cmds := (List.range 64).filterMap b.command
  let all : List (Nat × Nat × Marked) :=
    [(1, b.threads.length, b.threads.flatMap b.threadRecord),
     (2, quadsOf b.threads.length, (List.range (quadsOf b.threads.length)).flatMap (b.vregPart packed)),
     (3, b.sregs.length, b.sregs.flatMap (fun w => byt 4 w.toNat)),
     (4, b.scratchSize, (List.range (b.scratchSize / 4)).flatMap (fun w =>
        (b.scratchBytes (4 * w) 4).map (fun x => (x, (SMap.get b.scratchPoison w).isSome)))),
     (5, b.scratchSize / 16, byt ((b.scratchSize + 127) / 128) (b.live.eraseDups.foldl (fun m g => m + 2 ^ g) 0)),
     (6, tiles.length, tiles.flatMap (b.tilePart packed)),
     (7, 24, (List.range 24).flatMap (fun n => byt 4 (b.tile n).word.toNat) ++ (List.range 16).flatMap (fun n => byt 4 (b.tile (8 + n)).size)),
     (8, 16, b.cregs.flatMap (fun w => byt 4 w.toNat)),
     (9, cmds.length, (List.range 6).flatMap (fun k => byt 4 (b.issued.getD k 0) ++ byt 4 (b.csn.getD k 0)) ++ cmds.flatMap b.windowEntry),
     (10, travs.length, travs.flatMap (fun x => travPart x.1 x.2)),
     (11, b.slotSets.length, b.slotSets.flatMap (fun x => x.1.flatMap (fun w => byt 4 w.toNat) ++ byt 16 x.2.1 ++ byt 1 x.2.2 ++ byt 31 0)),
     (12, log.length, log.flatMap sidePart),
     (13, b.returns.length, b.returns.flatMap returnPart),
     (14, traps.length, traps.flatMap id)]
  all.filter (fun x => x.1 == 9 || (x.2.1 != 0 && !x.2.2.isEmpty))

/-- R380: LAUNCHID. -/
def State.launchId (s : State) (uid : Nat) : Nat := ((s.launches.find? (fun l => l.uid == uid)).map Launch.id).getD 0

/-- R380, R381: the bytes of a cast taken now. -/
def State.castImage (s : State) (b : Block) (kind time seq : Nat) (log : List LogEntry) : Marked :=
  let packed : Bool := kind == 1 || kind == 2
  let secs := b.sections packed log
  let body := secs.flatMap (fun x =>
    let bytes := padTo 16 x.2.2
    byt 16 (bytes.length * 2 ^ 64 + x.2.1 * 2 ^ 32 + x.1) ++ bytes)
  let body := padTo 64 body
  let head := (64 + body.length) * 2 ^ 448 + time * 2 ^ 384 + s.launchId b.launch * 2 ^ 320 + b.num * 2 ^ 288 + seq * 2 ^ 256 +
    b.core * 2 ^ 224 + kind * 2 ^ 216 + (if packed then 2 ^ 208 else 0) + secs.length * 2 ^ 200 + 2 ^ 192
  let bare := byt 64 head ++ body
  byt 64 (head + (crc64 (bare.map (·.1))).toNat) ++ body

/-! ## Writing -/

/-- R229: the sector at a guest-physical address is left poisoned. -/
def State.poisonGpa (s : State) (owner gpa : Nat) : State :=
  match SMap.get s.l2 (l2Key owner gpa) with
  | some sec => { s with l2 := SMap.set s.l2 (l2Key owner gpa) { sec with poison := some true } }
  | none => match s.translate2 owner gpa with
    | .error _ => s
    | .ok t => match s.placeOf t gpa with
      | .ok (.dram h _ _) => { s with dramPoison := SMap.set s.dramPoison (h / 32) true }
      | _ => s

/-- The sectors, counted from the first, that hold a poisoned byte. -/
def marksOf (bs : Marked) : List Nat := (List.range ((bs.length + 31) / 32)).filter (fun i => ((bs.drop (32 * i)).take 32).any (·.2))

/-- R379: a cast's bytes written to an owner's area; none where the area does not take them. -/
def State.writeMarked (s : State) (owner gpa : Nat) (bs : Marked) : Option State :=
  (s.devWrite owner gpa (bs.map (·.1))).map (fun s => (marksOf bs).foldl (fun s i => s.poisonGpa owner (gpa + 32 * i)) s)

/-- R318, R379, R375: a block as it leaves its core: its commands leave their helpers, and what is kept of its progress is the clocks that
have passed without any. -/
def Block.leaving (b : Block) (clock : Nat) : Block :=
  { b with window := b.window.map (fun c => { c with helper := none }), progress := clock - b.progress }

/-- R279, R258: what the quadrant's fences cover of a block's commands stays covered when the block leaves the quadrant. -/
def State.keepView (s : State) (b : Block) : State :=
  { s with views := SMap.set s.views (b.scopeKey 4) (max (SMap.getD s.views (b.scopeKey 4) 0) (SMap.getD s.views (b.scopeKey 2) 0)) }

/-- R250, R379: side-log entries of a block. -/
def State.logOfBlock (s : State) (uid : Nat) : List LogEntry := s.sideLog.filter (fun e => e.blk == uid)

/-- R379: the cast of a halted block is written to its slice's save area, at the lowest place that has room (R385, log entry 36);
the block stays halted where it has none. -/
def State.castOut (s : State) (b : Block) (kind : Nat) : State :=
  let o := b.owner
  let helpers := b.window.filterMap (fun c => c.helper)
  let gone := b
  let b := b.leaving s.clock
  let log := s.logOfBlock b.uid
  let image := s.castImage b kind b.haltTime 0 log
  let base := s.sliceWord o 6
  let used := (s.casts.filter (fun c => c.blk.owner == o)).map (fun c => (c.addr - base, c.bytes.length))
  match firstFit used image.length 64 (s.sliceWord o 7) with
  | none => s
  | some a => match s.writeMarked o (base + a) image with
    | none => s
    | some s' =>
      State.updSlice { ((helpers.foldl State.clearAcc s').leaveCore gone).keepView gone with
        blocks := s'.blocks.filter (fun x => x.uid != b.uid)
        casts := s'.casts ++ [{ blk := b, kind := kind, time := b.haltTime, addr := base + a, bytes := image.map (·.1), log := log }]
        bins := s'.bins.filter (fun x => x.blk != b.uid)
        sideLog := s'.sideLog.filter (fun e => e.blk != b.uid) } o (fun x => { x with decideDue := true })

/-- CAST_WRITE (R379): the cast of a halted block is written and becomes valid. -/
def execCastWrite (b : Nat) (s : State) : Outcome :=
  .next (match s.blocks.find? (fun x => x.uid == b) with
  | some blk => match blk.halted with
    | some k => s.castOut blk k
    | none => s
  | none => s)

/-! ## Requests -/

/-- R175, R173: blocks that are cast and restored with a block: its launch if that is concurrent or parallel, its neighbourhood. -/
def Block.unitOf (b : Block) (x : Block) : Bool :=
  x.launch == b.launch &&
  (recProgress b.record < 2 || x.num == b.num || nbhdSize b.record != 0 && x.num / nbhdSize b.record == b.num / nbhdSize b.record)

/-- R377, R378: every gang of the blocks for which `f` holds, and of those cast with them, halts at an instruction boundary. -/
def State.haltBlocks (s : State) (kind : Nat) (f : Block → Bool) : State :=
  let named := s.blocks.filter f
  { s with blocks := s.blocks.map (fun b => if b.halted.isNone && named.any (fun x => x.unitOf b) 
      then { b with halted := some kind, haltTime := s.devTime } else b) }

/-- PREEMPTION_REQUEST (R377): blocks of one slice are named; KIND 0 or 3. -/
def execPreemptionRequest (blks : List Nat) (kind : Nat) (s : State) : Outcome :=
  let owners := ((s.blocks.filter (fun b => blks.contains b.uid)).map (·.owner)).eraseDups
  .next (if owners.length = 1 && owners.all (· < Config.nSlices) && (kind == 0 || kind == 3) then
    s.haltBlocks kind (fun b => blks.contains b.uid) else s)

/-! ## Reading back -/

/-- Bytes of a cast as memory holds them, poison that the cast itself carried passed on; none where they cannot be read. -/
def State.readMarked (s : State) (owner gpa n : Nat) (marks : List Nat) : Option (List Byte) :=
  (pieces gpa n).foldl (fun acc p => acc.bind (fun bs =>
    match s.translate2 owner p.1 with
    | .error _ => none
    | .ok t => match s.placeOf t p.1 with
      | .ok (.dram h slot _) =>
        let r := s.sectorAt owner p.1 h slot
        if r.2.isSome && !marks.contains ((p.1 - gpa) / 32) then none else some (bs ++ (r.1.drop (p.1 % 32)).take p.2)
      | .ok (.host port a) => some (bs ++ (List.range p.2).map (fun i => Config.hostByte port (a + i) s.fresh))
      | _ => none)) (some [])

/-- R386 step 1: the sections of a cast's bytes, in ascending type; none where a header is malformed. -/
def splitSections : Nat → Nat → List Byte → Option (List (Nat × Nat × List Byte))
  | 0, _, _ => some []
  | n + 1, last, bs =>
    let h := ofBytes (bs.take 16)
    let ty := fld h 8 0
    let len := fld h 64 64
    if bs.length < 16 || fld h 24 8 != 0 || ty ≤ last || 14 < ty || len % 16 != 0 || bs.length < 16 + len then none
    else (splitSections n ty (bs.drop (16 + len))).map (fun rest => (ty, fld h 32 32, (bs.drop 16).take len) :: rest)

/-- Number in `n` bytes from byte `o`. -/
def numAt (bs : List Byte) (o n : Nat) : Nat := ofBytes ((bs.drop o).take n)

/-- R382: reserved bits of the headers of TILES that are not zero. -/
def tilesReserved : Nat → List Byte → Bool
  | 0, _ => false
  | n + 1, bs => 16 ≤ numAt bs 0 1 || 4 ≤ numAt bs 1 1 || numAt bs 2 6 != 0 || tilesReserved n (bs.drop (16 + 1024 * popcount 64 (numAt bs 8 8)))

/-- R382, R338: bytes of one traversal's part of CALIPER. -/
def travLength (bs : List Byte) : Nat := 16 + (64 + 8 * (numAt bs 16 2) + 15) / 16 * 16

/-- R382, R338: reserved bits of the headers of CALIPER and of its states that are not zero. -/
def travsReserved : Nat → List Byte → Bool
  | 0, _ => false
  | n + 1, bs => 64 ≤ numAt bs 0 1 || 2 ≤ numAt bs 1 1 || numAt bs 2 6 != 0 || numAt bs 18 2 != 0 || 8 ≤ numAt bs 20 4 ||
      travsReserved n (bs.drop (travLength bs))

/-- R382, R383: reserved bytes of a section that hold anything but zero. -/
def reservedSet (ty count : Nat) (bs : List Byte) : Bool :=
  ty = 6 && tilesReserved count bs || ty = 10 && travsReserved count bs || (List.range count).any (fun i => match ty with
    | 1 => fld (numAt bs (128 * i + 16) 4) 14 10 != 0 || fld (numAt bs (128 * i + 40) 4) 28 0 != 0 || numAt bs (128 * i + 112) 16 != 0
    | 9 => let o := 48 + 96 * i
           64 ≤ numAt bs o 1 || 8 ≤ numAt bs (o + 1) 1 || fld (numAt bs (o + 8) 8) 27 37 != 0 || fld (numAt bs (o + 16) 8) 27 37 != 0
    | 11 => 16 ≤ numAt bs (64 * i + 32) 1 || numAt bs (64 * i + 33) 31 != 0
    | 13 => numAt bs (32 * i + 3) 1 != 0 || numAt bs (32 * i + 8) 8 != 0
    | _ => false)

/-- R386 step 1: header, CHECK, VERSION, section order and reserved bytes of a cast's bytes. -/
def castSections (bs : List Byte) : Option (List (Nat × Nat × List Byte)) :=
  let h := numAt bs 0 64
  if bs.length < 64 || fld h 64 448 != bs.length || fld h 8 192 != 1 || fld h 128 64 != 0 ||
      crc64 (toBytes 8 0 ++ bs.drop 8) != BitVec.ofNat 64 (fld h 64 0) then none
  else (splitSections (fld h 8 200) 0 (bs.drop 64)).bind (fun secs => if secs.any (fun x => reservedSet x.1 x.2.1 x.2.2) then none else some secs)

/-- Bytes `o`, …, as words. -/
def wordsAt (bs : List Byte) (o n : Nat) : List Word := (List.range n).map (fun i => BitVec.ofNat 32 (numAt bs (o + 4 * i) 4))

/-- R383: a thread with what its record says. -/
def threadOfRecord (t : Thread) (r : List Byte) : Thread :=
  let w := numAt r 16 4
  let st := numAt r 32 4
  { t with
    pc := BitVec.ofNat 64 (numAt r 0 8), exited := bit w 26, level := Level.ofBits (fld w 2 24)
    preds := BitVec.ofNat 8 (fld (numAt r 24 4) 8 24), swb := 32 * fld (numAt r 24 4) 8 16, wb := numAt r 28 4
    f := fld st 8 0, low := fld st 24 8, pfx := (Pfx.ofWord (numAt r 36 4)).getD {}
    pend := none
    wait := match fld w 4 28 with
      | 2 => .barrier (match t.wait with | .barrier win _ _ _ => win | _ => false) (numAt r 8 8) (BitVec.ofNat 32 (numAt r 20 4)) (bit w 27)
      | 3 => .conv (numAt r 8 8) (numAt r 20 4)
      | _ => .none }

/-- R383: the batches of a thread, from its record and the commands of the window. -/
def Thread.batchesOf (t : Thread) (window : List Cmd) (r : List Byte) : Thread :=
  let of (k : Nat) : List Nat := (window.filter (fun c => numAt r (48 + c.id) 1 == k)).map (·.uid)
  { t with openB := of 16, closedB := (List.range (fld (numAt r 40 4) 4 28)).map (fun j => of (j + 1)) }

/-- R382: the command of a window entry, over what the dispatcher keeps of the command with that ID. Of one that has not stopped its engine
keeps how far it is, and its status. -/
def Cmd.ofEntry (c : Cmd) (e : List Byte) : Cmd :=
  let phase := numAt e 2 1
  let pb := (List.range 8).map (fun i => BitVec.ofNat 32 (numAt e (32 + 4 * i) 4))
  let pred (i : Nat) : Option (Nat × Nat × Nat) :=
    let w := numAt e (8 + 8 * i) 8
    if bit w 35 && !bit w 36 then (c.preds.getD i none).map (fun x => (x.1, fld w 32 0, fld w 3 32)) else none
  { c with
    seq := numAt e 4 4, pb := pb, preds := [pred 0, pred 1], running := phase == 1 || phase == 3
    fin := if phase = 2 then some (numAt e 3 1) else if phase = 3 then c.fin else none
    detail := if phase = 2 then numAt e 24 8 else c.detail, cursor := if phase = 2 ∨ phase = 3 then c.cursor else numAt e 24 8
    recs := ((recRefs c.op5 pb).take 2).zipIdx.foldl (fun m k => SMap.set m k.1 (numAt e (64 + 16 * k.2) 16)) c.recs }

/-- R382, R338: the traversals of CALIPER, each with its command's ID. -/
def travsOf : Nat → List Byte → List (Nat × Trav)
  | 0, _ => []
  | n + 1, bs =>
    let x := numAt bs 16 64
    let entry (j : Nat) : Word × Word := (BitVec.ofNat 32 (numAt bs (80 + 8 * j) 4), BitVec.ofNat 32 (numAt bs (84 + 8 * j) 4))
    (numAt bs 0 1, { self := bit x 32, ray := bit x 33, nextRay := fld x 32 128, stack := ((List.range (fld x 16 0)).map entry).reverse
                     emitted := fld x 64 64, base := fld x 64 64 - numAt bs 8 8, pendRec := if bit x 34 then some (fld x 128 192) else none
                     ovrHead := fld x 32 448, ovrCnt := fld x 32 480 }) :: travsOf n (bs.drop (travLength bs))

/-- R381: a side-log entry of its 288 bytes, over what is kept of the entry with its sequence number (log entry 40). -/
def logEntryOf (b : Block) (log : List LogEntry) (bs : List Byte) : LogEntry :=
  let r := numAt bs 0 16
  let seq := fld r 32 96
  let old := (log.find? (fun e => e.seq == seq)).getD
    { core := b.core, owner := b.owner, slice := b.owner, blk := b.uid, tids := [], level := .s, stage2 := false, byVa := true, va := 0, gpa := 0, seq := seq }
  let line := fld r 57 7 * 128
  let mask := numAt bs 16 16
  { old with
    stage2 := bit r 83, np := bit r 82, rmw := fld r 2 80 == 2, seq := seq
    slice := old.slice, byVa := !bit r 83 || old.stage2 && old.byVa
    va := if bit r 83 then old.va else line + old.va % 128, gpa := if bit r 83 then line else old.gpa
    cells := if old.addend.isSome then [] else (bitsOf 128 mask).map (fun i => (old.va / 128 * 128 + i, bs.getD (32 + i) 0))
    tids := bitsOf 1024 (numAt bs 160 128) }

/-- R384: the quad parts of VREGS: for each, spill base, spill depth, LOW by lane, and the values by lane of each position, positions
ascending; `n` by lane gives the threads' N. -/
def vregParts (packed : Bool) : Nat → List Byte → List (Nat × Nat × List Nat × List (List (Option Nat)))
  | 0, _ => []
  | n + 1, bs =>
    let cnt := numAt bs 12 4
    let tags := (bs.drop 32).take cnt
    let o := 32 + (cnt + 15) / 16 * 16
    let step (acc : List Byte × List (List (Option Nat))) (tg : Byte) : List Byte × List (List (Option Nat)) :=
      let x := tg.toNat
      let lanes := (List.range 4).filter (fun j => bit x (4 + j))
      let cls := if packed then fld x 2 2 else 0
      let len := if !packed then 16 else match cls with | 1 => 4 | 2 => 8 | 3 => 4 + 4 * fld x 1 1 | _ => 4 * lanes.length
      let ws := (List.range 4).map (fun j => numAt acc.1 (4 * j) 4)
      let val (j : Nat) : Nat := if packed && cls == 0 then ws.getD ((lanes.filter (· < j)).length) 0 else unpackLane cls (fld x 1 1) ws j
      (acc.1.drop len, acc.2 ++ [(List.range 4).map (fun j => if lanes.contains j then some (val j) else none)])
    let r := tags.foldl step (bs.drop o, [])
    (numAt bs 0 8, numAt bs 8 4, (List.range 4).map (fun j => numAt bs (16 + 4 * j) 4), r.2) :: vregParts packed n r.1

/-- R384: the registers of a thread from its quad's part. -/
def threadOfPart (t : Thread) (part : Nat × Nat × List Nat × List (List (Option Nat))) : Thread :=
  let j := t.tid % 4
  let low := part.2.2.1.getD j 0
  let vals := part.2.2.2.filterMap (fun p => p.getD j none)
  { t with low := low, regs := vals.zipIdx.foldl (fun r v => r.set ((low + v.2) % t.n) (BitVec.ofNat 32 v.1)) t.regs }

/-- R381: the block that a cast's bytes describe, where they are no longer those that were written: their sections lie over what the
dispatcher keeps of the block (log entry 40). -/
def Block.ofSections (b : Block) (packed : Bool) (secs : List (Nat × Nat × List Byte)) : Block :=
  let bare : Block := { b with live := [], window := [], returns := [], rows := [], threads := b.threads.map (fun t => { t with pend := none }) }
  let batches (z : Block) : Block := match secs.find? (fun x => x.1 == 1) with
    | some x => { z with threads := z.threads.map (fun t => t.batchesOf b.window ((x.2.2.drop (128 * t.tid)).take 128)) }
    | none => z
  batches (secs.foldl (fun z x =>
    let bs := x.2.2
    match x.1 with
    | 1 => { z with threads := z.threads.map (fun t => threadOfRecord t ((bs.drop (128 * t.tid)).take 128)) }
    | 2 =>
      let parts := vregParts packed x.2.1 bs
      { z with
        spillBase := parts.map (fun p => BitVec.ofNat 64 p.1), spillDepth := parts.map (fun p => BitVec.ofNat 32 p.2.1)
        threads := z.threads.map (fun t => match parts[t.tid / 4]? with | some p => threadOfPart t p | none => t) }
    | 3 => { z with sregs := wordsAt bs 0 z.sregs.length }
    | 4 => { z with scratch := (bs.take z.scratchSize).zipIdx.map (fun y => (y.2, y.1)) }
    | 5 => { z with live := bitsOf (z.scratchSize / 16) (ofBytes bs) }
    | 7 => { z with ttab := z.ttab.zipIdx.map (fun e =>
        let w := numAt bs (4 * e.2) 4
        { e.1 with state := fld w 2 30, decl := bit w 29, cmd := fld w 6 18, base := fld w 14 0
                   size := if e.2 < 8 then e.1.size else numAt bs (96 + 4 * (e.2 - 8)) 4 }) }
    | 8 => { z with cregs := wordsAt bs 0 16 }
    | 9 => { z with
        issued := (List.range 6).map (fun k => numAt bs (8 * k) 4), csn := (List.range 6).map (fun k => numAt bs (8 * k + 4) 4)
        window := (List.range x.2.1).filterMap (fun i =>
          (b.command (numAt bs (48 + 96 * i) 1)).map (fun c => c.ofEntry ((bs.drop (48 + 96 * i)).take 96))) }
    | 10 => { z with window := z.window.map (fun c => match (travsOf x.2.1 bs).find? (fun y => y.1 == c.id) with
        | some y => { c with trav := some { y.2 with
            descA := (c.trav.map (·.descA)).getD 0, descB := (c.trav.map (·.descB)).getD 0
            drainFirst := (c.trav.map (·.drainFirst)).getD false, ending := c.trav.bind (·.ending) } }
        | none => c) }
    | 13 => { z with returns := (List.range x.2.1).map (fun i =>
        { tid := numAt bs (32 * i) 2, width := numAt bs (32 * i + 2) 1, pos := numAt bs (32 * i + 4) 4, value := numAt bs (32 * i + 16) 16
          bad := ((b.returns[i]?).map (·.bad)).getD false }) }
    | 14 => (List.range x.2.1).foldl (fun z i =>
        let y := bs.drop (32 * i)
        match Cause.ofCode (numAt y 2 1) with
        | some c => z.updThread (numAt y 0 2) (fun t => { t with
            pend := some ⟨c, BitVec.ofNat 64 (numAt y 24 8), BitVec.ofNat 64 (numAt y 16 8), BitVec.ofNat 64 (numAt y 8 8), BitVec.ofNat 32 (numAt y 4 4)⟩ })
        | none => z) z
    | _ => z) bare)

/-- R382: the rows of TILES written over a block's tiles. -/
def Block.tilesOf (b : Block) : Nat → List Byte → Block
  | 0, _ => b
  | n + 1, bs =>
    let t := numAt bs 0 1 % 16
    let rows := bitsOf 64 (numAt bs 8 8)
    let b := { b with rows := SMap.drop b.rows (fun k => k / 64 == t) }
    let b := rows.zipIdx.foldl (fun b r =>
      { b with rows := SMap.set b.rows (64 * t + r.1) { cells := (wordsAt bs (16 + 1024 * r.2) 256).zipIdx.map (fun w => (w.2, w.1)) } }) b
    b.tilesOf n (bs.drop (16 + 1024 * rows.length))

/-- R230: what reaches a consumer after a cast is marked as poisoned already. -/
def Block.marked (b : Block) : Block :=
  let all (m : SMap Bool) : SMap Bool := m.map (fun e => (e.1, true))
  { b with
    scratchPoison := all b.scratchPoison, accPoison := all b.accPoison
    threads := b.threads.map (fun t => { t with poison := all t.poison }) }

/-- R386 step 1, R230: the block of a cast and its side-log entries as its bytes in memory now say, with the sections; none where they fail the
checks. -/
def State.castBlock (s : State) (c : Cast) : Option (Block × List LogEntry × List (Nat × Nat × List Byte)) :=
  let o := c.blk.owner
  let marks := marksOf (s.castImage c.blk c.kind c.time 0 c.log)
  (s.readMarked o c.addr 64 marks).bind (fun h =>
    let n := fld (ofBytes h) 64 448
    if n < 64 || n % 64 != 0 || s.sliceWord o 7 < n then none
    else (s.readMarked o c.addr n marks).bind (fun bs => (castSections bs).map (fun secs =>
      if bs = c.bytes then (c.blk.marked, c.log, secs)
      else
        let b := c.blk.marked.ofSections (bit (ofBytes h) 208) secs
        let log := (secs.filter (fun x => x.1 == 12)).flatMap (fun x => (List.range x.2.1).map (fun i =>
          logEntryOf c.blk c.log ((x.2.2.drop (288 * i)).take 288)))
        ((secs.filter (fun x => x.1 == 6)).foldl (fun b x => b.tilesOf x.2.1 x.2.2) b, log, secs))))

/-! ## Restoring -/

/-- R308, R386 step 4: the BLOAD of a SLOTS entry replayed: the slot's copies as memory and scratchpad now give them. -/
def State.replaySlot (s : State) (p : Nat) (b : Block) (pb : List Word) (record mask : Nat) : Eng (List (Nat × BSlot)) :=
  let p0 := pbw pb 0
  let fmt := fld p0 3 22
  let sc := bit p0 25
  let spar := fld p0 2 20
  let a := if bit p0 31 then Area.scratch p 0 else Area.record record
  let q := Req.load (ownerAt b.owner .s) .s
  let w := 4096 * fmtWidth fmt
  let g := if sc then 1024 * sparFactor spar else 0
  let k := if spar = 0 then 0 else 4096 * sparFactor spar
  (bitsOf 4 (fld p0 4 14)).zipIdx.foldl (fun acc m => acc.andThen (fun l s =>
    if !bit mask m.1 then .ok l s
    else
      (s.areaRead q a (pbw pb 1 + m.2 * w) w).andThen (fun vals s =>
      (s.areaRead q a (pbw pb 2 + m.2 * g) g).andThen (fun scales s =>
      (s.areaRead q a (pbw pb 3 + m.2 * k) k).andThen (fun masks s =>
        let x : BSlot := { state := 2, fmt := fmt, sc := sc, spar := spar, src := pb, srcRec := record, vals := vals, scales := scales, masks := masks }
        if x.masksOk then .ok (l ++ [(4 * m.1 + fld p0 2 18, x)]) s else .fail 2 0 0 s))))) (.ok [] s)

/-- R386 step 4: every SLOTS entry replayed; none while a read has to wait (R250). -/
def State.replaySlots (s : State) (p : Nat) (secs : List (Nat × Nat × List Byte)) : Option State :=
  let entries := (secs.filter (fun x => x.1 == 11)).flatMap (fun x => (List.range x.2.1).map (fun i =>
    (wordsAt x.2.2 (64 * i) 4, numAt x.2.2 (64 * i + 16) 16, numAt x.2.2 (64 * i + 32) 1)))
  entries.foldl (fun acc e => acc.bind (fun s =>
    match s.blocks[p]? with
    | none => some s
    | some b => match s.replaySlot p b e.1 e.2.1 e.2.2 with
      | .wait => none
      | .fail _ _ _ s' => some s'
      | .ok l s' => some (s'.updBlock p (fun b => l.foldl (fun b x => b.beginSlot (x.1 / 4) (x.1 % 4) x.2) b)))) (some s)

/-- R308: slots that restore does not replay: those that a command was filling, staged afresh where the command streams them. -/
def Block.heldSlots (b : Block) : SMap BSlot :=
  (b.slots.filter (fun e => e.2.state == 1 || e.2.src.isEmpty)).map (fun e =>
    if e.2.src.isEmpty then (e.1, { e.2 with state := 1, vals := [], scales := [], masks := [] }) else e)

/-- R198, R378: a wait after a restore: one on a barrier object or a convergence register goes on with its object and token, any other
instruction executes again. -/
def Wait.resumed : Wait → Wait
  | .barrier win addr token arrived => .barrier win addr token arrived
  | .conv n token => .conv n token
  | _ => .none

/-- R386, R387: a block back on a core in a seat. -/
def Block.seated (b : Block) (s : State) (core : Nat) (x : Seat) : Block :=
  { b with
    core := core, scratchBase := x.scratchBase, tileBase := x.tileBase, halted := none, progress := s.clock - b.progress, placedAt := s.clock
    slots := b.heldSlots, gangs := startGangs b.threads.length s.clock
    window := b.window.map (fun c => if kindOf c.op5 = 1 then { c with arrived := none } else c)
    threads := b.threads.map (fun t => { t with
      slot := ((x.slots[t.tid]?).map (·.2)).getD t.slot, wait := t.wait.resumed, filed := false, waited := 0
      posted := t.posted || t.flushing, flushing := false }) }

/-- R381, R386 step 6, R229: a pending return written to its position; poison that it met on its way comes with it. -/
def Block.applyReturn (b : Block) (r : Return) : Block :=
  { b with threads := b.threads.map (fun t =>
      if t.tid = r.tid ∧ t.n ≠ 0 then
        (List.range ((r.width + 3) / 4)).foldl (fun t i => { t with
          regs := t.regs.set ((r.pos + i) % t.n) (BitVec.ofNat 32 (fld r.value 32 (32 * i)))
          poison := if r.bad then SMap.set t.poison ((r.pos + i) % t.n) true else SMap.erase t.poison ((r.pos + i) % t.n) }) t
      else t) }

/-- R386 step 5: side-log entries of a cast stand in the log of its new core, in their order. -/
def State.relog (s : State) (core : Nat) (log : List LogEntry) : State :=
  { s with
    sideLog := s.sideLog ++ log.map (fun e => { e with core := core })
    logTried := if log.isEmpty || !(s.logOf core).isEmpty then s.logTried else SMap.set s.logTried core s.clock }

/-- R386: a cast restored on a core, all steps; none where the core has no seat for it or a replay has to wait. -/
def State.restoreOn (s : State) (draw : Option Nat) (c : Cast) (b : Block) (log : List LogEntry) (secs : List (Nat × Nat × List Byte)) (core : Nat) : Option State :=
  match seatFor (draw.map (fun _ => s.fresh)) (s.blocksOn core) b.record (some b.g0) with
  | none => none
  | some x =>
    let p := s.blocks.length
    let b := b.seated s core x
    let s : State := { (s.noteDev b.owner c.addr c.bytes.length).takeRegions b with
      blocks := s.blocks ++ [b]
      casts := s.casts.filter (fun y => y.blk.uid != c.blk.uid)
      launches := s.launches.map (fun y => if y.uid = b.launch then { y.settle b.num core with lastPlaced := s.clock } else y)
      slices := upd s.slices b.owner (fun y => { y with usedCores := if y.usedCores.contains core then y.usedCores else core :: y.usedCores })
      fresh := s.fresh + seatDraws }
    (s.replaySlots p secs).map (fun s =>
      let s := s.relog core log
      let s := (b.window.filter (fun d => d.fin.isSome)).foldl (fun s d => s.retireCmd p d) s
      s.updBlock p (fun b => { b.returns.foldl Block.applyReturn b with returns := [] }))

/-- R386: a cast that fails step 1: its block never runs, its launch completes as failed, and a CASTBAD event is posted. -/
def State.castBad (s : State) (c : Cast) : State :=
  let s : State := { s with
    casts := s.casts.filter (fun y => y.blk.uid != c.blk.uid)
    launches := s.launches.map (fun (l : Launch) => if l.uid = c.blk.launch then { l with failed := true } else l) }
  s.postEvent c.blk.owner 3 0 0 c.blk.num (s.launchId c.blk.launch)

/-- R173, R175: the casts that are restored with one: all of a concurrent launch, or of a neighbourhood. -/
def State.castsWith (s : State) (c : Cast) : List Cast :=
  let b := c.blk
  s.casts.filter (fun x => x.blk.launch == b.launch && (recProgress b.record == 0 || x.blk.num == b.num ||
    nbhdSize b.record != 0 && x.blk.num / nbhdSize b.record == b.num / nbhdSize b.record))

/-- R173, R175: a block that is restored with the block of a cast has halted and has not been cast yet. -/
def State.stillHalting (s : State) (c : Cast) : Bool :=
  s.blocks.any (fun x => x.halted.isSome && x.uid != c.blk.uid && c.blk.unitOf x)

/-- R387: units of a launch no block of which is resident may be restored elsewhere. -/
def State.looseHomes (s : State) (l : Launch) : State :=
  let kept (k : Nat) : Bool := s.blocks.any (fun b => b.launch == l.uid && (unitBlocks l.record (k / 2 ^ 32)).any (fun z => b.num / z == k % 2 ^ 32))
  { s with launches := s.launches.map (fun x => if x.uid = l.uid then { x with homes := x.homes.filter (fun e => kept e.1) } else x) }

/-- R319: tokens that blocks of a record need. -/
def tokensFor (r n : Nat) : Nat := if recMatrix r then 3 * n else 0

/-- R407: the dispatcher of a slice places work. -/
def State.dispatches (s : State) (o : Nat) : Bool := o < Config.nSlices && (s.slice o).state == .running && !(s.slice o).quiescing

/-- R386, R387: the unit of a cast restored on cores that `pick` allows for its first block; a cast of it that fails step 1 is dropped
with its event. None where there is no room. -/
def State.restoreUnit (s : State) (c : Cast) (first : Option Nat) : Option State :=
  let unit := s.castsWith c
  if s.stillHalting c then none
  else match unit.find? (fun x => (s.castBlock x).isNone) with
  | some x => some (s.castBad x)
  | none =>
    let b := c.blk
    match s.launches.find? (fun l => l.uid == b.launch) with
    | none => none
    | some l =>
      let held := unit.filter (fun x => x.blk.halted.isSome)
      if !s.tokensFree b.owner (tokensFor b.record held.length) then none
      else
        let draw := some s.fresh
        let put (s : State) (n core : Nat) : Option State :=
          if first.any (· != core) && n == b.num then none
          else match unit.find? (fun x => x.blk.num == n) with
            | none => none
            | some x => (s.castBlock x).bind (fun y => s.restoreOn draw x y.1 y.2.1 y.2.2 core)
        let nums := unit.map (fun x => x.blk.num)
        let sorted := (List.range l.nblocks).filter nums.contains
        let s := { s.looseHomes l with fresh := s.fresh + 1 }
        (s.seatAll draw l put (s.openQuads b.owner) sorted).or (s.seatAll none l put (s.openQuads b.owner) sorted)

/-- RESTORE (R386): the cast of block `b` is read back and the block resumes on a core, the blocks restored with it beside it. -/
def execRestore (b core : Nat) (s : State) : Outcome :=
  .next (match s.casts.find? (fun c => c.blk.uid == b && c.valid) with
  | none => s
  | some c => if s.dispatches c.blk.owner then (s.restoreUnit c (some core)).getD s else s)

end Sys2Proof.Machine
end

