-- ==== Sys2Proof/Machine/CrossLane.lean ====
section
/-! DEFINITION. The rendezvous of named threads (R178 to R185): arrival, MEMBER_GONE, completion. -/

namespace Sys2Proof.Machine

/-- R178: the effective mask of a thread. -/
def effMask (m : DWord) (tid : Nat) : DWord := m ||| BitVec.twoPow 64 (tid % 64)

/-- The arrival a thread is pending in, if any. -/
def Thread.arrival (t : Thread) : Option Arrival :=
  match t.wait with
  | .rendezvous a => some a
  | _ => none

/-- R179: the pending threads of aligned group m of a block: %tid and arrival. -/
def Block.pendingIn (b : Block) (m : Nat) : List (Nat × Arrival) :=
  b.threads.filterMap (fun t => if t.tid / 64 = m then t.arrival.map (fun a => (t.tid, a)) else none)

/-- R179: two arrivals are in one rendezvous of an aligned group. -/
def sameMeet (x y : Arrival) : Bool := x.op == y.op && x.mask == y.mask

/-- R180: the rendezvous of `a` in group m must raise MEMBER_GONE: a named member is gone, or is pending in another rendezvous that
names a thread pending in this one. -/
def Block.meetGone (b : Block) (m : Nat) (a : Arrival) : Bool :=
  let pend := b.pendingIn m
  let mine := pend.filter (fun p => sameMeet p.2 a)
  (List.range 64).any (fun k => a.mask.getLsbD k &&
    ((match b.threads[64 * m + k]? with | none => true | some t => t.exited) ||
     pend.any (fun p => p.1 == 64 * m + k && !sameMeet p.2 a && mine.any (fun q => p.2.mask.getLsbD (q.1 % 64)))))

/-- R182: the source member of member j, as an integer that may lie outside 0 to 63. -/
def routeSource (op j : Nat) (sel : Word) : Int :=
  match op with
  | 0 => (fld sel.toNat 6 0 : Int)
  | 1 => ((j + fld sel.toNat 6 0) % 64 : Nat)
  | 2 => (j : Int) + sextI (fld sel.toNat 7 0) 7
  | _ => (Nat.xor j (fld sel.toNat 6 0) : Nat)

/-- R184: the combination of a reduction or scan over values in ascending member order; the minimum and maximum of one NaN are the
canonical NaN (R75). -/
def reduceWords (op : Nat) (xs : List Word) : Word :=
  let fold (f : Word → Word → Word) : Word := match xs with | [] => 0 | x :: r => r.foldl f x
  let pick (max : Bool) (x y : Word) : Word := BitVec.ofNat 32 (fp32.pick max false x.toNat y.toNat)
  match op with
  | 0x08 => fold (fun x y => x + y)
  | 0x09 => fold minS
  | 0x0A => fold maxS
  | 0x0B => fold minU
  | 0x0C => fold maxU
  | 0x0D => fold (fun x y => x &&& y)
  | 0x0E => fold (fun x y => x ||| y)
  | 0x0F => fold (fun x y => x ^^^ y)
  | 0x11 => pick false (fold (pick false)) (fold (pick false))
  | 0x12 => pick true (fold (pick true)) (fold (pick true))
  | 0x13 => fold (fun x y => x + y)
  | _ => BitVec.ofNat 32 (fsum (xs.map (·.toNat)))

/-- R182 to R185: what completion writes in member j, given the members named, ascending. -/
def meetWrite (ms : List (Nat × Arrival)) (j : Nat) (a : Arrival) (t : Thread) : Thread :=
  if a.op ≤ 3 then
    let src := routeSource a.op j a.sel
    t.put a.d (((ms.find? (fun p => (p.1 : Int) == src)).map (·.2.val)).getD a.val)
  else if a.op = 4 then t.putPred a.d (ms.any (·.2.pred))
  else if a.op = 5 then t.putPred a.d (ms.all (·.2.pred))
  else if a.op = 6 then t.putPred a.d (ms.all (·.2.pred) || ms.all (fun p => !p.2.pred))
  else if a.op = 7 then t.put64 a.d (ms.foldl (fun x p => if p.2.pred then x ||| BitVec.twoPow 64 p.1 else x) 0)
  else if a.op = 0x13 ∨ a.op = 0x14 then
    t.put a.d (reduceWords a.op ((ms.filter (fun p => p.1 ≤ j)).map (·.2.val)))
  else t.put a.d (reduceWords a.op (ms.map (·.2.val)))

/-- R179: the members named by `a` in group m with their arrivals in its rendezvous. -/
def Block.members (b : Block) (m : Nat) (a : Arrival) : List (Nat × Arrival) :=
  ((b.pendingIn m).filter (fun p => sameMeet p.2 a && a.mask.getLsbD (p.1 % 64))).map (fun p => (p.1 % 64, p.2))

/-- R179: every member that `a` names has arrived. -/
def Block.complete (b : Block) (m : Nat) (a : Arrival) : Bool := (b.members m a).length == popcount 64 a.mask.toNat

/-- R259: what the members' OFENCEs have ordered. -/
def Block.meetView (b : Block) (m : Nat) (a : Arrival) : Nat :=
  ((b.members m a).map (fun p => ((b.threads[64 * m + p.1]?).map (·.oview)).getD 0)).foldl max 0

/-- R179: completion, in one event, of every complete rendezvous of group m. A member does not run in it (R157). -/
def Block.finishMeets (b : Block) (m : Nat) : Block :=
  { b with threads := b.threads.map (fun t =>
      match t.arrival with
      | some a => if t.tid / 64 = m ∧ b.complete m a then { (meetWrite (b.members m a) (t.tid % 64) a t).jump a.next with oview := b.meetView m a, waited := t.waited } else t
      | none => t) }

/-- R180: the trap of a pending thread. -/
def Arrival.gone (a : Arrival) : Trap := { cause := .memberGone, extra := a.mask }

/-- R179, R180: aligned group m of the block at place `bi` after arrivals or exits: MEMBER_GONE where a rendezvous meets either case,
then completions. -/
def State.resolveMeets (s : State) (bi m : Nat) : State :=
  match s.blocks[bi]? with
  | none => s
  | some b =>
    let gone := (b.pendingIn m).filter (fun p => b.meetGone m p.2)
    let s := gone.foldl (fun s p => (s.updThread bi p.1 (fun t => { t with wait := .none })).takeTrapAt bi p.1 p.2.gone
      (((b.threads[p.1]?).map (·.pc)).getD 0) p.2.word) s
    s.updBlock bi (fun b => b.finishMeets m)

/-- R179: every active thread whose guard passes arrives with what `f` gives; then the rendezvous of their groups are resolved. -/
def State.arrive (s : State) (op : Nat) (vs : List Nat) (srcs : List Nat) (b : Reg) (d : Nat)
    (f : Thread → Word × Word × Bool) : Outcome :=
  let s' := s.lanesBy id (fun blk t =>
    match checkRegs blk t vs (upto b.toNat 1 2) with
    | some tr => .error tr
    | none => match checkPoison t srcs with
      | some tr => .error tr
      | none =>
        let (val, sel, p) := f t
        .ok (t.hold s.cur (.rendezvous ⟨op, effMask (blk.sget64 t b.toNat) t.tid, d, val, sel, p, s.cur.next, s.cur.word⟩)))
  .next (((s.cur.tids.map (· / 64)).eraseDups).foldl (fun s m => s.resolveMeets s.cur.blk m) s')

/-- R182: a shuffle. -/
def State.route (s : State) (op : Nat) (d a b : Reg) : Outcome :=
  s.arrive op [d.toNat, a.toNat] [d.toNat, a.toNat] b d.toNat (fun t => (t.get a.toNat, t.get d.toNat, false))

/-- R183: a vote. -/
def State.poll (s : State) (op : Nat) (d a : BitVec 3) (b : Reg) : Outcome :=
  s.arrive op [] [] b d.toNat (fun t => (0, 0, t.pred a.toNat))

/-- R184: a reduction or scan. -/
def State.redux (s : State) (op : Nat) (d a b : Reg) : Outcome :=
  s.arrive op [d.toNat, a.toNat] [a.toNat] b d.toNat (fun t => (t.get a.toNat, 0, false))

/-- ROUTE.PICK (R182). -/
def execRoutePick (d a b : Reg) (s : State) : Outcome := s.route 0 d a b
/-- ROUTE.ROT (R182). -/
def execRouteRot (d a b : Reg) (s : State) : Outcome := s.route 1 d a b
/-- ROUTE.SHIFT (R182). -/
def execRouteShift (d a b : Reg) (s : State) : Outcome := s.route 2 d a b
/-- ROUTE.FLIP (R182). -/
def execRouteFlip (d a b : Reg) (s : State) : Outcome := s.route 3 d a b
/-- POLL.OR (R183). -/
def execPollOr (d a : BitVec 3) (b : Reg) (s : State) : Outcome := s.poll 4 d a b
/-- POLL.AND (R183). -/
def execPollAnd (d a : BitVec 3) (b : Reg) (s : State) : Outcome := s.poll 5 d a b
/-- POLL.SAME (R183). -/
def execPollSame (d a : BitVec 3) (b : Reg) (s : State) : Outcome := s.poll 6 d a b
/-- PGATHER (R183). -/
def execPgather (d : Reg) (a : BitVec 3) (b : Reg) (s : State) : Outcome :=
  s.arrive 7 (upto d.toNat 1 2) [] b d.toNat (fun t => (0, 0, t.pred a.toNat))
/-- REDUX.ADD (R184). -/
def execReduxAdd (d a b : Reg) (s : State) : Outcome := s.redux 0x08 d a b
/-- REDUX.MIN (R184). -/
def execReduxMin (d a b : Reg) (s : State) : Outcome := s.redux 0x09 d a b
/-- REDUX.MAX (R184). -/
def execReduxMax (d a b : Reg) (s : State) : Outcome := s.redux 0x0A d a b
/-- REDUX.MINU (R184). -/
def execReduxMinu (d a b : Reg) (s : State) : Outcome := s.redux 0x0B d a b
/-- REDUX.MAXU (R184). -/
def execReduxMaxu (d a b : Reg) (s : State) : Outcome := s.redux 0x0C d a b
/-- REDUX.AND (R184). -/
def execReduxAnd (d a b : Reg) (s : State) : Outcome := s.redux 0x0D d a b
/-- REDUX.OR (R184). -/
def execReduxOr (d a b : Reg) (s : State) : Outcome := s.redux 0x0E d a b
/-- REDUX.XOR (R184). -/
def execReduxXor (d a b : Reg) (s : State) : Outcome := s.redux 0x0F d a b
/-- REDUX.FADD (R184, R185). -/
def execReduxFadd (d a b : Reg) (s : State) : Outcome := s.redux 0x10 d a b
/-- REDUX.FMIN (R184). -/
def execReduxFmin (d a b : Reg) (s : State) : Outcome := s.redux 0x11 d a b
/-- REDUX.FMAX (R184). -/
def execReduxFmax (d a b : Reg) (s : State) : Outcome := s.redux 0x12 d a b
/-- SCAN.ADD (R184). -/
def execScanAdd (d a b : Reg) (s : State) : Outcome := s.redux 0x13 d a b
/-- SCAN.FADD (R184, R185). -/
def execScanFadd (d a b : Reg) (s : State) : Outcome := s.redux 0x14 d a b

end Sys2Proof.Machine
end

