-- ==== Sys2Proof/Machine/Score.lean ====
section
/-! DEFINITION. The scoreboard (R167, R95): the vector registers that a group names, read from its words, and the outstanding register
writes that hold it back. -/

namespace Sys2Proof.Machine

/-- R144: an assigned special register of 64 bits. -/
def srWide (n : Nat) : Bool := n == 0x000 || n == 0x010 || n == 0x040 || 0x100 ≤ n && n ≤ 0x105

/-- Vector registers that a word names: the operand for which a literal may stand (R53), the number of the first and how many. -/
structure VName where
  lit : Option LimmTarget
  field : Nat
  count : Nat
deriving DecidableEq, Repr

/-- Words of one shape: fixed bits, their values in the words, and what such a word names; none for every position of the window. -/
structure NameRow where
  mask : Nat
  vals : List Nat
  names : Nat → Option (List VName)

/-- R85: with bit 6 set, operand b is scalar registers. -/
def dropB (w : Nat) (l : List VName) : List VName := if w.testBit 6 then l.filter (fun v => v.lit != some .b) else l

/-- Part 1 of the table of names. -/
def nameRows1 : List NameRow := [
  ⟨0xF000003F, [0x00000001, 0x00000002, 0x00000003, 0x00000004, 0x00000005, 0x00000006, 0x00000008, 0x00000009, 0x0000000A, 0x0000000B,
    0x0000000C, 0x0000000D, 0x0000000E, 0x0000000F, 0x00000010, 0x00000011, 0x00000012, 0x00000013, 0x0000001C, 0x0000001D, 0x0000001E,
    0x0000001F, 0x20000000, 0x20000001, 0x20000002, 0x20000003, 0x20000004, 0x20000005, 0x20000008, 0x20000009, 0x2000000A, 0x2000000B,
    0x2000000C, 0x20000018, 0x20000019, 0x2000001A, 0x2000001C, 0x2000001D, 0x40000000, 0x40000001, 0x40000002, 0x40000003, 0x40000007,
    0x50000020, 0x50000021, 0x50000022, 0x50000023, 0x50000039, 0x5000003A],
     fun w => some (dropB w [⟨none, fld w 7 21, 1⟩, ⟨some .a, fld w 7 14, 1⟩, ⟨some .b, fld w 7 7, 1⟩])⟩,
  ⟨0xF0000038, [0x00000020], fun w => some (dropB w [⟨none, fld w 7 21, 1⟩, ⟨some .a, fld w 7 14, 1⟩, ⟨some .b, fld w 7 7, 1⟩])⟩,
  ⟨0xF0000003, [0x30000000, 0x30000001, 0x30000002, 0x30000003],
     fun w => some (dropB w [⟨none, fld w 7 21, 1⟩, ⟨some .a, fld w 7 14, 1⟩, ⟨some .b, fld w 7 7, 1⟩])⟩,
  ⟨0xF000003C, [0x50000000, 0x50000004, 0x50000008, 0x5000000C, 0x50000010, 0x50000014, 0x50000018, 0x5000001C, 0x50000028, 0x5000002C],
     fun w => some (dropB w [⟨none, fld w 7 21, 1⟩, ⟨some .a, fld w 7 14, 1⟩, ⟨some .b, fld w 7 7, 1⟩])⟩,
  ⟨0xF0003FFF, [0x00000007, 0x00000028, 0x0000002B, 0x0000002C, 0x20000006, 0x20000010, 0x20000011, 0x20000012, 0x20000013, 0x40000005,
    0x40000006, 0x40000009, 0x40000010, 0x40000011, 0x40000012, 0x40000013, 0x40000014, 0x40000015, 0x4000001D],
     fun w => some [⟨none, fld w 7 21, 1⟩, ⟨some .a, fld w 7 14, 1⟩]⟩,
  ⟨0xF0003800, [0x10000000, 0x10000800, 0x10001000, 0x10001800, 0x10002000],
     fun w => some [⟨none, fld w 7 21, 1⟩, ⟨some .a, fld w 7 14, 1⟩]⟩,
  ⟨0xF0003FE0, [0x10003000, 0x10003100, 0x10003200, 0x10003300, 0x10003400],
     fun w => some [⟨none, fld w 7 21, 1⟩, ⟨some .a, fld w 7 14, 1⟩]⟩,
  ⟨0xF0003E7F, [0x40000008, 0x40000018, 0x40000019, 0x4000001A, 0x4000001B, 0x4000001C, 0x50000035, 0x50000036, 0x50000038],
     fun w => some [⟨none, fld w 7 21, 1⟩, ⟨some .a, fld w 7 14, 1⟩]⟩,
  ⟨0xF0003F7F, [0x50000030, 0x50000031], fun w => some [⟨none, fld w 7 21, 1⟩, ⟨some .a, fld w 7 14, 1⟩]⟩,
  ⟨0xF0003C7F, [0x50000037], fun w => some [⟨none, fld w 7 21, 1⟩, ⟨some .a, fld w 7 14, 1⟩]⟩,
  ⟨0xF000003F, [0x00000014, 0x00000015, 0x2000001E, 0x2000001F, 0x20000020, 0x20000021, 0x20000022, 0x40000030, 0x40000031, 0x40000032,
    0x40000033], fun w => some (dropB w [⟨none, fld w 7 21, 2⟩, ⟨some .a, fld w 7 14, 2⟩, ⟨some .b, fld w 7 7, 2⟩])⟩,
  ⟨0xF000003C, [0x40000020, 0x40000024, 0x40000028, 0x4000002C],
     fun w => some (dropB w [⟨none, fld w 7 21, 2⟩, ⟨some .a, fld w 7 14, 2⟩, ⟨some .b, fld w 7 7, 2⟩])⟩,
  ⟨0xF000003F, [0x00000016, 0x00000017],
     fun w => some (dropB w [⟨none, fld w 7 21, 2⟩, ⟨some .a, fld w 7 14, 1⟩, ⟨some .b, fld w 7 7, 1⟩])⟩,
  ⟨0xF100003F, [0x00000018, 0x40000004, 0x50000024, 0x50000025],
     fun w => some (dropB w [⟨some .a, fld w 7 14, 1⟩, ⟨some .b, fld w 7 7, 1⟩])⟩,
  ⟨0xF100003F, [0x00000019, 0x40000034], fun w => some (dropB w [⟨some .a, fld w 7 14, 2⟩, ⟨some .b, fld w 7 7, 2⟩])⟩,
  ⟨0xF0003FFF, [0x00000029], fun _ => none⟩,
  ⟨0xFFE0003F, [0x0000002A], fun _ => none⟩,
  ⟨0xF0000000, [0x90000000], fun _ => none⟩,
  ⟨0xFFFFFFFF, [0x90000000, 0xE0000002], fun _ => none⟩,
  ⟨0xFFE0007F, [0x90000002], fun _ => none⟩,
  ⟨0xFFFFC07F, [0x90000004, 0x90000005], fun _ => none⟩]

/-- Part 2 of the table of names. -/
def nameRows2 : List NameRow := [
  ⟨0xF1003800, [0x10002800], fun w => some [⟨some .a, fld w 7 14, 1⟩]⟩,
  ⟨0xFFE03FFF, [0x2000002A], fun w => some [⟨some .a, fld w 7 14, 1⟩]⟩,
  ⟨0xF0003FFF, [0xD0000018], fun w => some [⟨some .a, fld w 7 14, 1⟩]⟩,
  ⟨0xF0003800, [0x10003800], fun w => some [⟨none, fld w 7 21, 1⟩]⟩,
  ⟨0xF01FFFFF, [0x20000029, 0xE0000008], fun w => some [⟨none, fld w 7 21, 1⟩]⟩,
  ⟨0xF0003FFF, [0xA0000021, 0xA0000024, 0xD0000019], fun w => some [⟨none, fld w 7 21, 1⟩]⟩,
  ⟨0xF01C3FFF, [0xA0000029], fun w => some [⟨none, fld w 7 21, 1⟩]⟩,
  ⟨0xF01E0040, [0xB0080040, 0xB0180040], fun w => some [⟨none, fld w 7 21, 1⟩]⟩,
  ⟨0xF0183FFF, [0xB0000000], fun w => some [⟨none, fld w 7 21, 1⟩]⟩,
  ⟨0xF000003F, [0x2000000D, 0x2000000E, 0x2000000F],
     fun w => some (dropB w [⟨none, fld w 7 21, 2⟩, ⟨some .a, fld w 7 14, 2⟩, ⟨some .b, fld w 7 7, 1⟩])⟩,
  ⟨0xF0003FFF, [0x20000014, 0x20000015, 0x20000016], fun w => some [⟨none, fld w 7 21, 1⟩, ⟨some .a, fld w 7 14, 2⟩]⟩,
  ⟨0xF0003E7F, [0x4000001F, 0x40000035], fun w => some [⟨none, fld w 7 21, 1⟩, ⟨some .a, fld w 7 14, 2⟩]⟩,
  ⟨0xF0003FFF, [0x20000017, 0x40000037], fun w => some [⟨none, fld w 7 21, 2⟩, ⟨some .a, fld w 7 14, 2⟩]⟩,
  ⟨0xF0003FFF, [0x4000001E, 0x40000036], fun w => some [⟨none, fld w 7 21, 2⟩, ⟨some .a, fld w 7 14, 1⟩]⟩,
  ⟨0xF000003F, [0x50000032, 0x50000033], fun w => some (dropB w [⟨none, fld w 7 21, 1⟩, ⟨none, fld w 7 14, 4⟩, ⟨some .b, fld w 7 7, 1⟩])⟩,
  ⟨0xF000003F, [0x50000034], fun w => some (dropB w [⟨none, fld w 7 21, 1⟩, ⟨none, fld w 7 14, 8⟩, ⟨some .b, fld w 7 7, 1⟩])⟩,
  ⟨0xF0000100, [0x60000000, 0x60000100], fun w => some [⟨none, fld w 7 21, ((2 ^ fld w 2 6 + 3) / 4)⟩, ⟨none, fld w 7 14, 1⟩]⟩,
  ⟨0xF0000070, [0x70000000, 0x70000030], fun w => some [⟨none, fld w 7 21, (if fld w 4 0 = 9 then 2 else 1)⟩, ⟨none, fld w 7 14, 1⟩]⟩,
  ⟨0xF0003070, [0x70000040], fun w => some [⟨none, fld w 7 21, (if fld w 4 0 = 9 then 2 else 1)⟩, ⟨none, fld w 7 14, 1⟩]⟩,
  ⟨0xF0000078, [0x70000010, 0x70000018, 0x70000020, 0x70000028],
     fun w => some [⟨none, fld w 7 21, ((2 ^ fld w 3 0 + 3) / 4)⟩, ⟨none, fld w 7 14, 1⟩]⟩,
  ⟨0xF0003070, [0x70000050], fun w => some [⟨none, fld w 7 21, (if fld w 4 0 = 9 then 4 else 2)⟩, ⟨none, fld w 7 14, 1⟩]⟩]

/-- Part 3 of the table of names. -/
def nameRows3 : List NameRow := [
  ⟨0xF000307F, [0x70000060, 0x70000061], fun w => some [⟨none, fld w 7 21, 1⟩, ⟨none, fld w 7 14, 1⟩]⟩,
  ⟨0xF000007F, [0xA0000000, 0xA0000001, 0xA0000002, 0xA0000003, 0xA0000008, 0xA0000009, 0xA000000A, 0xA000000B, 0xA000000C, 0xA000000D,
    0xA000000E, 0xA000000F, 0xA0000010, 0xA0000011, 0xA0000012, 0xA0000013, 0xA0000014],
     fun w => some [⟨none, fld w 7 21, 1⟩, ⟨none, fld w 7 14, 1⟩]⟩,
  ⟨0xF0003FFF, [0xE0000041, 0xE0000044, 0xE0000046, 0xE000004A], fun w => some [⟨none, fld w 7 21, 1⟩, ⟨none, fld w 7 14, 1⟩]⟩,
  ⟨0xFFE0307F, [0x70000062, 0x70000071, 0x70000072], fun w => some [⟨none, fld w 7 14, 1⟩]⟩,
  ⟨0xFFC0307F, [0x70000070], fun w => some [⟨none, fld w 7 14, 1⟩]⟩,
  ⟨0xFFE03FFF, [0xE000000A], fun w => some [⟨none, fld w 7 14, 1⟩]⟩,
  ⟨0xF000307F, [0x70000074], fun w => some [⟨none, fld w 7 21, 4⟩, ⟨none, fld w 7 14, 2⟩]⟩,
  ⟨0xFFE03FFF, [0x90000001, 0xE0000003], fun w => some [⟨none, fld w 7 14, 2⟩]⟩,
  ⟨0xF01E007F, [0xA0000007], fun w => some [⟨none, fld w 7 21, 2⟩]⟩,
  ⟨0xFFE0007F, [0xA0000022, 0xA0000025], fun w => some [⟨none, fld w 7 7, 1⟩]⟩,
  ⟨0xFFFC007F, [0xA000002A], fun w => some [⟨none, fld w 7 7, 1⟩]⟩,
  ⟨0xF800007F, [0xA000003B, 0xA800003B], fun w => some [⟨none, fld w 6 21, 1⟩, ⟨none, fld w 7 7, 1⟩]⟩,
  ⟨0xF01E0040, [0xB0000040, 0xB0100040], fun w => some [⟨none, fld w 7 21, 4⟩]⟩,
  ⟨0xF000007F, [0xE0000000, 0xE0000001], fun w => some [⟨none, fld w 7 21, (if srWide (fld w 14 7) then 2 else 1)⟩]⟩,
  ⟨0xF000007F, [0xE0000005], fun w => some [⟨none, fld w 7 21, 1⟩, ⟨none, fld w 7 14, 2⟩, ⟨none, fld w 7 7, 1⟩]⟩,
  ⟨0xF01FC07F, [0xE0000006], fun w => some [⟨none, fld w 7 21, 1⟩, ⟨none, fld w 7 7, 1⟩]⟩,
  ⟨0xF000007F, [0xE0000007, 0xE000000B, 0xE0000043], fun w => some [⟨none, fld w 7 21, 1⟩, ⟨none, fld w 7 14, 2⟩, ⟨none, fld w 7 7, 2⟩]⟩,
  ⟨0xF000007F, [0xE0000009, 0xE0000040, 0xE0000048, 0xE0000049, 0xE000004B],
     fun w => some [⟨none, fld w 7 21, 1⟩, ⟨none, fld w 7 14, 1⟩, ⟨none, fld w 7 7, 2⟩]⟩,
  ⟨0xF000007F, [0xE0000042, 0xE0000045, 0xE0000047], fun w => some [⟨none, fld w 7 21, 1⟩, ⟨none, fld w 7 14, 1⟩, ⟨none, fld w 7 7, 1⟩]⟩]

/-- R167, R85 to R87: the vector registers that an instruction word reads or writes; none for one that reads or writes every position of the
window (MOVRI and MOVWI, R95) or moves the window. A word of no row names none. -/
def namesOf (w : Nat) : Option (List VName) :=
  match (nameRows1 ++ nameRows2 ++ nameRows3).find? (fun r => r.vals.contains (w &&& r.mask)) with
  | some r => r.names w
  | none => some []

/-- R50: the target of a LIMM word. -/
def limmTargetOf (w : Word) : LimmTarget := LimmTarget.ofField (BitVec.ofNat 2 (fld w.toNat 2 22))

/-- R36: the instruction word of the group at `pc`, and the operand its literal replaces; none where a word of it cannot be fetched. -/
def groupWord (fetch : Nat → Option Word) : Nat → Option LimmTarget → Nat → Option (Word × Option LimmTarget)
  | 0, _, _ => none
  | n + 1, lit, pc =>
    match fetch pc with
    | none => none
    | some w =>
      if fld w.toNat 4 28 ≠ 15 || 3 ≤ fld w.toNat 4 24 then some (w, lit)
      else if fld w.toNat 4 24 = 2 then groupWord fetch n (some (limmTargetOf w)) (pc + 8)
      else groupWord fetch n lit (pc + 4)

/-- R36, R56: the word that a thread executes next, stepped, and the operand its literal replaces. -/
def State.nextWord (s : State) (b : Block) (t : Thread) : Option (Word × Option LimmTarget) :=
  let fetch (a : Nat) : Option Word := match s.fetchAt b t.level a with
    | .error _ => none
    | .ok (w, _) => some w
  let p := t.pfx
  let pc := t.pc.toNat
  if !p.repv && !p.ifpv then groupWord fetch 4 none pc
  else (fetch pc).map (fun w => (if p.repv then stepWord w p.sd p.sa p.sb p.next p.stride.toInt else w,
    if p.limmv then (fetch (pc - 8)).map limmTargetOf else none))

/-- R167: a word, executed by a thread, names a register with an outstanding write of its gang. `lit` is the operand that the group's literal
replaces. -/
def busyFor (w : Word) (lit : Option LimmTarget) (board : List Return) (t : Thread) : Bool :=
  match namesOf w.toNat with
  | none => !board.isEmpty
  | some l => (l.filter (fun v => v.lit.isNone || v.lit != lit)).any (fun v =>
      let p := t.wb + v.field
      board.any (fun r => p < r.pos + r.width / 4 && r.pos < p + v.count))

/-- R167: outstanding writes of its gang hold back the next group of a thread. A group that cannot be fetched meets its fault at once. -/
def State.heldBack (s : State) (b : Block) (board : List Return) (t : Thread) : Bool :=
  !board.isEmpty && match s.nextWord b t with
    | none => false
    | some (w, lit) => busyFor w lit board t

end Sys2Proof.Machine
end

