-- ==== Sys2Proof/Machine/Issue.lean ====
section
/-! DEFINITION. Which threads issue next (R157 to R165), the words of their group (R14, R36, R51, R53, R56), and one repeat of it
(R55). `Step.lean` puts these around `exec`. -/

namespace Sys2Proof.Machine

/-! ## Keys, quads and gangs -/

/-- R157: an issue key. -/
structure Key where
  pc : DWord
  level : Level
  swb : Nat
  pfx : Pfx
deriving DecidableEq, Repr

/-- R157: a thread's issue key. -/
def Thread.key (t : Thread) : Key := ⟨t.pc, t.level, t.swb, t.pfx⟩

/-- The first of two threads in the order of R157 rule 2. -/
def before (x y : Thread) : Bool :=
  if x.pc.toNat != y.pc.toNat then x.pc.toNat < y.pc.toNat
  else if x.level.toNat != y.level.toNat then y.level.toNat < x.level.toNat
  else x.lane ≤ y.lane

/-- R157: the thread whose key a quad's sequencer chooses among its runnable threads. -/
def chooseThread (ts : List Thread) : Option Thread :=
  match ts.filter (fun t => 1024 ≤ t.waited) with
  | t :: old => some (old.foldl (fun x y => if x.waited < y.waited then y else x) t)
  | [] => match ts with
    | [] => none
    | t :: rest => some (rest.foldl (fun x y => if before x y then x else y) t)

/-- Runnable threads of quad q of the block at place `bi`. -/
def State.quadRunnable (s : State) (bi : Nat) (b : Block) (q : Nat) : List Thread :=
  b.threads.filter (fun t => t.tid / 4 == q && !t.filed && s.runnable bi b t)

/-- R157: the key a quad has chosen. -/
def State.quadKey (s : State) (bi : Nat) (b : Block) (q : Nat) : Option Key :=
  (chooseThread (s.quadRunnable bi b q)).map Thread.key

/-- R157, R158: the active threads of a gang: those of its quads whose keys are the chosen one, in ascending %tid. -/
def State.activeThreads (s : State) (bi : Nat) (b : Block) (g : Gang) : List Thread :=
  match g.quads.head?.bind (s.quadKey bi b) with
  | none => []
  | some k => b.threads.filter (fun t => g.quads.contains (t.tid / 4) && !t.filed && s.runnable bi b t && t.key == k)

/-- R157, R158: the %tids of a gang's active threads. -/
def State.activeTids (s : State) (bi : Nat) (b : Block) (g : Gang) : List Nat := (s.activeThreads bi b g).map (·.tid)

/-- R167: outstanding writes hold back the next group of a gang. -/
def State.gangHeld (s : State) (bi : Nat) (b : Block) (g : Gang) (board : List Return) : Bool :=
  !board.isEmpty && (s.activeThreads bi b g).any (s.heldBack b board)

/-- R158: two gangs of one block may be one: disjoint lane groups and at most 16 quads. -/
def mergeable (b : Block) (x y : Gang) : Bool :=
  x.quads.length + y.quads.length ≤ 16 &&
  x.quads.all (fun p => y.quads.all (fun q => b.laneGroupOf p != b.laneGroupOf q))

/-- The quad has a thread that is neither at its end nor stopped, and no bin holds it. -/
def Block.quadHere (b : Block) (q : Nat) : Bool := b.threads.any (fun t => t.tid / 4 == q && !t.exited && !t.stopped && !t.filed)

/-- R159, R164: a gang's parts: one for each distinct chosen key, and one of the quads whose threads all wait, from which they go on
together when they wake. The first part with a key keeps the gang's slot; the others are formed in the pending set. A gang that waits
whole leaves the active set, and so does a part whose next group waits for a load. Each part keeps the gang's scoreboard (R167). Which
part keeps the slot, what gang a waking quad stands in, and that every load has missed L1 are the model's choice (log entry 102). -/
def State.splitGang (s : State) (bi : Nat) (b : Block) (g : Gang) : List Gang :=
  let board := b.boardOf g
  let keyed := g.quads.filterMap (fun q => (s.quadKey bi b q).map (fun k => (q, k)))
  let idle := g.quads.filter (fun q => b.quadHere q && (s.quadKey bi b q).isNone)
  let left (qs : List Nat) : Gang := { quads := qs, since := s.clock, board := board }
  let stays (g : Gang) : Gang := if g.active && s.gangHeld bi b g (board.filter (fun r => !r.divide)) then left g.quads else g
  let parts := ((keyed.map (·.2)).eraseDups).map (fun k => (keyed.filter (fun x => x.2 == k)).map (·.1))
  match parts with
  | [] => if idle.isEmpty then [] else [if g.active then left idle else { g with quads := idle, board := board }]
  | p :: rest => stays { g with quads := p, board := board } :: (rest.map left ++ if idle.isEmpty then [] else [left idle])

/-- R163: the gang is ready: its quads have a chosen key, and the scoreboard clears what its group names. -/
def State.gangReady (s : State) (bi : Nat) (b : Block) (g : Gang) : Bool :=
  (g.quads.head?.bind (s.quadKey bi b)).isSome && !s.gangHeld bi b g (b.boardOf g)

/-- R159: merges among active gangs of a block with equal keys. The merged gang has both scoreboards, has waited since the earlier of the two
clocks, and has the last issue of the gang that stands first (the model's choice: log entry 103). -/
def State.mergeGangs (s : State) (bi : Nat) (b : Block) (gs : List Gang) : List Gang :=
  gs.foldl (fun acc g =>
    let key (x : Gang) : Option Key := x.quads.head?.bind (s.quadKey bi b)
    match acc.findIdx? (fun x => x.active && g.active && key x == key g && mergeable b x g) with
    | some i => upd acc i (fun x => { x with quads := (List.range (quadsOf b.threads.length)).filter (fun q => x.quads.contains q || g.quads.contains q), since := min x.since g.since, board := b.boardOf x ++ b.boardOf g })
    | none => acc ++ [g]) []

/-- R159: the check for merges in the block at place `bi`. -/
def State.mergeBlock (s : State) (bi : Nat) : State :=
  match s.blocks[bi]? with
  | none => s
  | some b => s.updBlock bi (fun b' => { b' with gangs := s.mergeGangs bi b b.gangs })

/-- R158, R159: the gangs of the block at place `bi` after its threads have moved: splits, with the check for merges that follows them,
and gangs for runnable quads that stand in none. -/
def State.regang (s : State) (bi : Nat) : State :=
  match s.blocks[bi]? with
  | none => s
  | some b =>
    let parts := b.gangs.flatMap (s.splitGang bi b)
    let loose := (List.range (quadsOf b.threads.length)).filter (fun q =>
      (s.quadKey bi b q).isSome && parts.all (fun g => !g.quads.contains q))
    let gs := parts ++ loose.map (fun q => { quads := [q], since := s.clock })
    s.updBlock bi (fun b' => { b' with gangs := if parts.map (·.quads) = b.gangs.map (·.quads) then gs else s.mergeGangs bi b gs })

/-- Gangs of every block after anything may have become runnable. -/
def State.regangAll (s : State) : State := (List.range s.blocks.length).foldl State.regang s

/-- R163, R164: gangs of a core as (place of the block, place of the gang, gang). -/
def State.gangsOf (s : State) (core : Nat) : List (Nat × Nat × Gang) :=
  s.blocks.zipIdx.flatMap (fun p => if p.1.core == core then p.1.gangs.zipIdx.map (fun g => (p.2, g.2, g.1)) else [])

/-- R163: the lowest lane group of a gang. -/
def lowGroup (b : Block) (g : Gang) : Nat := (g.quads.map b.laneGroupOf).foldl min 32

/-- The longest-waiting of a list of gangs, by `w` (a clock); ties go to the lowest lane group. -/
def State.longest (s : State) (w : Gang → Nat) (gs : List (Nat × Nat × Gang)) : Option (Nat × Nat × Gang) :=
  let lo (x : Nat × Nat × Gang) : Nat := ((s.blocks[x.1]?).map (fun b => lowGroup b x.2.2)).getD 32
  match gs with
  | [] => none
  | g :: rest => some (rest.foldl (fun x y =>
      if w y.2.2 < w x.2.2 ∨ (w y.2.2 = w x.2.2 ∧ lo y < lo x) then y else x) g)

/-- The gangs of a core that are ready. -/
def State.readyOf (s : State) (core : Nat) : List (Nat × Nat × Gang) :=
  (s.gangsOf core).filter (fun g => (s.blocks[g.1]?).any (fun b => s.gangReady g.1 b g.2.2))

/-- R164: one swap on a core: the active gang that has held its slot for 64 clocks and has issued leaves, if all eight slots are
taken, and the ready pending gang that has waited longest enters. Of several that may leave, the first in the list of gangs does: the
rule names none (the model's choice: log entry 103). The state is unchanged where neither is called for. -/
def State.swapActive (s : State) (core : Nat) : State :=
  let active := (s.gangsOf core).filter (fun g => g.2.2.active)
  match s.longest Gang.since ((s.readyOf core).filter (fun g => !g.2.2.active)) with
  | none => s
  | some (bi, gi, _) =>
    let enter (s : State) : State := s.updBlock bi (fun b => { b with
      gangs := upd b.gangs gi (fun g => { g with active := true, since := s.clock, last := none }) })
    if active.length < 8 then (enter s).mergeBlock bi
    else match active.find? (fun g => g.2.2.since + 64 ≤ s.clock && g.2.2.last.isSome) with
      | none => s
      | some (bo, go, _) =>
        let s' := s.updBlock bo (fun b => { b with
          gangs := upd b.gangs go (fun g => { g with active := false, since := s.clock, last := none }) })
        (enter s').mergeBlock bi

/-- Cores that hold a block, each once. -/
def State.coresInUse (s : State) : List Nat := (s.blocks.map (·.core)).eraseDups

/-- R163: of a list of gangs, the one that has gone longest since its last issue or since it entered the active set. -/
def State.longestActive (s : State) (gs : List (Nat × Nat × Gang)) : Option (Nat × Nat × Gang) :=
  s.longest (fun g => g.last.getD g.since) (gs.filter (fun g => g.2.2.active))

/-- One of a list, by a free choice where there are several. -/
def pickOne {α : Type} (k : Nat) : List α → Option α
  | [] => none
  | [x] => some x
  | xs => xs[Config.pick k % xs.length]?

/-- R163: the gang that decoder 0 of a core issues next; any of the cores that have one comes next (log entry 39). -/
def State.nextGang (s : State) : Option (Nat × Nat × Gang) := pickOne s.fresh (s.coresInUse.filterMap (fun c => s.longestActive (s.readyOf c)))

/-- The lane groups of a gang of the block at place `bi`. -/
def State.groupsOf (s : State) (bi : Nat) (g : Gang) : List Nat := ((s.blocks[bi]?).map (fun b => g.quads.map b.laneGroupOf)).getD []

/-- R163: the gang of a core that decoder 1 issues beside one of decoder 0 with the lane groups given. -/
def State.besideGang (s : State) (core : Nat) (groups : List Nat) : Option (Nat × Nat × Gang) :=
  s.longestActive ((s.readyOf core).filter (fun g => (s.groupsOf g.1 g.2.2).all (fun x => !groups.contains x)))

/-- R157: after an issue, the threads of its quads beside the active ones have waited one issue more. -/
def State.ageQuads (s : State) (bi : Nat) (g : Gang) (tids : List Nat) : State :=
  s.updBlock bi (fun b => { b with threads := b.threads.map (fun t =>
    if g.quads.contains (t.tid / 4) && !tids.contains t.tid then { t with waited := t.waited + 1 } else t) })

/-! ## The words of a group -/

/-- R36: a group as fetched: its prefix words in order, the instruction word, its address, the literal, and the address of the next
group. -/
structure Group where
  grp : Nat
  rep : Option (Nat × Word) := none
  ifp : Option (Nat × Word) := none
  limm : Option (Nat × Word) := none
  lit : Word := 0
  pc : Nat := 0
  word : Word := 0
deriving DecidableEq, Repr

/-- How fetching a group ends. -/
inductive Fetched where
  | group (g : Group)
  | fault (f : MemFault) (va : Nat)
  /-- R51, R57: the word named and its address. -/
  | illegal (pc : Nat) (w : Word)
deriving DecidableEq, Repr

/-- R51 pass 1, R58: the words of a group from `pc` on, its prefix words checked on their own and in their places. `prev` is the prefix
word directly before, `bad` the first one found with a defect of its own or out of its place: the words after it are still fetched, and
one that cannot be is what the group meets. A kind from 4 to 15 is no prefix and ends the group, as does a SWIN after a prefix. -/
noncomputable def scanGroup (fetch : Nat → Except (MemFault × Nat) Word) :
    Nat → Group → Option (Nat × Word) → Option (Nat × Word) → Nat → Fetched
  | 0, g, _, _, _ => .illegal g.pc g.word
  | n + 1, g, prev, bad, pc =>
    match fetch pc with
    | .error (f, va) => .fault f va
    | .ok w =>
      let kind := fld w.toNat 4 24
      let ends (x : Nat × Word) : Fetched := .illegal (bad.getD x).1 (bad.getD x).2
      let found : Fetched := match bad with
        | some x => .illegal x.1 x.2
        | none => .group { g with pc := pc, word := w }
      if fld w.toNat 4 28 ≠ 15 then found
      else if 3 ≤ kind then
        match prev with
        | some x => ends x
        | none => if kind = 3 then found else ends (pc, w)
      else
        let place := if kind = 0 then prev.isNone else if kind = 1 then g.ifp.isNone && g.limm.isNone else g.limm.isNone
        let bad' := bad.or (match decodeWord w with | .error _ => some (pc, w) | .ok _ => if place then none else some (pc, w))
        if kind = 0 then scanGroup fetch n { g with rep := some (pc, w) } (some (pc, w)) bad' (pc + 4)
        else if kind = 1 then scanGroup fetch n { g with ifp := some (pc, w) } (some (pc, w)) bad' (pc + 4)
        else match fetch (pc + 4) with
          | .error (f, va) => .fault f va
          | .ok lit => scanGroup fetch n { g with limm := some (pc, w), lit := lit } (some (pc, w)) bad' (pc + 8)

/-- R51 pass 3: what the prefixes ask of the instruction: the step bits of a REP and the target of a LIMM. -/
noncomputable def prefixDefect (i : Instr) (word : Word) (step : Option (Bool × Bool × Bool)) (target : Option LimmTarget) :
    Option Bool :=
  let replaced (f : LimmTarget) : Bool := target == some f
  match step with
  | none => if target.all (fun f => i.limmTargets.contains f && limmFieldZero word f) then none else some false
  | some (d, a, b) =>
    match i.stepFields with
    | none => some true
    | some f =>
      if d && !f.d || a && (!f.a || replaced .a) || b && (!f.b || replaced .b) then some true
      else if target.all (fun f => i.limmTargets.contains f && limmFieldZero word f) then none else some false

/-- R50: the step bits of a REP word. -/
def repSteps (w : Word) : Bool × Bool × Bool := (bit w.toNat 17, bit w.toNat 16, bit w.toNat 15)

/-- R51 passes 2 and 3 for a fresh group: the instruction, or the word named. -/
noncomputable def Group.check (g : Group) : Except (Nat × Word) Instr :=
  match decodeWord g.word with
  | .error _ => .error (g.pc, g.word)
  | .ok i =>
    match prefixDefect i g.word (g.rep.map (fun p => repSteps p.2)) (g.limm.map (fun p => limmTargetOf p.2)) with
    | none => .ok i
    | some true => .error (g.rep.getD (g.pc, g.word))
    | some false => .error (g.limm.getD (g.pc, g.word))

/-- The words of the group at `pc` for threads with the pending prefix state `p` (R56: a pending group resumes at its instruction
word, its literal re-read from the word before). The prefix state names no target for the literal; the model reads the LIMM word before
the literal again to learn it (log entry 104). -/
noncomputable def State.fetchGroup (s : State) (b : Block) (l : Level) (pc : Nat) (p : Pfx) : Fetched :=
  let fetch (a : Nat) : Except (MemFault × Nat) Word := match s.fetchAt b l a with
    | .error f => .error f
    | .ok (w, _) => .ok w
  if !p.repv && !p.ifpv then scanGroup fetch (2 ^ 55) { grp := pc } none none pc
  else match fetch pc with
    | .error (f, va) => .fault f va
    | .ok w =>
      if !p.limmv then .group { grp := pc, pc := pc, word := w }
      else match fetch (pc - 4), fetch (pc - 8) with
        | .error (f, va), _ => .fault f va
        | _, .error (f, va) => .fault f va
        | .ok lit, .ok lw => .group { grp := pc, pc := pc, word := w, limm := some (pc - 8, lw), lit := lit }

/-- The instruction of a resumed group, or the word named. A word of class 0xF is no instruction word of a group (R51). Where the
recorded prefixes do not fit the word, or the word before the literal is no LIMM, the spec does not say which word ILLEGAL_OP names; here
it is the instruction word, the one word of the group that the frame's PC gives (log entry 104). -/
noncomputable def Group.checkResumed (g : Group) (p : Pfx) : Except (Nat × Word) Instr :=
  let limmOk := g.limm.all (fun x => match decodeWord x.2 with | .ok (.limm _) => true | _ => false)
  if fld g.word.toNat 4 28 = 15 then .error (g.pc, g.word)
  else match decodeWord g.word with
  | .error _ => .error (g.pc, g.word)
  | .ok i =>
    if !limmOk then .error (g.pc, g.word)
    else match prefixDefect i g.word (if p.repv then some (p.sd, p.sa, p.sb) else none) (g.limm.map (fun x => limmTargetOf x.2)) with
      | none => .ok i
      | some _ => .error (g.pc, g.word)

/-- R14: translations that fetching used stay in the caches. -/
def State.noteFetch (s : State) (b : Block) (l : Level) (pc : Nat) : State :=
  match s.fetchAt b l pc with
  | .ok (_, s') => s'
  | .error _ => s

/-- R55: the first stepped field outside 0 to 127 in repeat i, modulo 2^32. -/
def stepOffender (w : Word) (p : Pfx) : Option Nat :=
  let f (on : Bool) (lo : Nat) : Int := (fld w.toNat 7 lo : Int) + if on then (p.next : Int) * p.stride.toInt else 0
  ([f p.sd 21, f p.sa 14, f p.sb 7].find? (fun x => x < 0 || 127 < x)).map (fun x => (x % 2 ^ 32).toNat)

/-! ## Before an issue -/

/-- R22, R34: the instruction word of the frame of a thread that meets a fault before its group issues: the word at its PC, which is the
first prefix word where its group begins with one (the rule says "instruction word" and does not say which word of such a group: the
model's choice); a free value where it cannot be fetched (log entry 11). -/
def State.targetWord (s : State) (b : Block) (t : Thread) : Word × State :=
  match s.fetchAt b t.level t.pc.toNat with
  | .ok (w, _) => (w, s)
  | .error _ => (Config.freeWord s.fresh 0, { s with fresh := s.fresh + 1 })

/-- R22, R32, R250: what keeps thread k of the block at place `bi` from its group before it issues: its trap at the PC it stands at, or its
wait there. -/
def State.stopBefore (s : State) (bi k : Nat) (x : Stop) : State :=
  match s.thread? bi k with
  | none => s
  | some (b, t) =>
    let (w, s) := s.targetWord b t
    match x with
    | .trap tr => s.takeTrapAt bi k tr t.pc w
    | .wait v => s.updThread bi k (fun t => { t with wait := v, waitWord := w, waited := 0 })

/-- R18, R22: each active thread's remaining moves: all of them, or one and the others in steps to come (log entry 95). Those with moves
to come, and those that a fault or a wait stops, leave the issue. -/
def State.settleAll (s : State) (bi : Nat) (tids : List Nat) : State × List Nat :=
  tids.foldl (fun (s, ok) k =>
    match s.thread? bi k with
    | none => (s, ok)
    | some (_, t) =>
      match s.settle bi k (if s.later then 1 else moveFuel t) with
      | (s', none) => (s', if (s'.moveOne bi k).isNone then ok ++ [k] else ok)
      | (s', some x) => (s'.stopBefore bi k x, ok)) (s, [])

/-- R14, R58: a fetch that fails: FETCH_FAULT, or the second stage's or poison's own condition. -/
def fetchTrap (f : MemFault) (q : Req) (va : Nat) : Trap :=
  match f with
  | .page _ => { cause := .fetchFault, addr := BitVec.ofNat 64 va }
  | _ => f.trap q va

/-- R1: time passes. -/
def State.tick (s : State) : State :=
  { s with
    clock := s.clock + 1 + Config.extraClocks s.clock
    devTime := (s.devTime + Config.devTicks s.clock) % 2 ^ 64
    secure := (s.secure + Config.secureTicks s.clock) % 2 ^ 64 }

end Sys2Proof.Machine
end

