-- ==== Sys2Proof/Machine/Flow.lean ====
section
/-! DEFINITION. Prefix words (R50 to R56), SWIN (R52), and control flow of classes 0x8 and 0x9 (R131 to R140, R196). -/

namespace Sys2Proof.Machine

/-! ## Prefix words -/

/-- The prefix state of every active thread changed. -/
def State.latch (s : State) (f : Pfx → Pfx) : State :=
  s.updBlock s.cur.blk (fun b => { b with threads := b.threads.map (fun t =>
    if s.cur.tids.contains t.tid then { t with pfx := f t.pfx } else t) })

/-- REP (R50, R55): the next instruction word of the group is to run n + 1 times. -/
def execRep (n : BitVec 6) (x y z : Bool) (t : BitVec 4) (s : State) : Outcome :=
  .next (s.latch (fun p => { p with repv := true, next := 0, cnt := n.toNat, sd := x, sa := y, sb := z, stride := t }))
/-- IFP (R50, R54): the instruction of the group is guarded. -/
def execIfp (p : BitVec 3) (g : Bool) (s : State) : Outcome :=
  .next (s.latch (fun q => { q with ifpv := true, gpred := p.toNat, gsense := g }))
/-- LIMM (R50, R53): the literal word stands for an operand of the group's instruction. -/
def execLimm (t : BitVec 2) (s : State) : Outcome :=
  .next ({ s with cur := { s.cur with lit := some (LimmTarget.ofField t, s.cur.litWord) } }.latch (fun p => { p with limmv := true }))
/-- SWIN (R52). -/
def execSwin (w : BitVec 3) (s : State) : Outcome := s.alu [] [] [] (fun _ t => { t with swb := 32 * w.toNat })

/-! ## Branches -/

/-- R131: each thread goes to the target or to the next group. -/
def State.branch (s : State) (o : BitVec 22) (take : Thread → Bool) : Outcome :=
  .next (s.lanesBy id (fun _ t =>
    .ok (t.jump (if take t then s.cur.pc + (o.signExtend 64) * 4 else s.cur.next))))

/-- BRA (R131). -/
def execBra (o : BitVec 22) (s : State) : Outcome := s.branch o (fun _ => true)
/-- BRT (R131). -/
def execBrt (p : BitVec 3) (o : BitVec 22) (s : State) : Outcome := s.branch o (fun t => t.pred p.toNat)
/-- BRF (R131). -/
def execBrf (p : BitVec 3) (o : BitVec 22) (s : State) : Outcome := s.branch o (fun t => !t.pred p.toNat)
/-- BRANY (R131): over the threads of the issue whose guards pass. -/
def execBrany (p : BitVec 3) (o : BitVec 22) (s : State) : Outcome := s.branch o (fun _ => s.passing.any (fun t => t.pred p.toNat))
/-- BRALL (R131). -/
def execBrall (p : BitVec 3) (o : BitVec 22) (s : State) : Outcome := s.branch o (fun _ => s.passing.all (fun t => t.pred p.toNat))

/-! ## Calls and the window -/

/-- R133, R134: the call of one thread to a target that has been checked. -/
def State.callTo (s : State) (t : Thread) (k : Nat) (target : DWord) : LaneRes :=
  let f := max 3 (t.f - k)
  match s.roomFor s.cur.blk t.tid (t.wb + k + f) with
  | (s', some x) => s'.stopLane t.tid x
  | (s', none) =>
    .moved (s'.updThread s.cur.blk t.tid (fun u =>
      let u := { u with wb := t.wb + k, f := f }
      let ret := s.cur.next.toNat
      (((u.put 0 (BitVec.ofNat 32 ret)).put 1 (BitVec.ofNat 32 (fld ret 24 32))).put 2
        (BitVec.ofNat 32 (k * 256 + t.f))).jump target))

/-- CALL (R43, R134). -/
def execCall (v : Reg) (i : BitVec 21) (s : State) : Outcome :=
  .next (s.foldLanes (fun s _ t => s.callTo t v.toNat (s.cur.pc + (i.signExtend 64) * 4)))

/-- R137: the check of an indirect target in one thread: JUMP_FAULT unless it is an executable LAND word. The read waits as a fetch
does (R250). -/
def State.landCheck (s : State) (b : Block) (t : Thread) (x : DWord) : Option Stop :=
  let bad : Trap := { cause := .jumpFault, addr := x }
  if x.toNat ≥ 2 ^ 56 ∨ x.toNat % 4 ≠ 0 then some (.trap bad)
  else match s.fetchAt b t.level x.toNat with
    | .error (.poison w, va) => some ((MemFault.poison w).stop (b.fetchReq t.level) va)
    | .error (.held n, va) => some ((MemFault.held n).stop (b.fetchReq t.level) va)
    | .error _ => some (.trap bad)
    | .ok (w, _) => if w = landWord then none else some (.trap bad)

/-- CALLI (R134, R137). -/
def execCalli (a b : Reg) (s : State) : Outcome :=
  .next (s.foldLanes (fun s blk t => laneChecked blk t (upto a.toNat 1 2) [] (upto a.toNat 1 2) s (fun _ =>
    match s.landCheck blk t (t.get64 a.toNat) with
    | some x => s.stopLane t.tid x
    | none => s.callTo t b.toNat (t.get64 a.toNat))))

/-- JMPI (R137). -/
def execJmpi (a : Reg) (s : State) : Outcome :=
  .next (s.foldLanes (fun s blk t => laneChecked blk t (upto a.toNat 1 2) [] (upto a.toNat 1 2) s (fun _ =>
    match s.landCheck blk t (t.get64 a.toNat) with
    | some x => s.stopLane t.tid x
    | none => .moved (s.updThread s.cur.blk t.tid (fun u => u.jump (t.get64 a.toNat))))))

/-- R22: the moves that follow a commit, at once or before the thread's next issue (log entry 95); what they meet is the target's. -/
def State.settleAfter (s : State) (k fuel : Nat) : State :=
  if s.later then s
  else match s.settle s.cur.blk k fuel with
    | (s', none) => s'
    | (s', some x) => s'.stopBefore s.cur.blk k x

/-- R135: the fields of a link pass its checks for a thread: RETLO, RETHI and the rest. -/
def linkOk (t : Thread) : Bool :=
  let l0 := (t.get 0).toNat
  let l1 := (t.get 1).toNat
  let l2 := (t.get 2).toNat
  let k := fld l2 7 8
  let fc := fld l2 8 0
  fld l1 8 24 == 0 && fld l2 17 15 == 0 && fld l0 2 0 == 0 && k != 0 && k ≤ t.wb && fc != 0 && fc ≤ min t.n 128

/-- R135: the return address of a link. -/
def linkPc (t : Thread) : DWord := BitVec.ofNat 64 (fld (t.get 1).toNat 24 0 * 2 ^ 32 + (t.get 0).toNat)

/-- RET (R135). -/
def execRet (s : State) : Outcome :=
  .next (s.foldLanes (fun s blk t => laneChecked blk t [0, 1, 2] [] [0, 1, 2] s (fun _ =>
    if !linkOk t then .trap s { cause := .jumpFault, addr := linkPc t }
    else
      let wb := t.wb - fld (t.get 2).toNat 7 8
      let f := fld (t.get 2).toNat 8 0
      let top := t.wb + t.f
      let s := s.updThread s.cur.blk t.tid (fun u => ({ u with wb := wb, f := f } : Thread).jump (linkPc t))
      let s := if top < wb + f then s.undefineIn s.cur.blk t.tid top (wb + f - top) else s
      .moved (s.settleAfter t.tid (moveFuel t)))))

/-- FRAME (R136). -/
def execFrame (b : Reg) (s : State) : Outcome :=
  let size := b.toNat + 1
  .next (s.foldLanes (fun s _ t =>
    if min t.n 128 < size then .trap s (.regBound size)
    else match s.roomFor s.cur.blk t.tid (t.wb + size) with
      | (s', some x) => s'.stopLane t.tid x
      | (s', none) =>
        let s' := if t.f < size then s'.undefine s.cur.blk t.tid (t.wb + t.f) (size - t.f) else s'
        .done (s'.updThread s.cur.blk t.tid (fun u => { u with f := size }))))

/-- WBASE (R136). -/
def execWbase (b : Reg) (s : State) : Outcome :=
  .next (s.foldLanes (fun s _ t =>
    let new := (t.wb : Int) + b.toInt
    if new < 0 then .trap s (.regBound (new % 2 ^ 32).toNat)
    else if 0 ≤ b.toInt then
      match s.roomFor s.cur.blk t.tid (new.toNat + t.f) with
      | (s', some x) => s'.stopLane t.tid x
      | (s', none) =>
        let s' := if b.toNat = 0 then s' else s'.undefine s.cur.blk t.tid (t.wb + t.f) b.toNat
        .done (s'.updThread s.cur.blk t.tid (fun u => { u with wb := new.toNat }))
    else
      let s := s.updThread s.cur.blk t.tid (fun u => ({ u with wb := new.toNat } : Thread).jump s.cur.next)
      .moved (s.settleAfter t.tid (moveFuel t))))

/-! ## LAND, NOP, EXIT, TRAP, REFORM -/

/-- LAND (R138). -/
def execLand (s : State) : Outcome := s.alu [] [] [] (fun _ t => t)
/-- NOP (R138). -/
def execNop (s : State) : Outcome := s.alu [] [] [] (fun _ t => t)

/-- EXIT (R139, R180): the thread ends; rendezvous that name it raise MEMBER_GONE. -/
def execExit (s : State) : Outcome :=
  let s' := s.lanesBy id (fun _ t => .ok { t.jump s.cur.next with exited := true, pend := none })
  .next (((s.cur.tids.map (· / 64)).eraseDups).foldl (fun s m => s.resolveMeets s.cur.blk m) s')

/-- TRAP (R140, R34): the frame's PC is the following group's. -/
def execTrap (i : BitVec 14) (s : State) : Outcome :=
  .next (s.foldLanes (fun s _ t =>
    .moved ((s.updThread s.cur.blk t.tid (fun u => { u with pfx := {} })).takeTrapAt s.cur.blk t.tid
      { cause := .trap, extra := i.setWidth 64 } s.cur.next s.cur.word)))

/-- R160: a bin's quads with one more, filed now: after those of earlier clocks, and among those of this clock in ascending lane group. -/
def Bin.insert (b : Block) (clock q : Nat) : List (Nat × Nat) → List (Nat × Nat)
  | [] => [(q, clock)]
  | x :: rest => if x.2 == clock && b.laneGroupOf q < b.laneGroupOf x.1 then (q, clock) :: x :: rest else x :: Bin.insert b clock q rest

/-- R160: a quad may be filed in a bin: it has room, or holds at its end a quad of this clock that comes after this one. -/
def Bin.takes (b : Block) (clock q : Nat) (x : Bin) : Bool :=
  x.quads.length < 32 || x.quads.getLast?.any (fun y => y.2 == clock && b.laneGroupOf q < b.laneGroupOf y.1)

/-- R160: quad q of the block at place `bi` is filed under the key of a thread, or forms a gang of its own when no bin can take it. Where
the bin that holds its key has its 32 quads, the model takes an empty bin for the same key, also for a quad of this clock that this one
puts out (log entry 105). The number bounds how often that happens. -/
def State.fileQuad (s : State) (bi q : Nat) (t : Thread) : Nat → State
  | 0 => s
  | n + 1 =>
    match s.blocks[bi]? with
    | none => s
    | some b =>
      let left (gs : List Gang) : List Gang := (gs.map (fun g => { g with quads := g.quads.filter (· != q) })).filter (fun g => !g.quads.isEmpty)
      let leave (b : Block) : Block := { b with gangs := left b.gangs }
      let mark (v : Bool) (b : Block) : Block := { b with threads := b.threads.map (fun u => if u.tid / 4 = q then { u with filed := v } else u) }
      match s.bins.findIdx? (fun x => x.core == b.core && x.blk == b.uid && x.pc == t.pc && x.level == t.level && x.swb == t.swb &&
          x.takes b s.clock q) with
      | some i =>
        let all := Bin.insert b s.clock q ((s.bins[i]?).map (·.quads) |>.getD [])
        let s := { s.updBlock bi (fun b => mark true (leave b)) with bins := upd s.bins i (fun x => { x with quads := all.take 32 }) }
        (all.drop 32).foldl (fun s y => s.fileQuad bi y.1 t n) s
      | none =>
        if (s.bins.filter (fun x => x.core == b.core)).length < 16 then
          { s.updBlock bi (fun b => mark true (leave b)) with bins := s.bins ++ [⟨b.core, b.uid, t.pc, t.level, t.swb, [(q, s.clock)]⟩] }
        else s.updBlock bi (fun b => { mark false (leave b) with gangs := (leave b).gangs ++ [{ quads := [q], since := s.clock }] })

/-- REFORM (R160, R196): every active thread goes on, whatever its guard; their quads are filed in ascending lane group. -/
def execReform (s : State) : Outcome :=
  let s' := s.updBlock s.cur.blk (fun b => { b with
    threads := b.threads.map (fun t => if s.cur.tids.contains t.tid then t.jump s.cur.next else t), progress := s.clock })
  match s'.blocks[s.cur.blk]? with
  | none => .next s'
  | some b =>
    let qs := (s.cur.tids.map (· / 4)).eraseDups
    let order := (List.range 32).flatMap (fun g => qs.filter (fun q => b.laneGroupOf q == g))
    .next (order.foldl (fun s q =>
      match b.threads.find? (fun t => t.tid / 4 == q && s.cur.tids.contains t.tid) with
      | some t => s.fileQuad s.cur.blk q t 17
      | none => s) s')

end Sys2Proof.Machine
end

