-- ==== Sys2Proof/Machine/System.lean ====
section
/-! DEFINITION. Special registers (R26, R144, R145), the return from a trap (R146), invalidations (R147 to R149), checkpoints (R151,
R388), and the steps that agents take for threads: trap entry, moves, returns, active sets, REFORM bins, the side log, errors in
storage (R22, R35, R155, R161, R164, R228 to R231, R250). -/

namespace Sys2Proof.Machine

/-! ## Special registers -/

/-- R26, R144: the level below which reading a register raises PRIV; writing one asks for at least S (R26). -/
def srLevel (n : Nat) : Level :=
  match n with
  | 0x100 => .s | 0x101 => .s | 0x102 => .h | 0x103 => .h | 0x104 => .f | 0x105 => .f
  | _ => .u

/-- R26, R144: the value of a special register for a thread. -/
def State.srValue (s : State) (b : Block) (t : Thread) (n : Nat) : Nat :=
  match n with
  | 0x000 => s.cur.pc.toNat
  | 0x001 => t.wb
  | 0x002 => t.f
  | 0x003 => t.low
  | 0x004 => t.n
  | 0x005 => t.swb
  | 0x006 => t.level.toNat
  | 0x010 => (b.spillBase.getD (t.tid / 4) 0).toNat
  | 0x011 => (b.spillDepth.getD (t.tid / 4) 0).toNat
  | 0x020 => t.lane
  | 0x021 => t.tid
  | 0x030 => b.core
  | 0x040 => s.devTime
  | 0x100 => t.tvbs.toNat
  | 0x101 => t.tsps.toNat
  | 0x102 => t.tvbh.toNat
  | 0x103 => t.tsph.toNat
  | 0x104 => t.tvbf.toNat
  | 0x105 => t.tspf.toNat
  | _ => if 0x028 ≤ n ∧ n < 0x030 then levelIndex b.record t.tid b.num (n - 0x028) else 0

/-- SRD (R144). -/
def execSrd (d : Reg) (n : BitVec 14) (s : State) : Outcome :=
  s.needLevel (srLevel n.toNat) (fun _ =>
    s.alu (upto d.toNat 1 (if srWide n.toNat then 2 else 1)) [] [] (fun b t =>
      let v := s.srValue b t n.toNat
      if srWide n.toNat then t.put64 d.toNat (BitVec.ofNat 64 v) else t.put d.toNat (BitVec.ofNat 32 v)))

/-- R145: the bits that a write to a spill or trap register clears. -/
def srMasked (n v : Nat) : Nat :=
  match n with
  | 0x010 => fld v 56 0 / 64 * 64
  | 0x011 => fld v 24 0 / 16 * 16
  | _ => fld v 56 0 / 8 * 8

/-- R145: a trap register of a thread written. -/
def Thread.putSr (t : Thread) (n v : Nat) : Thread :=
  let x := BitVec.ofNat 64 (srMasked n v)
  match n with
  | 0x100 => { t with tvbs := x }
  | 0x101 => { t with tsps := x }
  | 0x102 => { t with tvbh := x }
  | 0x103 => { t with tsph := x }
  | 0x104 => { t with tvbf := x }
  | 0x105 => { t with tspf := x }
  | _ => t

/-- R145: a spill register of a quad written. -/
def Block.putSr (b : Block) (q n v : Nat) : Block :=
  match n with
  | 0x010 => { b with spillBase := upd b.spillBase q (fun _ => BitVec.ofNat 64 (srMasked n v)) }
  | 0x011 => { b with spillDepth := upd b.spillDepth q (fun _ => BitVec.ofNat 32 (srMasked n v)) }
  | _ => b

/-- SWR (R144, R145): of several threads of one quad, the lowest lane's write to a spill register takes effect. -/
def execSwr (d : Reg) (n : BitVec 14) (s : State) : Outcome :=
  s.needLevel (Level.max .s (srLevel n.toNat)) (fun _ =>
    let vs := upto d.toNat 1 (if srWide n.toNat then 2 else 1)
    let value (t : Thread) : Nat := if srWide n.toNat then (t.get64 d.toNat).toNat else (t.get d.toNat).toNat
    let writers := match s.blocks[s.cur.blk]? with
      | none => []
      | some b => s.passing.filter (fun t => (checkRegs b t vs []).isNone && (checkPoison t vs).isNone)
    let quads := (writers.map (fun t => t.tid / 4)).eraseDups
    let s' := s.lanes (fun b t => match checkRegs b t vs [] with
      | some tr => .error tr
      | none => match checkPoison t vs with
        | some tr => .error tr
        | none => .ok (t.putSr n.toNat (value t)))
    .next (s'.updBlock s.cur.blk (fun b => quads.foldl (fun b q =>
      match writers.find? (fun t => t.tid / 4 == q) with
      | some t => b.putSr q n.toNat (value t)
      | none => b) b)))

/-! ## Trap return -/

/-- R146 step 2: the condition of a frame read at level T. -/
def frameFault (s : State) (t : Thread) (b : List Byte) : Option Trap :=
  let pc := numAt b 0 8
  let f := fld (numAt b 32 4) 8 0
  if t.level.toNat < fld (numAt b 16 4) 2 22 || f == 0 || min t.n 128 < f || 4 < fld (numAt b 24 4) 8 16 || (Pfx.ofWord (numAt b 36 4)).isNone then
    some (s.wordTrap .illegalOp)
  else if fld pc 2 0 ≠ 0 ∨ fld pc 8 56 ≠ 0 then some { cause := .jumpFault, addr := BitVec.ofNat 64 pc }
  else none

/-- R146 step 3: the thread that a frame describes. -/
def Thread.ofFrame (t : Thread) (b : List Byte) : Thread :=
  { t.setTsp t.level (t.tsp t.level + 64) with
    level := Level.ofBits (fld (numAt b 16 4) 2 22), pc := BitVec.ofNat 64 (numAt b 0 8)
    preds := BitVec.ofNat 8 (fld (numAt b 24 4) 8 24), swb := 32 * fld (numAt b 24 4) 8 16, wb := numAt b 28 4
    f := fld (numAt b 32 4) 8 0, pfx := (Pfx.ofWord (numAt b 36 4)).getD {}, wait := .none, waited := 0 }

/-- TRET (R146). -/
def execTret (s : State) : Outcome :=
  s.needLevel .s (fun _ =>
    .next (s.foldLanes (fun s blk t =>
      match s.devLoad blk t (blk.loadReq t.level) false none (t.tsp t.level).toNat 64 with
      | .wait w => .wait w
      | .trap tr => .trap s tr
      | .ok b s =>
        match frameFault s t b with
        | some tr => .trap s tr
        | none =>
          let u := t.ofFrame b
          let top := t.wb + t.f
          let s := s.updThread s.cur.blk t.tid (fun _ => u)
          let s := if top < u.wb + u.f then s.undefineIn s.cur.blk t.tid top (u.wb + u.f - top) else s
          .moved (s.settleAfter t.tid (moveFuel u)))))

/-! ## The side log's retries -/

/-- R248, R277: the request of a side-log entry, from the core that logged it. -/
def LogEntry.req (e : LogEntry) : Req :=
  let core := if e.core < Config.nCores then some e.core else none
  if e.rmw then { Req.rmw e.owner e.level core with code := 3 } else Req.store e.owner e.level core

/-- The bytes that a side-log entry names: the first address and how many there are up to the last. -/
def LogEntry.span (e : LogEntry) : Nat × Nat :=
  if e.addend.isSome then (e.va, 64)
  else
    let lo := (e.cells.map (·.1)).foldl min (e.va + 127)
    (lo, (e.cells.map (fun c => c.1 + 1)).foldl max 0 - lo)

/-- R264: the threads of a side-log entry have sent host writes. -/
def State.notePosted (s : State) (e : LogEntry) : State :=
  { s with blocks := s.blocks.map (fun b =>
      if b.uid = e.blk then { b with threads := b.threads.map (fun t => if e.tids.contains t.tid then { t with posted := true } else t) } else b) }

/-- R250, R254: an entry issued earlier, of another core's log, holds bytes of the same granule: it comes first. -/
def State.loggedBefore (s : State) (e : LogEntry) (gpa : Nat) : Bool :=
  s.sideLog.any (fun x => x.core != e.core && x.owner == e.owner && x.stamp < e.stamp && x.granule e.va gpa)

/-- R250, R254: a side-log entry retried: the state after it is performed, where it translates now and no earlier one of another core holds its
granule. It has the stamp of its issue. -/
def State.retryEntry (s : State) (e : LogEntry) : Option State :=
  let q := e.req
  let va := e.span.1
  match s.translate q va e.span.2 with
  | .error _ => none
  | .ok x =>
    if s.loggedBefore e x.gpa then none
    else
    let s := s.noteXl x
    let close (r : Except MemFault State) : Option State := match r with
      | .ok s' => some s'
      | .error _ => none
    if e.rmw then match x.place.device with
      | none => none
      | some (h, slot) => match e.addend with
        | some sum =>
          let s := (s.noteSector q.owner x.gpa h).noteSector q.owner (x.gpa + 32) (h + 32)
          close (s.rmwCells q x va (cellsAt va (toBytes 64 (cellAdd (ofBytes (s.dramBytes q.owner x.gpa h slot 64).1) sum))) true (some e.stamp))
        | none => close (s.rmwCells q x va e.cells false (some e.stamp))
    else
      let s := match x.place with | .host _ _ => s.notePosted e | _ => s
      close ((s.writeCells q false x va e.cells false (some e.stamp)).map (·.1))

/-- R250: the oldest entry of a core's log retried; behind one that is performed, the next at once. -/
def State.retryLog (s : State) (core : Nat) : Nat → State
  | 0 => s
  | n + 1 =>
    match s.sideLog.find? (fun e => e.core == core) with
    | none => s
    | some e => match s.retryEntry e with
      | none => s
      | some s' => State.retryLog { s' with sideLog := s'.sideLog.erase e } core n

/-- R250: the log of a core tried now. -/
def State.tryLog (s : State) (core : Nat) : State :=
  State.retryLog { s with logTried := SMap.set s.logTried core s.clock } core s.sideLog.length

/-- R250: the oldest entries of an owner retried, core by core, in the order of their issue. -/
def State.retryOwner (s : State) (o : Nat) : State :=
  let heads := ((s.sideLog.map (·.core)).eraseDups).filterMap (fun c => s.sideLog.find? (fun e => e.core == c))
  (inOrder (fun x y => x.stamp ≤ y.stamp) (heads.filter (fun e => e.owner == o))).foldl (fun s e => s.tryLog e.core) s

/-- R250: 4,096 clocks have passed since the log of a core was tried. -/
def State.retryDue (s : State) (core : Nat) : Bool := SMap.getD s.logTried core 0 + 4096 ≤ s.clock

/-- SIDE_LOG_RETRY (R250). -/
def execSideLogRetry (core : Nat) (s : State) : Outcome := .next (if s.retryDue core then s.tryLog core else s)

/-! ## Invalidations -/

/-- R147: an address operand has bits [63:56] zero. -/
def addrOk (x : DWord) : Bool := fld x.toNat 8 56 == 0

/-- R153: a lane's operation of this group is performed. The thread goes on at once, or, `later`, stands at the group still, where a stop
may find it and from where it executes again (log entry 95). -/
def State.endOp (s : State) (later : Bool) (k : Nat) : LaneRes := if later then s.stopLane k (.wait .none) else .done s

/-- The lane's operation is performed and its destination gets a status; nothing is written where the group executes again. -/
def State.status (s : State) (later : Bool) (t : Thread) (d : Reg) (x : Nat) : LaneRes :=
  if later then s.endOp later t.tid else .done (s.updThread s.cur.blk t.tid (fun u => u.put d.toNat (BitVec.ofNat 32 x)))

/-- TINV (R147, R149, R153). -/
def execTinv (a : Reg) (s : State) : Outcome :=
  s.needLevel .s (fun _ =>
    .next (s.foldLanes (fun s blk t => laneChecked blk t (upto a.toNat 1 2) [] (upto a.toNat 1 2) s (fun _ =>
      let x := (t.get64 a.toNat).toNat
      if !addrOk (t.get64 a.toNat) then .trap s (s.wordTrap .illegalOp)
      else (State.retryOwner { s with
        tlb1 := s.tlb1.filter (fun e => !(e.owner == blk.owner && e.va ≤ x && x < e.va + e.size)) } blk.owner).endOp s.later t.tid))))

/-- R236: every first-stage translation of a slice is dropped, and its root is the one that its record now gives. -/
def State.dropTlb1 (s : State) (o : Nat) : State :=
  State.updSlice { s with tlb1 := s.tlb1.filter (fun e => e.owner != o) } o (fun x => { x with root1 := x.record.getD 2 0 })

/-- TINVA (R147, R149, R153, R236). -/
def execTinva (s : State) : Outcome :=
  s.needLevel .s (fun _ =>
    .next (s.foldLanes (fun s blk t => ((s.dropTlb1 blk.owner).retryOwner blk.owner).endOp s.later t.tid)))

/-- R237, R149: the second-stage translations of an owner whose page, by address and size, `p` names are dropped; the owner's lines that
came from such pages are written back and invalidated first. -/
def State.dropTlb2 (s : State) (o : Nat) (p : Nat → Nat → Bool) : State :=
  let lines := (s.l2.filter (fun c => c.1 / 2 ^ 47 == o && p c.2.page c.2.size)).map (·.1)
  let s := lines.foldl State.flushSector s
  { s with tlb2 := s.tlb2.filter (fun e => !(e.owner == o && p e.gpa e.size)) }

/-- PINV (R147, R148, R149, R237). -/
def execPinv (d a b : Reg) (s : State) : Outcome :=
  s.needLevel .h (fun _ =>
    .next (s.foldLanes (fun s blk t =>
      laneChecked blk t (d.toNat :: (upto a.toNat 1 2 ++ [b.toNat])) [] (upto a.toNat 1 2 ++ [b.toNat]) s (fun _ =>
        let x := (t.get64 a.toNat).toNat
        let o := (t.get b.toNat).toNat
        if !addrOk (t.get64 a.toNat) then s.status s.later t d 3
        else if 47 < o then s.status s.later t d 1
        else ((s.dropTlb2 o (fun g n => g ≤ x && x < g + n)).retryOwner o).status s.later t d 0))))

/-- PINVA (R147, R148, R149, R237). -/
def execPinva (d b : Reg) (s : State) : Outcome :=
  s.needLevel .h (fun _ =>
    .next (s.foldLanes (fun s blk t => laneChecked blk t [d.toNat, b.toNat] [] [b.toNat] s (fun _ =>
      let o := (t.get b.toNat).toNat
      if 47 < o then s.status s.later t d 1 else ((s.dropTlb2 o (fun _ _ => true)).retryOwner o).status s.later t d 0))))

/-! ## Checkpoints -/

/-- R388: a checkpoint of blocks of a slice: VALID cleared, the casts, the directory with VALID set; then its event record. Where the
area does not take it, VALID stays clear (log entry 38). -/
def State.checkpoint (s : State) (o kind seq : Nat) (seqOf : Block → Nat) (blks : List Block) : State :=
  let base := s.sliceWord o 8
  match s.devWrite o base (toBytes 64 0) with
  | none => s
  | some s1 =>
    let put (acc : Option (State × Nat)) (b : Block) : Option (State × Nat) := acc.bind (fun x =>
      let im := s.castImage b kind s.devTime (seqOf b) (s.logOfBlock b.uid)
      if s.sliceWord o 9 < x.2 + im.length then none else (x.1.writeMarked o (base + x.2) im).map (fun s => (s, x.2 + im.length)))
    match blks.foldl put (some (s1, 64)) with
    | none => s1
    | some (s2, _) =>
      match s2.devWrite o base (toBytes 64 (s.devTime * 2 ^ 448 + seq % 2 ^ 32 * 2 ^ 416 + blks.length * 2 ^ 384 + 1)) with
      | none => s2
      | some s3 => s3.postEvent o 4 0 0 seq base

/-- CKPT (R147, R151, R153): every executing thread receives the launch's next checkpoint number, or 0 without a checkpoint area. Where a
stop may find the threads waiting, nothing is done yet, and the group executes again (log entry 95). -/
def execCkpt (d : Reg) (s : State) : Outcome :=
  .next (match s.blocks[s.cur.blk]? with
  | none => s
  | some b =>
    let some' := s.passing.any (fun t => (checkRegs b t [d.toNat] []).isNone)
    let area := b.owner < Config.nSlices && s.sliceWord b.owner 8 != 0
    let seq := ((s.launches.find? (fun l => l.uid == b.launch)).map (fun l => l.ckpts + 1)).getD 1
    let s' := s.lanesBy id (fun b t => match checkRegs b t [d.toNat] [] with
      | some tr => .error tr
      | none => .ok (if s.later && area then t.hold s.cur .none
          else (t.put d.toNat (BitVec.ofNat 32 (if area then seq else 0))).retire s.cur))
    if !(some' && area) || s.later then s'
    else
      let s' := { s' with launches := s'.launches.map (fun (l : Launch) => if l.uid = b.launch then { l with ckpts := seq } else l) }
      match s'.blocks[s.cur.blk]? with
      | some b' => s'.checkpoint b.owner 1 seq (fun _ => seq) [b']
      | none => s')

/-! ## Threads between instructions -/

/-- The place of the block with a uid and the thread with a %tid. -/
def State.threadAt (s : State) (b k : Nat) : Option (Nat × Block × Thread) :=
  (s.placeOfUid b).bind (fun i => (s.thread? i k).map (fun x => (i, x.1, x.2)))

/-- TRAP_ENTRY (R32, R35, R167): a trap whose entry has not committed is entered, once no write of its gang is outstanding: entry makes
registers of the handler's window undefined. -/
def execTrapEntry (b k : Nat) (s : State) : Outcome :=
  .next (match s.threadAt b k with
  | some (i, _, t) => match t.pend with
    | some e =>
      if t.stopped || t.exited || (s.blocks[i]?).any (fun b => !(b.boardFor (k / 4)).isEmpty) then s
      else s.enterAt i k e e.cause 8 (targetLevel t.level e.cause)
    | none => s
  | none => s)

/-- R22: one move of a thread of the block at place `i` between its groups; what it meets is raised, or waits, at the PC at which the thread
stands. -/
def State.moveStep (s : State) (i k : Nat) : State :=
  match s.moveOne i k with
  | none => s
  | some (.ok s') => s'
  | some (.error x) => s.stopBefore i k x

/-- SPILL (R18, R19, R22): one position that the thread's window still needs spilled. -/
def execSpill (b k : Nat) (s : State) : Outcome :=
  .next (match s.threadAt b k with
  | some (i, blk, t) => if s.runnable i blk t && t.low ≤ t.wb then s.moveStep i k else s
  | none => s)

/-- FILL (R18, R21, R22): one position that the thread's window still needs filled. -/
def execFill (b k : Nat) (s : State) : Outcome :=
  .next (match s.threadAt b k with
  | some (i, blk, t) => if s.runnable i blk t && t.wb < t.low then s.moveStep i k else s
  | none => s)

/-- R155, R107, R381: the oldest pending return of a thread, of a load or of a division, reaches its register. -/
def State.takeReturn (s : State) (b k : Nat) (divide : Bool) : State :=
  match s.placeOfUid b with
  | none => s
  | some i => s.updBlock i (fun blk =>
      match blk.returns.find? (fun r => r.tid == k && r.divide == divide) with
      | some r => { blk.applyReturn r with
          returns := blk.returns.erase r, gangs := blk.gangs.map (fun g => { g with board := g.board.erase r }) }
      | none => blk)

/-- DIVIDE_COMPLETION (R107). -/
def execDivideCompletion (b k : Nat) (s : State) : Outcome := .next (s.takeReturn b k true)
/-- LOAD_DATA_RETURN (R155). -/
def execLoadDataReturn (b k : Nat) (s : State) : Outcome := .next (s.takeReturn b k false)
/-- ACCESS_PERFORMED (R258, R264): the flushing read of a thread's FENCE.S is acknowledged: the host writes that it has sent are performed.
Every other access is performed in the step that issues it (log entry 42). -/
def execAccessPerformed (b k : Nat) (s : State) : Outcome :=
  .next (match s.threadAt b k with
  | some (i, _, t) => if t.flushing then s.updThread i k (fun t => { t with posted := false, flushing := false }) else s
  | none => s)
/-- ACTIVE_SET_SWAP (R164). -/
def execActiveSetSwap (core : Nat) (s : State) : Outcome := .next (s.swapActive core)

/-- R161: the quads that a bin releases: in the order of filing, no lane group twice, at most 16. -/
def releaseOf (b : Block) (quads : List (Nat × Nat)) : List Nat :=
  (quads.foldl (fun acc q => if acc.length < 16 && acc.all (fun p => b.laneGroupOf p != b.laneGroupOf q.1) then acc ++ [q.1] else acc) [])

/-- R161: a bin's release, where one of its conditions holds. -/
def State.releaseBin (s : State) (i : Nat) : State :=
  match s.bins[i]? with
  | none => s
  | some bin => match s.placeOfUid bin.blk with
    | none => { s with bins := s.bins.eraseIdx i }
    | some p => match s.blocks[p]? with
      | none => s
      | some b =>
        let out := releaseOf b bin.quads
        let full := out.length == 16
        let aged := bin.quads.head?.any (fun q => q.2 + 256 ≤ s.clock)
        let closed := (List.range (quadsOf b.threads.length)).all (fun q => (s.quadRunnable p b q).isEmpty)
        if b.halted.isNone && (full || aged || closed) then
          let left := bin.quads.filter (fun q => !out.contains q.1)
          let s := s.updBlock p (fun b => { b with
            gangs := b.gangs ++ [{ quads := (List.range (quadsOf b.threads.length)).filter out.contains, since := s.clock }]
            threads := b.threads.map (fun t => if out.contains (t.tid / 4) then { t with filed := false } else t) })
          { s with bins := if left.isEmpty then s.bins.eraseIdx i else upd s.bins i (fun x => { x with quads := left }) }
        else s

/-- REFORM_BIN_RELEASE (R161): bin number `bin` among those in use on a core. -/
def execReformBinRelease (core bin : Nat) (s : State) : Outcome :=
  .next (match (s.bins.zipIdx.filter (fun x => x.1.core == core))[bin]? with
  | some x => s.releaseBin x.2
  | none => s)

/-! ## Errors in storage -/

/-- R228: a corrected error counted in the owning slice's status. -/
def State.corrected (s : State) (o : Nat) : State := s.count o (fun c => { c with corrected := satAdd c.corrected 1 })

/-- R231, R439: the owner of a DRAM sector: that of the key slot whose key it is written under. -/
def State.dramOwner (s : State) (h : Nat) : Option Nat :=
  (SMap.get s.dramKey (h / 32)).bind (fun k => (s.keySlots.find? (fun x => x.key == some k)).map (·.owner))

/-- R228, R231: a corrected error of a core is counted for the owner of its resident work. -/
def State.correctedOn (s : State) (core : Nat) : State :=
  match s.blocks.find? (fun b => b.core == core) with
  | some b => s.corrected b.owner
  | none => s

/-- R228: the words that one check code covers: a pair in the accumulators. -/
def checkedWords (a : Nat) : List Nat := if chipStruct (a / 4 * 4) = 2 then [a / 8 * 8, a / 8 * 8 + 4] else [a / 4 * 4]

/-- R228: bits of a word on a core change: one is corrected, two are poison. -/
def State.hitWord (s : State) (a bits : Nat) : State :=
  let bad := 2 ≤ bits
  let owned (i : Nat) (f : Block → Block) : State :=
    match s.blocks[i]? with
    | some b => if bad then s.updBlock i f else s.corrected b.owner
    | none => s
  match s.chipCell (a / 4 * 4) with
  | .reg i k x => owned i (fun b => b.updThread k (fun t => { t with poison := SMap.set t.poison x false }))
  | .scratch i x => owned i (fun b => { b with scratchPoison := SMap.set b.scratchPoison (x / 4) false })
  | .acc i t r c => owned i (fun b => { b with accPoison := SMap.set b.accPoison ((64 * t + r) * 128 + c / 2) false })
  | .idle =>
    if bad then { s with sramPoison := (checkedWords a).foldl (fun m x => SMap.set m x false) s.sramPoison } else s.correctedOn (fld a 11 21)
  | .unassigned => s

/-- R228: a sector of DRAM: a first wrong symbol waits for a scrub or a write, a second makes poison. -/
def State.hitDram (s : State) (h symbols : Nat) : State :=
  let k := h / 32
  if 2 ≤ SMap.getD s.latent k 0 + symbols then { s with dramPoison := SMap.set s.dramPoison k false, latent := SMap.erase s.latent k }
  else { s with latent := SMap.set s.latent k 1 }

/-- R231: an error of an L2 tag is reported to an owner as a trap with STRUCT 6 and the cache slice, which some thread of its resident
blocks takes; which one, and the fault address, the spec leaves open (log entry 108). Without such a thread it is counted alone. -/
def State.reportTag (s : State) (cs o : Nat) : State :=
  let ts := s.blocks.zipIdx.flatMap (fun p => if p.1.owner == o && p.1.halted.isNone then
    (p.1.threads.filter (fun t => !t.exited && !t.stopped && t.pend.isNone)).map (fun t => (p.2, t.tid)) else [])
  let n := s.fresh
  match ts[Config.pick n % ts.length]? with
  | none => s.count o (fun c => { c with uncorrectable := satAdd c.uncorrectable 1 })
  | some x =>
    let tr : Trap := { cause := .uncorrectable, extra := BitVec.ofNat 64 (syndromeOf 6 cs false), addr := Config.freeWord (n + 1) 0 ++ Config.freeWord (n + 1) 1 }
    State.stopBefore { s with fresh := n + 2 } x.1 x.2 (.trap tr)

/-- R231: an uncorrectable error of a tag of a set of a cache slice: the whole set is discarded without writeback, and every owner whose mask
includes the way is told. -/
def State.hitTags (s : State) (cs set way : Nat) : State :=
  let hit := (s.ways.filter (fun w => w.1 / 128 == cs && w.2.testBit way)).map (fun w => w.1 % 128)
  let s := { s with l2 := s.l2.filter (fun c => !(c.2.home == cs && c.1 / 4 % 1024 == set)) }
  hit.foldl (fun s o => s.reportTag cs o) s

/-- R434: returns for which `f` holds are poisoned on their way. -/
def Block.spoilReturns (b : Block) (f : Return → Bool) : Block :=
  let hit (r : Return) : Return := if f r then { r with bad := true } else r
  { b with returns := b.returns.map hit, gangs := b.gangs.map (fun g => { g with board := g.board.map hit }) }

/-- R434: a check on a ring or in a station, on the way of data to a core: what it corrects, and what it cannot, counts against the slice whose
data these are; the latter are poisoned. Only results that come in a step of their own are in flight between steps (log entry 95). -/
def State.hitHop (s : State) (core bits : Nat) : State :=
  match s.blocks.findIdx? (fun b => b.core == core && b.returns.any (fun r => !r.divide)) with
  | none => s
  | some i => match s.blocks[i]? with
    | none => s
    | some b =>
      if bits = 1 then s.corrected b.owner
      else (s.updBlock i (fun b => b.spoilReturns (fun r => b.returns.find? (fun x => !x.divide) == some r))).count b.owner (fun c => { c with uncorrectable := satAdd c.uncorrectable 1 })

/-- SOFT_ERROR (R228, R231, R434): `bits` bits (symbols in DRAM) change in structure `struct` (the codes of R230, 4 for L1) at `loc`: an
on-chip address for 0 to 2; core × 2^21 + 4 × macro + slot for 3; core × 2^21 for 4; a sector's key in L2 for 5; cache slice × 2^14 +
set × 16 + way for 6; a host-physical address for 7 and 8; the core whose data pass a ring beat (10) or a station buffer (11); a host port,
whose errors are reported under Advanced Error Reporting, for 12 (log entry 122). A sector of L1 that is fetched again counts as corrected for the core's
resident work (log entry 78). -/
def execSoftError (struct loc bits : Nat) (s : State) : Outcome :=
  .next (if bits = 0 then s else match struct with
  | 0 => s.hitWord loc bits
  | 1 => s.hitWord loc bits
  | 2 => s.hitWord loc bits
  | 3 =>
    { s with blocks := s.blocks.map (fun b =>
        if b.core = loc / 2 ^ 21 then { b with slots := b.slots.map (fun e => if e.1 = loc % 16 then (e.1, { e.2 with bad := true }) else e) } else b) }
  | 4 => s.correctedOn (loc / 2 ^ 21)
  | 5 => match SMap.get s.l2 loc with
    | some x => if 2 ≤ bits then { s with l2 := SMap.set s.l2 loc { x with poison := some (x.poison.getD false) } } else s.corrected (loc / 2 ^ 47)
    | none => s
  | 6 =>
    let set := loc / 16 % 1024
    if 2 ≤ bits then s.hitTags (loc / 2 ^ 14) set (loc % 16)
    else match (s.inSet (loc / 2 ^ 14) set).find? (fun c => c.2.way == loc % 16) with
      | some c => s.corrected (c.1 / 2 ^ 47)
      | none => s
  | 7 => s.hitDram loc bits
  | 8 => s.hitDram loc bits
  | 10 => s.hitHop loc bits
  | 11 => s.hitHop loc bits
  | 12 => if loc < s.ports.length then { s with outbox := s.outbox ++ [.aer loc (bits == 1)] } else s
  | _ => s)

/-- SCRUB (R228): a memory controller corrects what it finds in the 128-byte line at a host-physical address. -/
def execScrub (line : Nat) (s : State) : Outcome :=
  .next ((List.range 4).foldl (fun s i =>
    let k := line / 128 * 4 + i
    if (SMap.get s.latent k).isSome then
      let s' := { s with latent := SMap.erase s.latent k }
      match s.dramOwner (32 * k) with | some o => s'.corrected o | none => s'
    else s) s)

end Sys2Proof.Machine
end

