-- ==== Sys2Proof/Machine/Keys.lean ====
section
/-! DEFINITION. Key slots (R439 to R445), the session key and usage statements (R446 to R449). -/

namespace Sys2Proof.Machine

/-- The ASCII bytes of a string. -/
def ascii (x : String) : List Byte := x.toList.map (fun c => BitVec.ofNat 8 c.toNat)

/-- Exactly `n` bytes of a list, zeros where it has fewer. -/
def fitBytes (n : Nat) (bs : List Byte) : List Byte := (List.range n).map (fun i => bs.getD i 0)

/-- R447: BOOTID of the boot in force, a number drawn from the entropy source. -/
def State.bootId (s : State) : List Byte := toBytes 16 (Config.freeNat (2 ^ 40 + s.boot.boots))

/-- R451: FWDIGEST: the SHAKE256 digest of the running image. -/
def State.fwDigest (s : State) : List Byte := fitBytes 64 (Config.shake256 (Config.imageBytes s.boot.image) 64)

/-! ## Slots -/

/-- R442: the key derived from a byte string, as its place in the table of keys. -/
def State.internKey (s : State) (x : List Byte) : State × Nat :=
  match s.keys.findIdx? (· == x) with
  | some i => (s, i)
  | none => ({ s with keys := s.keys ++ [x] }, s.keys.length)

/-- R444: the slot after an event that empties it. -/
def KeySlot.erased (k : KeySlot) : KeySlot := { erases := (k.erases + 1) % 2 ^ 32 }

/-- The state with a key slot changed. -/
def State.updSlot (s : State) (n : Nat) (f : KeySlot → KeySlot) : State := { s with keySlots := upd s.keySlots n f }

/-- R440: the fields of a key object. -/
structure KeyObject where
  version : Nat
  kind : Nat
  share : Nat
  nshare : Nat
  world : Nat
  owner : Nat
  expiry : Nat
  /-- Every reserved bit is zero. -/
  clear : Bool
  bytes : List Byte
deriving DecidableEq, Repr

/-- R440: the key object that 2,048 bytes hold. -/
def KeyObject.of (bs : List Byte) : KeyObject :=
  let z (o n : Nat) : Bool := ((bs.drop o).take n).all (· == 0)
  let w := numAt bs 4 4
  let kind := numAt bs 2 1
  { version := numAt bs 3 1, kind := kind, share := numAt bs 1 1, nshare := numAt bs 0 1, world := fld w 4 24, owner := fld w 7 0
    expiry := numAt bs 8 8, bytes := bs
    clear := fld w 4 28 == 0 && fld w 17 7 == 0 && z 16 48 && z 1744 304 && if kind == 0 then z 128 1616 else z 64 64 }

/-- R441 step 3: some field of the object is out of range. -/
def State.keyFieldsBad (s : State) (k : KeyObject) : Bool :=
  k.version != 1 || 1 < k.kind || 1 < k.share || (if k.kind == 0 then k.nshare != 0 else k.nshare == 0 || 2 < k.nshare || k.nshare ≤ k.share) ||
  !k.clear || Config.nSlices ≤ k.owner || (s.slice k.owner).state == .free || s.worldOf k.owner != k.world || k.kind == 0 && k.world != 0 ||
  k.expiry != 0 && (k.expiry ≤ s.secure || s.secure + 86400000 < k.expiry) || k.kind == 1 && k.expiry == 0

/-- R442: the fields that follow the material of every key. -/
def State.keyTail (_s : State) (x : KeySlot) : List Byte := toBytes 4 x.erases

/-- R442: the key of a slot from its shares. -/
def State.shareKey (s : State) (n : Nat) (x : KeySlot) (world : Nat) : List Byte :=
  ascii "GW-FD48 KEY" ++ (x.shares.getD 0 none).getD [] ++ (if x.nshare = 2 then (x.shares.getD 1 none).getD [] else []) ++
  s.fwDigest ++ s.bootId ++ toBytes 1 world ++ toBytes 1 x.owner ++ toBytes 1 n ++ s.keyTail x

/-- R442: the key of a slot from plain material. -/
def State.plainKey (s : State) (n : Nat) (x : KeySlot) (material : List Byte) : List Byte :=
  ascii "GW-FD48 KEY0" ++ material ++ s.fwDigest ++ s.bootId ++ toBytes 1 n ++ s.keyTail x

/-- R444: a slot whose shares are all held and unexpired becomes LIVE and erases the shares. -/
def State.ripen (s : State) (n world : Nat) : State :=
  match s.keySlots[n]? with
  | none => s
  | some x =>
    if x.state != .live && (List.range x.nshare).all (fun i => (x.shares.getD i none).isSome && s.secure < x.expiries.getD i 0) then
      let (s', k) := s.internKey (s.shareKey n x world)
      s'.updSlot n (fun x => { x with state := .live, shares := [none, none], key := some k })
    else s

/-- R441: KEYSET of a readable object into slot n: the state after it and the status. -/
def State.keyset (s : State) (n : Nat) (k : KeyObject) : State × Nat :=
  match s.keySlots[n]? with
  | none => (s, 1)
  | some x =>
    if n = 254 ∨ n = 255 ∨ (x.state ≠ .empty ∧ x.owner ≠ k.owner) then (s, 1)
    else if s.keyFieldsBad k then (s, 3)
    else if k.kind = 0 then
      match x.state with
      | .partialSet => (s, 3)
      | .lapsed => (s, 3)
      | _ =>
        let x' : KeySlot := { x with state := .live, owner := k.owner }
        let (s', i) := s.internKey (s.plainKey n x' ((k.bytes.drop 64).take 64))
        (s'.updSlot n (fun _ => { x' with key := some i }), 0)
    else
      match (s.slice k.owner).session.bind (fun key => Config.openShare key k.bytes) with
      | none => (s, 3)
      | some share =>
        let share := fitBytes 32 share
        let digest := fitBytes 32 (Config.shake256 share 32)
        if x.state ≠ .empty ∧ x.nshare ≠ k.nshare then (s, 3)
        else if (x.digests.getD k.share none).any (· != digest) then (s, 3)
        else
          let put (x : KeySlot) : KeySlot := { x with
            owner := k.owner, nshare := k.nshare, digests := x.digests.set k.share (some digest), expiries := x.expiries.set k.share k.expiry
            passed := x.passed.set k.share false }
          let held (x : KeySlot) : KeySlot := { put x with shares := x.shares.set k.share (some share) }
          match x.state with
          | .live => (s.updSlot n put, 0)
          | .empty => ((s.updSlot n (fun x => { held x with state := .partialSet })).ripen n k.world, 0)
          | _ => ((s.updSlot n held).ripen n k.world, 0)

/-- KEYSET (R147, R148, R153, R441). -/
def execKeyset (d a b : Reg) (s : State) : Outcome :=
  s.needLevel .h (fun _ =>
    .next (s.foldLanes (fun s blk t =>
      laneChecked blk t (d.toNat :: a.toNat :: upto b.toNat 1 2) [] (a.toNat :: upto b.toNat 1 2) s (fun _ =>
        let addr := (t.get64 b.toNat).toNat
        if !addrOk (t.get64 b.toNat) || addr % 64 != 0 then s.status s.later t d 3
        else match s.devLoad blk t (blk.loadReq t.level) false none addr 2048 with
          | .wait w => .wait w
          | .trap _ => s.status s.later t d 3
          | .ok bytes s' =>
            let r := s'.keyset (fld (t.get a.toNat).toNat 8 0) (KeyObject.of bytes)
            r.1.status s.later t d r.2))))

/-- R444, R152: a slot erased; slots 254 and 255 stay. -/
def State.eraseSlot (s : State) (n : Nat) : State := if n < 254 then s.updSlot n KeySlot.erased else s

/-- KEYERASE (R147, R152, R153, R439, R444). -/
def execKeyerase (a : Reg) (s : State) : Outcome :=
  s.needLevel .h (fun _ =>
    .next (s.foldLanes (fun s blk t => laneChecked blk t [a.toNat] [] [a.toNat] s (fun _ =>
      (s.eraseSlot (fld (t.get a.toNat).toNat 8 0)).endOp s.later t.tid))))

/-- R444: the expiries of a slot's shares that the clock has reached since they were installed. -/
def KeySlot.reached (k : KeySlot) (now i : Nat) : Bool :=
  k.state != .empty && (k.digests.getD i none).isSome && k.expiries.getD i 0 != 0 && k.expiries.getD i 0 ≤ now && !k.passed.getD i false

/-- R444: a share's expiry is reached now. -/
def KeySlot.due (k : KeySlot) (now : Nat) : Bool := (List.range 2).any (k.reached now)

/-- R444: the slot after a lapse: its key and any share value it holds are erased. -/
def KeySlot.lapse (k : KeySlot) (now : Nat) : KeySlot :=
  if k.due now then { k with
    state := .lapsed, key := none, shares := [none, none], passed := (List.range 2).map (fun i => k.passed.getD i false || k.reached now i) } else k

/-- KEY_LAPSE (R444). -/
def execKeyLapse (slot : Nat) (s : State) : Outcome := .next (s.updSlot slot (fun k => k.lapse s.secure))

/-! ## Statements -/

/-- R448: the counters in table order. -/
def Usage.list (u : Usage) : List Nat := [u.coreClk, u.engClk, u.leaseClk, u.lentClk, u.hbmBytes, u.g7Bytes, u.linkBytes, u.frames]

/-- R448: two sets of counters together. -/
def Usage.add (u v : Usage) : Usage :=
  { coreClk := u.coreClk + v.coreClk, engClk := u.engClk + v.engClk, leaseClk := u.leaseClk + v.leaseClk, lentClk := u.lentClk + v.lentClk
    hbmBytes := u.hbmBytes + v.hbmBytes, g7Bytes := u.g7Bytes + v.g7Bytes, linkBytes := u.linkBytes + v.linkBytes, frames := u.frames + v.frames }

/-- R448: the counters of a subject; the module totals for 0x7E. -/
def State.usageOf (s : State) (o : Nat) : List Nat :=
  if o < Config.nSlices then (s.slice o).usage.list
  else (s.slices.map (fun x => x.usage.list)).foldl (fun acc l => List.zipWith (· + ·) acc l) s.otherUsage.list

/-- Bytes of a list of words of 64 bits. -/
def dwords (ws : List DWord) : List Byte := ws.flatMap (fun w => toBytes 8 w.toNat)

/-- R447: CONFIGDIGEST of a subject. -/
def State.configDigest (s : State) (o : Nat) : List Byte :=
  let latch (d : Nat) : List Byte := toBytes 1 (s.latches.getD d 0)
  fitBytes 64 (Config.shake256
    (if o < Config.nSlices then
      dwords ((s.slice o).record.take 15) ++ dwords (s.slice o).place ++
        (((s.quadsOfSlice o).map (· / 4)).eraseDups).flatMap latch
    else s.slices.flatMap (fun x => dwords x.record) ++ toBytes 8 s.pool ++ toBytes 8 s.hvFaultQ.toNat ++ (List.range 8).flatMap latch) 64)

/-- R447: bytes 0 to 2,047 of a statement. -/
def State.statementBody (s : State) (o session : Nat) (nonce : List Byte) : List Byte :=
  let hv : Bool := Config.nSlices ≤ o
  fitBytes 2048 (toBytes 4 1 ++ toBytes 4 (s.worldOf o * 2 ^ 8 + o % 128) ++ toBytes 8 (if hv then 0 else (s.slice o).incarnation) ++ s.bootId ++
    fitBytes 32 nonce ++ toBytes 8 s.secure ++ toBytes 8 s.devTime ++ toBytes 8 (if hv then s.hvStatements else (s.slice o).statements) ++
    toBytes 8 0 ++ s.fwDigest ++ s.configDigest o ++ (s.usageOf o).flatMap (toBytes 8) ++ fitBytes 1568 (Config.sessionPublic session))

/-- R447: the 8,192 bytes of a statement. -/
def State.statement (s : State) (o session : Nat) (nonce : List Byte) : List Byte :=
  let body := s.statementBody o session nonce
  let pub := fitBytes 1793 (Config.aliasPublic s.fwDigest)
  body ++ fitBytes 1280 (Config.aliasSign s.fwDigest body) ++ pub ++ toBytes 63 0 ++ fitBytes 1280 (Config.deviceSign (pub ++ s.fwDigest)) ++
    toBytes 1728 0

/-- R446: a fresh session key of a subject, and one statement more. -/
def State.newSession (s : State) (o : Nat) : State :=
  let s' := { s with fresh := s.fresh + 1 }
  if o < Config.nSlices then s'.updSlice o (fun x => { x with session := some s.fresh, statements := x.statements + 1 })
  else { s' with hvSession := some s.fresh, hvStatements := s.hvStatements + 1 }

/-- USTAT (R147, R153, R446 to R449): a buffer or nonce that does not translate gives status 3 and changes nothing. Where a stop may find
the thread waiting, nothing is done yet, and the group executes again (log entry 95). -/
def execUstat (d a b : Reg) (s : State) : Outcome :=
  s.needLevel .s (fun _ =>
    .next (s.foldLanes (fun s blk t =>
      let srcs := upto a.toNat 1 2 ++ upto b.toNat 1 2
      laneChecked blk t (d.toNat :: srcs) [] srcs s (fun _ =>
        let dst := (t.get64 a.toNat).toNat
        let src := (t.get64 b.toNat).toNat
        let o := if t.level = .s then blk.owner else Config.ownerHv
        let q := blk.storeReq t.level
        if !addrOk (t.get64 a.toNat) || !addrOk (t.get64 b.toNat) || dst % 64 != 0 then s.status s.later t d 3
        else if s.later then s.endOp true t.tid
        else match s.devLoad blk t (blk.loadReq t.level) false none src 32 with
          | .wait w => .wait w
          | .trap _ => s.status s.later t d 3
          | .ok nonce s1 =>
            let s' := s1.newSession o
            if [0, 4096, 8191].any (fun i => s.hostWaits blk t.tid q (dst + i)) then .wait .fence
            else match s'.writeVa q false dst (s'.statement o s1.fresh nonce) with
            | (_, some (.held n, va)) => .wait (.load va n false)
            | (_, some _) => s.status s.later t d 3
            | ((s'', _), none) =>
              ([0, 4096, 8191].foldl (fun s i => s.postsAt s.cur.blk t.tid q (dst + i)) s'').status false t d 0))))

end Sys2Proof.Machine
end

