-- ==== Sys2Proof/Machine/Sched.lean ====
section
/-! DEFINITION. The dispatcher: admission (R393, R394), decisions with their victims (R395 to R398), quanta (R399), the end of blocks
(R139), hang detection (R375) and notices (R388). -/

namespace Sys2Proof.Machine

/-! ## Launches -/

/-- R393: effective deadline of a record. -/
def effDeadline (r : Nat) : Nat := if recDeadline r = 0 then 2 ^ 64 - 1 else recDeadline r

/-- Blocks of a launch that one decision places together (R175, R395). -/
def togetherBlocks (r : Nat) : Nat := if recProgress r = 0 then recBlocks r else max 1 (nbhdSize r)

/-- R394 reason 4: the blocks placed together fit the slice's quadrants when empty. -/
def State.fitsEmpty (s : State) (l : Launch) : Bool :=
  let n := togetherBlocks l.record
  let quads := s.quadsOfSlice l.owner
  n ≤ 16 * 40 * 32 &&
  (State.seatAll { s with blocks := [] } none l (fun s n c => s.placeBlock none l n c) quads (List.range n)).isSome

/-- R394: the reason for which admission refuses a launch; `read` says that its record could be read. -/
def State.refusal (s : State) (l : Launch) (read niche : Bool) : Option Nat :=
  let r := l.record
  if !read then some 6
  else if !recordOk r || niche && !oneBlock r then some 1
  else if !levelsOk r then some 2
  else if !blockFits r then some 3
  else if (recProgress r == 0 || nbhdSize r != 0) && !s.fitsEmpty l then some 4
  else if s.sliceWord l.owner 13 < tokensFor r (togetherBlocks r) then some 5
  else none

/-- R393: launches of a slice in its ready set: admitted, with unplaced blocks. -/
def State.readyLaunches (s : State) (o : Nat) : List Launch :=
  s.launches.filter (fun l => l.owner == o && l.q < 65 && l.admitted && !l.completed && !l.unplaced.isEmpty)

/-- R443: admission of a confidential slice is held. -/
def State.keyHeld (s : State) (o : Nat) : Bool :=
  let bound := s.keySlots.filter (fun k => k.state != .empty && k.owner == o)
  s.worldOf o != 0 && !(bound.any (fun k => k.state == .live) && bound.all (fun k => k.state == .live))

/-! ## Admission -/

/-- R393: a head that admission may take: queue index, descriptor, record where it could be read, and clock of its enqueue; a niche's
consumer launch has index 64 and its uid. -/
structure Head where
  q : Nat
  desc : Nat
  rcd : Option Nat
  since : Nat
  uid : Nat
deriving DecidableEq, Repr

/-- R393: the heads of a slice. -/
def State.heads (s : State) (o : Nat) : List Head :=
  (List.range 64).filterMap (fun q => (s.queueDesc o q).bind (fun d =>
    let x := s.queueOf o q d
    if descEn d && !descBad d && descDisp d && x.tail != x.head && !(s.slice o).unheld.contains q then
      some ⟨q, d, (match s.devRead o (entryAddr d x.head.toNat) 256 with | .ok b => some (ofBytes b) | .error _ => none), x.times.headD 0, 0⟩
    else none)) ++
  (((s.slice o).nicheList.head?).bind (fun u => s.launches.find? (fun l => l.uid == u))).toList.map (fun l =>
    ⟨64, 0, match l.source with | some a => s.consumerRecord l a | none => some l.record, l.enqueuedAt, l.uid⟩)

/-- R393: the head that is admitted: by deadline, or by age. -/
def chooseHead (aging : Bool) (hs : List Head) : Option Head :=
  let w (h : Head) : Nat := if aging then h.since else (h.rcd.map effDeadline).getD (2 ^ 64 - 1)
  match hs with
  | [] => none
  | h :: rest => some (rest.foldl (fun x y => if w y < w x then y else x) h)

/-- R394: a refused launch: its event record, and it completes at once. -/
def State.refuse (s : State) (l : Launch) (reason : Nat) : State :=
  (s.completeLaunch l).postEvent l.owner 1 reason (l.q % 64) l.seq l.id

/-- R448, R423, R228: what the read of a head's record counts. -/
def State.noteHead (s : State) (o : Nat) (h : Head) : State :=
  if h.q < 64 then s.noteDev o (entryAddr h.desc (s.queueOf o h.q h.desc).head.toNat) 256
  else match (s.launches.find? (fun l => l.uid == h.uid)).bind (·.source) with
    | none => s
    | some a => match s.readVa (Req.load o .s) true a 256 with
      | .ok (_, s') => s'
      | .error _ => s.noteWalks (Req.load o .s) a

/-- R393, R394: a head admitted or refused. -/
def State.admitHead (s : State) (o : Nat) (h : Head) : State :=
  let s := s.noteHead o h
  let s := s.updSlice o (fun x => { x with admissions := x.admissions + 1 })
  let rcd := h.rcd.getD 0
  let fill (l : Launch) : Launch := { l with
    record := rcd, nblocks := recBlocks rcd, unplaced := List.range (recBlocks rcd), admitted := true, admittedAt := s.clock, lastPlaced := s.clock }
  let (s, l) : State × Launch :=
    if h.q = 64 then
      let l := fill ((s.launches.find? (fun l => l.uid == h.uid)).getD
        { uid := h.uid, owner := o, q := 64, seq := 0, record := 0, nblocks := 1, unplaced := [] })
      (State.updSlice { s with launches := s.launches.map (fun x => if x.uid = h.uid then l else x) } o
        (fun x => { x with nicheList := x.nicheList.drop 1 }), l)
    else
      let x := s.queueOf o h.q h.desc
      let l := fill { uid := s.uids, owner := o, q := h.q, seq := x.head.toNat, record := 0, nblocks := 0, unplaced := [], enqueuedAt := h.since }
      ({ s.putQueue { x with head := x.head + 1, times := x.times.drop 1 } with uids := s.uids + 1, launches := s.launches ++ [l] }, l)
  match s.refusal l h.rcd.isSome (h.q == 64) with
  | some reason => s.refuse l reason
  | none => s.updSlice o (fun x => { x with decideDue := true })

/-- ADMISSION (R393, R394, R443). -/
def execAdmission (sl : Nat) (s : State) : Outcome :=
  .next (if s.dispatches sl && (s.readyLaunches sl).length < 8 && !s.keyHeld sl then
    match chooseHead ((s.slice sl).admissions % 16 == 15) (s.heads sl) with
    | some h => s.admitHead sl h
    | none => s
  else s)

/-! ## Decisions -/

/-- R395: the numbers of the next new unit of a launch. -/
def Launch.nextUnit (l : Launch) : List Nat :=
  match l.unplaced with
  | [] => []
  | n :: _ =>
    if recProgress l.record = 0 then l.unplaced
    else if nbhdSize l.record = 0 then [n]
    else l.unplaced.filter (fun m => m / nbhdSize l.record == n / nbhdSize l.record)

/-- R318: commands on a core that has taken a MATRIX block go back to their own engines. -/
def State.yieldHelpers (s : State) : State :=
  s.reclaim (fun _ core => s.blocks.any (fun b => b.core == core && recMatrix b.record))

/-- The casts of a launch, lowest block number first. -/
def State.castsOf (s : State) (l : Launch) : List Cast :=
  let cs := s.casts.filter (fun c => c.blk.launch == l.uid && c.valid)
  (List.range l.nblocks).flatMap (fun n => cs.filter (fun c => c.blk.num == n))

/-- R176: what the wait of a thread of a cast block records is to come from another cast block: a consumer of the niche, a block of a launch
of the queue, or, at a barrier object in device memory, a block of the same launch that has not come to wait at the object itself (log
entry 109). -/
def State.awaitsBlock (s : State) (b : Block) (t : Thread) (x : Block) : Bool :=
  match t.wait with
  | .niche launch node => !s.nicheEmpty launch node && x.batch.any (fun r => r.launch == launch && r.node == node)
  | .queue _ sl q false target =>
    (s.queue? sl q).any (fun y => 2 ^ 31 ≤ (y.done - target).toNat) && (s.launches.find? (fun l => l.uid == x.launch)).any (fun l => l.owner == sl && l.q == q)
  | .barrier false addr _ _ =>
    !t.freed && bit addr 63 && x.launch == b.launch &&
      x.threads.any (fun u => !u.exited && (match u.wait with | .barrier false a _ _ => a != addr | _ => true))
  | _ => false

/-- R176: the cast that a decision restores for a cast: the first whose block it awaits goes before it, and so on while that leads to one not met
before. -/
def State.restoreFirst (s : State) (c : Cast) (met : List Nat) : Nat → Cast
  | 0 => c
  | n + 1 =>
    match s.casts.find? (fun x => x.valid && !met.contains x.blk.uid && x.blk.uid != c.blk.uid && c.blk.threads.any (fun t => s.awaitsBlock c.blk t x.blk)) with
    | some x => s.restoreFirst x (c.blk.uid :: met) n
    | none => c

/-- R395, R386: the next unit of a launch placed, casts before new blocks; none where it does not fit. -/
def State.placeUnit (s : State) (l : Launch) : Option State :=
  match s.castsOf l with
  | c :: _ => (s.restoreUnit (s.restoreFirst c [] s.casts.length) none).map State.yieldHelpers
  | [] =>
    let nums := l.nextUnit
    if nums.isEmpty || !s.tokensFree l.owner (tokensFor l.record nums.length) then none
    else
      let put (draw : Option Nat) (s : State) (n c : Nat) : Option State := s.placeBlock draw l n c
      let draw := some s.fresh
      let s := { s with fresh := s.fresh + 1 }
      let quads := s.openQuads l.owner
      ((s.seatAll draw l (put draw) quads nums).or (s.seatAll none l (put none) quads nums)).map State.yieldHelpers

/-- R397: the block is under aging grace. -/
def State.graced (s : State) (b : Block) : Bool := b.grace.any (fun t => s.clock < t + 65536)

/-- R395, R396: running units of a slice as lists of their blocks, the latest deadline first, then the most recently placed. -/
def State.victims (s : State) (o : Nat) (f : Block → Bool) : List (List Block) :=
  let bs := s.blocks.filter (fun b => b.owner == o && b.halted.isNone)
  let units := (bs.map (fun b => bs.filter (fun x => b.unitOf x))).eraseDups
  let key (u : List Block) : Nat × Nat := ((u.head?.map (fun b => effDeadline b.record)).getD 0, (u.map (·.placedAt)).foldl max 0)
  let later (x y : List Block) : Bool := (key y).1 < (key x).1 || (key y).1 == (key x).1 && (key y).2 ≤ (key x).2
  inOrder later (units.filter (fun u => u.all f))

/-- R377, R379: a unit taken: halted and cast. -/
def State.takeUnit (s : State) (u : List Block) : State :=
  let s := s.haltBlocks 0 (fun b => u.any (fun x => x.uid == b.uid))
  u.foldl (fun s b => match s.blocks.find? (fun x => x.uid == b.uid) with
    | some x => s.castOut x (x.halted.getD 0)
    | none => s) s

/-- R396: the module as it would be without the blocks of some units. -/
def State.without (s : State) (us : List (List Block)) : State :=
  { s with blocks := s.blocks.filter (fun b => !us.any (fun u => u.any (fun x => x.uid == b.uid))) }

/-- R396: victims beyond those taken, one after another, until the launch's next unit fits; none where all of them do not make room. -/
def State.victimsFor (s : State) (l : Launch) (taken : List (List Block)) : List (List Block) → Option (List (List Block))
  | [] => if ((s.without taken).placeUnit l).isSome then some taken else none
  | u :: rest => if ((s.without taken).placeUnit l).isSome then some taken else s.victimsFor l (taken ++ [u]) rest

/-- R398: MATRIX units whose tokens the slice's quota needs for `n` more, in order. -/
def State.tokenVictims (s : State) (o n : Nat) (taken : List (List Block)) : List (List Block) → List (List Block)
  | [] => taken
  | u :: rest => if (s.without taken).quotaFree o n then taken else s.tokenVictims o n (taken ++ [u]) rest

/-- R395, R398: tokens that a launch's next unit needs. -/
def State.tokensNext (s : State) (l : Launch) : Nat :=
  tokensFor l.record (match s.castsOf l with
    | c :: _ => ((s.castsWith c).filter (fun x => x.blk.halted.isSome)).length
    | [] => l.nextUnit.length)

/-- R396, R398, R385: the launch's next unit placed after taking as few victims as make room; a shortfall of the module's pool takes none. Where
the save area is short, the victims stay halted, and nothing is placed before it has been enlarged. -/
def State.placeTaking (s : State) (l : Launch) (vs : List (List Block)) : Option State :=
  let first := s.tokenVictims l.owner (s.tokensNext l) [] (vs.filter (fun u => u.any (fun b => recMatrix b.record)))
  if !(s.without first).poolFree (s.tokensNext l) then none
  else (s.victimsFor l first (vs.filter (fun u => !first.contains u))).map (fun us =>
    let s' := us.foldl State.takeUnit s
    (s'.placeUnit l).getD s')

/-- R398, R319: a launch's next unit placed, migrated commands of the slice stopped before any victim is taken. -/
def State.placeWith (s : State) (l : Launch) (vs : List (List Block)) : Option State :=
  match s.placeUnit l with
  | some s' => some s'
  | none => (if recMatrix l.record then s.reclaim (fun b _ => b.owner == l.owner) else s).placeTaking l vs

/-- R396, R397: launches that wait for placement, cast blocks included. -/
def State.waiting (s : State) (o : Nat) : List Launch :=
  s.launches.filter (fun l => l.owner == o && l.admitted && !l.completed &&
    (!l.unplaced.isEmpty || s.casts.any (fun c => c.blk.launch == l.uid && c.valid)))

/-- R396: one EDF decision. -/
def State.decideEdf (s : State) (o : Nat) : State :=
  let order := inOrder (fun (x y : Launch) =>
    effDeadline x.record < effDeadline y.record || effDeadline x.record == effDeadline y.record && x.admittedAt ≤ y.admittedAt) (s.waiting o)
  (order.findSome? (fun l => s.placeWith l (s.victims o (fun b => effDeadline l.record < effDeadline b.record && !s.graced b)))).getD s

/-- R397: one aging decision; the blocks it places are under grace. -/
def State.decideAging (s : State) (o : Nat) : State :=
  let order := inOrder (fun (x y : Launch) => max x.admittedAt x.lastPlaced ≤ max y.admittedAt y.lastPlaced) (s.waiting o)
  let free := s.victims o (fun b => !s.graced b)
  let all := free ++ s.victims o (fun b => s.graced b)
  match order.findSome? (fun l => (s.placeWith l free).or (s.placeWith l all)) with
  | none => s
  | some s' =>
    { s' with blocks := s'.blocks.map (fun b =>
        if s.blocks.any (fun x => x.uid == b.uid) then b else { b with grace := some s.clock }) }

/-- DISPATCH_DECISION (R395 to R397). -/
def execDispatchDecision (sl : Nat) (s : State) : Outcome :=
  .next (if s.dispatches sl then
    let n := (s.slice sl).decisions
    let s := s.updSlice sl (fun x => { x with decisions := n + 1, decidedAt := s.clock, decideDue := false })
    if n % 16 = 15 then s.decideAging sl else s.decideEdf sl
  else s)

/-! ## Quanta -/

/-- R399: a slice has work for its quanta. -/
def State.hasWork (s : State) (o : Nat) : Bool := s.blocks.any (fun b => b.owner == o) || !(s.waiting o).isEmpty

/-- R399: quanta that a slice has received in the round of a quadrant. -/
def State.quantaOf (s : State) (quad o : Nat) : Nat := SMap.getD s.quanta (64 * quad + o) 0

/-- R399: the function that takes a quadrant's next quantum: of those with the least ratio, the one of the lowest function number (of two
ports' VFs of one number, the lower slice: log entry 70). -/
def State.nextSharer (s : State) (quad : Nat) : Option (Nat × Nat) :=
  let cs := (List.range Config.nSlices).filterMap (fun o => (SMap.get (s.slice o).shares quad).bind (fun w =>
    if s.dispatches o && s.hasWork o then some (o, w) else none))
  match cs with
  | [] => none
  | c :: rest => some (rest.foldl (fun x y =>
      let qx := s.quantaOf quad x.1 * y.2
      let qy := s.quantaOf quad y.1 * x.2
      if qy < qx || qy == qx && s.vfOf y.1 < s.vfOf x.1 then y else x) c)

/-- QUANTUM_EXPIRY (R399): at the end of a quantum, or when its function has no work, the quadrant switches. -/
def execQuantumExpiry (quad : Nat) (s : State) : Outcome :=
  .next (match SMap.get s.qlog quad with
  | none => s
  | some ql =>
    let cur := SMap.get s.onQuad quad
    let over' := SMap.getD s.quantumAt quad 0 + 2 ^ ql ≤ s.clock || !cur.any s.hasWork
    if !over' then s
    else
      let round := ((List.range Config.nSlices).map (s.quantaOf quad)).foldl (· + ·) 0
      let s := if 64 ≤ round then { s with quanta := SMap.drop s.quanta (fun k => k / 64 == quad) } else s
      match s.nextSharer quad with
      | none => s
      | some (o, _) =>
        let s := if cur = some o then s else s.haltBlocks 0 (fun b => cur == some b.owner && quadOfCore b.core == quad)
        State.updSlice { s with
          onQuad := SMap.set s.onQuad quad o
          quantumAt := SMap.set s.quantumAt quad s.clock
          quanta := SMap.set s.quanta (64 * quad + o) (s.quantaOf quad o + 1) } o (fun x => { x with decideDue := true }))

/-! ## Blocks -/

/-- R139: all threads of the block have ended and all its commands have retired. -/
def Block.ended (b : Block) : Bool := b.threads.all (·.exited) && b.window.isEmpty

/-- R173: two blocks are of one neighbourhood. -/
def Block.neighbours (b x : Block) : Bool :=
  nbhdSize b.record != 0 && x.launch == b.launch && x.num / nbhdSize b.record == b.num / nbhdSize b.record

/-- R139, R295: the block may retire: it has ended, and so has every block of its neighbourhood, whose window its scratchpad is part of (log
entry 23). -/
def State.mayRetire (s : State) (b : Block) : Bool :=
  b.ended && b.halted.isNone && (s.blocks ++ s.casts.map (·.blk)).all (fun x => !b.neighbours x || x.ended)

/-- BLOCK_RETIRE (R139, R226, R335): a block that may retire leaves its core; what it held there stands until it is written over. The records of
its batch are released. -/
def execBlockRetire (b : Nat) (s : State) : Outcome :=
  .next (match s.blocks.find? (fun x => x.uid == b) with
  | none => s
  | some x =>
    if s.mayRetire x then
      let s := match x.batch with | some r => s.releaseBatch r | none => s
      State.updSlice { s.leaveCore x with blocks := s.blocks.filter (fun y => y.uid != b), bins := s.bins.filter (fun y => y.blk != b) } x.owner
        (fun y => { y with decideDue := true })
    else s)

/-- R375: HANGLIMIT of a slice. -/
def State.hangLimit (s : State) (o : Nat) : Nat := 2 ^ fld (s.sliceWord o 1) 5 8

/-- R375: a thread of the block at place `i` waits, and its wait has not been released. -/
def State.stuck (s : State) (i : Nat) (b : Block) (t : Thread) : Bool :=
  t.wait != .none && !t.exited && !t.stopped && t.pend.isNone && !s.waitOver i b t

/-- R375: each waiting thread of the hung block at place `i` raises HANG, whose extra word is the code of what it waits for. -/
def State.hung (s : State) (i : Nat) (b : Block) : Block :=
  { b with
    progress := s.clock
    threads := b.threads.map (fun t => if s.stuck i b t then
        ({ t with
          wait := .none, waited := 0, freed := false, synced := t.arrivals t.pc
          pend := some ⟨.hang, BitVec.ofNat 64 t.wait.fields.1, 0, t.pc, t.waitWord⟩ } : Thread) else t) }

/-- R375: where a wait of a block's threads has been released since the state `old`, the block has made progress. -/
def State.noteReleases (s old : State) : State :=
  { s with blocks := s.blocks.zipIdx.map (fun p =>
      match old.placeOfUid p.1.uid with
      | none => p.1
      | some i => match old.blocks[i]? with
        | none => p.1
        | some b =>
          if p.1.halted.isNone && (b.threads.zip p.1.threads).any (fun t =>
              t.1.wait != .none && t.1.wait == t.2.wait && !old.waitOver i b t.1 && s.waitOver p.2 p.1 t.2)
          then { p.1 with progress := s.clock } else p.1) }

/-- HANG (R375): a block without progress for HANGLIMIT clocks. -/
def execHang (b : Nat) (s : State) : Outcome :=
  .next (match s.blocks.zipIdx.find? (fun x => x.1.uid == b) with
  | none => s
  | some (x, i) =>
    if x.halted.isNone && x.owner < Config.nSlices && x.progress + s.hangLimit x.owner ≤ s.clock then
      let n := (x.threads.filter (s.stuck i x)).length
      let s := s.updBlock i (s.hung i)
      (s.count x.owner (fun c => { c with hangs := satAdd c.hangs n })).postEvent x.owner 2 0 0 x.num (s.launchId x.launch)
    else s)

/-! ## Notices -/

/-- R388: a notice: its event record, a checkpoint of every running block, and the notice in force. Each launch's checkpoint number
advances; the directory holds the greatest (log entry 43). -/
def State.giveNotice (s : State) (o mask time : Nat) : State :=
  let s := s.postEvent o 5 0 0 0 time
  let bs := s.blocks.filter (fun b => b.owner == o && b.halted.isNone)
  let s := s.updSlice o (fun x => { x with notices := x.notices ++ [⟨mask, time, bs.map (·.uid)⟩] })
  if s.sliceWord o 8 = 0 then s
  else
    let seqOf (b : Block) : Nat := ((s.launches.find? (fun l => l.uid == b.launch)).map (fun l => l.ckpts + 1)).getD 1
    let s' := s.checkpoint o 2 ((bs.map seqOf).foldl max 0) seqOf bs
    { s' with launches := s'.launches.map (fun l => if bs.any (fun b => b.launch == l.uid) then { l with ckpts := l.ckpts + 1 } else l) }

/-- PREEMPTION_NOTICE (R388): quadrants of a running slice are named with a time. -/
def execPreemptionNotice (sl mask time : Nat) (s : State) : Outcome :=
  .next (if s.dispatches sl && mask != 0 && (bitsOf 32 mask).all (s.quadsOfSlice sl).contains && mask < 2 ^ 32 then
    s.giveNotice sl mask time else s)

/-- NOTICE_TIME_REACHED (R388): at the time of the oldest notice that is due, the blocks that were running when it came are pre-empted into
the save area. -/
def execNoticeTimeReached (sl : Nat) (s : State) : Outcome :=
  .next (match (s.slice sl).notices.find? (fun n => n.time ≤ s.devTime) with
  | some n => (s.haltBlocks 0 (fun b => b.owner == sl && n.blks.contains b.uid)).updSlice sl (fun x => { x with notices := x.notices.erase n })
  | none => s)

end Sys2Proof.Machine
end

