-- ==== Sys2Proof/Machine/Slices.lean ====
section
/-! DEFINITION. Slice reset (R456, R458), the partition protocol (R417, R418) and the SL instructions (R407 to R416, R419). -/

namespace Sys2Proof.Machine

/-! ## Slice reset -/

/-- R430: the Function Readiness Status of a slice's VF, sent where the VF exists. -/
def State.sendReady (s : State) (o : Nat) : State :=
  if s.vfExists (s.portOf o) (s.vfOf o) then { s with outbox := s.outbox ++ [.readiness (s.portOf o) (s.vfOf o)] } else s

/-- R417, R456: cores whose storage is cleared to zero. -/
def State.clearCores (s : State) (cores : List Nat) : State :=
  let on (a : Nat) : Bool := cores.contains (fld a 11 21)
  { s with
    sram := SMap.drop s.sram on
    sramPoison := SMap.drop s.sramPoison on
    remains := s.remains.filter (fun b => !cores.contains b.core)
    bins := s.bins.filter (fun b => !cores.contains b.core)
    cleared := cores ++ s.cleared.filter (fun c => !cores.contains (c % 2048)) }

/-- R456 step 2: what is forgotten of a slice: blocks and casts with their commands, queues, niches, logs, leases, session key. -/
def State.forget (s : State) (o : Nat) : State :=
  let s := (List.range Config.nSlices).foldl (fun s x => if x = o || (s.leaseOf x).any (fun l => l.2.1 == o) then s.endLease x else s) s
  State.updSlice { s with
    blocks := s.blocks.filter (fun b => b.owner != o)
    casts := s.casts.filter (fun c => c.blk.owner != o)
    launches := s.launches.filter (fun l => l.owner != o)
    queues := s.queues.filter (fun q => q.sl != o)
    niches := s.niches.filter (fun n => n.owner != o)
    tcbRetries := s.tcbRetries.filter (fun r => r.owner != o)
    sideLog := s.sideLog.filter (fun e => e.owner != o)
    moving := s.moving.filter (fun m => m.owner != o)
    collCount := SMap.drop s.collCount (fun k => k / 2 ^ 48 == o)
    sessions := SMap.drop s.sessions (fun k => k / 2 ^ 56 == o) } o
    (fun x => { x with
      nicheList := [], notices := [], session := none, quiescing := false, resetDue := false, decideDue := false, unheld := List.range 64 })

/-- R456 steps 2 to 7; the first-stage root is read afresh, as a TINVA does (log entry 110). -/
def State.resetSteps (s : State) (o : Nat) : State :=
  let s := (s.forget o).dropTlb1 o
  let s := { s with tlb2 := s.tlb2.filter (fun t => t.owner != o) }
  let s := s.discardL2 (fun w _ => w == o)
  let s := { s with keySlots := s.keySlots.map (fun (k : KeySlot) => if k.state != KeyState.empty && k.owner == o then k.erased else k) }
  (s.clearCores (s.slice o).usedCores).updSlice o (fun x => { x with usedCores := [] })

/-- R407, R430, R456 step 1: a reset of a slice begins: it is in PROTOCOL, and returns to `prior` in the end; its VF is not ready, and is so
again at the end where `ready`. -/
def State.beginReset (s : State) (o : Nat) (prior : SliceState) (ready : Bool) : State :=
  s.updSlice o (fun x => { x with prior := prior, state := .inProtocol, resetting := true, ready := false, readyDue := ready })

/-- R456: the other steps of a reset of a slice that has begun. -/
def State.finishReset (s : State) (o : Nat) : State :=
  let s := (s.resetSteps o).updSlice o (fun x => { x with state := x.prior, resetting := false, ready := x.readyDue, readyDue := false })
  if (s.slice o).ready then s.sendReady o else s

/-- R458: a slice reset begins; at its end the slice is QUIESCED and its VF is not ready. -/
def State.beginSliceReset (s : State) (o : Nat) : State := s.beginReset o .quiesced false

/-- R458: a slice reset in one event. -/
def State.sliceReset (s : State) (o : Nat) : State := (s.beginSliceReset o).finishReset o

/-- R456, R418: a function-level reset of a slice's VF begins; during a partition protocol it waits for the protocol's end, and during
another reset there is nothing more to do. -/
def State.beginFunctionReset (s : State) (o : Nat) : State :=
  let x := s.slice o
  if x.resetting then s
  else if x.state = .inProtocol then s.updSlice o (fun x => { x with resetDue := true })
  else s.beginReset o x.state x.ready

/-- R456: a function-level reset of a slice's VF in one event. -/
def State.functionReset (s : State) (o : Nat) : State :=
  let s := s.beginFunctionReset o
  if (s.slice o).resetting then s.finishReset o else s

/-! ## The partition protocol -/

/-- R417 steps 3 and 4: every block of the named slices is halted and cast. -/
def State.castAll (s : State) (kind : Nat) (named : List Nat) : State :=
  let s := s.haltBlocks kind (fun b => named.contains b.owner)
  (s.blocks.filter (fun b => named.contains b.owner)).foldl (fun s b => s.castOut b (b.halted.getD kind)) s

/-- R417 step 4: every cast is valid, and no command of those blocks runs on. -/
def State.drained (s : State) (named : List Nat) : Bool :=
  !s.blocks.any (fun b => named.contains b.owner) &&
  !s.casts.any (fun c => named.contains c.blk.owner && c.blk.window.any (fun d => d.phase == 3))

/-- R417 step 5: lines of the named owners written back and dropped. -/
def State.flushOwners (s : State) (named : List Nat) : State := s.flushL2 (fun o _ => named.contains o)

/-- R409: an owner's WAYS entries in the cache slices of a quadrant. -/
def State.setWays (s : State) (o quad w : Nat) : State :=
  { s with ways := (List.range 12).foldl (fun m i =>
      let k := (12 * quad + i) * 128 + o
      if w = 0 then SMap.erase m k else SMap.set m k w) s.ways }

/-- R408, R409: a quadrant leaves a slice. -/
def State.leaveQuad (s : State) (o q : Nat) : State :=
  let s := (s.setWays o q 0).updSlice o (fun x => { x with
    hard := if bit x.hard q then x.hard - 2 ^ q else x.hard, shares := SMap.erase x.shares q })
  if SMap.get s.onQuad q = some o then { s with onQuad := SMap.erase s.onQuad q } else s

/-- R408, R409: a hard quadrant joins a slice. -/
def State.joinHard (s : State) (o q : Nat) : State :=
  (s.setWays o q 0xFFFF).updSlice o (fun x => { x with hard := if bit x.hard q then x.hard else x.hard + 2 ^ q })

/-- R408, R409: a share of a quadrant joins a slice, or grows by weight `w`. -/
def State.joinShare (s : State) (o q w : Nat) : State :=
  (if (SMap.get (s.slice o).shares q).isSome then s else s.setWays o q 0).updSlice o
    (fun x => { x with shares := SMap.set x.shares q (SMap.getD x.shares q 0 + w) })

/-- R408: slices that hold a quadrant. -/
def State.holders (s : State) (q : Nat) : List Nat := (List.range Config.nSlices).filter (fun o => (s.quadsOfSlice o).contains q)

/-- R408: QLOG of quadrants that no slice shares any more is forgotten. -/
def State.dropQlogs (s : State) : State := { s with qlog := SMap.drop s.qlog (fun q => (s.holders q).isEmpty) }

/-- R436: the latches that the holdings of confidential slices give: a die all of whose quadrants they hold latches their world, and a
die that no such slice holds any part of is released. -/
def State.newLatches (s : State) : List Nat :=
  (List.range 8).map (fun d =>
    let quads := [4 * d, 4 * d + 1, 4 * d + 2, 4 * d + 3]
    let ws := (List.range Config.nSlices).filter (fun o => s.worldOf o != 0 && quads.any (fun q => bit (s.slice o).hard q))
    match ws with
    | [] => 0
    | o :: _ => s.worldOf o)

/-- R417 step 6, R454: a quadrant's controller is told which slices hold the quadrant now (log entry 123). -/
def State.tellHolders (s : State) (quads : List Nat) : State := s.tellQuads quads (fun q => (s.holders q).map (BitVec.ofNat 8))

/-- R417 steps 6 and 7: quadrants change owner by `move`, latches change, and the cores that change owner are cleared: a reset of the slice that
held them has no more to clear there. -/
def State.reassign (s : State) (move : State → State) (cleared : List Nat) : State :=
  let s' := (move s).dropQlogs
  let cores := cleared.flatMap (fun q => (List.range 40).map (fun i => 40 * q + i))
  let s'' : State := { s'.clearCores cores with
    latches := s'.newLatches
    slices := s'.slices.map (fun (x : Slice) => { x with usedCores := x.usedCores.filter (fun c => !cores.contains c) }) }
  s''.tellHolders ((List.range 32).filter (fun q => s.holders q != s''.holders q))

/-- R417 step 8, R418: the named slices return to their former state; resets that waited are performed. -/
def State.resumeSlices (s : State) (named : List Nat) : State :=
  named.foldl (fun s o =>
    let s := s.updSlice o (fun x => { x with state := x.prior, decideDue := true })
    if (s.slice o).resetDue then s.functionReset o else s) s

/-! ## Requests -/

/-- What a request comes to: a status and the state after it, or a wait with what is done so far. -/
inductive Answer where
  | status (s : State) (x : Nat)
  | again (s : State)

/-- R413: the lowest status among those whose condition holds. -/
def lowest (cs : List (Bool × Nat)) : Nat :=
  ((cs.filter (·.1)).map (·.2)).foldl (fun m x => if m = 0 then x else min m x) 0

/-- R413: a request in hand has been answered. -/
def State.answered (s : State) : State :=
  let s := { s with request := none }
  { s with
    blocks := s.blocks.filter (fun b => !(b.owner == Config.ownerHv && s.launches.any (fun l => l.uid == b.launch && 65 ≤ l.q &&
      (s.ports.getD (l.q - 65) {}).discard)))
    launches := s.launches.filter (fun l => !(65 ≤ l.q && (s.ports.getD (l.q - 65) {}).discard))
    ports := s.ports.map (fun p => { p with discard := false }) }

/-- The block that issues, by its uid: a request may have taken away blocks that stood before it. -/
def State.reseat (s : State) (uid : Nat) : State := { s with cur := { s.cur with blk := s.blocks.findIdx (fun b => b.uid == uid) } }

/-- R417, R418: a partition protocol is under way. -/
def State.inPartition (s : State) : Bool := s.slices.any (fun x => x.state == .inProtocol && !x.resetting)

/-- R413: an SL instruction: PRIV off the armature core or below level H; then for each thread in turn its request, `named` the slices
that it names. One thread's request is in hand at a time; a slice in PROTOCOL answers 5, but to the request that put it there. A request that
`waits` (R418) waits for the end of a partition protocol that names its slice, and for that of no other. -/
def State.slRequest (s : State) (d : Reg) (regs : List Nat) (named : Thread → List Nat) (waits : Bool) (f : State → Thread → Bool → Answer) :
    Outcome :=
  let armature := ((s.blocks[s.cur.blk]?).map (fun b => b.core == Config.armatureCore)).getD false
  if !armature then .next (s.trapAll (s.wordTrap .priv))
  else s.needLevel .h (fun _ =>
    .next (s.foldLanes (fun s blk t => laneChecked blk t (d.toNat :: regs) [] regs s (fun _ =>
      let me := some (blk.uid, t.tid)
      let mine := s.request == me
      let busy := (named t).any (fun o => o < Config.nSlices && (s.slice o).state == .inProtocol)
      let hold (s : State) : LaneRes := .moved (s.updThread s.cur.blk t.tid (fun u => u.hold s.cur .none))
      let reset := (named t).any (fun o => (s.slice o).resetting)
      if !mine && busy then (if waits && !reset then hold s else .done (s.updThread s.cur.blk t.tid (fun u => u.put d.toNat 5)))
      else if !mine && s.request.isSome && !(waits && s.inPartition) then hold s
      else match f s t mine with
        | .status s' x =>
          let s' := s'.reseat blk.uid
          let r := s'.updThread s'.cur.blk t.tid (fun u => (u.put d.toNat (BitVec.ofNat 32 x)).retire s'.cur)
          .moved (if mine then r.answered.reseat blk.uid else r)
        | .again s' => hold ({ s' with request := me }.reseat blk.uid)))))

/-- R414: s of an A operand. -/
def slA (t : Thread) (a : Reg) : Nat := (t.get a.toNat).toNat

/-- R407: a slice number names a slice that exists. -/
def State.exists' (s : State) (o : Nat) : Bool := o < Config.nSlices && (s.slice o).state != .free

/-- R417: a partition request: checked when it is first seen, then carried through step by step. -/
def State.partition (s : State) (mine : Bool) (st : Nat) (named : List Nat) (move : State → State) (cleared : List Nat) : Answer :=
  let go (s : State) : Answer :=
    let s := s.castAll 3 named
    if s.drained named then .status (((s.flushOwners named).reassign move cleared).resumeSlices named) 0 else .again s
  if mine then go s
  else if st ≠ 0 then .status s st
  else go (named.foldl (fun s o => s.updSlice o (fun x => { x with prior := x.state, state := .inProtocol })) s)

/-! ## The slice record -/

/-- R410: layout of an event or fault ring word. -/
def ringOk (w : Nat) : Bool := fld w 12 52 == 0 && fld w 7 5 == 0 && 4 ≤ fld w 5 0 && fld w 5 0 ≤ 16

/-- R410, R236: word `i` of a slice record is within its limits. -/
def recordWordOk (i w : Nat) : Bool :=
  match i with
  | 0 => fld w 2 6 == 0 && fld w 7 9 == 0 && fld w 2 22 == 0 && w < 2 ^ 28 && 1 ≤ fld w 6 16 && fld w 6 16 ≤ 48 && fld w 4 24 ≤ 14
  | 1 => fld w 6 2 == 0 && w < 2 ^ 13 && 16 ≤ fld w 5 8 && fld w 5 8 ≤ 40
  | 2 => fld w 10 1 == 0 && fld w 12 52 == 0
  | 3 => fld w 16 1 == 0 && fld w 12 52 == 0
  | 4 => w % 4096 == 0 && w < 2 ^ 52
  | 5 => ringOk w
  | 6 => w % 4096 == 0 && w < 2 ^ 52
  | 7 => true
  | 8 => w < 2 ^ 52
  | 9 => true
  | 10 => ringOk w
  | 11 => w < 2 ^ 40
  | 12 => w < 2 ^ 4
  | 13 => w ≤ 4096
  | 14 => w ≤ 31 || w == 63
  | 15 => fld w 2 22 == 0 && fld w 11 5 == 0
  | _ => w == 0

/-- R410: what a record claims that another slice holds: channels of a die, an encoder lane, a VF number of a port. -/
def State.claimsHeld (s : State) (o : Nat) (word : Nat → Nat) : Bool :=
  (List.range Config.nSlices).any (fun x => x != o && s.exists' x &&
    (Nat.land (fld (s.sliceWord x 11) 8 32) (fld (word 11) 8 32) != 0 &&
      (Nat.land (fld (s.sliceWord x 11) 32 0) (fld (word 11) 32 0) != 0 || Nat.land (s.sliceWord x 12) (word 12) != 0) ||
     s.sliceWord x 14 != 63 && s.sliceWord x 14 == word 14 ||
     fld (s.sliceWord x 0) 1 8 == fld (word 0) 1 8 && fld (s.sliceWord x 0) 6 16 == fld (word 0) 6 16))

/-- R419: statuses of a LEASE word for a slice of a world. -/
def State.leaseChecks (s : State) (o world w : Nat) : List (Bool × Nat) :=
  let lessor := fld w 6 16
  let quad := fld w 5 0
  if fld w 40 24 = 0 then []
  else [(!s.exists' lessor, 1), (!bit (s.slice lessor).hard quad, 4),
    (s.worldOf lessor != world || !(s.quadsOfSlice o).any (fun q => q / 4 == quad / 4), 6)]

/-- SLNEW (R414). -/
def execSlnew (d a b : Reg) (s : State) : Outcome :=
  s.slRequest d (a.toNat :: upto b.toNat 1 2) (fun t => [fld (slA t a) 6 0]) false (fun s t _ =>
    let o := fld (slA t a) 6 0
    let addr := (t.get64 b.toNat).toNat
    match s.readVa (Req.load Config.ownerHv t.level) false addr (if addrOk (t.get64 b.toNat) && addr % 256 == 0 then 256 else 0) with
    | .error (.held _, _) => .again s
    | .error _ => .status s (lowest [(Config.nSlices ≤ o || (s.slice o).state != .free, 1), (true, 3)])
    | .ok (bytes, s') =>
      let ws := (List.range 32).map (fun i => numAt bytes (8 * i) 8)
      let word (i : Nat) : Nat := ws.getD i 0
      let bad := !addrOk (t.get64 b.toNat) || addr % 256 != 0
      let st := lowest ([(Config.nSlices ≤ o || (s.slice o).state != .free, 1), (!bad && s.claimsHeld o word, 2), (bad, 3),
        (2 ^ 6 ≤ slA t a || !bad && ((List.range 32).any (fun i => !recordWordOk i (word i)) || fld (word 0) 6 0 != o), 4)] ++
        (if bad then [] else s.leaseChecks o (fld (word 0) 4 24) (word 15)))
      if st ≠ 0 then .status s st
      else .status (s'.updSlice o (fun x => { x with
        state := .quiesced, record := ws.map (BitVec.ofNat 64), hard := 0, shares := [], place := List.replicate 64 0, counters := {}
        usage := {}, leaseUsed := 0, incarnation := x.incarnation + 1, ready := false, session := none, admissions := 0, decisions := 0
        root1 := BitVec.ofNat 64 (word 2) })) 0)

/-- SLDEL (R414). -/
def execSldel (d a : Reg) (s : State) : Outcome :=
  s.slRequest d [a.toNat] (fun t => [fld (slA t a) 6 0]) false (fun s t _ =>
    let o := fld (slA t a) 6 0
    let st := lowest [(!(Config.nSlices > o && (s.slice o).state == .quiesced) || !(s.quadsOfSlice o).isEmpty || s.casts.any (fun c => c.blk.owner == o), 1),
      (2 ^ 6 ≤ slA t a, 4)]
    if st ≠ 0 then .status s st
    else
      let s := (s.forget o).discardL2 (fun w _ => w == o)
      let s := { s with otherUsage := s.otherUsage.add (s.slice o).usage }
      let s := { s with tlb1 := s.tlb1.filter (fun e => e.owner != o), tlb2 := s.tlb2.filter (fun e => e.owner != o) }
      .status (s.updSlice o (fun x => { ({} : Slice) with incarnation := x.incarnation, statements := x.statements })) 0)

/-! ## Quadrants -/

/-- R414: the slice holds shares. -/
def Slice.shared (x : Slice) : Bool := !x.shares.isEmpty

/-- R408: weights of a quadrant. -/
def State.weightOf (s : State) (q : Nat) : Nat := ((List.range Config.nSlices).map (fun o => SMap.getD (s.slice o).shares q 0)).foldl (· + ·) 0

/-- R416: the dies of one world's slices are joined through dies of that world. -/
def State.joined (s : State) (w : Nat) : Bool :=
  let dies := (List.range 8).filter (fun d => (List.range Config.nSlices).any (fun o => s.exists' o && s.worldOf o == w &&
    (s.quadsOfSlice o).any (fun q => q / 4 == d)))
  match dies with
  | [] => true
  | d :: _ => let r := s.spread w 8 [d]; dies.all r.contains

/-- R416: the quadrants that pass to a slice of world `w` break no world rule; `move` is what the operation would do. -/
def State.worldBad (s : State) (w : Nat) (quads : List Nat) (move : State → State) : Bool :=
  let s' := { move s with latches := (move s).newLatches }
  w != 0 && quads.any (fun q => !(List.range 4).all (fun i => quads.contains (4 * (q / 4) + i))) ||
  quads.any (fun q => s.latches.getD (q / 4) 0 != 0 && s.latches.getD (q / 4) 0 != w) ||
  (List.range 15).any (fun v => !s'.joined v)

/-- SLASSIGN (R414, R416, R417). -/
def execSlassign (d a b : Reg) (s : State) : Outcome :=
  s.slRequest d [a.toNat, b.toNat] (fun t => [fld (slA t a) 6 0]) false (fun s t mine =>
    let x := slA t a
    let o := fld x 6 0
    let mode := fld x 2 6
    let w := fld x 6 8
    let ql := fld x 5 14
    let quads := bitsOf 32 (t.get b.toNat).toNat
    let hard : Bool := mode == 0
    let move (s : State) : State :=
      let s := if hard then s else { s with qlog := quads.foldl (fun m q => SMap.set m q ql) s.qlog }
      quads.foldl (fun s q => if hard then s.joinHard o q else s.joinShare o q w) s
    let busyQuad := quads.any (fun q => if hard then !(s.holders q).isEmpty
      else (List.range Config.nSlices).any (fun y => bit (s.slice y).hard q))
    let st := lowest [(!s.exists' o, 1), (busyQuad, 2),
      (2 ^ 19 ≤ x || 2 ≤ mode || quads.isEmpty || quads.any (fun q => bit s.removed q) ||
        (if hard then w != 0 || ql != 0 || (s.slice o).shared
         else w == 0 || ql < 14 || 24 < ql || (s.slice o).hard != 0 || quads.any (fun q => (SMap.get s.qlog q).any (· != ql))), 4),
      (!hard && s.worldOf o != 0 || s.worldBad (s.worldOf o) quads move, 6),
      (!hard && quads.any (fun q => 64 < s.weightOf q + w), 7)]
    s.partition mine st [o] move (if hard then quads else []))

/-- R414: the quadrants or shares `quads` of a slice pass to another, or become free. -/
def State.passQuads (s : State) (o u : Nat) (quads : List Nat) : State :=
  quads.foldl (fun s q =>
    let w := SMap.get (s.slice o).shares q
    let s' := s.leaveQuad o q
    if Config.nSlices ≤ u then s' else match w with
      | some w => s'.joinShare u q w
      | none => s'.joinHard u q) s

/-- R414: a set of quadrants is not a subset of a slice's: held by another, or none's. -/
def State.subsetChecks (s : State) (o : Nat) (quads : List Nat) : List (Bool × Nat) :=
  let out := quads.filter (fun q => !(s.quadsOfSlice o).contains q)
  [(out.any (fun q => !(s.holders q).isEmpty), 2), (quads.isEmpty || !out.isEmpty, 4)]

/-- SLSPLIT (R414, R416, R417). -/
def execSlsplit (d a b : Reg) (s : State) : Outcome :=
  s.slRequest d [a.toNat, b.toNat] (fun t => [fld (slA t a) 6 0, fld (slA t a) 6 8]) false (fun s t mine =>
    let x := slA t a
    let o := fld x 6 0
    let u := fld x 6 8
    let quads := bitsOf 32 (t.get b.toNat).toNat
    let toU : Bool := u != 63
    let move (s : State) : State := s.passQuads o u quads
    let shared := (s.slice o).shared
    let all := (s.quadsOfSlice o).all quads.contains
    let st := lowest ([(!s.exists' o || toU && !s.exists' u || all && (s.slice o).state != .quiesced, 1),
      (2 ^ 14 ≤ x || fld x 2 6 != 0 || u == o || toU && (if shared then (s.slice u).hard != 0 else (s.slice u).shared), 4),
      (toU && s.worldOf u != s.worldOf o || s.worldBad (if toU then s.worldOf u else 0) (if toU then quads else []) move, 6)] ++ s.subsetChecks o quads)
    s.partition mine st (if toU then [o, u] else [o]) move (if shared then [] else quads))

/-- SLFUSE (R414, R416, R417). -/
def execSlfuse (d a : Reg) (s : State) : Outcome :=
  s.slRequest d [a.toNat] (fun t => [fld (slA t a) 6 0, fld (slA t a) 6 8]) false (fun s t mine =>
    let x := slA t a
    let o := fld x 6 0
    let u := fld x 6 8
    let quads := s.quadsOfSlice u
    let move (s : State) : State := s.passQuads u o quads
    let shared := (s.slice u).shared
    let enabled := (List.range 64).any (fun q => (s.queueDesc u q).any descEn)
    let st := lowest [(!s.exists' o || !s.exists' u || (s.slice u).state != .quiesced || s.casts.any (fun c => c.blk.owner == u) || enabled, 1),
      (2 ^ 14 ≤ x || fld x 2 6 != 0 || u == o || (if shared then (s.slice o).hard != 0 else !quads.isEmpty && (s.slice o).shared), 4),
      (s.worldOf u != s.worldOf o || s.worldBad (s.worldOf o) quads move, 6)]
    s.partition mine st [o, u] move (if shared then [] else quads))

/-! ## The rest -/

/-- SLQUIESCE (R414). -/
def execSlquiesce (d a b : Reg) (s : State) : Outcome :=
  s.slRequest d (upto a.toNat 1 2 ++ upto b.toNat 1 2) (fun t => [fld (slA t a) 6 0]) false (fun s t mine =>
    let x := slA t a
    let o := fld x 6 0
    let m := (t.get (a.toNat + 1)).toNat
    let time := (t.get64 b.toNat).toNat
    if fld x 2 6 = 1 then
      let st := lowest ([(!s.exists' o, 1), (2 ^ 8 ≤ x, 4)] ++ s.subsetChecks o (bitsOf 32 m))
      if st ≠ 0 then .status s st else .status (s.giveNotice o m time) 0
    else
      let st := lowest [(!(Config.nSlices > o && (s.slice o).state == .running), 1), (2 ^ 6 ≤ x || m != 0 || b.toNat != 0, 4)]
      if !mine && st ≠ 0 then .status s st
      else if (s.slice o).state = .inProtocol then .again s
      else
        let s := (s.updSlice o (fun y => { y with quiescing := true })).castAll 3 [o]
        if s.drained [o] then .status (s.updSlice o (fun y => { y with state := .quiesced, quiescing := false })) 0 else .again s)

/-- SLRESUME (R414, R430, R458). -/
def execSlresume (d a : Reg) (s : State) : Outcome :=
  s.slRequest d [a.toNat] (fun t => [fld (slA t a) 6 0]) false (fun s t _ =>
    let o := fld (slA t a) 6 0
    let st := lowest [(!(Config.nSlices > o && (s.slice o).state == .quiesced) || (s.quadsOfSlice o).isEmpty, 1), (2 ^ 6 ≤ slA t a, 4)]
    if st ≠ 0 then .status s st
    else
      let was := (s.slice o).ready
      let s := s.updSlice o (fun x => { x with state := .running, ready := true, decideDue := true })
      .status (if was then s else s.sendReady o) 0)

/-- R222: an owner's WAYS entry in a cache slice replaced; the owner's lines in the ways that are taken away are written back and dropped. The
change is one step, and BUSY is 1 within it alone (log entry 44). -/
def State.changeWays (s : State) (o cs w : Nat) : State :=
  let k := cs * 128 + o
  let old := SMap.getD s.ways k 0
  let lines := (s.l2.filter (fun c => c.1 / 2 ^ 47 == o && c.2.home == cs && bit old c.2.way && !bit w c.2.way)).map (·.1)
  let s := lines.foldl State.flushSector s
  { s with ways := if w = 0 then SMap.erase s.ways k else SMap.set s.ways k w }

/-- SLWAYS (R414, R221, R222). -/
def execSlways (d a b : Reg) (s : State) : Outcome :=
  s.slRequest d [a.toNat, b.toNat] (fun t => [fld (slA t a) 7 0]) false (fun s t _ =>
    let o := fld (slA t a) 7 0
    let x := (t.get b.toNat).toNat
    let cs := fld x 9 16
    let all := bit x 31
    let tag : Bool := o < Config.nSlices || o == Config.ownerHv
    let st := lowest [(o < Config.nSlices && (s.slice o).state == .free, 1),
      (2 ^ 7 ≤ slA t a || !tag || fld x 6 25 != 0 || (if all then cs != 0 else !(s.cacheSet o).contains cs), 4)]
    if st ≠ 0 then .status s st
    else .status ((if all then s.cacheSet o else [cs]).foldl (fun s c => s.changeWays o c (fld x 16 0)) s) 0)

/-- SLPLACE (R414, R240). -/
def execSlplace (d a b : Reg) (s : State) : Outcome :=
  s.slRequest d (a.toNat :: upto b.toNat 1 2) (fun t => [fld (slA t a) 6 0]) false (fun s t _ =>
    let x := slA t a
    let o := fld x 6 0
    let v := t.get64 b.toNat
    let st := lowest [(!s.exists' o, 1), (2 ^ 14 ≤ x || fld x 2 6 != 0 || fld v.toNat 28 36 != 0, 4)]
    if st ≠ 0 then .status s st
    else .status (s.updSlice o (fun y => { y with place := y.place.set (fld x 6 8) v })) 0)

/-- R410: words that are written only while the slice is QUIESCED. -/
def quiescedWord (i : Nat) : Bool := [3, 4, 5, 6, 7, 10, 11, 12, 14].contains i

/-- R410, R461: POOL written; while firmware holds it lower, the value stands once the inlet has cooled. -/
def State.setPool (s : State) (w : Nat) : State := if s.hot then { s with pool := min s.pool w, poolKept := some w } else { s with pool := w }

/-- R419: a LEASE word in force from now on: commands of the lessor that have migrated to the lent quadrant leave it. -/
def State.clearLent (s : State) (w : Nat) : State :=
  if fld w 40 24 = 0 then s else s.reclaim (fun b core => b.owner == fld w 6 16 && quadOfCore core == fld w 5 0)

/-- SLQUOTA (R414, R410, R419). -/
def execSlquota (d a b : Reg) (s : State) : Outcome :=
  s.slRequest d (a.toNat :: upto b.toNat 1 2) (fun t => [fld (slA t a) 6 0]) false (fun s t _ =>
    let x := slA t a
    let o := fld x 6 0
    let i := fld x 5 8
    let v := t.get64 b.toNat
    let w := v.toNat
    let rsv : Bool := 2 ^ 13 ≤ x || fld x 2 6 != 0
    if o = 63 then
      if rsv || 1 < i || (if i = 0 then 4096 < w else !ringOk w) then .status s 4
      else .status (if i = 0 then s.setPool w else { s with hvFaultQ := v }) 0
    else
      let word (j : Nat) : Nat := if j = i then w else s.sliceWord o j
      let st := lowest ([(!s.exists' o || quiescedWord i && (s.slice o).state != .quiesced, 1), (s.claimsHeld o word, 2),
        (rsv || i == 0 || 16 ≤ i || !recordWordOk i w, 4)] ++ (if i = 15 then s.leaseChecks o (s.worldOf o) w else []))
      if st ≠ 0 then .status s st
      else
        let s := if i = 15 then (s.endLease o).clearLent w else s
        .status (s.updSlice o (fun y => { y with record := y.record.set i v })) 0)

/-- SLRESET (R407, R414, R418, R458): during a partition protocol that names the slice it waits for the end. It comes in one step, or its end
in a step of its own (log entry 95); beside another request that is in hand it always comes in one. -/
def execSlreset (d a : Reg) (s : State) : Outcome :=
  s.slRequest d [a.toNat] (fun t => [fld (slA t a) 6 0]) true (fun s t mine =>
    let o := fld (slA t a) 6 0
    let st := lowest [(!s.exists' o, 1), (2 ^ 6 ≤ slA t a, 4)]
    if mine then .status (if (s.slice o).resetting then s.finishReset o else s) 0
    else if st ≠ 0 then .status s st
    else if s.later && s.request.isNone then .again (s.beginSliceReset o)
    else .status (s.sliceReset o) 0)

/-- R407: the code of a state. -/
def SliceState.code : SliceState → Nat
  | .free => 0 | .quiesced => 1 | .running => 2 | .inProtocol => 3

/-- R415: the 128 bytes of a slice's status. -/
def State.statusBlock (s : State) (o : Nat) : List Byte :=
  let x := s.slice o
  let quads := s.quadsOfSlice o
  let c := x.counters
  toBytes 4 (x.state.code * 2 ^ 30 + quads.headD 0xFF * 2 ^ 16 + s.worldOf o * 2 ^ 8 + o) ++ toBytes 4 x.hard ++
  toBytes 4 (x.shares.foldl (fun m e => m + 2 ^ e.1) 0) ++ toBytes 4 (s.tokensHeld o) ++
  [c.scopeClamp, c.corrected, c.uncorrectable, c.recsDropped, c.keyDropped, c.hangs, c.refusals, x.leaseUsed, s.devTime].flatMap (toBytes 8) ++
  toBytes 40 0

/-- SLSTAT (R414, R415). -/
def execSlstat (d a b : Reg) (s : State) : Outcome :=
  s.slRequest d (a.toNat :: upto b.toNat 1 2) (fun t => [fld (slA t a) 6 0]) false (fun s t _ =>
    let x := slA t a
    let o := fld x 6 0
    let addr := (t.get64 b.toNat).toNat
    let bad := !addrOk (t.get64 b.toNat) || addr % 64 != 0
    let st := lowest [(Config.nSlices ≤ o, 1), (bad, 3), (2 ^ 9 ≤ x || fld x 2 6 != 0, 4)]
    if st ≠ 0 then .status s st
    else match s.writeVa (Req.store Config.ownerHv t.level) false addr (s.statusBlock o) with
      | (_, some (.held _, _)) => .again s
      | (_, some _) => .status s 3
      | ((s', _), none) => .status (if bit x 8 then s'.updSlice o (fun y => { y with counters := {} }) else s') 0)

end Sys2Proof.Machine
end

