-- ==== Sys2Proof/Machine/HostIf.lean ====
section
/-! DEFINITION. Boot and the mailbox (R451 to R453), the two host ports (R429 to R433, R459, R460), what stops or removes a part of the
module (R434, R455, R461), and the device links (R427, R428, R450). -/

namespace Sys2Proof.Machine

/-! ## Boot -/

/-- R453, R455: the module is in service. -/
def State.inService (s : State) : Bool := s.boot.powered && !s.boot.stopped && s.boot.ready && !s.boot.recovery

/-- R453: the mailbox and the identity page answer. -/
def State.answering (s : State) : Bool := s.boot.powered && !s.boot.stopped && (s.boot.ready || s.boot.recovery)

/-- R451: the slot that the ROM boots and its security version. -/
def Boot.choose (b : Boot) : Option (Nat × Nat) :=
  match b.slotA.filter (b.rollback ≤ ·), b.slotB.filter (b.rollback ≤ ·) with
  | some v, some w => if v < w then some (2, w) else some (1, v)
  | some v, none => some (1, v)
  | none, some w => some (2, w)
  | none, none => none

/-- R452 step 4, R454: the armature sends each quadrant controller its image (log entry 123). -/
def State.sendImages (s : State) : State :=
  s.tellQuads ((List.range 32).filter (fun q => !bit s.removed q)) (fun _ => (Config.imageBytes s.boot.image).take 64)

/-- R452 steps 2 to 6 over a state whose work, slices and slots are at their values of reset. -/
def State.bootUp (s : State) : State :=
  let b : Boot := { s.boot with stopped := false, powered := true }
  match b.choose with
  | none => { s with
      boot := { b with booted := 0, fwVer := 0, recovery := true, ready := false }
      links := s.links.map (fun (l : Link) => { l with up := false, trained := false })
      diePorts := s.diePorts.map (fun (p : DiePort) => { p with up := false }) }
  | some (slot, v) =>
    let live (o k : Nat) : KeySlot := { state := .live, owner := o, key := some k }
    State.sendImages { s with
      keys := s.keys ++ [254 :: toBytes 8 b.starts, 255 :: toBytes 8 b.starts]
      keySlots := s.keySlots.take 254 ++ [live Config.ownerFw s.keys.length, live Config.ownerHv (s.keys.length + 1)]
      boot := { b with
        booted := slot, image := if slot = 1 then b.imageA else b.imageB, fwVer := v, rollback := max b.rollback v, recovery := false, ready := true
        starts := b.starts + 1 }
      outbox := s.outbox ++ [.readiness 0 0, .readiness 1 0] }

/-- What every start of the module begins from: the state of reset with the contents of memory and flash and the model's counters. -/
def State.blank (s : State) : State :=
  { State.reset with
    clock := s.clock, fresh := s.fresh, uids := s.uids, inputs := s.inputs, dram := s.dram, dramKey := s.dramKey, dramPoison := s.dramPoison
    latent := s.latent, keys := s.keys, boot := s.boot, outbox := s.outbox }

/-- R460: the module restarts: R452 from step 1. -/
def State.restart (s : State) : State :=
  State.bootUp { s.blank with keySlots := List.replicate 256 {}, boot := { s.boot with boots := s.boot.boots + 1 } }

/-- R447, R448, R455: what a slice keeps until the next power-up. -/
def Slice.lasting (x : Slice) : Slice := { incarnation := x.incarnation, statements := x.statements }

/-- R453: boot restarts at step 2 of R452, which is no power-up: the clocks and BOOTID go on; the configuration space and the mailbox keep their
registers; what counts since power-up goes on counting (R432, R447, R448), and removed quadrants stay removed (R455). POOL starts at 4,096, a lowered
one stays lower (R461). -/
def State.reboot (s : State) : State :=
  let x := State.bootUp { s.blank with
    devTime := s.devTime
    secure := s.secure
    removed := s.removed
    slices := s.slices.map Slice.lasting
    hvSession := s.hvSession
    hvStatements := s.hvStatements
    otherUsage := s.slices.foldl (fun u x => u.add x.usage) s.otherUsage
    keySlots := s.keySlots.map (fun (k : KeySlot) => if k.state = KeyState.empty then k else k.erased)
    ports := s.ports.map (fun (p : Port) =>
      { numVfs := p.numVfs, vfEnable := p.vfEnable, cqRefused := p.cqRefused, mbAddr := p.mbAddr, mbLen := p.mbLen, mbStat := p.mbStat, mbCmd := p.mbCmd }) }
  if s.hot then { x with hot := true, pool := min s.pool 4096, poolKept := some 4096 } else x

/-- POWER_UP (R452, R460). -/
def execPowerUp (s : State) : Outcome := .next (if s.boot.powered then s else s.restart)

/-- R445, R455: all work ends: nothing resident, waiting or cast is left. -/
def State.endWork (s : State) : State :=
  { s with
    blocks := [], casts := [], launches := [], sideLog := [], bins := [], moving := [], niches := [], tcbRetries := [], controls := []
    request := none, boot := { s.boot with ready := false } }

/-- POWER_DOWN (R445): leases, session keys and the contents of the key slots end with the supply. -/
def execPowerDown (s : State) : Outcome :=
  .next { s.endWork with
    keySlots := List.replicate 256 {}
    hvSession := none
    slices := s.slices.map (fun (x : Slice) => { x with session := none, record := x.record.set 15 0, leaseUsed := 0, ready := false })
    boot := { s.boot with powered := false, ready := false } }

/-! ## The mailbox -/

/-- The state with a port's registers changed. -/
def State.updPort (s : State) (p : Nat) (f : Port → Port) : State := { s with ports := upd s.ports p f }

/-- R453: MBCMD `n` written at a port. -/
def State.mailbox (s : State) (port n : Nat) : State :=
  match s.ports[port]? with
  | none => s
  | some p =>
    if !s.answering || p.mbStat == 1 || n == 0 || 3 < n then s
    else
      let set (st cmd : Nat) : State := s.updPort port (fun p => { p with mbStat := st, mbCmd := cmd })
      if n = 3 then
        if s.boot.recovery || s.slices.all (fun x => x.state == .free) then (set 2 0).reboot else set 3 0
      else if !s.boot.recovery && s.boot.booted == n then set 3 0
      else if p.mbAddr.toNat % 4096 != 0 || p.mbLen % 4096 != 0 || 64 * 2 ^ 20 < p.mbLen then set 3 0
      else set 1 n

/-- MAILBOX_WRITE_SLOT_A (R453): MBCMD 1. -/
def execMailboxWriteSlotA (port : Nat) (s : State) : Outcome := .next (s.mailbox port 1)
/-- MAILBOX_WRITE_SLOT_B (R453): MBCMD 2. -/
def execMailboxWriteSlotB (port : Nat) (s : State) : Outcome := .next (s.mailbox port 2)
/-- MAILBOX_RESTART_BOOT (R453): MBCMD 3. -/
def execMailboxRestartBoot (port : Nat) (s : State) : Outcome := .next (s.mailbox port 3)

/-- MAILBOX_DONE (R453): the image has been read, or the host read failed; it is checked before the slot is erased. -/
def execMailboxDone (port : Nat) (s : State) : Outcome :=
  .next (match s.ports[port]? with
  | none => s
  | some p =>
    if p.mbStat ≠ 1 ∨ !s.answering then s
    else
      let done (st : Nat) (s : State) : State := { s with fresh := s.fresh + 1 }.updPort port (fun p => { p with mbStat := st, mbCmd := 0 })
      if Config.pick s.fresh % 2 = 1 then done 4 s
      else match Config.imageCheck s.fresh with
        | none => done 3 s
        | some v =>
          if v < s.boot.rollback then done 3 s
          else done 2 { s with boot := if p.mbCmd = 1 then { s.boot with slotA := some v, imageA := s.fresh + 1 }
            else { s.boot with slotB := some v, imageB := s.fresh + 1 } })

/-! ## Functions of a port -/

/-- R429: VFs enabled at the ports but one. -/
def State.vfsElsewhere (s : State) (port : Nat) : Nat :=
  ((s.ports.zipIdx.filter (fun p => p.2 != port && p.1.vfEnable)).map (fun p => p.1.numVfs)).foldl (· + ·) 0

/-- R429: what the SR-IOV capability of a port's PF reports. -/
structure SrIov where
  initialVfs : Nat
  totalVfs : Nat
  numVfs : Nat
  vfEnable : Bool
deriving DecidableEq, Repr

/-- R429: the SR-IOV capability of a port's PF, as a host read of the configuration space finds it. -/
def State.srIov (s : State) (port : Nat) : SrIov :=
  let p := s.ports.getD port {}
  { initialVfs := Config.totalVfs, totalVfs := Config.totalVfs, numVfs := p.numVfs, vfEnable := p.vfEnable }

/-- VF_ENABLE_WRITE (R429, R430): the host writes NumVFs and VF Enable; VFs that come to exist with a ready slice say so. -/
def execVfEnableWrite (port num : Nat) (en : Bool) (s : State) : Outcome :=
  .next (if s.ports.length ≤ port || !s.answering then s
  else
    let s' := s.updPort port (fun p => { p with numVfs := num, vfEnable := en && s.vfsElsewhere port + num ≤ (s.srIov port).totalVfs })
    let come := (List.range Config.nSlices).filter (fun o => (s.slice o).state != .free && (s.slice o).ready && s.portOf o == port &&
      s'.vfExists port (s.vfOf o) && !s.vfExists port (s.vfOf o))
    come.foldl State.sendReady s')

/-- R456: the slice of a VF whose reset is under way. -/
def State.resettingSlice (s : State) (port vf : Nat) : Option Nat :=
  (List.range Config.nSlices).find? (fun o => (s.slice o).resetting && s.portOf o == port && s.vfOf o == vf)

/-- FUNCTION_LEVEL_RESET (R456): of the slice bound to a VF, in one step, or its end in a step of its own (log entry 95). -/
def execFunctionLevelReset (port vf : Nat) (s : State) : Outcome :=
  .next (match s.resettingSlice port vf with
  | some o => s.finishReset o
  | none => match s.boundSlice port vf with
    | some o => if s.later then s.beginFunctionReset o else s.functionReset o
    | none => s)

/-- R459: the running control kernel of a port is discarded; one whose request is in hand, after the request. -/
def State.discardKernel (s : State) (port : Nat) : State :=
  let of (b : Block) : Bool := b.owner == Config.ownerHv && s.launches.any (fun l => l.uid == b.launch && l.q == 65 + port)
  if s.request.any (fun r => s.blocks.any (fun b => b.uid == r.1 && of b)) then s.updPort port (fun p => { p with discard := true })
  else { s with blocks := s.blocks.filter (fun b => !of b), launches := s.launches.filter (fun l => l.q != 65 + port) }

/-- R459: a function-level reset of a PF. -/
def State.pfReset (s : State) (port : Nat) : State :=
  let s := s.updPort port (fun p => { p with cqEn := false })
  let bound := (List.range Config.nSlices).filter (fun o => (s.slice o).state != .free && s.portOf o == port)
  (bound.foldl State.functionReset s).discardKernel port

/-- PF_FUNCTION_LEVEL_RESET (R459). -/
def execPfFunctionLevelReset (port : Nat) (s : State) : Outcome :=
  .next (if s.inService && port < s.ports.length then
    let s := s.pfReset port
    { s with outbox := s.outbox ++ [.readiness port 0] }
  else s)

/-- CONVENTIONAL_RESET (R460): in service, the port's registers and functions; else the module restarts. -/
def execConventionalReset (port : Nat) (s : State) : Outcome :=
  .next (if !s.boot.powered || s.ports.length ≤ port then s
  else if s.inService then
    let s := State.pfReset { s.updPort port (fun p => { discard := p.discard }) with controls := s.controls.filter (· != port) } port
    { s with outbox := s.outbox ++ [.readiness port 0] }
  else s.restart)

/-- R431: an access completes with Unsupported Request status; where a slice stands behind it, it is counted. -/
def State.unsupported (s : State) (o : Option Nat) (port vf off : Nat) : State :=
  let s := { s with outbox := s.outbox ++ [.ursStatus port vf off] }
  match o with
  | some o => s.count o (fun c => { c with refusals := satAdd c.refusals 1 })
  | none => s

/-- BAR2_ACCESS (R431, R430, R265): the host reads as many bytes as `data` has, or writes `data`, at guest-physical address `off`. A request
that no die port takes from the host port to a line's home is refused (R2, R423). -/
def execBar2Access (port vf off : Nat) (wr : Bool) (data : List Byte) (s : State) : Outcome :=
  .next (match s.boundSlice port vf with
  | none => s.unsupported none port vf off
  | some o =>
    if !(s.slice o).ready || (s.slice o).resetting || 2 ^ 36 < off + data.length then s.unsupported (some o) port vf off
    else if !(pieces off data.length).all (fun p => s.portReach o p.1 port) then
      let s := { s with refused := s.refused + 1 }
      if wr then s else s.unsupported (some o) port vf off
    else if wr then (s.devWrite o off data).getD (s.unsupported (some o) port vf off)
    else
      let s' := s.noteDev o off data.length
      match s.devRead o off data.length with
      | .ok bytes => { s' with outbox := s'.outbox ++ [.readData port vf off bytes] }
      | .error _ => s'.unsupported (some o) port vf off)

/-- R431: the identity and status word of an existing VF, as a host read of BAR 0 offset 0x1000 returns it. -/
def State.identity (s : State) (port vf : Nat) : Nat :=
  match s.boundSlice port vf with
  | some o => (if (s.slice o).ready then 2 ^ 31 else 0) + (s.slice o).state.code * 2 ^ 29 + o * 2 ^ 16 + 0xD4
  | none => 0xD4

/-- R7, R391, R431: what a host read of BAR 0 of an existing VF returns: the notify registers are write-only, and read 0. -/
def State.bar0Read (s : State) (port vf off : Nat) : Nat := if off = 0x1000 then s.identity port vf else 0

/-! ## Control queues -/

/-- R432, R453: what a host read of a PF register returns. -/
def State.pfRead (s : State) (port off : Nat) : Nat :=
  let p := s.ports.getD port {}
  let b := s.boot
  let bitIf (x : Bool) (n : Nat) : Nat := if x then 2 ^ n else 0
  match off with
  | 0x040 => p.cqRing.toNat
  | 0x048 => p.cqLog2n + bitIf p.cqEn 8
  | 0x050 => p.cqHead.toNat
  | 0x058 => p.cqDone.toNat
  | 0x060 => bitIf b.recovery 0 + bitIf b.ready 1
  | 0x068 => p.cqRefused
  | 0x080 => Config.serial.toNat
  | 0x088 => bitIf (b.slotB.any (b.rollback ≤ ·)) 35 + bitIf (b.slotA.any (b.rollback ≤ ·)) 34 + b.booted * 2 ^ 32 + b.fwVer
  | 0x090 => ofBytes s.bootId
  | 0x0A0 => b.rollback
  | 0x100 => p.mbAddr.toNat
  | 0x108 => p.mbLen
  | 0x110 => p.mbStat
  | _ => 0

/-- REGISTER_WRITE (R7, R8, R432, R453): a host write to a register of PF BAR 0; registers that are not writable ignore it. -/
def execRegisterWrite (port off : Nat) (v : DWord) (s : State) : Outcome :=
  .next (if s.ports.length ≤ port then s
  else match off with
  | 0x040 => if s.inService then s.updPort port (fun p => if p.cqEn then p else { p with cqRing := BitVec.ofNat 64 (v.toNat / 256 * 256) }) else s
  | 0x048 =>
    if s.inService then s.updPort port (fun p => { p with cqEn := bit v.toNat 8, cqLog2n := if p.cqEn then p.cqLog2n else fld v.toNat 8 0 }) else s
  | 0x100 => if s.answering then s.updPort port (fun p => { p with mbAddr := v }) else s
  | 0x108 => if s.answering then (s.updPort port (fun p => { p with mbLen := fld v.toNat 32 0 })).mailbox port (fld v.toNat 4 32) else s
  | _ => s)

/-- R433: notifies of a port that wait become `n`; the newest are added last, or taken away first. -/
def State.setControls (s : State) (port n : Nat) : State :=
  let have' := (s.controls.filter (· == port)).length
  let keep := s.controls.foldl (fun (acc : List Nat × Nat) p => if p ≠ port then (acc.1 ++ [p], acc.2)
    else if acc.2 = 0 then acc else (acc.1 ++ [p], acc.2 - 1)) ([], n)
  { s with controls := keep.1 ++ List.replicate (n - have') port }

/-- CQTAIL_WRITE (R432). -/
def execCqtailWrite (port : Nat) (v : Word) (s : State) : Outcome :=
  .next (match s.ports[port]? with
  | none => s
  | some p =>
    if !s.answering then s
    else
      let n := (v - p.cqHead).toNat
      if p.cqEn && 4 ≤ p.cqLog2n && p.cqLog2n ≤ 12 && n ≤ 2 ^ p.cqLog2n && !s.boot.recovery then
        (s.updPort port (fun p => { p with cqTail := v })).setControls port n
      else
        (s.updPort port (fun p => { p with cqRefused := min (p.cqRefused + 1) (2 ^ 32 - 1) })).postHvEvent 7 port v.toNat)

/-- R433: a record that a control queue may run. -/
def controlOk (r : Nat) : Bool :=
  recordOk r && levelsOk r && !recMatrix r && !recCaliper r && recNrows r == 0 && recThreads r ≤ 64 && recScratch r ≤ 65536 &&
  (recProgress r != 0 || recBlocks r == 1) && blockFits r

/-- R433: the next block of a control kernel starts on the armature core. -/
def State.startControl (s : State) (l : Launch) : State :=
  match l.unplaced, seatFor none [] l.record none with
  | n :: rest, some x =>
    { s.standsOn (newBlock s l n Config.armatureCore x .h) with
      fresh := s.fresh + seatDraws
      uids := s.uids + 1
      launches := s.launches.map (fun (y : Launch) => if y.uid = l.uid then { y with unplaced := rest, lastPlaced := s.clock } else y) }
  | _, _ => s

/-- R433: the kernel of the oldest notify is taken from its queue; a record that may not run is refused. -/
def State.takeControl (s : State) (port : Nat) : State :=
  match s.ports[port]? with
  | none => s
  | some p =>
    let at' := p.cqRing.toNat + 256 * (p.cqHead.toNat % 2 ^ p.cqLog2n)
    let rcd := match s.devRead Config.ownerHv at' 256 with
      | .ok b => some (ofBytes b)
      | .error _ => none
    let s := (State.noteDev { s with controls := s.controls.erase port } Config.ownerHv at' 256).updPort port (fun p => { p with cqHead := p.cqHead + 1 })
    match rcd.filter controlOk with
    | none => { s.updPort port (fun p => { p with cqDone := p.cqDone + 1 }) with outbox := s.outbox ++ [.msix port 0 0] }
    | some r =>
      let l : Launch :=
        { uid := s.uids, owner := Config.ownerHv, q := 65 + port, seq := p.cqHead.toNat, record := r, nblocks := recBlocks r
          unplaced := List.range (recBlocks r), admitted := true, admittedAt := s.clock, lastPlaced := s.clock, enqueuedAt := s.clock }
      State.startControl { s with uids := s.uids + 1, launches := s.launches ++ [l] } l

/-- R433: the launch of the control kernel that is running. -/
def State.runningControl (s : State) : Option Launch := s.launches.find? (fun l => 65 ≤ l.q && !l.completed)

/-- R433: the port whose notify is the oldest of those whose queue is enabled. -/
def State.nextControl (s : State) : Option Nat := s.controls.find? (fun p => (s.ports.getD p {}).cqEn)

/-- CONTROL_KERNEL_START (R433): the next block of the running control kernel, or the first of the next kernel. -/
def execControlKernelStart (s : State) : Outcome :=
  .next (if !s.inService || s.blocks.any (fun b => b.core == Config.armatureCore) then s
  else match s.runningControl with
    | some l => s.startControl l
    | none => match s.nextControl with
      | some p => s.takeControl p
      | none => s)

/-! ## Failures and heat -/

/-- R455: an event record of the hypervisor's fault ring whose type the spec does not state. -/
def State.reportHv (s : State) (arg : Nat) : State :=
  State.postHvEvent { s with fresh := s.fresh + 1 } (Config.freeNat s.fresh % 256) arg 0

/-- R455, R458: a slice reset that a failed quadrant controller calls for; a slice in PROTOCOL becomes QUIESCED at the protocol's end. -/
def State.failReset (s : State) (o : Nat) : State :=
  if (s.slice o).state = .inProtocol && !(s.slice o).resetting then (s.resetSteps o).updSlice o (fun x => { x with prior := .quiesced, ready := false })
  else s.sliceReset o

/-- QUADRANT_CONTROLLER_FAILURE (R455). -/
def execQuadrantControllerFailure (quad : Nat) (s : State) : Outcome :=
  .next (if 32 ≤ quad || !s.inService || bit s.removed quad then s
  else
    let hs := s.holders quad
    let s := hs.foldl State.failReset s
    let s := s.reassign (fun s => hs.foldl (fun s o => s.leaveQuad o quad) s) []
    State.reportHv { s with removed := s.removed + 2 ^ quad } quad)

/-- R455: the module stops. -/
def State.stopModule (s : State) : State :=
  let s := s.endWork
  { s with boot := { s.boot with stopped := true } }

/-- ARMATURE_STOP (R455). -/
def execArmatureStop (s : State) : Outcome := .next (if s.boot.powered then s.stopModule else s)

/-- DIE_OVERTEMPERATURE (R461): any die stops the module. -/
def execDieOvertemperature (die : Nat) (s : State) : Outcome := .next (if s.boot.powered && die < 8 then s.stopModule else s)

/-- INLET_OVERTEMPERATURE (R461): firmware lowers POOL, to a value of its choice. -/
def execInletOvertemperature (pool : Nat) (s : State) : Outcome :=
  .next (if s.inService then { s with hot := true, poolKept := some (s.poolKept.getD s.pool), pool := min s.pool pool } else s)

/-- INLET_TEMPERATURE_RECOVERY (R461): POOL is what it was, or what SLQUOTA has written meanwhile. -/
def execInletTemperatureRecovery (s : State) : Outcome :=
  .next (if s.inService then { s with hot := false, pool := s.poolKept.getD s.pool, poolKept := none } else s)

/-- R434: results on their way to cores are poisoned, those that a draw names by its bits, and counted against their slices: which of them the port
carried, the model does not say (log entry 122). -/
def State.spoilInFlight (s : State) : State :=
  let draw := Config.pick s.fresh
  let hit (b : Block) (r : Return) : Bool := !r.divide && bit draw (1024 * b.uid + r.tid)
  let counts := s.blocks.map (fun b => (b.owner, (b.returns.filter (hit b)).length))
  counts.foldl (fun s c => s.count c.1 (fun k => { k with uncorrectable := satAdd k.uncorrectable c.2 }))
    { s with blocks := s.blocks.map (fun b => b.spoilReturns (hit b)), fresh := s.fresh + 1 }

/-- DIE_PORT_REPLAY (R434): a replay on a die-to-die port, which goes down after 16 failures in a row; data in flight is poisoned then. -/
def execDiePortReplay (pair : Nat) (ok : Bool) (s : State) : Outcome :=
  .next (match s.diePorts[pair]? with
  | none => s
  | some p =>
    let n := p.replays + 1
    let put (p : DiePort) : State := { s with diePorts := upd s.diePorts pair (fun _ => p) }
    if !p.up then s else if ok then put { p with replays := 0 }
    else if n < 16 then put { p with replays := n } else (put { p with replays := n, up := false }).spoilInFlight)

/-! ## Device links -/

/-- LINK_TRAINING (R450): keys are agreed, and a retraining calls for a rekey; a peer that does not verify leaves the port down. -/
def execLinkTraining (link : Nat) (verified : Bool) (s : State) : Outcome :=
  .next (if 16 ≤ link || !s.inService then s
  else if verified then s.updLink link (fun l => { l with up := true, trained := true, tagFail := none, rekeyDue := true })
  else ((s.linkFails link).updLink link (fun l => { l with up := false, trained := true })).reportHv link)

/-- R428: the generation of a flit is one that the receiver accepts at a clock. -/
def Link.accepts (l : Link) (gen now : Nat) : Bool := gen == l.rxGen || l.oldGen.any (fun o => o.1 == gen && now < o.2)

/-- R427: the peer has received every flit up to the one that an ACK names: they leave the replay buffer. -/
def Link.acked (l : Link) (ack : Nat) : Link :=
  { l with peerAck := ack % 65536, replay := l.replay.filter (fun f => (ack + 65536 - f.seq % 65536) % 65536 ≥ 32768) }

/-- LINK_DATA_FLIT (R427, R428): a flit's CRC, order, generation and tag; the ACK of one that is intact counts. `head`
is the flit's first four bytes, SEQ and ACK. -/
def execLinkDataFlit (link head gen : Nat) (crcOk tagOk : Bool) (s : State) : Outcome :=
  let seq := fld head 16 0
  let ack := fld head 16 16
  .next (match s.links[link]? with
  | none => s
  | some l =>
    if !l.up then s
    else if !crcOk || seq != l.rxSeq then (s.updLink link (fun l => { l with askReplay := some l.rxSeq })).requestReplay link
    else if tagOk && l.accepts gen s.clock then
      s.updLink link (fun l => { l.acked ack with rxSeq := (seq + 1) % 65536, tagFail := none, askReplay := none })
    else if l.tagFail = some seq then
      ((s.linkFails link).updLink link (fun l => { l with up := false, tagFail := none, askReplay := none })).reportHv link
    else (s.updLink link (fun l => { l with tagFail := some seq, askReplay := some seq })).requestReplay link)

/-- LINK_IDLE_FLIT (R427): its ACK frees the replay buffer up to the flit acknowledged. -/
def execLinkIdleFlit (link ack : Nat) (s : State) : Outcome :=
  .next (s.updLink link (fun l => if l.up then l.acked ack else l))

/-- LINK_REPLAY_REQUEST (R428): the sender sends again, in order, every flit of its buffer from the one named. -/
def execLinkReplayRequest (link seq : Nat) (s : State) : Outcome :=
  .next (match s.links[link]? with
  | none => s
  | some l =>
    if l.up then { s with outbox := s.outbox ++ (l.replay.dropWhile (fun f => f.seq != seq)).map (fun f => .flit link (f.bytes link)) } else s)

/-- LINK_REKEY_MARKER (R428): the receiver takes the new generation, and the old one for 4,096 clocks more. The marker takes a SEQ. -/
def execLinkRekeyMarker (link gen : Nat) (s : State) : Outcome :=
  .next (s.updLink link (fun l => if l.up then
    { l with oldGen := some (l.rxGen, s.clock + 4096), rxGen := gen % 256, rxSeq := (l.rxSeq + 1) % 65536 } else l))

/-- R427, R426: what a port has held goes, and the commands whose data these are have sent under the generation too. -/
def State.sendHeld (s : State) (link gen : Nat) (held : List (Nat × List Byte)) : State :=
  held.foldl (fun s h => (s.sendFlit link 1 h.2).updCmdOf h.1 (fun c => c.addGen gen)) s

/-- LINK_REKEY (R450, R427, R428): after 2^36 flits or a retraining the sender switches generation with a marker, the first flit of the new one
(log entry 124); what the port has held goes. -/
def execLinkRekey (link : Nat) (s : State) : Outcome :=
  .next (match s.links[link]? with
  | none => s
  | some l =>
    if l.up && (l.rekeyDue || 2 ^ 36 ≤ l.sealedFlits) then
      let gen := (l.txGen + 1) % 256
      let s' := { s with fresh := s.fresh + 1 }.updLink link (fun l => { l with
        txGen := gen, txKey := s.fresh + 1, sealedFlits := 0, rekeyDue := false, held := [] })
      (s'.sendFlit link 3 []).sendHeld link gen l.held
    else s)

/-- LINK_OLD_GENERATION_EXPIRY (R428). -/
def execLinkOldGenerationExpiry (link : Nat) (s : State) : Outcome :=
  .next (s.updLink link (fun l => if l.oldGen.any (fun o => o.2 ≤ s.clock) then { l with oldGen := none } else l))

/-- DEVICE_LINK_DOWN (R450): the link must train again; what was in flight on it is lost (log entry 124). -/
def execDeviceLinkDown (link : Nat) (s : State) : Outcome :=
  .next ((s.linkFails link).updLink link (fun l => { l with up := false, trained := false }))

end Sys2Proof.Machine
end

