-- ==== Sys2Proof/Machine/Agenda.lean ====
section
/-! DEFINITION. Which steps the parts of the module that act of themselves may take at a state (R299 to R303, R335 to R343, R375 to
R399, R419, R428, R433, R444), and the passing of time (R1, R318, R448). -/

namespace Sys2Proof.Machine

/-! ## Agents -/

/-- R299, R300, R366, R317, R337: steps of the commands of a resident block. -/
noncomputable def State.commandSteps (s : State) (b : Block) : List Instr :=
  b.window.flatMap (fun c =>
    if c.fin.isSome then [.commandRetire b.uid c.id]
    else if c.running then
      .commandCursorAdvance b.uid c.id ::
        ((if c.trav.any (fun t => t.ovrCnt != 0) then [.overflowDrain b.uid c.id] else []) ++
         (if c.migratable && c.helper.isNone then [.migration b.uid c.id (b.core / 160 * 160 + Config.pick (s.fresh + 1) % 160)] else []))
    else [.commandStart b.uid c.id])

/-- R35, R107, R155, R22, R264: steps that are still to come for a thread of a resident block: the entry of its trap, results on their way,
moves of its window, and the acknowledgment of its flushing read. -/
noncomputable def Block.threadSteps (b : Block) (t : Thread) : List Instr :=
  (if t.pend.isSome && !t.stopped && !t.exited then [.trapEntry b.uid t.tid] else []) ++
  (if t.flushing then [.accessPerformed b.uid t.tid] else []) ++
  (if t.exited || t.stopped then [] else if t.wb < t.low then [.fill b.uid t.tid] else if t.low + t.n < t.wb + t.f then [.spill b.uid t.tid] else [])

/-- R379, R375, R139, R381: steps of a resident block. -/
noncomputable def State.blockSteps (s : State) (b : Block) : List Instr :=
  s.commandSteps b ++
  (if b.halted.isSome then [.castWrite b.uid]
   else b.threads.flatMap b.threadSteps ++ b.returns.map (fun r => if r.divide then .divideCompletion b.uid r.tid else .loadDataReturn b.uid r.tid)) ++
  (if s.mayRetire b then [.blockRetire b.uid] else []) ++
  (if b.owner < Config.nSlices && b.progress + s.hangLimit b.owner ≤ s.clock then [.hang b.uid] else [])

/-- R366: steps of the commands that go on while their block is cast. -/
noncomputable def castSteps (c : Cast) : List Instr :=
  (c.blk.window.filter (fun d => d.running && d.fin.isNone)).map (fun d => .commandCursorAdvance c.blk.uid d.id)

/-- R393, R395, R388, R419: steps of a slice. -/
noncomputable def State.sliceSteps (s : State) (o : Nat) : List Instr :=
  let x := s.slice o
  (if s.dispatches o && !(s.heads o).isEmpty then [.admission o] else []) ++
  (if s.dispatches o && (x.decideDue || !(s.waiting o).isEmpty) then [.dispatchDecision o] else []) ++
  (if x.notices.any (fun n => n.time ≤ s.devTime) then [.noticeTimeReached o] else []) ++
  (if x.resetting then [.functionLevelReset (s.portOf o) (s.vfOf o)] else []) ++
  (if (s.leaseOf o).any (fun l => l.1 ≤ x.leaseUsed) then [.leaseLapse o] else [])

/-- R335, R336, R342, R343: steps of work graphs and launches. -/
noncomputable def State.graphSteps (s : State) : List Instr :=
  (s.niches.filter (fun n => !n.pending.isEmpty)).map (fun n => .nicheTimerExpiry n.launch n.node) ++
  s.tcbRetries.map (fun r => .tcbSubmitRetry r.owner r.addr) ++
  (s.launches.filter s.launchDone).map (fun l => .launchCompletion l.uid)

/-- R160, R161, R228, R250: steps of cores and memory controllers. -/
noncomputable def State.coreSteps (s : State) : List Instr :=
  s.coresInUse.flatMap (fun c => (List.range (s.bins.filter (fun b => b.core == c)).length).map (.reformBinRelease c)) ++
  (((s.sideLog.map (·.core)).eraseDups).filter s.retryDue).map .sideLogRetry ++
  s.latent.map (fun e => .scrub (32 * e.1))

/-- R399, R428, R433, R450, R453: steps of the dispatcher's quanta, the armature core and the device links. -/
noncomputable def State.armatureSteps (s : State) : List Instr :=
  s.qlog.map (fun e => .quantumExpiry e.1) ++
  (if s.controls.isEmpty && s.runningControl.isNone then [] else [.controlKernelStart]) ++
  (s.ports.zipIdx.filter (fun p => p.1.mbStat == 1)).map (fun p => .mailboxDone p.2) ++
  (s.links.zipIdx.filter (fun l => l.1.up && (l.1.rekeyDue || 2 ^ 36 ≤ l.1.sealedFlits))).map (fun l => .linkRekey l.2) ++
  (s.links.zipIdx.filter (fun l => l.1.oldGen.any (fun o => o.2 ≤ s.clock))).map (fun l => .linkOldGenerationExpiry l.2)

/-- Every step that an agent may take at a state. -/
noncomputable def State.agenda (s : State) : List Instr :=
  s.blocks.flatMap s.blockSteps ++ s.casts.flatMap castSteps ++ (List.range Config.nSlices).flatMap s.sliceSteps ++
  s.graphSteps ++ s.coreSteps ++ s.armatureSteps

/-- The step that an agent takes: any one of those that some agent may take (log entry 39). -/
noncomputable def State.agentStep (s : State) : Option Instr := s.agenda[Config.pick s.fresh % s.agenda.length]?

/-! ## Time -/

/-- R318, R448: the counters of a slice after `n` clocks: cores that hold a block of it, engines that run a command of it, lent engines
taken and given. Commands of a halted block have stopped. -/
def State.metered (s : State) (n o : Nat) (x : Slice) : Slice :=
  let all := s.blocks.filter (fun b => b.owner == o)
  let cores := ((all.map (·.core)).eraseDups).length
  let mine := all.filter (fun b => b.halted.isNone)
  let own := mine.filter (fun b => b.window.any (fun c => kindOf c.op5 == 0 && c.running && c.fin.isNone && c.helper.isNone))
  let lent (b : Block) : Nat := (b.window.filter (fun c => c.helper.isSome && c.fin.isNone)).length
  let lentTo (b : Block) : Nat :=
    ((s.leaseOf b.owner).map (fun l => (b.window.filter (fun c => c.fin.isNone && c.helper.any (fun h => quadOfCore h == l.2.2))).length)).getD 0
  let sum (f : Block → Nat) (bs : List Block) : Nat := (bs.map f).foldl (· + ·) 0
  let given := s.blocks.filter (fun b => b.halted.isNone && (s.leaseOf b.owner).any (fun l => l.2.1 == o))
  { x with
    usage := { x.usage with
      coreClk := x.usage.coreClk + n * cores
      engClk := x.usage.engClk + n * (((own.map (·.core)).eraseDups).length + sum lent mine)
      leaseClk := x.usage.leaseClk + n * sum lentTo mine
      lentClk := x.usage.lentClk + n * sum lentTo given }
    leaseUsed := x.leaseUsed + n * sum lentTo mine }

/-- R448: owner 0x7E's control kernels count in the module total. -/
def State.meteredOther (s : State) (n : Nat) : Usage :=
  { s.otherUsage with coreClk := s.otherUsage.coreClk + n * ((s.blocks.filter (fun b => Config.nSlices ≤ b.owner)).map (·.core)).eraseDups.length }

/-- R423: the events of refused requests reach the hypervisor's fault ring. -/
def State.postRefused (s : State) : Nat → State
  | 0 => { s with refused := 0 }
  | n + 1 => (s.reportHv 0).postRefused n

/-- R454: receivers free the buffers of messages, by a free choice for each link: none, or the oldest of one class and direction. -/
def State.freeMessages (s : State) : State :=
  { s with
    cmdLinks := s.cmdLinks.zipIdx.map (fun l =>
      let pick := Config.pick (s.fresh + l.2)
      if pick % 2 == 0 then l.1 else l.1.free (bit pick 1) (bit pick 2))
    fresh := s.fresh + 32 }

/-- What the module does as time passes: counters (R1, R448), lapses of keys (R444) and the clocks. -/
def State.pass (s : State) : State :=
  let n := 1 + Config.extraClocks s.clock
  State.tick { s with
    slices := s.slices.zipIdx.map (fun x => s.metered n x.2 x.1)
    otherUsage := s.meteredOther n
    keySlots := s.keySlots.map (fun k => k.lapse (s.secure + Config.secureTicks s.clock)) }

/-- What each step is followed by: events of refused requests (R423), queues no longer enabled (R389), arrivals at shared engines (R332),
messages (R454) and time, but between the issues of the two decoders of one clock (R163). Who moves next (log entry 39), and whether the
next step leaves what it sets going to a step of its own (log entry 95), are free choices. -/
def State.passTime (s : State) : State :=
  let s := ((s.postRefused s.refused).dropQueues.holdQueues.noteArrivals).freeMessages
  let s := if s.decoder1.isSome then s else s.pass
  { s with agents := Config.pick s.fresh % 2 == 1, later := Config.pick (s.fresh + 1) % 2 == 1, fresh := s.fresh + 2 }

end Sys2Proof.Machine
end

