-- ==== Sys2Proof/Machine/Bits.lean ====
section
/-! DEFINITION. Class 0x2 and the integer dot products of class 0x5: bit and logic operations (R97 to R105). -/

namespace Sys2Proof.Machine

/-- R99: leading zero bits of the low n bits of x. -/
def leadingZeros : Nat → Nat → Nat
  | 0, _ => 0
  | n + 1, x => if x.testBit n then 0 else leadingZeros n x + 1

/-- R99: trailing zero bits of an n-bit x. -/
def trailingZeros : Nat → Nat → Nat
  | 0, _ => 0
  | n + 1, x => if x % 2 = 1 then 0 else trailingZeros n (x / 2) + 1

/-- R99: the bits of an n-bit value in reverse order. -/
def reverseBits {w : Nat} (x : BitVec w) : BitVec w := x.reverse

/-- R100: position and cut length of the field that B describes. -/
def fieldOf (y : Word) : Nat × Nat :=
  let pos := fld y.toNat 5 0
  (pos, min (min (fld y.toNat 6 8) 32) (32 - pos))

/-- R100: BFX. -/
def bfx (x y : Word) : Word := BitVec.ofNat 32 (x.toNat / 2 ^ (fieldOf y).1 % 2 ^ (fieldOf y).2)
/-- R100: BFXS. -/
def bfxs (x y : Word) : Word :=
  if (fieldOf y).2 = 0 then 0 else BitVec.ofInt 32 (sextI (bfx x y).toNat (fieldOf y).2)
/-- R100: BFI. -/
def bfi (x y z : Word) : Word :=
  let m : Word := BitVec.ofNat 32 ((2 ^ (fieldOf y).2 - 1) * 2 ^ (fieldOf y).1)
  (z &&& ~~~m) ||| ((x <<< (fieldOf y).1) &&& m)

/-- R101: deposit: bits of `a` go to the set bits of `m`, from bit i of n on, the next bit of `a` being j. -/
def deposit (a m : Nat) : Nat → Nat → Nat → Nat
  | 0, _, _ => 0
  | n + 1, i, j =>
    if m.testBit i then (if a.testBit j then 2 ^ i else 0) + deposit a m n (i + 1) (j + 1) else deposit a m n (i + 1) j

/-- R101: extract: the bits of `a` at the set bits of `m` gathered from bit j up. -/
def extract (a m : Nat) : Nat → Nat → Nat → Nat
  | 0, _, _ => 0
  | n + 1, i, j =>
    if m.testBit i then (if a.testBit i then 2 ^ j else 0) + extract a m n (i + 1) (j + 1) else extract a m n (i + 1) j

/-- The number whose bit i is f i, for i below n. -/
def bitsFrom (n : Nat) (f : Nat → Bool) : Nat := (List.range n).foldl (fun x i => if f i then x + 2 ^ i else x) 0

/-- R102: BPERM. -/
def bperm (x y z : DWord) : DWord :=
  (z <<< 8) ||| BitVec.ofNat 64 (bitsFrom 8 (fun j => x.getLsbD (fld y.toNat 6 (8 * j))))

/-- R103: BMM8 and, with the transpose of B, BMM8T. -/
def bmm8 (tr : Bool) (x y : DWord) : DWord :=
  BitVec.ofNat 64 (bitsFrom 64 (fun n =>
    (List.range 8).foldl (fun c k => c != (x.getLsbD (8 * (n / 8) + k) && y.getLsbD (if tr then 8 * (n % 8) + k else 8 * k + n % 8)))
      false))

/-- AND (R97). -/
def execAnd (d a b : Reg) (sb : Bool) (s : State) : Outcome := s.bin d a b sb (fun x y => x &&& y)
/-- OR (R97). -/
def execOr (d a b : Reg) (sb : Bool) (s : State) : Outcome := s.bin d a b sb (fun x y => x ||| y)
/-- XOR (R97). -/
def execXor (d a b : Reg) (sb : Bool) (s : State) : Outcome := s.bin d a b sb (fun x y => x ^^^ y)
/-- ANDN (R97). -/
def execAndn (d a b : Reg) (sb : Bool) (s : State) : Outcome := s.bin d a b sb (fun x y => x &&& ~~~y)
/-- ORN (R97). -/
def execOrn (d a b : Reg) (sb : Bool) (s : State) : Outcome := s.bin d a b sb (fun x y => x ||| ~~~y)
/-- XNOR (R97). -/
def execXnor (d a b : Reg) (sb : Bool) (s : State) : Outcome := s.bin d a b sb (fun x y => ~~~(x ^^^ y))
/-- NOT (R97). -/
def execNot (d a : Reg) (s : State) : Outcome := s.un d a (fun x => ~~~x)
/-- SHL (R98). -/
def execShl (d a b : Reg) (sb : Bool) (s : State) : Outcome := s.bin d a b sb (fun x y => x <<< (y.toNat % 32))
/-- SHR (R98). -/
def execShr (d a b : Reg) (sb : Bool) (s : State) : Outcome := s.bin d a b sb (fun x y => x >>> (y.toNat % 32))
/-- SAR (R98). -/
def execSar (d a b : Reg) (sb : Bool) (s : State) : Outcome := s.bin d a b sb (fun x y => x.sshiftRight (y.toNat % 32))
/-- ROL (R98). -/
def execRol (d a b : Reg) (sb : Bool) (s : State) : Outcome := s.bin d a b sb (fun x y => x.rotateLeft (y.toNat % 32))
/-- ROR (R98). -/
def execRor (d a b : Reg) (sb : Bool) (s : State) : Outcome := s.bin d a b sb (fun x y => x.rotateRight (y.toNat % 32))
/-- SHL64 (R98). -/
def execShl64 (d a b : Reg) (sb : Bool) (s : State) : Outcome := s.shift64 d a b sb (fun x y => x <<< (y.toNat % 64))
/-- SHR64 (R98). -/
def execShr64 (d a b : Reg) (sb : Bool) (s : State) : Outcome := s.shift64 d a b sb (fun x y => x >>> (y.toNat % 64))
/-- SAR64 (R98). -/
def execSar64 (d a b : Reg) (sb : Bool) (s : State) : Outcome := s.shift64 d a b sb (fun x y => x.sshiftRight (y.toNat % 64))
/-- CLZ (R99). -/
def execClz (d a : Reg) (s : State) : Outcome := s.un d a (fun x => BitVec.ofNat 32 (leadingZeros 32 x.toNat))
/-- CTZ (R99). -/
def execCtz (d a : Reg) (s : State) : Outcome := s.un d a (fun x => BitVec.ofNat 32 (trailingZeros 32 x.toNat))
/-- POPC (R99). -/
def execPopc (d a : Reg) (s : State) : Outcome := s.un d a (fun x => BitVec.ofNat 32 (popcount 32 x.toNat))
/-- BREV (R99). -/
def execBrev (d a : Reg) (s : State) : Outcome := s.un d a reverseBits
/-- CLZ64 (R99). -/
def execClz64 (d a : Reg) (s : State) : Outcome := s.un64 d a (fun x => BitVec.ofNat 32 (leadingZeros 64 x.toNat))
/-- CTZ64 (R99). -/
def execCtz64 (d a : Reg) (s : State) : Outcome := s.un64 d a (fun x => BitVec.ofNat 32 (trailingZeros 64 x.toNat))
/-- POPC64 (R99). -/
def execPopc64 (d a : Reg) (s : State) : Outcome := s.un64 d a (fun x => BitVec.ofNat 32 (popcount 64 x.toNat))
/-- BREV64 (R99). -/
def execBrev64 (d a : Reg) (s : State) : Outcome := s.unPair d a reverseBits
/-- BFX (R100). -/
def execBfx (d a b : Reg) (sb : Bool) (s : State) : Outcome := s.bin d a b sb bfx
/-- BFXS (R100). -/
def execBfxs (d a b : Reg) (sb : Bool) (s : State) : Outcome := s.bin d a b sb bfxs
/-- BFI (R100). -/
def execBfi (d a b : Reg) (sb : Bool) (s : State) : Outcome := s.tern d a b sb bfi
/-- PDEP (R101). -/
def execPdep (d a b : Reg) (sb : Bool) (s : State) : Outcome :=
  s.bin d a b sb (fun x y => BitVec.ofNat 32 (deposit x.toNat y.toNat 32 0 0))
/-- PEXT (R101). -/
def execPext (d a b : Reg) (sb : Bool) (s : State) : Outcome :=
  s.bin d a b sb (fun x y => BitVec.ofNat 32 (extract x.toNat y.toNat 32 0 0))
/-- PDEP64 (R101). -/
def execPdep64 (d a b : Reg) (sb : Bool) (s : State) : Outcome :=
  s.bin64 d a b sb (fun x y => BitVec.ofNat 64 (deposit x.toNat y.toNat 64 0 0))
/-- PEXT64 (R101). -/
def execPext64 (d a b : Reg) (sb : Bool) (s : State) : Outcome :=
  s.bin64 d a b sb (fun x y => BitVec.ofNat 64 (extract x.toNat y.toNat 64 0 0))
/-- BPERM (R102). -/
def execBperm (d a b : Reg) (sb : Bool) (s : State) : Outcome := s.tern64 d a b sb bperm
/-- BMM8 (R103). -/
def execBmm8 (d a b : Reg) (sb : Bool) (s : State) : Outcome := s.bin64 d a b sb (bmm8 false)
/-- BMM8T (R103). -/
def execBmm8t (d a b : Reg) (sb : Bool) (s : State) : Outcome := s.bin64 d a b sb (bmm8 true)
/-- PLOP (R104). -/
def execPlop (q : BitVec 4) (d a b : BitVec 3) (s : State) : Outcome :=
  s.alu [] [] [] (fun _ t => t.putPred d.toNat
    (q.getLsbD (2 * (t.pred a.toNat).toNat + (t.pred b.toNat).toNat)))
/-- P2V (R104). -/
def execP2v (d : Reg) (s : State) : Outcome := s.alu [d.toNat] [] [] (fun _ t => t.put d.toNat (t.preds.setWidth 32))
/-- V2P (R104). -/
def execV2p (a : Reg) (s : State) : Outcome :=
  s.alu (s.vecA a.toNat 1) [] (s.vecA a.toNat 1) (fun _ t => { t with preds := (s.opA t a.toNat).setWidth 8 })

/-- R105: the four byte products added. -/
def dot4 (signed : Bool) (x y : Word) : Int :=
  (List.range 4).foldl (fun acc i =>
    let e (z : Word) : Int := if signed then sextI (fld z.toNat 8 (8 * i)) 8 else (fld z.toNat 8 (8 * i) : Int)
    acc + e x * e y) 0

/-- IDP4 (R105). -/
def execIdp4 (d a b : Reg) (sb : Bool) (s : State) : Outcome :=
  s.tern d a b sb (fun x y z => z + BitVec.ofInt 32 (dot4 true x y))
/-- IDP4U (R105). -/
def execIdp4u (d a b : Reg) (sb : Bool) (s : State) : Outcome :=
  s.tern d a b sb (fun x y z => z + BitVec.ofInt 32 (dot4 false x y))

end Sys2Proof.Machine
end

