-- ==== Sys2Proof/Machine/Fp.lean ====
section
/-! DEFINITION. Classes 0x3, 0x4 and 0x5: FP32, conversions, special functions, FP64 and packed low precision (R108 to R126). Hold
bits change no result (R40). -/

namespace Sys2Proof.Machine

/-- A function of encodings on words. -/
def onW (f : Nat → Nat → Nat) (x y : Word) : Word := BitVec.ofNat 32 (f x.toNat y.toNat)
/-- A function of encodings on pairs. -/
def onD (f : Nat → Nat → Nat) (x y : DWord) : DWord := BitVec.ofNat 64 (f x.toNat y.toNat)
/-- R67, R121: a function of 16-bit elements on both halves of words. -/
def onH (f : Nat → Nat → Nat → Nat) (x y z : Word) : Word :=
  let e (w : Word) (i : Nat) : Nat := fld w.toNat 16 (16 * i)
  BitVec.ofNat 32 (f (e x 0) (e y 0) (e z 0) + 65536 * f (e x 1) (e y 1) (e z 1))

/-- FADD (R111). -/
def execFadd (d a b : Reg) (sb _ha _hb : Bool) (m : BitVec 2) (s : State) : Outcome :=
  s.bin d a b sb (onW (fp32.add m.toNat))
/-- FMUL (R111). -/
def execFmul (d a b : Reg) (sb _ha _hb : Bool) (m : BitVec 2) (s : State) : Outcome :=
  s.bin d a b sb (onW (fp32.mul m.toNat))
/-- FSUB (R111). -/
def execFsub (d a b : Reg) (sb _ha _hb : Bool) (m : BitVec 2) (s : State) : Outcome :=
  s.bin d a b sb (onW (fp32.sub m.toNat))
/-- FFMA (R111). -/
def execFfma (d a b : Reg) (sb _ha _hb : Bool) (m : BitVec 2) (s : State) : Outcome :=
  s.tern d a b sb (fun x y z => BitVec.ofNat 32 (fp32.fma m.toNat x.toNat y.toNat z.toNat))
/-- FMIN (R75, R113). -/
def execFmin (d a b : Reg) (sb : Bool) (s : State) : Outcome :=
  s.bin d a b sb (onW (fp32.pick false false))
/-- FMAX (R75, R113). -/
def execFmax (d a b : Reg) (sb : Bool) (s : State) : Outcome :=
  s.bin d a b sb (onW (fp32.pick true false))
/-- FMINNM (R75, R113). -/
def execFminnm (d a b : Reg) (sb : Bool) (s : State) : Outcome :=
  s.bin d a b sb (onW (fp32.pick false true))
/-- FMAXNM (R75, R113). -/
def execFmaxnm (d a b : Reg) (sb : Bool) (s : State) : Outcome :=
  s.bin d a b sb (onW (fp32.pick true true))
/-- FCMP (R114). -/
def execFcmp (c p : BitVec 3) (a b : Reg) (sb : Bool) (s : State) : Outcome :=
  s.cmp p a b sb (fun x y => fp32.cond c x.toNat y.toNat)
/-- FABS (R113). -/
def execFabs (d a : Reg) (s : State) : Outcome :=
  s.un d a (fun x => x &&& 0x7FFFFFFF)
/-- FNEG (R113). -/
def execFneg (d a : Reg) (s : State) : Outcome :=
  s.un d a (fun x => x ^^^ 0x80000000)
/-- FCOPYSIGN (R113). -/
def execFcopysign (d a b : Reg) (sb : Bool) (s : State) : Outcome :=
  s.bin d a b sb (fun x y => (x &&& 0x7FFFFFFF) ||| (y &&& 0x80000000))
/-- FRINT (R76, R116). -/
def execFrint (d a : Reg) (m : BitVec 2) (s : State) : Outcome :=
  s.un d a (fun x => BitVec.ofNat 32 (frint m.toNat x.toNat))
/-- FCLASS (R115). -/
def execFclass (d a : Reg) (s : State) : Outcome :=
  s.un d a (fun x => BitVec.ofNat 32 (fclass x.toNat))
/-- FRCP (R79, R80, R118). -/
def execFrcp (d a : Reg) (s : State) : Outcome :=
  s.un d a (fun x => BitVec.ofNat 32 (frcp x.toNat))
/-- FRSQ (R79, R80, R118). -/
def execFrsq (d a : Reg) (s : State) : Outcome :=
  s.un d a (fun x => BitVec.ofNat 32 (frsq x.toNat))
/-- FEXP2 (R79, R80, R118). -/
def execFexp2 (d a : Reg) (s : State) : Outcome :=
  s.un d a (fun x => BitVec.ofNat 32 (fexp2 x.toNat))
/-- FLOG2 (R79, R80, R118). -/
def execFlog2 (d a : Reg) (s : State) : Outcome :=
  s.un d a (fun x => BitVec.ofNat 32 (flog2 x.toNat))
/-- FSIN (R79, R80, R118). -/
def execFsin (d a : Reg) (s : State) : Outcome :=
  s.un d a (fun x => BitVec.ofNat 32 (fsin x.toNat))
/-- FCOS (R79, R80, R118). -/
def execFcos (d a : Reg) (s : State) : Outcome :=
  s.un d a (fun x => BitVec.ofNat 32 (fcos x.toNat))
/-- F2I (R76, R116). -/
def execF2i (d a : Reg) (m : BitVec 2) (s : State) : Outcome :=
  s.un d a (fun x => toIntClamp (-2147483648) 2147483647 m.toNat (fp32.decode x.toNat))
/-- F2U (R76, R116). -/
def execF2u (d a : Reg) (m : BitVec 2) (s : State) : Outcome :=
  s.un d a (fun x => toIntClamp 0 4294967295 m.toNat (fp32.decode x.toNat))
/-- I2F (R76, R116). -/
def execI2f (d a : Reg) (m : BitVec 2) (s : State) : Outcome :=
  s.un d a (fun x => BitVec.ofNat 32 (fp32.encode m.toNat (.ofInt x.toInt)))
/-- U2F (R76, R116). -/
def execU2f (d a : Reg) (m : BitVec 2) (s : State) : Outcome :=
  s.un d a (fun x => BitVec.ofNat 32 (fp32.encode m.toNat (.ofInt x.toNat)))
/-- F2H (R76, R116). -/
def execF2h (d a : Reg) (m : BitVec 2) (s : State) : Outcome :=
  s.un d a (fun x => BitVec.ofNat 32 (fp16.encode m.toNat (fp32.decode x.toNat)))
/-- H2F (R76, R117). -/
def execH2f (d a : Reg) (s : State) : Outcome :=
  s.un d a (fun x => BitVec.ofNat 32 (fp32.encode 0 (fp16.decode (x.toNat % 65536))))
/-- F2D (R76, R117). -/
def execF2d (d a : Reg) (s : State) : Outcome :=
  s.widen d a (fun x => BitVec.ofNat 64 (fp64.encode 0 (fp32.decode x.toNat)))
/-- D2F (R76, R116). -/
def execD2f (d a : Reg) (m : BitVec 2) (s : State) : Outcome :=
  s.un64 d a (fun x => BitVec.ofNat 32 (fp32.encode m.toNat (fp64.decode x.toNat)))
/-- DADD (R119). -/
def execDadd (d a b : Reg) (sb : Bool) (m : BitVec 2) (s : State) : Outcome :=
  s.bin64 d a b sb (onD (fp64.add m.toNat))
/-- DMUL (R119). -/
def execDmul (d a b : Reg) (sb : Bool) (m : BitVec 2) (s : State) : Outcome :=
  s.bin64 d a b sb (onD (fp64.mul m.toNat))
/-- DSUB (R119). -/
def execDsub (d a b : Reg) (sb : Bool) (m : BitVec 2) (s : State) : Outcome :=
  s.bin64 d a b sb (onD (fp64.sub m.toNat))
/-- DFMA (R119). -/
def execDfma (d a b : Reg) (sb : Bool) (m : BitVec 2) (s : State) : Outcome :=
  s.tern64 d a b sb (fun x y z => BitVec.ofNat 64 (fp64.fma m.toNat x.toNat y.toNat z.toNat))
/-- DMIN (R75, R120). -/
def execDmin (d a b : Reg) (sb : Bool) (s : State) : Outcome :=
  s.bin64 d a b sb (onD (fp64.pick false false))
/-- DMAX (R75, R120). -/
def execDmax (d a b : Reg) (sb : Bool) (s : State) : Outcome :=
  s.bin64 d a b sb (onD (fp64.pick true false))
/-- DMINNM (R75, R120). -/
def execDminnm (d a b : Reg) (sb : Bool) (s : State) : Outcome :=
  s.bin64 d a b sb (onD (fp64.pick false true))
/-- DMAXNM (R75, R120). -/
def execDmaxnm (d a b : Reg) (sb : Bool) (s : State) : Outcome :=
  s.bin64 d a b sb (onD (fp64.pick true true))
/-- DCMP (R120). -/
def execDcmp (c p : BitVec 3) (a b : Reg) (sb : Bool) (s : State) : Outcome :=
  s.cmp64 p a b sb (fun x y => fp64.cond c x.toNat y.toNat)
/-- D2I (R76, R120). -/
def execD2i (d a : Reg) (m : BitVec 2) (s : State) : Outcome :=
  s.un64 d a (fun x => toIntClamp (-2147483648) 2147483647 m.toNat (fp64.decode x.toNat))
/-- I2D (R76, R120). -/
def execI2d (d a : Reg) (s : State) : Outcome :=
  s.widen d a (fun x => BitVec.ofNat 64 (fp64.encode 0 (.ofInt x.toInt)))
/-- DABS (R120). -/
def execDabs (d a : Reg) (s : State) : Outcome :=
  s.unPair d a (fun x => x &&& 0x7FFFFFFFFFFFFFFF)
/-- HADD2 (R121). -/
def execHadd2 (d a b : Reg) (sb : Bool) (m : BitVec 2) (s : State) : Outcome :=
  s.bin d a b sb (fun x y => onH (fun p q _ => fp16.add m.toNat p q) x y 0)
/-- HMUL2 (R121). -/
def execHmul2 (d a b : Reg) (sb : Bool) (m : BitVec 2) (s : State) : Outcome :=
  s.bin d a b sb (fun x y => onH (fun p q _ => fp16.mul m.toNat p q) x y 0)
/-- HSUB2 (R121). -/
def execHsub2 (d a b : Reg) (sb : Bool) (m : BitVec 2) (s : State) : Outcome :=
  s.bin d a b sb (fun x y => onH (fun p q _ => fp16.sub m.toNat p q) x y 0)
/-- HFMA2 (R121). -/
def execHfma2 (d a b : Reg) (sb : Bool) (m : BitVec 2) (s : State) : Outcome :=
  s.tern d a b sb (onH (fp16.fma m.toNat))
/-- BADD2 (R121). -/
def execBadd2 (d a b : Reg) (sb : Bool) (m : BitVec 2) (s : State) : Outcome :=
  s.bin d a b sb (fun x y => onH (fun p q _ => bf16.add m.toNat p q) x y 0)
/-- BMUL2 (R121). -/
def execBmul2 (d a b : Reg) (sb : Bool) (m : BitVec 2) (s : State) : Outcome :=
  s.bin d a b sb (fun x y => onH (fun p q _ => bf16.mul m.toNat p q) x y 0)
/-- BSUB2 (R121). -/
def execBsub2 (d a b : Reg) (sb : Bool) (m : BitVec 2) (s : State) : Outcome :=
  s.bin d a b sb (fun x y => onH (fun p q _ => bf16.sub m.toNat p q) x y 0)
/-- BFMA2 (R121). -/
def execBfma2 (d a b : Reg) (sb : Bool) (m : BitVec 2) (s : State) : Outcome :=
  s.tern d a b sb (onH (bf16.fma m.toNat))
/-- HMIN2 (R122). -/
def execHmin2 (d a b : Reg) (sb : Bool) (s : State) : Outcome :=
  s.bin d a b sb (fun x y => onH (fun p q _ => fp16.pick false false p q) x y 0)
/-- HMAX2 (R122). -/
def execHmax2 (d a b : Reg) (sb : Bool) (s : State) : Outcome :=
  s.bin d a b sb (fun x y => onH (fun p q _ => fp16.pick true false p q) x y 0)
/-- HCMP2 (R122). -/
def execHcmp2 (c p : BitVec 3) (a b : Reg) (sb : Bool) (s : State) : Outcome :=
  s.alu (s.vecA a.toNat 1 ++ s.vecB b.toNat 1 sb) (State.scaB b.toNat 1 sb) (s.vecA a.toNat 1 ++ s.vecB b.toNat 1 sb)
    (fun blk t =>
      let x := (s.opA t a.toNat).toNat
      let y := (s.opB blk t b.toNat sb).toNat
      (t.putPred p.toNat (fp16.cond c (x % 65536) (y % 65536))).putPred (p.toNat + 1) (fp16.cond c (x / 65536) (y / 65536)))
/-- PKH2 (R76, R123). -/
def execPkh2 (d a b : Reg) (sb : Bool) (m : BitVec 2) (s : State) : Outcome :=
  s.bin d a b sb (fun x y => BitVec.ofNat 32 (fp16.encode m.toNat (fp32.decode x.toNat) +
    65536 * fp16.encode m.toNat (fp32.decode y.toNat)))
/-- UPKH (R76, R123). -/
def execUpkh (d a : Reg) (e : Bool) (s : State) : Outcome :=
  s.un d a (fun x => BitVec.ofNat 32 (fp32.encode 0 (fp16.decode (fld x.toNat 16 (16 * e.toNat)))))
/-- BMIN2 (R122). -/
def execBmin2 (d a b : Reg) (sb : Bool) (s : State) : Outcome :=
  s.bin d a b sb (fun x y => onH (fun p q _ => bf16.pick false false p q) x y 0)
/-- BMAX2 (R122). -/
def execBmax2 (d a b : Reg) (sb : Bool) (s : State) : Outcome :=
  s.bin d a b sb (fun x y => onH (fun p q _ => bf16.pick true false p q) x y 0)
/-- BCMP2 (R122). -/
def execBcmp2 (c p : BitVec 3) (a b : Reg) (sb : Bool) (s : State) : Outcome :=
  s.alu (s.vecA a.toNat 1 ++ s.vecB b.toNat 1 sb) (State.scaB b.toNat 1 sb) (s.vecA a.toNat 1 ++ s.vecB b.toNat 1 sb)
    (fun blk t =>
      let x := (s.opA t a.toNat).toNat
      let y := (s.opB blk t b.toNat sb).toNat
      (t.putPred p.toNat (bf16.cond c (x % 65536) (y % 65536))).putPred (p.toNat + 1) (bf16.cond c (x / 65536) (y / 65536)))
/-- PKB2 (R76, R123). -/
def execPkb2 (d a b : Reg) (sb : Bool) (m : BitVec 2) (s : State) : Outcome :=
  s.bin d a b sb (fun x y => BitVec.ofNat 32 (bf16.encode m.toNat (fp32.decode x.toNat) +
    65536 * bf16.encode m.toNat (fp32.decode y.toNat)))
/-- UPKB (R76, R123). -/
def execUpkb (d a : Reg) (e : Bool) (s : State) : Outcome :=
  s.un d a (fun x => BitVec.ofNat 32 (fp32.encode 0 (bf16.decode (fld x.toNat 16 (16 * e.toNat)))))
/-- R124: `n` words packed under a scale, element i in the w bits from w × i. The run of registers is named whole. -/
def State.packRun (s : State) (d a b : Reg) (sb : Bool) (n w : Nat) (f : Fmt) : Outcome :=
  s.alu (d.toNat :: (upto a.toNat 1 n ++ s.vecB b.toNat 1 sb)) (State.scaB b.toNat 1 sb) (upto a.toNat 1 n ++ s.vecB b.toNat 1 sb)
    (fun blk t => t.put d.toNat (BitVec.ofNat 32 ((List.range n).foldl (fun x i =>
      x + packMx f ((s.opB blk t b.toNat sb).toNat % 256) (t.get (a.toNat + i)).toNat * 2 ^ (w * i)) 0)))
/-- PKE4M (R77, R124). -/
def execPke4m (d a b : Reg) (sb : Bool) (s : State) : Outcome :=
  s.packRun d a b sb 4 8 e4m3
/-- PKE5M (R77, R124). -/
def execPke5m (d a b : Reg) (sb : Bool) (s : State) : Outcome :=
  s.packRun d a b sb 4 8 e5m2
/-- PKF4M (R77, R124). -/
def execPkf4m (d a b : Reg) (sb : Bool) (s : State) : Outcome :=
  s.packRun d a b sb 8 4 e2m1
/-- UPKE4 (R76, R125). -/
def execUpke4 (d a : Reg) (e : BitVec 2) (s : State) : Outcome :=
  s.un d a (fun x => BitVec.ofNat 32 (fp32.encode 0 (e4m3.decode (fld x.toNat 8 (8 * e.toNat)))))
/-- UPKE5 (R76, R125). -/
def execUpke5 (d a : Reg) (e : BitVec 2) (s : State) : Outcome :=
  s.un d a (fun x => BitVec.ofNat 32 (fp32.encode 0 (e5m2.decode (fld x.toNat 8 (8 * e.toNat)))))
/-- UPKF4 (R76, R125). -/
def execUpkf4 (d a : Reg) (e : BitVec 3) (s : State) : Outcome :=
  s.un d a (fun x => BitVec.ofNat 32 (fp32.encode 0 (e2m1.decode (fld x.toNat 4 (4 * e.toNat)))))
/-- MXSCALE (R78, R126). -/
def execMxscale (d a : Reg) (f : BitVec 2) (s : State) : Outcome :=
  s.un d a (fun x => BitVec.ofNat 32 (mxScale ([8, 15, 2].getD f.toNat 2) x.toNat))

end Sys2Proof.Machine
end

