-- ==== Sys2Proof/Machine/Integer.lean ====
section
/-! DEFINITION. Classes 0x0 and 0x1: integer and address arithmetic (R90 to R96). -/

namespace Sys2Proof.Machine

/-- IADD (R90). -/
def execIadd (d a b : Reg) (sb : Bool) (s : State) : Outcome := s.bin d a b sb (fun x y => x + y)
/-- ISUB (R90). -/
def execIsub (d a b : Reg) (sb : Bool) (s : State) : Outcome := s.bin d a b sb (fun x y => x - y)
/-- IMUL (R90). -/
def execImul (d a b : Reg) (sb : Bool) (s : State) : Outcome := s.bin d a b sb (fun x y => x * y)
/-- IMULHI (R90): bits [63:32] of the signed product. -/
def execImulhi (d a b : Reg) (sb : Bool) (s : State) : Outcome :=
  s.bin d a b sb (fun x y => BitVec.ofInt 32 (x.toInt * y.toInt / 2 ^ 32))
/-- IMULHIU (R90): bits [63:32] of the unsigned product. -/
def execImulhiu (d a b : Reg) (sb : Bool) (s : State) : Outcome :=
  s.bin d a b sb (fun x y => BitVec.ofNat 32 (x.toNat * y.toNat / 2 ^ 32))
/-- IMAD (R90). -/
def execImad (d a b : Reg) (sb : Bool) (s : State) : Outcome := s.tern d a b sb (fun x y z => x * y + z)
/-- IABS (R90). -/
def execIabs (d a : Reg) (s : State) : Outcome := s.un d a (fun x => if x.msb then -x else x)
/-- R107: D ← f A B by the iterative divider: at once, or by a result that comes later (log entry 95). -/
def State.divide (s : State) (d a b : Reg) (sb : Bool) (f : Word → Word → Word) : Outcome :=
  if s.later then
    .next (s.foldLanes (fun s blk t =>
      laneChecked blk t (d.toNat :: (s.vecA a.toNat 1 ++ s.vecB b.toNat 1 sb)) (State.scaB b.toNat 1 sb) (s.vecA a.toNat 1 ++ s.vecB b.toNat 1 sb) s
        (fun _ => .done (s.deliver t d.toNat (toBytes 4 (f (s.opA t a.toNat) (s.opB blk t b.toNat sb)).toNat) true))))
  else s.bin d a b sb f

/-- IDIV (R64, R90). -/
def execIdiv (d a b : Reg) (sb : Bool) (s : State) : Outcome := s.divide d a b sb divS
/-- IDIVU (R64, R90). -/
def execIdivu (d a b : Reg) (sb : Bool) (s : State) : Outcome := s.divide d a b sb divU
/-- IREM (R64, R90). -/
def execIrem (d a b : Reg) (sb : Bool) (s : State) : Outcome := s.divide d a b sb remS
/-- IREMU (R64, R90). -/
def execIremu (d a b : Reg) (sb : Bool) (s : State) : Outcome := s.divide d a b sb remU
/-- IMIN (R90). -/
def execImin (d a b : Reg) (sb : Bool) (s : State) : Outcome := s.bin d a b sb minS
/-- IMAX (R90). -/
def execImax (d a b : Reg) (sb : Bool) (s : State) : Outcome := s.bin d a b sb maxS
/-- IMINU (R90). -/
def execIminu (d a b : Reg) (sb : Bool) (s : State) : Outcome := s.bin d a b sb minU
/-- IMAXU (R90). -/
def execImaxu (d a b : Reg) (sb : Bool) (s : State) : Outcome := s.bin d a b sb maxU
/-- IADDS (R63, R90). -/
def execIadds (d a b : Reg) (sb : Bool) (s : State) : Outcome := s.bin d a b sb (fun x y => clampS (x.toInt + y.toInt))
/-- ISUBS (R63, R90). -/
def execIsubs (d a b : Reg) (sb : Bool) (s : State) : Outcome := s.bin d a b sb (fun x y => clampS (x.toInt - y.toInt))
/-- IADDUS (R63, R90). -/
def execIaddus (d a b : Reg) (sb : Bool) (s : State) : Outcome := s.bin d a b sb (fun x y => clampU ((x.toNat : Int) + y.toNat))
/-- ISUBUS (R63, R90). -/
def execIsubus (d a b : Reg) (sb : Bool) (s : State) : Outcome := s.bin d a b sb (fun x y => clampU ((x.toNat : Int) - y.toNat))
/-- IADD64 (R90). -/
def execIadd64 (d a b : Reg) (sb : Bool) (s : State) : Outcome := s.bin64 d a b sb (fun x y => x + y)
/-- ISUB64 (R90). -/
def execIsub64 (d a b : Reg) (sb : Bool) (s : State) : Outcome := s.bin64 d a b sb (fun x y => x - y)
/-- IMULW (R90). -/
def execImulw (d a b : Reg) (sb : Bool) (s : State) : Outcome :=
  s.binWide d a b sb (fun x y => x.signExtend 64 * y.signExtend 64)
/-- IMULWU (R90). -/
def execImulwu (d a b : Reg) (sb : Bool) (s : State) : Outcome :=
  s.binWide d a b sb (fun x y => x.setWidth 64 * y.setWidth 64)
/-- ICMP (R91). -/
def execIcmp (c p : BitVec 3) (a b : Reg) (sb : Bool) (s : State) : Outcome := s.cmp p a b sb (icond c)
/-- ICMP64 (R91). -/
def execIcmp64 (c p : BitVec 3) (a b : Reg) (sb : Bool) (s : State) : Outcome := s.cmp64 p a b sb (icond c)
/-- IADDSH1 (R90). -/
def execIaddsh1 (d a b : Reg) (sb : Bool) (s : State) : Outcome := s.bin d a b sb (fun x y => x <<< 1 + y)
/-- IADDSH2 (R90). -/
def execIaddsh2 (d a b : Reg) (sb : Bool) (s : State) : Outcome := s.bin d a b sb (fun x y => x <<< 2 + y)
/-- IADDSH3 (R90). -/
def execIaddsh3 (d a b : Reg) (sb : Bool) (s : State) : Outcome := s.bin d a b sb (fun x y => x <<< 3 + y)
/-- IADDSH4 (R90). -/
def execIaddsh4 (d a b : Reg) (sb : Bool) (s : State) : Outcome := s.bin d a b sb (fun x y => x <<< 4 + y)
/-- SEL (R92). -/
def execSel (d a b : Reg) (sb : Bool) (q : BitVec 3) (s : State) : Outcome :=
  s.alu (d.toNat :: (s.vecA a.toNat 1 ++ s.vecB b.toNat 1 sb)) (State.scaB b.toNat 1 sb) (s.vecA a.toNat 1 ++ s.vecB b.toNat 1 sb)
    (fun blk t => t.put d.toNat (if t.pred q.toNat then s.opA t a.toNat else s.opB blk t b.toNat sb))
/-- MOV (R93). -/
def execMov (d a : Reg) (s : State) : Outcome := s.un d a id
/-- MOVRI (R94): the computed index is checked after the fields; a literal may stand for A. -/
def execMovri (d a : Reg) (s : State) : Outcome :=
  .next (s.lanes (fun b t =>
    match checkRegs b t (d.toNat :: s.vecA a.toNat 1) [] with
    | some tr => .error tr
    | none => match checkPoison t (s.vecA a.toNat 1) with
      | some tr => .error tr
      | none =>
        let i := (s.opA t a.toNat).toNat
        if t.f ≤ i then .error (.regBound i)
        else match checkPoison t [i] with
          | some tr => .error tr
          | none => .ok (t.put d.toNat (t.get i))))
/-- MOVWI (R94). -/
def execMovwi (a b : Reg) (sb : Bool) (s : State) : Outcome :=
  .next (s.lanes (fun blk t =>
    match checkRegs blk t (s.vecA a.toNat 1 ++ s.vecB b.toNat 1 sb) (State.scaB b.toNat 1 sb) with
    | some tr => .error tr
    | none => match checkPoison t (s.vecA a.toNat 1) with
      | some tr => .error tr
      | none =>
        let i := (s.opA t a.toNat).toNat
        if t.f ≤ i then .error (.regBound i)
        else match checkPoison t (s.vecB b.toNat 1 sb) with
          | some tr => .error tr
          | none => .ok (t.put i (s.opB blk t b.toNat sb))))
/-- SEXT8 (R93). -/
def execSext8 (d a : Reg) (s : State) : Outcome := s.un d a (fun x => (x.setWidth 8).signExtend 32)
/-- SEXT16 (R93). -/
def execSext16 (d a : Reg) (s : State) : Outcome := s.un d a (fun x => (x.setWidth 16).signExtend 32)

/-- IADDI (R96). -/
def execIaddi (d a : Reg) (i : BitVec 11) (s : State) : Outcome := s.imm d a (fun x => x + s.immOr (i.signExtend 32))
/-- IMULI (R96). -/
def execImuli (d a : Reg) (i : BitVec 11) (s : State) : Outcome := s.imm d a (fun x => x * s.immOr (i.signExtend 32))
/-- ANDI (R96). -/
def execAndi (d a : Reg) (i : BitVec 11) (s : State) : Outcome := s.imm d a (fun x => x &&& s.immOr (i.setWidth 32))
/-- ORI (R96). -/
def execOri (d a : Reg) (i : BitVec 11) (s : State) : Outcome := s.imm d a (fun x => x ||| s.immOr (i.setWidth 32))
/-- XORI (R96). -/
def execXori (d a : Reg) (i : BitVec 11) (s : State) : Outcome := s.imm d a (fun x => x ^^^ s.immOr (i.setWidth 32))
/-- ICMPI (R96). -/
def execIcmpi (c p : BitVec 3) (a : Reg) (i : BitVec 11) (s : State) : Outcome :=
  s.alu [a.toNat] [] [a.toNat] (fun _ t => t.putPred p.toNat (icond c (t.get a.toNat) (s.immOr (i.signExtend 32))))
/-- SHLI (R96). -/
def execShli (d a : Reg) (i : BitVec 5) (s : State) : Outcome := s.imm d a (fun x => x <<< i.toNat)
/-- SHRI (R96). -/
def execShri (d a : Reg) (i : BitVec 5) (s : State) : Outcome := s.imm d a (fun x => x >>> i.toNat)
/-- SARI (R96). -/
def execSari (d a : Reg) (i : BitVec 5) (s : State) : Outcome := s.imm d a (fun x => x.sshiftRight i.toNat)
/-- ROLI (R96). -/
def execRoli (d a : Reg) (i : BitVec 5) (s : State) : Outcome := s.imm d a (fun x => x.rotateLeft i.toNat)
/-- RORI (R96). -/
def execRori (d a : Reg) (i : BitVec 5) (s : State) : Outcome := s.imm d a (fun x => x.rotateRight i.toNat)
/-- MOVI (R42, R96). -/
def execMovi (d : Reg) (i : BitVec 18) (s : State) : Outcome :=
  s.alu [d.toNat] [] [] (fun _ t => t.put d.toNat (i.signExtend 32))

end Sys2Proof.Machine
end

