-- ==== Sys2Proof/Machine/Dispatch.lean ====
section
/-! DEFINITION. What each step does: one arm per constructor of `Instr`. -/

namespace Sys2Proof.Machine

/-- One step of the part at a state. -/
def exec (i : Instr) (s : State) : Host.Outcome State Fault Refusal :=
  match i with
  | .iadd d a b sb => Sys2Proof.Machine.execIadd d a b sb s
  | .isub d a b sb => Sys2Proof.Machine.execIsub d a b sb s
  | .imul d a b sb => Sys2Proof.Machine.execImul d a b sb s
  | .imulhi d a b sb => Sys2Proof.Machine.execImulhi d a b sb s
  | .imulhiu d a b sb => Sys2Proof.Machine.execImulhiu d a b sb s
  | .imad d a b sb => Sys2Proof.Machine.execImad d a b sb s
  | .iabs d a => Sys2Proof.Machine.execIabs d a s
  | .idiv d a b sb => Sys2Proof.Machine.execIdiv d a b sb s
  | .idivu d a b sb => Sys2Proof.Machine.execIdivu d a b sb s
  | .irem d a b sb => Sys2Proof.Machine.execIrem d a b sb s
  | .iremu d a b sb => Sys2Proof.Machine.execIremu d a b sb s
  | .imin d a b sb => Sys2Proof.Machine.execImin d a b sb s
  | .imax d a b sb => Sys2Proof.Machine.execImax d a b sb s
  | .iminu d a b sb => Sys2Proof.Machine.execIminu d a b sb s
  | .imaxu d a b sb => Sys2Proof.Machine.execImaxu d a b sb s
  | .iadds d a b sb => Sys2Proof.Machine.execIadds d a b sb s
  | .isubs d a b sb => Sys2Proof.Machine.execIsubs d a b sb s
  | .iaddus d a b sb => Sys2Proof.Machine.execIaddus d a b sb s
  | .isubus d a b sb => Sys2Proof.Machine.execIsubus d a b sb s
  | .iadd64 d a b sb => Sys2Proof.Machine.execIadd64 d a b sb s
  | .isub64 d a b sb => Sys2Proof.Machine.execIsub64 d a b sb s
  | .imulw d a b sb => Sys2Proof.Machine.execImulw d a b sb s
  | .imulwu d a b sb => Sys2Proof.Machine.execImulwu d a b sb s
  | .icmp c p a b sb => Sys2Proof.Machine.execIcmp c p a b sb s
  | .icmp64 c p a b sb => Sys2Proof.Machine.execIcmp64 c p a b sb s
  | .iaddsh1 d a b sb => Sys2Proof.Machine.execIaddsh1 d a b sb s
  | .iaddsh2 d a b sb => Sys2Proof.Machine.execIaddsh2 d a b sb s
  | .iaddsh3 d a b sb => Sys2Proof.Machine.execIaddsh3 d a b sb s
  | .iaddsh4 d a b sb => Sys2Proof.Machine.execIaddsh4 d a b sb s
  | .sel d a b sb q => Sys2Proof.Machine.execSel d a b sb q s
  | .mov d a => Sys2Proof.Machine.execMov d a s
  | .movri d a => Sys2Proof.Machine.execMovri d a s
  | .movwi a b sb => Sys2Proof.Machine.execMovwi a b sb s
  | .sext8 d a => Sys2Proof.Machine.execSext8 d a s
  | .sext16 d a => Sys2Proof.Machine.execSext16 d a s
  | .iaddi d a k1 => Sys2Proof.Machine.execIaddi d a k1 s
  | .imuli d a k1 => Sys2Proof.Machine.execImuli d a k1 s
  | .andi d a k1 => Sys2Proof.Machine.execAndi d a k1 s
  | .ori d a k1 => Sys2Proof.Machine.execOri d a k1 s
  | .xori d a k1 => Sys2Proof.Machine.execXori d a k1 s
  | .icmpi c p a k1 => Sys2Proof.Machine.execIcmpi c p a k1 s
  | .shli d a n => Sys2Proof.Machine.execShli d a n s
  | .shri d a n => Sys2Proof.Machine.execShri d a n s
  | .sari d a n => Sys2Proof.Machine.execSari d a n s
  | .roli d a n => Sys2Proof.Machine.execRoli d a n s
  | .rori d a n => Sys2Proof.Machine.execRori d a n s
  | .movi d imm => Sys2Proof.Machine.execMovi d imm s
  | .and d a b sb => Sys2Proof.Machine.execAnd d a b sb s
  | .or d a b sb => Sys2Proof.Machine.execOr d a b sb s
  | .xor d a b sb => Sys2Proof.Machine.execXor d a b sb s
  | .andn d a b sb => Sys2Proof.Machine.execAndn d a b sb s
  | .orn d a b sb => Sys2Proof.Machine.execOrn d a b sb s
  | .xnor d a b sb => Sys2Proof.Machine.execXnor d a b sb s
  | .not d a => Sys2Proof.Machine.execNot d a s
  | .shl d a b sb => Sys2Proof.Machine.execShl d a b sb s
  | .shr d a b sb => Sys2Proof.Machine.execShr d a b sb s
  | .sar d a b sb => Sys2Proof.Machine.execSar d a b sb s
  | .rol d a b sb => Sys2Proof.Machine.execRol d a b sb s
  | .ror d a b sb => Sys2Proof.Machine.execRor d a b sb s
  | .shl64 d a b sb => Sys2Proof.Machine.execShl64 d a b sb s
  | .shr64 d a b sb => Sys2Proof.Machine.execShr64 d a b sb s
  | .sar64 d a b sb => Sys2Proof.Machine.execSar64 d a b sb s
  | .clz d a => Sys2Proof.Machine.execClz d a s
  | .ctz d a => Sys2Proof.Machine.execCtz d a s
  | .popc d a => Sys2Proof.Machine.execPopc d a s
  | .brev d a => Sys2Proof.Machine.execBrev d a s
  | .clz64 d a => Sys2Proof.Machine.execClz64 d a s
  | .ctz64 d a => Sys2Proof.Machine.execCtz64 d a s
  | .popc64 d a => Sys2Proof.Machine.execPopc64 d a s
  | .brev64 d a => Sys2Proof.Machine.execBrev64 d a s
  | .bfx d a b sb => Sys2Proof.Machine.execBfx d a b sb s
  | .bfxs d a b sb => Sys2Proof.Machine.execBfxs d a b sb s
  | .bfi d a b sb => Sys2Proof.Machine.execBfi d a b sb s
  | .pdep d a b sb => Sys2Proof.Machine.execPdep d a b sb s
  | .pext d a b sb => Sys2Proof.Machine.execPext d a b sb s
  | .pdep64 d a b sb => Sys2Proof.Machine.execPdep64 d a b sb s
  | .pext64 d a b sb => Sys2Proof.Machine.execPext64 d a b sb s
  | .bperm d a b sb => Sys2Proof.Machine.execBperm d a b sb s
  | .bmm8 d a b sb => Sys2Proof.Machine.execBmm8 d a b sb s
  | .bmm8t d a b sb => Sys2Proof.Machine.execBmm8t d a b sb s
  | .plop t d a b => Sys2Proof.Machine.execPlop t d a b s
  | .p2v d => Sys2Proof.Machine.execP2v d s
  | .v2p a => Sys2Proof.Machine.execV2p a s
  | .fadd d a b sb ha hb m => Sys2Proof.Machine.execFadd d a b sb ha hb m s
  | .fmul d a b sb ha hb m => Sys2Proof.Machine.execFmul d a b sb ha hb m s
  | .ffma d a b sb ha hb m => Sys2Proof.Machine.execFfma d a b sb ha hb m s
  | .fsub d a b sb ha hb m => Sys2Proof.Machine.execFsub d a b sb ha hb m s
  | .fmin d a b sb => Sys2Proof.Machine.execFmin d a b sb s
  | .fmax d a b sb => Sys2Proof.Machine.execFmax d a b sb s
  | .fminnm d a b sb => Sys2Proof.Machine.execFminnm d a b sb s
  | .fmaxnm d a b sb => Sys2Proof.Machine.execFmaxnm d a b sb s
  | .fcmp c p a b sb => Sys2Proof.Machine.execFcmp c p a b sb s
  | .fabs d a => Sys2Proof.Machine.execFabs d a s
  | .fneg d a => Sys2Proof.Machine.execFneg d a s
  | .fcopysign d a b sb => Sys2Proof.Machine.execFcopysign d a b sb s
  | .frint d a m => Sys2Proof.Machine.execFrint d a m s
  | .fclass d a => Sys2Proof.Machine.execFclass d a s
  | .frcp d a => Sys2Proof.Machine.execFrcp d a s
  | .frsq d a => Sys2Proof.Machine.execFrsq d a s
  | .fexp2 d a => Sys2Proof.Machine.execFexp2 d a s
  | .flog2 d a => Sys2Proof.Machine.execFlog2 d a s
  | .fsin d a => Sys2Proof.Machine.execFsin d a s
  | .fcos d a => Sys2Proof.Machine.execFcos d a s
  | .f2i d a m => Sys2Proof.Machine.execF2i d a m s
  | .f2u d a m => Sys2Proof.Machine.execF2u d a m s
  | .i2f d a m => Sys2Proof.Machine.execI2f d a m s
  | .u2f d a m => Sys2Proof.Machine.execU2f d a m s
  | .f2h d a m => Sys2Proof.Machine.execF2h d a m s
  | .h2f d a => Sys2Proof.Machine.execH2f d a s
  | .f2d d a => Sys2Proof.Machine.execF2d d a s
  | .d2f d a m => Sys2Proof.Machine.execD2f d a m s
  | .dadd d a b sb m => Sys2Proof.Machine.execDadd d a b sb m s
  | .dmul d a b sb m => Sys2Proof.Machine.execDmul d a b sb m s
  | .dfma d a b sb m => Sys2Proof.Machine.execDfma d a b sb m s
  | .dsub d a b sb m => Sys2Proof.Machine.execDsub d a b sb m s
  | .dmin d a b sb => Sys2Proof.Machine.execDmin d a b sb s
  | .dmax d a b sb => Sys2Proof.Machine.execDmax d a b sb s
  | .dminnm d a b sb => Sys2Proof.Machine.execDminnm d a b sb s
  | .dmaxnm d a b sb => Sys2Proof.Machine.execDmaxnm d a b sb s
  | .dcmp c p a b sb => Sys2Proof.Machine.execDcmp c p a b sb s
  | .d2i d a m => Sys2Proof.Machine.execD2i d a m s
  | .i2d d a => Sys2Proof.Machine.execI2d d a s
  | .dabs d a => Sys2Proof.Machine.execDabs d a s
  | .hadd2 d a b sb m => Sys2Proof.Machine.execHadd2 d a b sb m s
  | .hmul2 d a b sb m => Sys2Proof.Machine.execHmul2 d a b sb m s
  | .hfma2 d a b sb m => Sys2Proof.Machine.execHfma2 d a b sb m s
  | .hsub2 d a b sb m => Sys2Proof.Machine.execHsub2 d a b sb m s
  | .badd2 d a b sb m => Sys2Proof.Machine.execBadd2 d a b sb m s
  | .bmul2 d a b sb m => Sys2Proof.Machine.execBmul2 d a b sb m s
  | .bfma2 d a b sb m => Sys2Proof.Machine.execBfma2 d a b sb m s
  | .bsub2 d a b sb m => Sys2Proof.Machine.execBsub2 d a b sb m s
  | .hmin2 d a b sb => Sys2Proof.Machine.execHmin2 d a b sb s
  | .hmax2 d a b sb => Sys2Proof.Machine.execHmax2 d a b sb s
  | .bmin2 d a b sb => Sys2Proof.Machine.execBmin2 d a b sb s
  | .bmax2 d a b sb => Sys2Proof.Machine.execBmax2 d a b sb s
  | .hcmp2 c p a b sb => Sys2Proof.Machine.execHcmp2 c p a b sb s
  | .bcmp2 c p a b sb => Sys2Proof.Machine.execBcmp2 c p a b sb s
  | .pkh2 d a b sb m => Sys2Proof.Machine.execPkh2 d a b sb m s
  | .pkb2 d a b sb m => Sys2Proof.Machine.execPkb2 d a b sb m s
  | .upkh d a e => Sys2Proof.Machine.execUpkh d a e s
  | .upkb d a e => Sys2Proof.Machine.execUpkb d a e s
  | .pke4m d a b sb => Sys2Proof.Machine.execPke4m d a b sb s
  | .pke5m d a b sb => Sys2Proof.Machine.execPke5m d a b sb s
  | .pkf4m d a b sb => Sys2Proof.Machine.execPkf4m d a b sb s
  | .upke4 d a e => Sys2Proof.Machine.execUpke4 d a e s
  | .upke5 d a e => Sys2Proof.Machine.execUpke5 d a e s
  | .upkf4 d a e => Sys2Proof.Machine.execUpkf4 d a e s
  | .mxscale d a f => Sys2Proof.Machine.execMxscale d a f s
  | .idp4 d a b sb => Sys2Proof.Machine.execIdp4 d a b sb s
  | .idp4u d a b sb => Sys2Proof.Machine.execIdp4u d a b sb s
  | .ld d a k w o => Sys2Proof.Machine.execLd d a k w o s
  | .st d a k w o => Sys2Proof.Machine.execSt d a k w o s
  | .atomSp d a b q => Sys2Proof.Machine.execAtomSp d a b q s
  | .sld d a b w => Sys2Proof.Machine.execSld d a b w s
  | .sst d a b w => Sys2Proof.Machine.execSst d a b w s
  | .nld d a b w => Sys2Proof.Machine.execNld d a b w s
  | .nst d a b w => Sys2Proof.Machine.execNst d a b w s
  | .atomNb d a b q => Sys2Proof.Machine.execAtomNb d a b q s
  | .atomRec d a k q => Sys2Proof.Machine.execAtomRec d a k q s
  | .atom64 d a k q => Sys2Proof.Machine.execAtom64 d a k q s
  | .faddx d a k => Sys2Proof.Machine.execFaddx d a k s
  | .rcrd d a k => Sys2Proof.Machine.execRcrd d a k s
  | .rcclr a k => Sys2Proof.Machine.execRcclr a k s
  | .pref l a k => Sys2Proof.Machine.execPref l a k s
  | .cwb a k => Sys2Proof.Machine.execCwb a k s
  | .cinv a k => Sys2Proof.Machine.execCinv a k s
  | .sample d a k => Sys2Proof.Machine.execSample d a k s
  | .bra o => Sys2Proof.Machine.execBra o s
  | .brt p o => Sys2Proof.Machine.execBrt p o s
  | .brf p o => Sys2Proof.Machine.execBrf p o s
  | .brany p o => Sys2Proof.Machine.execBrany p o s
  | .brall p o => Sys2Proof.Machine.execBrall p o s
  | .call v k1 => Sys2Proof.Machine.execCall v k1 s
  | .ret => Sys2Proof.Machine.execRet s
  | .jmpi a => Sys2Proof.Machine.execJmpi a s
  | .calli a b => Sys2Proof.Machine.execCalli a b s
  | .land => Sys2Proof.Machine.execLand s
  | .frame b => Sys2Proof.Machine.execFrame b s
  | .wbase b => Sys2Proof.Machine.execWbase b s
  | .reform => Sys2Proof.Machine.execReform s
  | .exit => Sys2Proof.Machine.execExit s
  | .nop => Sys2Proof.Machine.execNop s
  | .trap k1 => Sys2Proof.Machine.execTrap k1 s
  | .routePick d a b => Sys2Proof.Machine.execRoutePick d a b s
  | .routeRot d a b => Sys2Proof.Machine.execRouteRot d a b s
  | .routeShift d a b => Sys2Proof.Machine.execRouteShift d a b s
  | .routeFlip d a b => Sys2Proof.Machine.execRouteFlip d a b s
  | .pollOr d a b => Sys2Proof.Machine.execPollOr d a b s
  | .pollAnd d a b => Sys2Proof.Machine.execPollAnd d a b s
  | .pollSame d a b => Sys2Proof.Machine.execPollSame d a b s
  | .pgather d a b => Sys2Proof.Machine.execPgather d a b s
  | .reduxAdd d a b => Sys2Proof.Machine.execReduxAdd d a b s
  | .reduxMin d a b => Sys2Proof.Machine.execReduxMin d a b s
  | .reduxMax d a b => Sys2Proof.Machine.execReduxMax d a b s
  | .reduxMinu d a b => Sys2Proof.Machine.execReduxMinu d a b s
  | .reduxMaxu d a b => Sys2Proof.Machine.execReduxMaxu d a b s
  | .reduxAnd d a b => Sys2Proof.Machine.execReduxAnd d a b s
  | .reduxOr d a b => Sys2Proof.Machine.execReduxOr d a b s
  | .reduxXor d a b => Sys2Proof.Machine.execReduxXor d a b s
  | .reduxFadd d a b => Sys2Proof.Machine.execReduxFadd d a b s
  | .reduxFmin d a b => Sys2Proof.Machine.execReduxFmin d a b s
  | .reduxFmax d a b => Sys2Proof.Machine.execReduxFmax d a b s
  | .scanAdd d a b => Sys2Proof.Machine.execScanAdd d a b s
  | .scanFadd d a b => Sys2Proof.Machine.execScanFadd d a b s
  | .barinit a b => Sys2Proof.Machine.execBarinit a b s
  | .bararv d a => Sys2Proof.Machine.execBararv d a s
  | .barwait a b => Sys2Proof.Machine.execBarwait a b s
  | .barsync a => Sys2Proof.Machine.execBarsync a s
  | .nbararv d a => Sys2Proof.Machine.execNbararv d a s
  | .nbarwait a b => Sys2Proof.Machine.execNbarwait a b s
  | .nbarsync a => Sys2Proof.Machine.execNbarsync a s
  | .cinit n a => Sys2Proof.Machine.execCinit n a s
  | .msign d n => Sys2Proof.Machine.execMsign d n s
  | .cwait n b => Sys2Proof.Machine.execCwait n b s
  | .fenceB => Sys2Proof.Machine.execFenceB s
  | .fenceN => Sys2Proof.Machine.execFenceN s
  | .fenceQ => Sys2Proof.Machine.execFenceQ s
  | .fenceT => Sys2Proof.Machine.execFenceT s
  | .fenceS => Sys2Proof.Machine.execFenceS s
  | .ofence => Sys2Proof.Machine.execOfence s
  | .commit => Sys2Proof.Machine.execCommit s
  | .waitb n => Sys2Proof.Machine.execWaitb n s
  | .waitseq a e => Sys2Proof.Machine.execWaitseq a e s
  | .qwaitDone d a b => Sys2Proof.Machine.execQwaitDone d a b s
  | .qwaitTake d a b => Sys2Proof.Machine.execQwaitTake d a b s
  | .nichewait a => Sys2Proof.Machine.execNichewait a s
  | .tmovTr d t b o => Sys2Proof.Machine.execTmovTr d t b o s
  | .tmovTc d t b o => Sys2Proof.Machine.execTmovTc d t b o s
  | .tmovRt d t b o => Sys2Proof.Machine.execTmovRt d t b o s
  | .tmovCt d t b o => Sys2Proof.Machine.execTmovCt d t b o s
  | .tstat d t => Sys2Proof.Machine.execTstat d t s
  | .twait t => Sys2Proof.Machine.execTwait t s
  | .bload id p q k => Sys2Proof.Machine.execBload id p q k s
  | .mma id p q k => Sys2Proof.Machine.execMma id p q k s
  | .mmas id p q k => Sys2Proof.Machine.execMmas id p q k s
  | .tzero id p q k => Sys2Proof.Machine.execTzero id p q k s
  | .tdrain id p q k => Sys2Proof.Machine.execTdrain id p q k s
  | .tfill id p q k => Sys2Proof.Machine.execTfill id p q k s
  | .tfillDeclare b k1 => Sys2Proof.Machine.execTfillDeclare b k1 s
  | .tfillFill b k1 => Sys2Proof.Machine.execTfillFill b k1 s
  | .tfillRelease b k1 => Sys2Proof.Machine.execTfillRelease b k1 s
  | .xtrav id p q k => Sys2Proof.Machine.execXtrav id p q k s
  | .xtravRes id p q k => Sys2Proof.Machine.execXtravRes id p q k s
  | .copy id p q k => Sys2Proof.Machine.execCopy id p q k s
  | .scatter id p q k => Sys2Proof.Machine.execScatter id p q k s
  | .restripe id p q k => Sys2Proof.Machine.execRestripe id p q k s
  | .coll id p q k => Sys2Proof.Machine.execColl id p q k s
  | .collAllreduce b k1 => Sys2Proof.Machine.execCollAllreduce b k1 s
  | .collReduce b k1 => Sys2Proof.Machine.execCollReduce b k1 s
  | .collBroadcast b k1 => Sys2Proof.Machine.execCollBroadcast b k1 s
  | .collAllgather b k1 => Sys2Proof.Machine.execCollAllgather b k1 s
  | .collReducescatter b k1 => Sys2Proof.Machine.execCollReducescatter b k1 s
  | .enc id p q k => Sys2Proof.Machine.execEnc id p q k s
  | .encStart b k1 => Sys2Proof.Machine.execEncStart b k1 s
  | .encFrame b k1 => Sys2Proof.Machine.execEncFrame b k1 s
  | .encEnd b k1 => Sys2Proof.Machine.execEncEnd b k1 s
  | .emit id p q k => Sys2Proof.Machine.execEmit id p q k s
  | .ndone id p q k => Sys2Proof.Machine.execNdone id p q k s
  | .ndoneRel b k1 => Sys2Proof.Machine.execNdoneRel b k1 s
  | .ndoneFlush b k1 => Sys2Proof.Machine.execNdoneFlush b k1 s
  | .tcbarm id p q k => Sys2Proof.Machine.execTcbarm id p q k s
  | .tcbret id p q k => Sys2Proof.Machine.execTcbret id p q k s
  | .sadd d a b => Sys2Proof.Machine.execSadd d a b s
  | .ssub d a b => Sys2Proof.Machine.execSsub d a b s
  | .smul d a b => Sys2Proof.Machine.execSmul d a b s
  | .sand d a b => Sys2Proof.Machine.execSand d a b s
  | .sor d a b => Sys2Proof.Machine.execSor d a b s
  | .sxor d a b => Sys2Proof.Machine.execSxor d a b s
  | .sshl d a b => Sys2Proof.Machine.execSshl d a b s
  | .sshr d a b => Sys2Proof.Machine.execSshr d a b s
  | .ssar d a b => Sys2Proof.Machine.execSsar d a b s
  | .smin d a b => Sys2Proof.Machine.execSmin d a b s
  | .smax d a b => Sys2Proof.Machine.execSmax d a b s
  | .sminu d a b => Sys2Proof.Machine.execSminu d a b s
  | .smaxu d a b => Sys2Proof.Machine.execSmaxu d a b s
  | .scmp c p a b => Sys2Proof.Machine.execScmp c p a b s
  | .smov d a => Sys2Proof.Machine.execSmov d a s
  | .saddi d a k1 => Sys2Proof.Machine.execSaddi d a k1 s
  | .sshli d a n => Sys2Proof.Machine.execSshli d a n s
  | .sshri d a n => Sys2Proof.Machine.execSshri d a n s
  | .ssari d a n => Sys2Proof.Machine.execSsari d a n s
  | .v2s d a => Sys2Proof.Machine.execV2s d a s
  | .s2v d a => Sys2Proof.Machine.execS2v d a s
  | .sld32 d a b => Sys2Proof.Machine.execSld32 d a b s
  | .sst32 d a b => Sys2Proof.Machine.execSst32 d a b s
  | .sadd64 d a b => Sys2Proof.Machine.execSadd64 d a b s
  | .srd d n => Sys2Proof.Machine.execSrd d n s
  | .swr d n => Sys2Proof.Machine.execSwr d n s
  | .tret => Sys2Proof.Machine.execTret s
  | .tinv a => Sys2Proof.Machine.execTinv a s
  | .tinva => Sys2Proof.Machine.execTinva s
  | .pinv d a b => Sys2Proof.Machine.execPinv d a b s
  | .pinva d b => Sys2Proof.Machine.execPinva d b s
  | .launch d a b => Sys2Proof.Machine.execLaunch d a b s
  | .ckpt d => Sys2Proof.Machine.execCkpt d s
  | .keyset d a b => Sys2Proof.Machine.execKeyset d a b s
  | .keyerase a => Sys2Proof.Machine.execKeyerase a s
  | .ustat d a b => Sys2Proof.Machine.execUstat d a b s
  | .slnew d a b => Sys2Proof.Machine.execSlnew d a b s
  | .sldel d a => Sys2Proof.Machine.execSldel d a s
  | .slassign d a b => Sys2Proof.Machine.execSlassign d a b s
  | .slquiesce d a b => Sys2Proof.Machine.execSlquiesce d a b s
  | .slresume d a => Sys2Proof.Machine.execSlresume d a s
  | .slsplit d a b => Sys2Proof.Machine.execSlsplit d a b s
  | .slfuse d a => Sys2Proof.Machine.execSlfuse d a s
  | .slways d a b => Sys2Proof.Machine.execSlways d a b s
  | .slplace d a b => Sys2Proof.Machine.execSlplace d a b s
  | .slquota d a b => Sys2Proof.Machine.execSlquota d a b s
  | .slreset d a => Sys2Proof.Machine.execSlreset d a s
  | .slstat d a b => Sys2Proof.Machine.execSlstat d a b s
  | .rep n x y z t => Sys2Proof.Machine.execRep n x y z t s
  | .ifp p g => Sys2Proof.Machine.execIfp p g s
  | .limm t => Sys2Proof.Machine.execLimm t s
  | .swin w => Sys2Proof.Machine.execSwin w s
  | .trapEntry b k => Sys2Proof.Machine.execTrapEntry b k s
  | .spill b k => Sys2Proof.Machine.execSpill b k s
  | .fill b k => Sys2Proof.Machine.execFill b k s
  | .divideCompletion b k => Sys2Proof.Machine.execDivideCompletion b k s
  | .loadDataReturn b k => Sys2Proof.Machine.execLoadDataReturn b k s
  | .activeSetSwap core => Sys2Proof.Machine.execActiveSetSwap core s
  | .reformBinRelease core bin => Sys2Proof.Machine.execReformBinRelease core bin s
  | .sideLogRetry core => Sys2Proof.Machine.execSideLogRetry core s
  | .scrub line => Sys2Proof.Machine.execScrub line s
  | .restripeLineMove b k1 => Sys2Proof.Machine.execRestripeLineMove b k1 s
  | .commandStart b k1 => Sys2Proof.Machine.execCommandStart b k1 s
  | .commandRetire b k1 => Sys2Proof.Machine.execCommandRetire b k1 s
  | .migration b k1 core => Sys2Proof.Machine.execMigration b k1 core s
  | .leaseLapse sl => Sys2Proof.Machine.execLeaseLapse sl s
  | .overflowDrain b k1 => Sys2Proof.Machine.execOverflowDrain b k1 s
  | .nicheTimerExpiry launch node => Sys2Proof.Machine.execNicheTimerExpiry launch node s
  | .tcbSubmitRetry owner addr => Sys2Proof.Machine.execTcbSubmitRetry owner addr s
  | .launchCompletion launch => Sys2Proof.Machine.execLaunchCompletion launch s
  | .blockRetire b => Sys2Proof.Machine.execBlockRetire b s
  | .preemptionRequest blks kind => Sys2Proof.Machine.execPreemptionRequest blks kind s
  | .castWrite b => Sys2Proof.Machine.execCastWrite b s
  | .restore b core => Sys2Proof.Machine.execRestore b core s
  | .hang b => Sys2Proof.Machine.execHang b s
  | .preemptionNotice sl mask time => Sys2Proof.Machine.execPreemptionNotice sl mask time s
  | .noticeTimeReached sl => Sys2Proof.Machine.execNoticeTimeReached sl s
  | .quantumExpiry quad => Sys2Proof.Machine.execQuantumExpiry quad s
  | .notifyWrite port vf q v => Sys2Proof.Machine.execNotifyWrite port vf q v s
  | .admission sl => Sys2Proof.Machine.execAdmission sl s
  | .dispatchDecision sl => Sys2Proof.Machine.execDispatchDecision sl s
  | .functionLevelReset port vf => Sys2Proof.Machine.execFunctionLevelReset port vf s
  | .pfFunctionLevelReset port => Sys2Proof.Machine.execPfFunctionLevelReset port s
  | .conventionalReset port => Sys2Proof.Machine.execConventionalReset port s
  | .vfEnableWrite port num en => Sys2Proof.Machine.execVfEnableWrite port num en s
  | .bar2Access port vf off wr data => Sys2Proof.Machine.execBar2Access port vf off wr data s
  | .cqtailWrite port v => Sys2Proof.Machine.execCqtailWrite port v s
  | .controlKernelStart => Sys2Proof.Machine.execControlKernelStart s
  | .registerWrite port off v => Sys2Proof.Machine.execRegisterWrite port off v s
  | .mailboxWriteSlotA port => Sys2Proof.Machine.execMailboxWriteSlotA port s
  | .mailboxWriteSlotB port => Sys2Proof.Machine.execMailboxWriteSlotB port s
  | .mailboxRestartBoot port => Sys2Proof.Machine.execMailboxRestartBoot port s
  | .mailboxDone port => Sys2Proof.Machine.execMailboxDone port s
  | .powerUp => Sys2Proof.Machine.execPowerUp s
  | .quadrantControllerFailure quad => Sys2Proof.Machine.execQuadrantControllerFailure quad s
  | .armatureStop => Sys2Proof.Machine.execArmatureStop s
  | .keyLapse slot => Sys2Proof.Machine.execKeyLapse slot s
  | .linkTraining link verified => Sys2Proof.Machine.execLinkTraining link verified s
  | .linkDataFlit link head gen crcOk tagOk => Sys2Proof.Machine.execLinkDataFlit link head gen crcOk tagOk s
  | .linkIdleFlit link ack => Sys2Proof.Machine.execLinkIdleFlit link ack s
  | .linkReplayRequest link seq => Sys2Proof.Machine.execLinkReplayRequest link seq s
  | .linkRekeyMarker link gen => Sys2Proof.Machine.execLinkRekeyMarker link gen s
  | .linkRekey link => Sys2Proof.Machine.execLinkRekey link s
  | .linkOldGenerationExpiry link => Sys2Proof.Machine.execLinkOldGenerationExpiry link s
  | .diePortReplay pair ok => Sys2Proof.Machine.execDiePortReplay pair ok s
  | .inletOvertemperature pool => Sys2Proof.Machine.execInletOvertemperature pool s
  | .dieOvertemperature die => Sys2Proof.Machine.execDieOvertemperature die s
  | .commandCursorAdvance b k1 => Sys2Proof.Machine.execCommandCursorAdvance b k1 s
  | .accessPerformed b k => Sys2Proof.Machine.execAccessPerformed b k s
  | .powerDown => Sys2Proof.Machine.execPowerDown s
  | .softError struct loc bits => Sys2Proof.Machine.execSoftError struct loc bits s
  | .deviceLinkDown link => Sys2Proof.Machine.execDeviceLinkDown link s
  | .inletTemperatureRecovery => Sys2Proof.Machine.execInletTemperatureRecovery s

end Sys2Proof.Machine
end

