-- ==== Sys2Proof/Machine/Run.lean ====
section
/-! DEFINITION. One issue of a gang around `exec` (R36, R51 to R58, R158), the steps that agents take of themselves, and the state in
which a given word is the next to run. -/

namespace Sys2Proof.Machine

/-- The state after an outcome that is a next state goes on. -/
def thenDo (o : Outcome) (f : State → Outcome) : Outcome :=
  match o with
  | .next s => f s
  | .fault x => .fault x
  | .refused x => .refused x

/-- R57: every active thread raises ILLEGAL_OP at the word named. -/
def State.illegalAll (s : State) (bi : Nat) (tids : List Nat) (pc : Nat) (w : Word) : State :=
  tids.foldl (fun s k => s.takeTrapAt bi k { cause := .illegalOp, extra := w.setWidth 64 } (BitVec.ofNat 64 pc) w) s

/-- R14: every active thread raises what the fetch of its group met; the instruction word of its frame is not known. -/
def State.fetchFaultAll (s : State) (bi : Nat) (tids : List Nat) (tr : Trap) : State :=
  { tids.foldl (fun s k =>
      match s.thread? bi k with
      | none => s
      | some (_, t) => s.takeTrapAt bi k tr t.pc (Config.freeWord s.fresh 0)) s with fresh := s.fresh + 1 }

/-- R55: the prefix words of a group are latched, one after another. -/
noncomputable def runWords (s : State) : List (Nat × Word) → Outcome
  | [] => .next s
  | (_, w) :: rest =>
    match decodeWord w with
    | .ok i => thenDo (exec i s) (fun s => runWords s rest)
    | .error _ => runWords s rest

/-- R54, R55, R58, R89: one repeat of the instruction word: its stepped word decoded, then the range of the stepped fields, then `exec`. -/
noncomputable def runRepeat (s : State) : Outcome :=
  match s.cur.tids.head?.bind (fun k => s.thread? s.cur.blk k) with
  | none => .next s
  | some (_, t) =>
    let p := t.pfx
    if !p.repv then
      match decodeWord s.cur.word with
      | .ok i => exec i s
      | .error _ => .next (s.trapAll (s.wordTrap .illegalOp))
    else
      match decodeWord (stepWord s.cur.word p.sd p.sa p.sb p.next p.stride.toInt) with
      | .error _ => .next (s.trapAll (s.wordTrap .illegalOp))
      | .ok i =>
        match stepOffender s.cur.word p with
        | some x => .next (s.lanes (fun _ _ => .error (.regBound x)))
        | none => exec i s

/-- R14, R250: the fetch of a group waits for the side log: so do the active threads. -/
def State.fetchHeld (s : State) (bi : Nat) (tids : List Nat) (va n : Nat) : State :=
  tids.foldl (fun s k => s.stopBefore bi k (.wait (.load va n false))) s

/-- R158: the gang at place `gi` of the block at place `bi` issues its group, or one repeat of it. -/
noncomputable def runIssue (s : State) (bi gi : Nat) (g : Gang) : Outcome :=
  match s.blocks[bi]? with
  | none => .next s
  | some b =>
    let active := s.activeTids bi b g
    let (s, tids) := s.settleAll bi active
    let s := s.ageQuads bi g active
    let s := s.updBlock bi (fun b => { b with gangs := upd b.gangs gi (fun g => { g with last := some s.clock }) })
    match tids.head?.bind (fun k => s.thread? bi k) with
    | none => .next s
    | some (_, t) =>
      let pending := t.pfx.repv || t.pfx.ifpv
      match s.fetchGroup b t.level t.pc.toNat t.pfx with
      | .fault (.held n) va => .next (s.fetchHeld bi tids va n)
      | .fault f va => .next (s.fetchFaultAll bi tids (fetchTrap f (b.fetchReq t.level) va))
      | .illegal pc w => .next (s.illegalAll bi tids pc w)
      | .group gr =>
        let s := s.noteFetch b t.level gr.pc
        match (if pending then gr.checkResumed t.pfx else gr.check) with
        | .error (pc, w) => .next (s.illegalAll bi tids pc w)
        | .ok _ =>
          let lit := if pending then gr.limm.map (fun x => (limmTargetOf x.2, gr.lit)) else none
          let c : Issue :=
            { blk := bi, tids := tids, grp := BitVec.ofNat 64 gr.grp, pc := BitVec.ofNat 64 gr.pc
              next := BitVec.ofNat 64 (gr.pc + 4), word := gr.word, litWord := gr.lit, lit := lit }
          let ws := if pending then [] else gr.rep.toList ++ gr.ifp.toList ++ gr.limm.toList
          thenDo (runWords { s with cur := c } ws) runRepeat

/-- R163: decoder 1 of the core that holds the block at place `bi` still has a gang to choose beside the gang `g` of that block. -/
def State.forDecoder1 (s : State) (bi : Nat) (g : Gang) : Option (Nat × List Nat) :=
  (s.blocks[bi]?).bind (fun b => if (s.besideGang b.core (s.groupsOf bi g)).isSome then some (b.core, s.groupsOf bi g) else none)

/-- R163: threads take their turn: the active sets are filled, and a gang of decoder 0 issues, or the gang of decoder 1 beside it. -/
noncomputable def runThreads (s : State) : Option Outcome :=
  let s := s.regangAll
  let s := s.coresInUse.foldl State.swapActive s
  match s.decoder1 with
  | some (core, groups) =>
    let s := { s with decoder1 := none }
    some (((s.besideGang core groups).map (fun g => runIssue s g.1 g.2.1 g.2.2)).getD (.next s))
  | none => (s.nextGang).map (fun g => runIssue { s with decoder1 := s.forDecoder1 g.1 g.2.2 } g.1 g.2.1 g.2.2)

/-- An agent's turn: one of the steps open to agents, if there is one. -/
noncomputable def runAgent (s : State) : Option Outcome := s.agentStep.map (fun i => exec i { s with fresh := s.fresh + 2 })

/-- One step: what comes from outside or is due first; else decoder 1's issue, where decoder 0 has issued; else an agent's step or an issue,
whichever has the turn. -/
noncomputable def runStep (s : State) : Outcome :=
  match s.inputs with
  | i :: rest => exec i { s with inputs := rest }
  | [] =>
    if s.boot.stopped || !s.boot.powered then .fault .moduleStopped
    else (if s.agents && s.decoder1.isNone then runAgent s else runThreads s).getD (.next s)

/-- The block that `State.withFetchWord` places: one thread of level H on the armature core (R433) at address 0x1_0000. -/
def loaderBlock (s : State) : Block :=
  { uid := s.uids, launch := s.uids, owner := Config.ownerHv, num := 0, core := Config.armatureCore
    record := 0x10000 + 24 * 2 ^ 64 + 8 * 2 ^ 72 + 128 * 2 ^ 80 + 4096 * 2 ^ 96 + 2 * 2 ^ 152 + (2 ^ 32) * 2 ^ 192 + (2 ^ 32 + 2) * 2 ^ 256
    threads := [{ tid := 0, lane := 0, quad := 0, pc := 0x10000, regs := List.replicate 24 0, n := 24, f := 24, level := .h }]
    sregs := List.replicate 128 0, cregs := List.replicate 16 0
    ttab := (List.range 24).map (fun i => { decl := i < 8 }), spillBase := [0], spillDepth := [0]
    gangs := [{ quads := [0], active := true }] }

/-- A word and the words after it stored where the next step fetches, for a program loaded from outside (log entry 2): the loader's
block resident alone, its page at host-physical address 0 of HBM under the hypervisor's key slot. -/
def placeWord (s : State) (w : Nat) : State :=
  let sec := 0x10000 / 32
  { s with
    inputs := []
    agents := false
    later := false
    decoder1 := none
    remains := []
    boot := { s.boot with stopped := false, powered := true }
    blocks := [loaderBlock s]
    uids := s.uids + 1
    hvPlace := s.hvPlace.set 0 1
    moving := []
    sideLog := []
    tlb1 := [⟨Config.ownerHv, 0, 2 ^ 21, 0, 0x1F⟩]
    tlb2 := [⟨Config.ownerHv, 0, 2 ^ 21, (2 ^ 22 + 3 * 2 ^ 11 + 255) * 2 ^ 96 + 0x1F⟩]
    l2 := SMap.erase s.l2 (Config.ownerHv * 2 ^ 47 + sec)
    dramKey := SMap.erase s.dramKey sec
    dramPoison := SMap.erase s.dramPoison sec
    dram := Cells.writeList s.dram 0x10000 (toBytes 12 w) }

end Sys2Proof.Machine
end

