-- ==== Sys2Proof/Machine/Step.lean ====
section
/-! DEFINITION. One step of the module, and the state in which a given instruction runs next. -/

namespace Sys2Proof.Machine

/-- One step of the module; then waits that it has released count as progress (R375), and time has passed. -/
noncomputable def step (s : State) : Host.Outcome State Fault Refusal :=
  thenDo (runStep s) (fun x => .next (x.noteReleases s).passTime)

/-- `s` with the instruction whose first `nbits` bits are `w`, zeros after it, stored where `step` fetches next (log entry 2). -/
def State.withFetchWord (s : State) (_nbits w : Nat) : State := placeWord s w

end Sys2Proof.Machine
end

