-- ==== Sys2Proof/Safety.lean ====
section
/-! DEFINITION. What statements about the machine are made in: the canonical form of memory, the threads that an issue runs, and
what it means that a step leaves everything but named parts alone. -/

namespace Sys2Proof.Machine

/-- Device memory is in its one canonical form: addresses rising, no cell that an unlisted address reads as anyway. -/
abbrev Memory.wf (m : Cells) : Prop := m.wf = true

/-- A run is safe as long as the module has not stopped. -/
def Safe (o : Outcome) : Prop := ∃ s, o = .next s

/-- The block at the place in issue. -/
def State.issuing (s : State) (b : Block) : Prop := s.blocks[s.cur.blk]? = some b

/-- R157: the thread is one that the issue runs. -/
def State.runs (s : State) (t : Thread) : Prop := s.cur.tids.contains t.tid = true

/-- No thread that executes the group names a register beyond its window or a scalar register beyond .sregs, or reads a poisoned
register: vector fields `vs`, scalar fields `ss`, vector sources `srcs` (R17, R23, R230). -/
def State.regsOk (s : State) (b : Block) (vs ss srcs : List Nat) : Prop :=
  ∀ t ∈ b.threads, s.runs t → t.guardOk = true → checkRegs b t vs ss = none ∧ checkPoison t srcs = none

/-- The state after an issue in which every thread that executes the group did `f` and went on, and nothing else happened. -/
def State.afterEach (s : State) (f : Block → Thread → Thread) : State :=
  s.updBlock s.cur.blk (fun b => { b with
    threads := b.threads.map (fun t =>
      if s.cur.tids.contains t.tid then (if t.guardOk then (f b t).retire s.cur else t.retire s.cur) else t)
    progress := s.clock })

/-- Thread k of a block is number k. -/
def Block.Numbered (b : Block) : Prop := ∀ (k : Nat) (t : Thread), b.threads[k]? = some t → t.tid = k

/-- One thread alone issues, and its guard passes. -/
structure Solo (s : State) (b : Block) (t : Thread) : Prop where
  block : s.issuing b
  thread : b.threads[t.tid]? = some t
  alone : s.cur.tids = [t.tid]
  guard : t.guardOk = true
  numbered : b.Numbered

/-- A block that has made progress at a clock (R375). -/
def Block.progressAt (b : Block) (c : Nat) : Block := { b with progress := c }

/-- The block in issue has made progress (R375). -/
def State.progressed (s : State) : State := s.updBlock s.cur.blk (fun b => b.progressAt s.clock)

/-- Nothing in memory differs: device memory with its keys, poison and latent errors, the sectors in L2, on-chip words of no block and
of blocks that have left, and the scratchpad, accumulators and barrier granules of every block. -/
def SameMemory (s t : State) : Prop :=
  t.dram = s.dram ∧ t.dramKey = s.dramKey ∧ t.dramPoison = s.dramPoison ∧ t.latent = s.latent ∧ t.l2 = s.l2 ∧ t.sram = s.sram ∧
  t.sramPoison = s.sramPoison ∧ t.remains = s.remains ∧
  t.blocks.map (fun b => (b.scratch, b.scratchSeed, b.scratchPoison, b.rows, b.accPoison, b.live)) =
    s.blocks.map (fun b => (b.scratch, b.scratchSeed, b.scratchPoison, b.rows, b.accPoison, b.live))

/-- Nothing in a thread differs but its registers and predicates and where it stands in its program. -/
def SameSystem (t u : Thread) : Prop :=
  u.tid = t.tid ∧ u.n = t.n ∧ u.wb = t.wb ∧ u.f = t.f ∧ u.low = t.low ∧ u.swb = t.swb ∧ u.level = t.level ∧
  u.tvbs = t.tvbs ∧ u.tvbh = t.tvbh ∧ u.tvbf = t.tvbf ∧ u.tsps = t.tsps ∧ u.tsph = t.tsph ∧ u.tspf = t.tspf ∧
  u.openB = t.openB ∧ u.closedB = t.closedB ∧ u.exited = t.exited ∧ u.stopped = t.stopped ∧ u.pend = t.pend ∧
  u.unwaited = t.unwaited ∧ u.freed = t.freed ∧ u.filed = t.filed ∧ u.posted = t.posted ∧ u.flushing = t.flushing

/-- No field that an instruction names is beyond the thread's window or .sregs, and no source is poisoned. -/
def FieldsOk (b : Block) (t : Thread) (vs ss srcs : List Nat) : Prop := checkRegs b t vs ss = none ∧ checkPoison t srcs = none

/-! ## Shapes of register instructions (R37, R84 to R87) -/

/-- In every state whose block in issue has its registers in order, the instruction answers the state in which every thread that
executes the group did `f` and went on. -/
def Does (i : Instr) (vs ss srcs : State → List Nat) (f : State → Block → Thread → Thread) : Prop :=
  ∀ s b, s.issuing b → s.regsOk b (vs s) (ss s) (srcs s) → exec i s = .next (s.afterEach (f s))

/-- D ← f A. -/
def Unary (i : Instr) (d a : Reg) (f : Word → Word) : Prop :=
  Does i (fun s => d.toNat :: s.vecA a.toNat 1) (fun _ => []) (fun s => s.vecA a.toNat 1) (fun s _ t => t.put d.toNat (f (s.opA t a.toNat)))

/-- D ← f A64. -/
def UnaryOfPair (i : Instr) (d a : Reg) (f : DWord → Word) : Prop :=
  Does i (fun s => d.toNat :: s.vecA a.toNat 2) (fun _ => []) (fun s => s.vecA a.toNat 2) (fun s _ t => t.put d.toNat (f (s.opA64 t a.toNat)))

/-- D64 ← f A. -/
def UnaryToPair (i : Instr) (d a : Reg) (f : Word → DWord) : Prop :=
  Does i (fun s => [d.toNat, d.toNat + 1] ++ s.vecA a.toNat 1) (fun _ => []) (fun s => s.vecA a.toNat 1)
    (fun s _ t => t.put64 d.toNat (f (s.opA t a.toNat)))

/-- D64 ← f A64. -/
def UnaryPair (i : Instr) (d a : Reg) (f : DWord → DWord) : Prop :=
  Does i (fun s => [d.toNat, d.toNat + 1] ++ s.vecA a.toNat 2) (fun _ => []) (fun s => s.vecA a.toNat 2)
    (fun s _ t => t.put64 d.toNat (f (s.opA64 t a.toNat)))

/-- D ← f A B. -/
def Binary (i : Instr) (d a b : Reg) (sb : Bool) (f : Word → Word → Word) : Prop :=
  Does i (fun s => d.toNat :: (s.vecA a.toNat 1 ++ s.vecB b.toNat 1 sb)) (fun _ => State.scaB b.toNat 1 sb)
    (fun s => s.vecA a.toNat 1 ++ s.vecB b.toNat 1 sb)
    (fun s blk t => t.put d.toNat (f (s.opA t a.toNat) (s.opB blk t b.toNat sb)))

/-- D ← f A B by the iterative divider (R107): at once, or, where the result comes later, as a return on its way to d (log entry 95). -/
def Divide (i : Instr) (d a b : Reg) (sb : Bool) (f : Word → Word → Word) : Prop :=
  (∀ s blk, s.issuing blk → s.later = false →
    s.regsOk blk (d.toNat :: (s.vecA a.toNat 1 ++ s.vecB b.toNat 1 sb)) (State.scaB b.toNat 1 sb) (s.vecA a.toNat 1 ++ s.vecB b.toNat 1 sb) →
    exec i s = .next (s.afterEach (fun blk t => t.put d.toNat (f (s.opA t a.toNat) (s.opB blk t b.toNat sb))))) ∧
  (∀ s blk t, Solo s blk t → s.later = true →
    FieldsOk blk t (d.toNat :: (s.vecA a.toNat 1 ++ s.vecB b.toNat 1 sb)) (State.scaB b.toNat 1 sb) (s.vecA a.toNat 1 ++ s.vecB b.toNat 1 sb) →
    exec i s = .next ((s.progressed.updBlock s.cur.blk (fun c => { c with
      returns := c.returns ++ [{ tid := t.tid, width := 4, pos := t.wb + d.toNat, value := (f (s.opA t a.toNat) (s.opB blk t b.toNat sb)).toNat, divide := true }] })).retireLane t.tid))

/-- D ← f A B D. -/
def Ternary (i : Instr) (d a b : Reg) (sb : Bool) (f : Word → Word → Word → Word) : Prop :=
  Does i (fun s => d.toNat :: (s.vecA a.toNat 1 ++ s.vecB b.toNat 1 sb)) (fun _ => State.scaB b.toNat 1 sb)
    (fun s => d.toNat :: (s.vecA a.toNat 1 ++ s.vecB b.toNat 1 sb))
    (fun s blk t => t.put d.toNat (f (s.opA t a.toNat) (s.opB blk t b.toNat sb) (t.get d.toNat)))

/-- D64 ← f A B. -/
def BinaryToPair (i : Instr) (d a b : Reg) (sb : Bool) (f : Word → Word → DWord) : Prop :=
  Does i (fun s => [d.toNat, d.toNat + 1] ++ (s.vecA a.toNat 1 ++ s.vecB b.toNat 1 sb)) (fun _ => State.scaB b.toNat 1 sb)
    (fun s => s.vecA a.toNat 1 ++ s.vecB b.toNat 1 sb)
    (fun s blk t => t.put64 d.toNat (f (s.opA t a.toNat) (s.opB blk t b.toNat sb)))

/-- D64 ← f A64 B64. -/
def BinaryPair (i : Instr) (d a b : Reg) (sb : Bool) (f : DWord → DWord → DWord) : Prop :=
  Does i (fun s => [d.toNat, d.toNat + 1] ++ (s.vecA a.toNat 2 ++ s.vecB b.toNat 2 sb)) (fun _ => State.scaB b.toNat 2 sb)
    (fun s => s.vecA a.toNat 2 ++ s.vecB b.toNat 2 sb)
    (fun s blk t => t.put64 d.toNat (f (s.opA64 t a.toNat) (s.opB64 blk t b.toNat sb)))

/-- D64 ← f A64 B64 D64. -/
def TernaryPair (i : Instr) (d a b : Reg) (sb : Bool) (f : DWord → DWord → DWord → DWord) : Prop :=
  Does i (fun s => [d.toNat, d.toNat + 1] ++ (s.vecA a.toNat 2 ++ s.vecB b.toNat 2 sb)) (fun _ => State.scaB b.toNat 2 sb)
    (fun s => [d.toNat, d.toNat + 1] ++ (s.vecA a.toNat 2 ++ s.vecB b.toNat 2 sb))
    (fun s blk t => t.put64 d.toNat (f (s.opA64 t a.toNat) (s.opB64 blk t b.toNat sb) (t.get64 d.toNat)))

/-- D64 ← f A64 B, B a single register (R98). -/
def ShiftPair (i : Instr) (d a b : Reg) (sb : Bool) (f : DWord → Word → DWord) : Prop :=
  Does i (fun s => [d.toNat, d.toNat + 1] ++ (s.vecA a.toNat 2 ++ s.vecB b.toNat 1 sb)) (fun _ => State.scaB b.toNat 1 sb)
    (fun s => s.vecA a.toNat 2 ++ s.vecB b.toNat 1 sb)
    (fun s blk t => t.put64 d.toNat (f (s.opA64 t a.toNat) (s.opB blk t b.toNat sb)))

/-- Predicate p ← f A B (R41). -/
def Compare (i : Instr) (p : BitVec 3) (a b : Reg) (sb : Bool) (f : Word → Word → Bool) : Prop :=
  Does i (fun s => s.vecA a.toNat 1 ++ s.vecB b.toNat 1 sb) (fun _ => State.scaB b.toNat 1 sb)
    (fun s => s.vecA a.toNat 1 ++ s.vecB b.toNat 1 sb)
    (fun s blk t => t.putPred p.toNat (f (s.opA t a.toNat) (s.opB blk t b.toNat sb)))

/-- Predicate p ← f A64 B64 (R41). -/
def ComparePair (i : Instr) (p : BitVec 3) (a b : Reg) (sb : Bool) (f : DWord → DWord → Bool) : Prop :=
  Does i (fun s => s.vecA a.toNat 2 ++ s.vecB b.toNat 2 sb) (fun _ => State.scaB b.toNat 2 sb)
    (fun s => s.vecA a.toNat 2 ++ s.vecB b.toNat 2 sb)
    (fun s blk t => t.putPred p.toNat (f (s.opA64 t a.toNat) (s.opB64 blk t b.toNat sb)))

/-- D ← f A and the immediate, or the literal in its place (R42, R96). -/
def WithImm (i : Instr) (d a : Reg) (x : Word) (f : Word → Word → Word) : Prop :=
  Does i (fun _ => [d.toNat, a.toNat]) (fun _ => []) (fun _ => [a.toNat]) (fun s _ t => t.put d.toNat (f (t.get a.toNat) (s.immOr x)))

/-! ## States that instructions of other shapes leave -/

/-- Every active thread changed, whatever its guard. -/
def State.withActive (s : State) (f : Thread → Thread) : State :=
  s.updBlock s.cur.blk (fun b => { b with threads := b.threads.map (fun t => if s.cur.tids.contains t.tid then f t else t) })

/-- The state after an issue in which every thread that executes the group became `f` of it, and one whose guard fails went on. -/
def State.afterTurn (s : State) (f : Thread → Thread) : State :=
  s.updBlock s.cur.blk (fun b => { b with
    threads := b.threads.map (fun t =>
      if s.cur.tids.contains t.tid then (if t.guardOk then f t else t.retire s.cur) else t)
    progress := s.clock })

/-- The state in which the thread `t`, which issued alone, has become `u`. -/
def State.becomes (s : State) (t u : Thread) : State := s.progressed.updThread s.cur.blk t.tid (fun _ => u)

/-- The state in which the thread `t`, which issued alone, has become `u` and goes on to its next group or repeat. -/
def State.done (s : State) (t u : Thread) : State := s.becomes t (u.retire s.cur)

/-- No thread of the block waits in a rendezvous. -/
def Block.NoMeeting (b : Block) : Prop := ∀ t ∈ b.threads, t.arrival = none

/-- The threads of a block that the issue runs. -/
def State.runners (s : State) (b : Block) : List Thread := b.threads.filter (fun t => s.cur.tids.contains t.tid)

/-- R178, R179: the issue runs exactly the members of aligned group m that the mask M names, and each of them names M. -/
structure Meets (s : State) (b : Block) (m : Nat) (M : DWord) (v : Nat) : Prop where
  block : s.issuing b
  numbered : b.Numbered
  idle : b.NoMeeting
  group : s.cur.tids ≠ [] ∧ ∀ k ∈ s.cur.tids, k / 64 = m ∧ k < b.threads.length
  named : ∀ k < 64, M.getLsbD k = s.cur.tids.contains (64 * m + k)
  each : ∀ t ∈ s.runners b, t.guardOk = true ∧ t.exited = false ∧ b.sget64 t v ||| BitVec.twoPow 64 (t.tid % 64) = M

/-- The state after a rendezvous in which every thread that the issue runs did `f` and went to its next group. -/
def State.afterMeet (s : State) (b : Block) (f : Thread → Thread) : State :=
  s.afterTurn (fun t => { (f t).jump s.cur.next with waitWord := s.cur.word, oview := ((s.runners b).map (·.oview)).foldl max 0 })

/-- The state after a thread alone wrote a scalar register, by its number in the block. -/
def State.afterScalar (s : State) (t : Thread) (i : Nat) (x : Word) : State :=
  (s.updBlock s.cur.blk (fun b => b.sput i x)).done t t

/-- R214, R301: byte x of the scratchpad of the block `c` is undefined to thread t of the block `b`: a tile at work has it, or a command that
no wait of the thread covers may write it. -/
def Block.undefAt (b : Block) (t : Thread) (c : Block) (x : Nat) : Bool := c.inBusyTile x 1 || b.spPending t c x

/-- R214, R301: to thread t of the block `b`, bytes [x, x + n) of the scratchpad of the block `c` are all defined. -/
def Block.Settled (b : Block) (t : Thread) (c : Block) (x n : Nat) : Prop := ∀ i < n, b.undefAt t c (x + i) = false

/-- R214, R228, R301: they are defined, and none is poisoned. -/
def Block.Quiet (b : Block) (t : Thread) (c : Block) (x n : Nat) : Prop := b.Settled t c x n ∧ c.scratchSyndrome x n = none

/-- R301: no retired command that the waits of threads do not cover wrote bytes [x, x + n) of the scratchpad of the block `c`. -/
def Block.Covered (b : Block) (t : Thread) (c : Block) (x n : Nat) : Prop := ∀ i < n, b.spUncovered t c (x + i) = false

/-- R10: bytes of which those where `f` holds are undefined: the state's next draw. -/
def State.drawn (s : State) (f : Nat → Bool) (bytes : List Byte) : List Byte :=
  bytes.zipIdx.map (fun p => if f p.2 then Config.freeByte s.fresh p.2 else p.1)

/-- R10: the state after a draw. -/
def State.drew (s : State) : State := { s with fresh := s.fresh + 1 }

/-- The state after a thread stored bytes at x in the scratchpad of the block c at place p: the bytes are there, engines that lag may
still read what they replaced (R261), and tiles and commands of either block that the store meets are spoilt (R214, R301). -/
def State.afterStore (s : State) (p : Nat) (c : Block) (x : Nat) (bytes : List Byte) : State :=
  let s' := (s.noteStale 1 c.uid (cellsAt x (c.scratchBytes x bytes.length))).updBlock p (fun b =>
    ((b.putScratch x bytes).spoil x bytes.length).spoilWrites 0 x bytes.length)
  match c.windowAt x with
  | none => s'
  | some y => s'.updBlock s.cur.blk (fun b => b.spoilWrites 2 y bytes.length)

/-! ## Waits -/

/-- The thread waits on no barrier object, and no BARSYNC of it stands between its arrival and its wait (R198). -/
def Thread.OffBarriers (t : Thread) : Prop := t.freed = false ∧ t.synced = [] ∧ ∀ win addr token arrived, t.wait ≠ .barrier win addr token arrived

/-- The thread waits on no convergence register. -/
def Thread.OffRegisters (t : Thread) : Prop := t.freed = false ∧ ∀ n token, t.wait ≠ .conv n token

/-! ## Barrier objects -/

/-- R190: register a of a BAR form (win = false) or NBAR form names, for thread t of block b, offset x of the scratchpad of the block c
at place p, where an object may stand. -/
structure BarrierAt (s : State) (b : Block) (t : Thread) (win : Bool) (a p : Nat) (c : Block) (x : Nat) : Prop where
  own : win = false → (b.sget64 t a).toNat = x ∧ p = s.cur.blk ∧ x < 2 ^ 18
  window : win = true → (b.sget t a).toNat % 262144 = x ∧ s.nbhdBlock s.cur.blk ((b.sget t a).toNat / 262144) = some p ∧
    (b.sget t a).toNat / 262144 < recNrows b.record * recNcols b.record
  home : s.blocks[p]? = some c
  aligned : x % 16 = 0
  inside : x + 16 ≤ b.scratchSize

/-- R189, R216: the object at offset x of a scratchpad. -/
def Block.barrier (c : Block) (x : Nat) : Barrier := Barrier.ofNat (ofBytes (c.scratchBytes x 16)) (c.live.contains (x / 16))

/-- R189, R216: a scratchpad with an object written whole at x, and its live granule. -/
def Block.putBarrier (c : Block) (x : Nat) (o : Barrier) : Block :=
  { c.putScratch x o.bytes with
    live := if o.live then (if c.live.contains (x / 16) then c.live else x / 16 :: c.live) else c.live.filter (· != x / 16) }

/-- R189, R191: the state after an object of a scratchpad is written whole by a thread of block b at level l, with the waiters that it
releases. -/
def State.withBarrier (s : State) (b : Block) (l : Level) (p x : Nat) (o : Barrier) : State :=
  (s.updBlock p (fun c => c.putBarrier x o)).barRelease (ownerAt b.owner l) (.scratch p x) o

/-- R259: what a block remembers an object of its own scratchpad by, whichever form names it, and one of another by its window offset. -/
def State.padKey (s : State) (addr p x : Nat) : Nat := if p = s.cur.blk then x else 2 ^ 65 + addr

/-- R191: the state after one thread's arrival at an object whose address is `addr`: the object written back, and what arrivals there
have ordered (R259). -/
def State.afterArrival (s : State) (b : Block) (addr p x : Nat) (o : Barrier) (t : Thread) : State :=
  (s.progressed.withBarrier b t.level p x o).updBlock s.cur.blk (fun c => c.noteArrival (s.padKey addr p x) t)

/-! ## Accesses -/

/-- R271: address x of an access of w bytes to the scratchpad (win = false) or the window lies at offset y of the scratchpad of the block c
at place p. -/
structure LocalAt (s : State) (b : Block) (win : Bool) (x w p : Nat) (c : Block) (y : Nat) : Prop where
  own : win = false → p = s.cur.blk ∧ y = x ∧ x + w ≤ b.scratchSize
  window : win = true → s.nbhdBlock s.cur.blk (x / 262144) = some p ∧ x / 262144 < recNrows b.record * recNcols b.record ∧
    y = x % 262144 ∧ y + w ≤ b.scratchSize
  home : s.blocks[p]? = some c
  aligned : x % w = 0

/-- A translated address lies in device memory. -/
def Xlated.InDram (x : Xlated) : Prop := ∃ h slot g, x.place = .dram h slot g

/-- The state in which a store of thread t to the n bytes at `va` is performed: the translation kept (R232), commands that it meets
spoilt (R301), and host writes remembered (R264). -/
def State.atAccess (s : State) (t : Thread) (q : Req) (x : Xlated) (va n : Nat) : State :=
  ((s.noteXl x).spoilDevice s.cur.blk q va n).updThread s.cur.blk t.tid (fun u => { u with posted := u.posted || x.place.inHost })

/-! ## Commands at work -/

/-- Command i of block b is at work: its block, resident and not halted, is `blk` at place p, and its entry is `c`. -/
structure Working (s : State) (b i p : Nat) (blk : Block) (c : Cmd) : Prop where
  here : s.cmdAt b i = some (p, blk, c)
  running : c.running = true
  undone : c.fin = none
  going : blk.halted = none

/-- R300: a command's work is over with a status, DETAIL and AUX. -/
def State.over (s : State) (p : Nat) (c : Cmd) (code detail aux : Nat) : State :=
  s.updCmd p c.uid (fun c => { c with fin := some code, detail := detail, aux := aux })

/-- R299, R261: a command that is to start has its view point. -/
def State.poised (s : State) (p : Nat) (c : Cmd) (view : Nat) : State :=
  s.updCmd p c.uid (fun _ => { c with view := view, arrived := some (c.arrived.getD s.clock) })

/-- R299, R261, R213: a command that starts has its view point and runs, and its tiles are marked. -/
def State.starting (s : State) (p : Nat) (c : Cmd) (view : Nat) : State :=
  let c' := { c with view := view, arrived := some (c.arrived.getD s.clock) }
  (((s.poised p c view).opened c').updBlock p (fun b => (b.freshTiles c').markTiles c')).updCmd p c.uid (fun d => { d with running := true })

/-- R366: a command's cursor moved on by n; at `total` its work is done, with a DETAIL. -/
def State.goesOn (s : State) (p : Nat) (c : Cmd) (n total detail : Nat) : State :=
  let s' := s.updCmd p c.uid (fun d => { d with cursor := d.cursor + n })
  if c.cursor + n < total then s' else s'.over p c 0 detail 0

/-! ## Slice requests -/

/-- R413: a thread that issues alone on the armature core, at level H or above, while no request is in hand. -/
structure Asks (s : State) (b : Block) (t : Thread) : Prop where
  solo : Solo s b t
  core : b.core = Config.armatureCore
  level : t.level.ge .h = true
  idle : s.request = none

/-- R413: the answer to a request of thread t of the block b: a status in register d, and the thread goes on. -/
def State.answers (s : State) (b : Block) (t : Thread) (d : Reg) (x : Nat) : Outcome :=
  let s' := s.reseat b.uid
  .next (s'.updThread s'.cur.blk t.tid (fun u => (u.put d.toNat (BitVec.ofNat 32 x)).retire s'.cur))

/-- R413: the request of the thread stays in hand, and its group is tried again. -/
def State.inHand (s : State) (b : Block) (t : Thread) : Outcome :=
  let s' := State.reseat { s with request := some (b.uid, t.tid) } b.uid
  .next (s'.updThread s'.cur.blk t.tid (fun u => u.hold s'.cur .none))

end Sys2Proof.Machine
end

