-- ==== Sys2Proof/Certificates/Slice0/Obligations.lean ====
section
/-! DEFINITION. What the provers are asked to show of the model. Each statement says which rules of the spec it is made from. -/

open Sys2Proof Sys2Proof.Machine

/-! ## Encodings (R36 to R50, R57) -/

/-- R36, R57: reading back the word of a well-formed instruction gives that instruction, with every operand. -/
def Obligations.DecodeOfEncode : Prop :=
  ∀ (i : Instr) (w : Word), i.defect = none → encode i = some w → decodeWord w = .ok i

/-- R36, R57: a word has one meaning: whatever word decodes is the word of what it decodes to, which is well-formed. -/
def Obligations.EncodeOfDecode : Prop :=
  ∀ (i : Instr) (w : Word), decodeWord w = .ok i → encode i = some w ∧ i.defect = none

/-- Words that the manual writes out as examples: SHRI v5, v9, 13 and MOVI v6, −5 (R96), FFMA.HA and HFMA2.RD, FRCP (R294), IDP4 v1, v2, s6 and
LD.64 v10, s16[v3 + 24], BRA −3 words, LAND and NOP (R138), REDUX.FADD and BARARV (R294), BLOAD 3, s8, SADDI s5, s5, −1, SRD v2, %devtime and
TRET; and the all-zero word, which is no instruction (R57). -/
def Obligations.ManualWords : Prop :=
  decodeWord 0x10A2710D = .ok (.shri 5 9 13) ∧ decodeWord 0x10DFFFFB = .ok (.movi 6 (BitVec.ofInt 18 (-5))) ∧
  decodeWord 0x31000222 = .ok (.ffma 8 0 4 false true false 0) ∧ decodeWord 0x5081430A = .ok (.hfma2 4 5 6 false 2) ∧
  decodeWord 0x42244010 = .ok (.frcp 17 17) ∧ decodeWord 0x50208379 = .ok (.idp4 1 2 6 true) ∧
  decodeWord 0x6140C8C3 = .ok (.ld 10 3 4 3 3) ∧ decodeWord 0x803FFFFD = .ok (.bra (BitVec.ofInt 22 (-3))) ∧
  decodeWord 0x90000003 = .ok .land ∧ decodeWord 0x90000008 = .ok .nop ∧
  decodeWord 0xA1020110 = .ok (.reduxFadd 8 8 2) ∧ decodeWord 0xA1C08021 = .ok (.bararv 14 2) ∧
  decodeWord 0xC0FFFC20 = .ok (.bload 3 63 63 1) ∧ decodeWord 0xD0A17F90 = .ok (.saddi 5 5 (BitVec.ofInt 7 (-1))) ∧
  decodeWord 0xE0402000 = .ok (.srd 2 0x40) ∧ decodeWord 0xE0000002 = .ok .tret ∧ decodeWord 0 = .error .unassigned

/-! ## Integer instructions (R90 to R105) -/

/-- R64, R90: sums, differences, products and bounds of words and register pairs, exact and reduced modulo 2^32 or 2^64, or clamped;
quotients truncated toward zero and their remainders, and what a zero divisor gives; the words of class 0x0 that stand for them.
The model's own, by the assumption log: 95 (which quotients come later, R107). -/
def Obligations.IntegerArithmetic : Prop :=
  ∀ (d a b : Reg) (sb : Bool),
    let coded (i : Instr) (code : Nat) : Prop :=
      encode i = some (BitVec.ofNat 32 (d.toNat * 2 ^ 21 + a.toNat * 2 ^ 14 + b.toNat * 2 ^ 7 + sb.toNat * 2 ^ 6 + code))
    Binary (.iadd d a b sb) d a b sb (fun x y => BitVec.ofInt 32 (x.toInt + y.toInt)) ∧
    Binary (.isub d a b sb) d a b sb (fun x y => BitVec.ofInt 32 (x.toInt - y.toInt)) ∧
    Binary (.imul d a b sb) d a b sb (fun x y => BitVec.ofInt 32 (x.toInt * y.toInt)) ∧
    Binary (.imulhi d a b sb) d a b sb (fun x y => BitVec.ofInt 32 (x.toInt * y.toInt / 2 ^ 32)) ∧
    Binary (.imulhiu d a b sb) d a b sb (fun x y => BitVec.ofNat 32 (x.toNat * y.toNat / 2 ^ 32)) ∧
    Ternary (.imad d a b sb) d a b sb (fun x y z => BitVec.ofInt 32 (x.toInt * y.toInt + z.toInt)) ∧
    Unary (.iabs d a) d a (fun x => BitVec.ofInt 32 |x.toInt|) ∧
    Binary (.imin d a b sb) d a b sb (fun x y => BitVec.ofInt 32 (min x.toInt y.toInt)) ∧
    Binary (.imax d a b sb) d a b sb (fun x y => BitVec.ofInt 32 (max x.toInt y.toInt)) ∧
    Binary (.iminu d a b sb) d a b sb (fun x y => BitVec.ofNat 32 (min x.toNat y.toNat)) ∧
    Binary (.imaxu d a b sb) d a b sb (fun x y => BitVec.ofNat 32 (max x.toNat y.toNat)) ∧
    Binary (.iadds d a b sb) d a b sb (fun x y => BitVec.ofInt 32 (max (-2147483648) (min 2147483647 (x.toInt + y.toInt)))) ∧
    Binary (.isubs d a b sb) d a b sb (fun x y => BitVec.ofInt 32 (max (-2147483648) (min 2147483647 (x.toInt - y.toInt)))) ∧
    Binary (.iaddus d a b sb) d a b sb (fun x y => BitVec.ofNat 32 (min 4294967295 (x.toNat + y.toNat))) ∧
    Binary (.isubus d a b sb) d a b sb (fun x y => BitVec.ofNat 32 (x.toNat - y.toNat)) ∧
    Binary (.iaddsh1 d a b sb) d a b sb (fun x y => BitVec.ofNat 32 (x.toNat * 2 + y.toNat)) ∧
    Binary (.iaddsh2 d a b sb) d a b sb (fun x y => BitVec.ofNat 32 (x.toNat * 4 + y.toNat)) ∧
    Binary (.iaddsh3 d a b sb) d a b sb (fun x y => BitVec.ofNat 32 (x.toNat * 8 + y.toNat)) ∧
    Binary (.iaddsh4 d a b sb) d a b sb (fun x y => BitVec.ofNat 32 (x.toNat * 16 + y.toNat)) ∧
    Divide (.idiv d a b sb) d a b sb (fun x y => if y = 0 then 0xFFFFFFFF else BitVec.ofInt 32 (x.toInt.tdiv y.toInt)) ∧
    Divide (.irem d a b sb) d a b sb (fun x y => if y = 0 then x else x - BitVec.ofInt 32 (x.toInt.tdiv y.toInt) * y) ∧
    Divide (.idivu d a b sb) d a b sb (fun x y => if y = 0 then 0xFFFFFFFF else BitVec.ofNat 32 (x.toNat / y.toNat)) ∧
    Divide (.iremu d a b sb) d a b sb (fun x y => if y = 0 then x else x - BitVec.ofNat 32 (x.toNat / y.toNat) * y) ∧
    BinaryPair (.iadd64 d a b sb) d a b sb (fun x y => BitVec.ofInt 64 (x.toInt + y.toInt)) ∧
    BinaryPair (.isub64 d a b sb) d a b sb (fun x y => BitVec.ofInt 64 (x.toInt - y.toInt)) ∧
    BinaryToPair (.imulw d a b sb) d a b sb (fun x y => BitVec.ofInt 64 (x.toInt * y.toInt)) ∧
    BinaryToPair (.imulwu d a b sb) d a b sb (fun x y => BitVec.ofNat 64 (x.toNat * y.toNat)) ∧
    coded (.iadd d a b sb) 0x01 ∧ coded (.isub d a b sb) 0x02 ∧ coded (.imul d a b sb) 0x03 ∧
    coded (.imulhi d a b sb) 0x04 ∧ coded (.imulhiu d a b sb) 0x05 ∧ coded (.imad d a b sb) 0x06 ∧
    coded (.idiv d a b sb) 0x08 ∧ coded (.idivu d a b sb) 0x09 ∧ coded (.irem d a b sb) 0x0A ∧
    coded (.iremu d a b sb) 0x0B ∧ coded (.imin d a b sb) 0x0C ∧ coded (.imax d a b sb) 0x0D ∧
    coded (.iminu d a b sb) 0x0E ∧ coded (.imaxu d a b sb) 0x0F ∧ coded (.iadds d a b sb) 0x10 ∧
    coded (.isubs d a b sb) 0x11 ∧ coded (.iaddus d a b sb) 0x12 ∧ coded (.isubus d a b sb) 0x13 ∧
    coded (.iadd64 d a b sb) 0x14 ∧ coded (.isub64 d a b sb) 0x15 ∧ coded (.imulw d a b sb) 0x16 ∧
    coded (.imulwu d a b sb) 0x17 ∧ coded (.iaddsh1 d a b sb) 0x1C ∧ coded (.iaddsh2 d a b sb) 0x1D ∧
    coded (.iaddsh3 d a b sb) 0x1E ∧ coded (.iaddsh4 d a b sb) 0x1F ∧
    (b = 0 → sb = false → coded (.iabs d a) 0x07)

/-- R91: both widths of compare under the eight conditions of R41 (EQ, NE, LT, LE, GT, GE, LTU, GEU), and their words: the condition in
[27:25] and the predicate in [23:21]. -/
def Obligations.IntegerCompares : Prop :=
  ∀ (p : BitVec 3) (a b : Reg) (sb : Bool),
    (Compare (.icmp 0 p a b sb) p a b sb (fun x y => x == y) ∧ ComparePair (.icmp64 0 p a b sb) p a b sb (fun x y => x == y)) ∧
    (Compare (.icmp 1 p a b sb) p a b sb (fun x y => x != y) ∧ ComparePair (.icmp64 1 p a b sb) p a b sb (fun x y => x != y)) ∧
    (Compare (.icmp 2 p a b sb) p a b sb (fun x y => x.toInt < y.toInt) ∧ ComparePair (.icmp64 2 p a b sb) p a b sb (fun x y => x.toInt < y.toInt)) ∧
    (Compare (.icmp 3 p a b sb) p a b sb (fun x y => x.toInt ≤ y.toInt) ∧ ComparePair (.icmp64 3 p a b sb) p a b sb (fun x y => x.toInt ≤ y.toInt)) ∧
    (Compare (.icmp 4 p a b sb) p a b sb (fun x y => y.toInt < x.toInt) ∧ ComparePair (.icmp64 4 p a b sb) p a b sb (fun x y => y.toInt < x.toInt)) ∧
    (Compare (.icmp 5 p a b sb) p a b sb (fun x y => y.toInt ≤ x.toInt) ∧ ComparePair (.icmp64 5 p a b sb) p a b sb (fun x y => y.toInt ≤ x.toInt)) ∧
    (Compare (.icmp 6 p a b sb) p a b sb (fun x y => x.toNat < y.toNat) ∧ ComparePair (.icmp64 6 p a b sb) p a b sb (fun x y => x.toNat < y.toNat)) ∧
    (Compare (.icmp 7 p a b sb) p a b sb (fun x y => y.toNat ≤ x.toNat) ∧ ComparePair (.icmp64 7 p a b sb) p a b sb (fun x y => y.toNat ≤ x.toNat)) ∧
    (∀ c : BitVec 3,
      encode (.icmp c p a b sb) = some (BitVec.ofNat 32
        (c.toNat * 2 ^ 25 + p.toNat * 2 ^ 21 + a.toNat * 2 ^ 14 + b.toNat * 2 ^ 7 + sb.toNat * 2 ^ 6 + 0x18)) ∧
      encode (.icmp64 c p a b sb) = some (BitVec.ofNat 32
        (c.toNat * 2 ^ 25 + p.toNat * 2 ^ 21 + a.toNat * 2 ^ 14 + b.toNat * 2 ^ 7 + sb.toNat * 2 ^ 6 + 0x19)))

/-- R92 to R94: select, moves and extensions; MOVRI and MOVWI reach the register whose number A gives, and raise REG_BOUND with that
number where it is not below F.
R104: predicate operations: PLOP looks its two predicates up in its table, P2V and V2P move all eight. -/
def Obligations.SelectMoveAndPredicates : Prop :=
  ((∀ (d a b : Reg) (sb : Bool) (q : BitVec 3),
     Does (.sel d a b sb q) (fun s => d.toNat :: (s.vecA a.toNat 1 ++ s.vecB b.toNat 1 sb)) (fun _ => State.scaB b.toNat 1 sb)
       (fun s => s.vecA a.toNat 1 ++ s.vecB b.toNat 1 sb)
       (fun s blk t => t.put d.toNat (if t.pred q.toNat then s.opA t a.toNat else s.opB blk t b.toNat sb))) ∧
   (∀ d a : Reg,
     Unary (.mov d a) d a (fun x => x) ∧
     Unary (.sext8 d a) d a (fun x => BitVec.ofInt 32 (x.setWidth 8).toInt) ∧
     Unary (.sext16 d a) d a (fun x => BitVec.ofInt 32 (x.setWidth 16).toInt)) ∧
   (∀ (d a : Reg) (s : State) (b : Block), s.issuing b → s.regsOk b (d.toNat :: s.vecA a.toNat 1) [] (s.vecA a.toNat 1) →
     (∀ t ∈ b.threads, s.runs t → t.guardOk = true →
       (s.opA t a.toNat).toNat < t.f ∧ checkPoison t [(s.opA t a.toNat).toNat] = none) →
     exec (.movri d a) s = .next (s.afterEach (fun _ t => t.put d.toNat (t.get (s.opA t a.toNat).toNat)))) ∧
   (∀ (a v : Reg) (sb : Bool) (s : State) (b : Block), s.issuing b →
     s.regsOk b (s.vecA a.toNat 1 ++ s.vecB v.toNat 1 sb) (State.scaB v.toNat 1 sb) (s.vecA a.toNat 1 ++ s.vecB v.toNat 1 sb) →
     (∀ t ∈ b.threads, s.runs t → t.guardOk = true → (s.opA t a.toNat).toNat < t.f) →
     exec (.movwi a v sb) s = .next (s.afterEach (fun blk t => t.put (s.opA t a.toNat).toNat (s.opB blk t v.toNat sb)))) ∧
   (∀ (d a : Reg) (s : State) (b : Block) (t : Thread), Solo s b t → s.regsOk b (d.toNat :: s.vecA a.toNat 1) [] (s.vecA a.toNat 1) →
     t.f ≤ (s.opA t a.toNat).toNat →
     exec (.movri d a) s = .next (s.progressed.takeTrap t.tid { cause := .regBound, extra := (s.opA t a.toNat).setWidth 64 })) ∧
   (∀ (a v : Reg) (sb : Bool) (s : State) (b : Block) (t : Thread), Solo s b t →
     s.regsOk b (s.vecA a.toNat 1 ++ s.vecB v.toNat 1 sb) (State.scaB v.toNat 1 sb) (s.vecA a.toNat 1) → t.f ≤ (s.opA t a.toNat).toNat →
     exec (.movwi a v sb) s = .next (s.progressed.takeTrap t.tid { cause := .regBound, extra := (s.opA t a.toNat).setWidth 64 }))) ∧
  ((∀ (q : BitVec 4) (d a b : BitVec 3),
     Does (.plop q d a b) (fun _ => []) (fun _ => []) (fun _ => [])
       (fun _ _ t => t.putPred d.toNat (q.getLsbD (2 * (t.pred a.toNat).toNat + (t.pred b.toNat).toNat)))) ∧
   (∀ d : Reg, Does (.p2v d) (fun _ => [d.toNat]) (fun _ => []) (fun _ => []) (fun _ _ t => t.put d.toNat (BitVec.ofNat 32 t.preds.toNat))) ∧
   (∀ a : Reg, Does (.v2p a) (fun s => s.vecA a.toNat 1) (fun _ => []) (fun s => s.vecA a.toNat 1)
       (fun s _ t => { t with preds := BitVec.ofNat 8 (s.opA t a.toNat).toNat })))

/-- R42, R96: the immediate forms: the immediate extended as the table says, or a literal in its place. -/
def Obligations.Immediates : Prop :=
  (∀ (d a : Reg) (i : BitVec 11),
    WithImm (.iaddi d a i) d a (BitVec.ofInt 32 i.toInt) (fun x y => x + y) ∧
    WithImm (.imuli d a i) d a (BitVec.ofInt 32 i.toInt) (fun x y => x * y) ∧
    WithImm (.andi d a i) d a (BitVec.ofNat 32 i.toNat) (fun x y => x &&& y) ∧
    WithImm (.ori d a i) d a (BitVec.ofNat 32 i.toNat) (fun x y => x ||| y) ∧
    WithImm (.xori d a i) d a (BitVec.ofNat 32 i.toNat) (fun x y => x ^^^ y)) ∧
  (∀ (c p : BitVec 3) (a : Reg) (i : BitVec 11),
    Does (.icmpi c p a i) (fun _ => [a.toNat]) (fun _ => []) (fun _ => [a.toNat])
      (fun s _ t => t.putPred p.toNat (icond c (t.get a.toNat) (s.immOr (BitVec.ofInt 32 i.toInt))))) ∧
  (∀ (d a : Reg) (i : BitVec 5),
    WithImm (.shli d a i) d a 0 (fun x _ => BitVec.ofNat 32 (x.toNat * 2 ^ i.toNat)) ∧
    WithImm (.shri d a i) d a 0 (fun x _ => BitVec.ofNat 32 (x.toNat / 2 ^ i.toNat)) ∧
    WithImm (.sari d a i) d a 0 (fun x _ => BitVec.ofInt 32 (x.toInt / 2 ^ i.toNat)) ∧
    WithImm (.roli d a i) d a 0 (fun x _ => BitVec.ofNat 32 (x.toNat * 2 ^ i.toNat % 2 ^ 32 + x.toNat / 2 ^ (32 - i.toNat))) ∧
    WithImm (.rori d a i) d a 0 (fun x _ => BitVec.ofNat 32 (x.toNat / 2 ^ i.toNat + x.toNat * 2 ^ (32 - i.toNat)))) ∧
  (∀ (d : Reg) (i : BitVec 18),
    Does (.movi d i) (fun _ => [d.toNat]) (fun _ => []) (fun _ => []) (fun _ _ t => t.put d.toNat (BitVec.ofInt 32 i.toInt)))

/-- R97, R98: logic, and shifts and rotates by the low five or six bits of B; the words of class 0x2 that stand for them, and that a scalar B
of a 64-bit shift may have any number. -/
def Obligations.LogicAndShifts : Prop :=
  ∀ (d a b : Reg) (sb : Bool),
    let coded (i : Instr) (code : Nat) : Prop :=
      encode i = some (BitVec.ofNat 32 (2 * 2 ^ 28 + d.toNat * 2 ^ 21 + a.toNat * 2 ^ 14 + b.toNat * 2 ^ 7 + sb.toNat * 2 ^ 6 + code))
    Binary (.and d a b sb) d a b sb (fun x y => x &&& y) ∧
    Binary (.or d a b sb) d a b sb (fun x y => x ||| y) ∧
    Binary (.xor d a b sb) d a b sb (fun x y => x ^^^ y) ∧
    Binary (.andn d a b sb) d a b sb (fun x y => x &&& ~~~y) ∧
    Binary (.orn d a b sb) d a b sb (fun x y => x ||| ~~~y) ∧
    Binary (.xnor d a b sb) d a b sb (fun x y => ~~~(x ^^^ y)) ∧
    Unary (.not d a) d a (fun x => ~~~x) ∧
    Binary (.shl d a b sb) d a b sb (fun x y => BitVec.ofNat 32 (x.toNat * 2 ^ (y.toNat % 32))) ∧
    Binary (.shr d a b sb) d a b sb (fun x y => BitVec.ofNat 32 (x.toNat / 2 ^ (y.toNat % 32))) ∧
    Binary (.sar d a b sb) d a b sb (fun x y => BitVec.ofInt 32 (x.toInt / 2 ^ (y.toNat % 32))) ∧
    Binary (.rol d a b sb) d a b sb
      (fun x y => BitVec.ofNat 32 (x.toNat * 2 ^ (y.toNat % 32) % 2 ^ 32 + x.toNat / 2 ^ (32 - y.toNat % 32))) ∧
    Binary (.ror d a b sb) d a b sb
      (fun x y => BitVec.ofNat 32 (x.toNat / 2 ^ (y.toNat % 32) + x.toNat * 2 ^ (32 - y.toNat % 32))) ∧
    ShiftPair (.shl64 d a b sb) d a b sb (fun x y => BitVec.ofNat 64 (x.toNat * 2 ^ (y.toNat % 64))) ∧
    ShiftPair (.shr64 d a b sb) d a b sb (fun x y => BitVec.ofNat 64 (x.toNat / 2 ^ (y.toNat % 64))) ∧
    ShiftPair (.sar64 d a b sb) d a b sb (fun x y => BitVec.ofInt 64 (x.toInt / 2 ^ (y.toNat % 64))) ∧
    coded (.and d a b sb) 0x00 ∧ coded (.or d a b sb) 0x01 ∧ coded (.xor d a b sb) 0x02 ∧ coded (.andn d a b sb) 0x03 ∧
    coded (.orn d a b sb) 0x04 ∧ coded (.xnor d a b sb) 0x05 ∧ (b = 0 → sb = false → coded (.not d a) 0x06) ∧
    coded (.shl d a b sb) 0x08 ∧ coded (.shr d a b sb) 0x09 ∧ coded (.sar d a b sb) 0x0A ∧ coded (.rol d a b sb) 0x0B ∧
    coded (.ror d a b sb) 0x0C ∧ coded (.shl64 d a b sb) 0x0D ∧ coded (.shr64 d a b sb) 0x0E ∧ coded (.sar64 d a b sb) 0x0F ∧
    (Instr.shl64 d a b sb).defect = none ∧ (Instr.shr64 d a b sb).defect = none ∧ (Instr.sar64 d a b sb).defect = none

/-- R99 to R103, R105: counts, reversals, bit fields, deposit and extract, bit permutation, bit-matrix products and byte dot products,
in the model's functions of words.
R99 to R103, R105: leading zeros bound a number from both sides, trailing zeros divide it; each bit of an extracted field, with
zeros or copies of its top bit above its width, and what BFI inserts BFX finds again; deposit undoes extract on the mask's bits; each bit of
BPERM; element (i, j) of BMM8 and of BMM8T; the byte dot products. -/
def Obligations.BitOperations : Prop :=
  (∀ (d a b : Reg) (sb : Bool),
     Unary (.clz d a) d a (fun x => BitVec.ofNat 32 (leadingZeros 32 x.toNat)) ∧
     Unary (.ctz d a) d a (fun x => BitVec.ofNat 32 (trailingZeros 32 x.toNat)) ∧
     Unary (.popc d a) d a (fun x => BitVec.ofNat 32 (((List.range 32).filter (fun i => x.getLsbD i)).length)) ∧
     Unary (.brev d a) d a BitVec.reverse ∧
     UnaryOfPair (.clz64 d a) d a (fun x => BitVec.ofNat 32 (leadingZeros 64 x.toNat)) ∧
     UnaryOfPair (.ctz64 d a) d a (fun x => BitVec.ofNat 32 (trailingZeros 64 x.toNat)) ∧
     UnaryOfPair (.popc64 d a) d a (fun x => BitVec.ofNat 32 (((List.range 64).filter (fun i => x.getLsbD i)).length)) ∧
     UnaryPair (.brev64 d a) d a BitVec.reverse ∧
     Binary (.bfx d a b sb) d a b sb bfx ∧ Binary (.bfxs d a b sb) d a b sb bfxs ∧ Ternary (.bfi d a b sb) d a b sb bfi ∧
     Binary (.pdep d a b sb) d a b sb (fun x y => BitVec.ofNat 32 (deposit x.toNat y.toNat 32 0 0)) ∧
     Binary (.pext d a b sb) d a b sb (fun x y => BitVec.ofNat 32 (extract x.toNat y.toNat 32 0 0)) ∧
     BinaryPair (.pdep64 d a b sb) d a b sb (fun x y => BitVec.ofNat 64 (deposit x.toNat y.toNat 64 0 0)) ∧
     BinaryPair (.pext64 d a b sb) d a b sb (fun x y => BitVec.ofNat 64 (extract x.toNat y.toNat 64 0 0)) ∧
     TernaryPair (.bperm d a b sb) d a b sb bperm ∧
     BinaryPair (.bmm8 d a b sb) d a b sb (bmm8 false) ∧ BinaryPair (.bmm8t d a b sb) d a b sb (bmm8 true) ∧
     Ternary (.idp4 d a b sb) d a b sb (fun x y z => z + BitVec.ofInt 32 (dot4 true x y)) ∧
     Ternary (.idp4u d a b sb) d a b sb (fun x y z => z + BitVec.ofInt 32 (dot4 false x y))) ∧
  ((∀ n x : Nat, x < 2 ^ n → leadingZeros n x ≤ n ∧ x < 2 ^ (n - leadingZeros n x) ∧ (x ≠ 0 → 2 ^ (n - leadingZeros n x) ≤ 2 * x)) ∧
   (∀ n x : Nat, x < 2 ^ n → x ≠ 0 → 2 ^ trailingZeros n x ∣ x ∧ ¬ 2 ^ (trailingZeros n x + 1) ∣ x) ∧
   (∀ n : Nat, trailingZeros n 0 = n ∧ leadingZeros n 0 = n) ∧
   (∀ y : Word, let pos := y.toNat % 32
     fieldOf y = (pos, min (min (y.toNat / 2 ^ 8 % 64) 32) (32 - pos))) ∧
   (∀ (x y : Word) (i : Nat), let pos := (fieldOf y).1; let w := (fieldOf y).2
     (bfx x y).getLsbD i = (decide (i < w) && x.getLsbD (pos + i)) ∧
     (bfxs x y).getLsbD i = (decide (w ≠ 0 ∧ i < 32) && x.getLsbD (pos + min i (w - 1)))) ∧
   (∀ x y z : Word, bfx (bfi x y z) y = x &&& BitVec.ofNat 32 (2 ^ (fieldOf y).2 - 1)) ∧
   (∀ (x y z : Word) (i : Nat), i < (fieldOf y).1 ∨ (fieldOf y).1 + (fieldOf y).2 ≤ i → (bfi x y z).getLsbD i = z.getLsbD i) ∧
   (∀ a m : Nat, m < 2 ^ 32 → deposit (extract a m 32 0 0) m 32 0 0 = a &&& m) ∧
   (∀ (x y z : DWord) (i : Nat), i < 64 →
     (bperm x y z).getLsbD i = if i < 8 then x.getLsbD (y.toNat / 2 ^ (8 * i) % 64) else z.getLsbD (i - 8)) ∧
   (∀ (x y : DWord) (i j : Nat), i < 8 → j < 8 →
     (bmm8 false x y).getLsbD (8 * i + j) = (List.range 8).foldl (fun c k => c != (x.getLsbD (8 * i + k) && y.getLsbD (8 * k + j))) false ∧
     (bmm8 true x y).getLsbD (8 * i + j) = (List.range 8).foldl (fun c k => c != (x.getLsbD (8 * i + k) && y.getLsbD (8 * j + k))) false) ∧
   (∀ x y : Word, let e (z : Word) (i : Nat) : BitVec 8 := z.extractLsb' (8 * i) 8
     dot4 true x y = (e x 0).toInt * (e y 0).toInt + (e x 1).toInt * (e y 1).toInt + (e x 2).toInt * (e y 2).toInt + (e x 3).toInt * (e y 3).toInt ∧
     dot4 false x y = (e x 0).toNat * (e y 0).toNat + (e x 1).toNat * (e y 1).toNat + (e x 2).toNat * (e y 2).toNat + (e x 3).toNat * (e y 3).toNat))

/-! ## Floating point (R69 to R80, R108 to R126) -/

/-- R69: rounding m ÷ 2^k: nearest with ties to even, toward zero, down and up.
R65, R69, R73: an encoding that is no NaN is the rounding of the number it stands for, in every mode, in each format with infinities;
every NaN becomes the canonical one, which decodes to a NaN.
R71, R74, R111: sums and products do not depend on the order of their operands, a NaN operand gives the canonical NaN, and A − B is
A + (−B). -/
def Obligations.RoundingAndAlgebra : Prop :=
  (∀ (neg : Bool) (m k : Nat),
     (2 * (roundShift 0 neg m k * 2 ^ k) ≤ 2 * m + 2 ^ k ∧ 2 * m ≤ 2 * (roundShift 0 neg m k * 2 ^ k) + 2 ^ k ∧
       (2 * (m % 2 ^ k) = 2 ^ k → roundShift 0 neg m k % 2 = 0)) ∧
     roundShift 1 neg m k = m / 2 ^ k ∧
     roundShift 2 false m k = m / 2 ^ k ∧ roundShift 2 true m k = (m + (2 ^ k - 1)) / 2 ^ k ∧
     roundShift 3 true m k = m / 2 ^ k ∧ roundShift 3 false m k = (m + (2 ^ k - 1)) / 2 ^ k) ∧
  (∀ f ∈ [fp64, fp32, fp16, bf16], ∀ (mode x : Nat), x < 2 ^ (f.top + 1) →
     (f.decode x ≠ .nan → f.encode mode (f.decode x) = x) ∧ (f.decode x = .nan → f.encode mode (f.decode x) = f.nan) ∧ f.decode f.nan = .nan) ∧
  (∀ (f : Fmt) (mode x y z : Nat),
     f.add mode x y = f.add mode y x ∧ f.mul mode x y = f.mul mode y x ∧ f.fma mode x y z = f.fma mode y x z ∧
     (f.decode x = .nan → f.add mode x y = f.nan ∧ f.sub mode x y = f.nan ∧ f.mul mode x y = f.nan ∧ f.fma mode x y z = f.nan) ∧
     f.sub mode x y = f.encode mode (Sys2Proof.Machine.Num.add (mode == 2) (f.decode x) (f.decode y).neg))

/-- R79, R80, R111, R113 to R116, R118: the FP32 arithmetic of class 0x3 and the FP32 operations and compares of class 0x4, in the model's
functions of encodings; the ten classes of FCLASS; and what the special functions give at the edges of their domains. Elsewhere each special
function is the model's own series, rounded once.
The model's own, by the assumption log: 21 (how the special functions are computed). -/
def Obligations.SinglePrecision : Prop :=
  (∀ (d a b : Reg) (sb ha hb : Bool) (m : BitVec 2),
    Binary (.fadd d a b sb ha hb m) d a b sb (fun x y => BitVec.ofNat 32 (fp32.add m.toNat x.toNat y.toNat)) ∧
    Binary (.fsub d a b sb ha hb m) d a b sb (fun x y => BitVec.ofNat 32 (fp32.sub m.toNat x.toNat y.toNat)) ∧
    Binary (.fmul d a b sb ha hb m) d a b sb (fun x y => BitVec.ofNat 32 (fp32.mul m.toNat x.toNat y.toNat)) ∧
    Ternary (.ffma d a b sb ha hb m) d a b sb (fun x y z => BitVec.ofNat 32 (fp32.fma m.toNat x.toNat y.toNat z.toNat))) ∧
  (∀ (d a b : Reg) (sb : Bool),
    Binary (.fmin d a b sb) d a b sb (fun x y => BitVec.ofNat 32 (fp32.pick false false x.toNat y.toNat)) ∧
    Binary (.fmax d a b sb) d a b sb (fun x y => BitVec.ofNat 32 (fp32.pick true false x.toNat y.toNat)) ∧
    Binary (.fminnm d a b sb) d a b sb (fun x y => BitVec.ofNat 32 (fp32.pick false true x.toNat y.toNat)) ∧
    Binary (.fmaxnm d a b sb) d a b sb (fun x y => BitVec.ofNat 32 (fp32.pick true true x.toNat y.toNat)) ∧
    Binary (.fcopysign d a b sb) d a b sb (fun x y => BitVec.ofNat 32 (x.toNat % 2 ^ 31 + y.toNat / 2 ^ 31 * 2 ^ 31)) ∧
    Unary (.fabs d a) d a (fun x => BitVec.ofNat 32 (x.toNat % 2 ^ 31)) ∧
    Unary (.fneg d a) d a (fun x => BitVec.ofNat 32 (x.toNat + 2 ^ 31)) ∧
    Unary (.fclass d a) d a (fun x => BitVec.ofNat 32 (fclass x.toNat)) ∧
    Unary (.frcp d a) d a (fun x => BitVec.ofNat 32 (frcp x.toNat)) ∧ Unary (.frsq d a) d a (fun x => BitVec.ofNat 32 (frsq x.toNat)) ∧
    Unary (.fexp2 d a) d a (fun x => BitVec.ofNat 32 (fexp2 x.toNat)) ∧ Unary (.flog2 d a) d a (fun x => BitVec.ofNat 32 (flog2 x.toNat)) ∧
    Unary (.fsin d a) d a (fun x => BitVec.ofNat 32 (fsin x.toNat)) ∧ Unary (.fcos d a) d a (fun x => BitVec.ofNat 32 (fcos x.toNat))) ∧
  (∀ (c p : BitVec 3) (a b : Reg) (sb : Bool), Compare (.fcmp c p a b sb) p a b sb (fun x y => fp32.cond c x.toNat y.toNat)) ∧
  (∀ x : Nat, x < 2 ^ 32 → match fp32.decode x with
    | .inf neg => fclass x = if neg then 2 ^ 0 else 2 ^ 7
    | .nan => fclass x = if x.testBit 22 then 2 ^ 9 else 2 ^ 8
    | .fin neg m _ => fclass x = if m = 0 then (if neg then 2 ^ 3 else 2 ^ 4) else if x % 2 ^ 31 < 2 ^ 23 then (if neg then 2 ^ 2 else 2 ^ 5)
        else if neg then 2 ^ 1 else 2 ^ 6) ∧
  (∀ f ∈ [frcp, frsq, fexp2, flog2, fsin, fcos], ∀ x : Nat, fp32.decode x = .nan → f x = 0x7FC00000) ∧
  (∀ f ∈ [frsq, flog2], ∀ (x m : Nat) (e : Int), fp32.decode x = .fin true m e → m ≠ 0 → f x = 0x7FC00000) ∧
  (∀ r ∈ [(frcp, [0x7F800000, 0xFF800000, 0, 0x80000000, 0x3F800000]), (frsq, [0x7F800000, 0xFF800000, 0, 0x7FC00000, 0x3F800000]),
      (fexp2, [0x3F800000, 0x3F800000, 0x7F800000, 0, 0x40000000]), (flog2, [0xFF800000, 0xFF800000, 0x7F800000, 0x7FC00000, 0])],
    ([0, 0x80000000, 0x7F800000, 0xFF800000, 0x3F800000] : List Nat).map r.1 = r.2) ∧
  (∀ r ∈ [(fsin, [0, 0x80000000, 0x7FC00000, 0x7FC00000]), (fcos, [0x3F800000, 0x3F800000, 0x7FC00000, 0x7FC00000])],
    ([0, 0x80000000, 0x7F800000, 0xFF800000] : List Nat).map r.1 = r.2)

/-- R76, R116, R117: conversions between FP32, FP64, FP16 and integers, rounded once in the mode the word gives.
R76: an integer result is the rounded number held within the range, and a NaN gives 0. -/
def Obligations.Conversions : Prop :=
  (∀ (d a : Reg) (m : BitVec 2),
     Unary (.frint d a m) d a (fun x => BitVec.ofNat 32 (frint m.toNat x.toNat)) ∧
     Unary (.f2i d a m) d a (fun x => toIntClamp (-2147483648) 2147483647 m.toNat (fp32.decode x.toNat)) ∧
     Unary (.f2u d a m) d a (fun x => toIntClamp 0 4294967295 m.toNat (fp32.decode x.toNat)) ∧
     Unary (.i2f d a m) d a (fun x => BitVec.ofNat 32 (fp32.encode m.toNat (.ofInt x.toInt))) ∧
     Unary (.u2f d a m) d a (fun x => BitVec.ofNat 32 (fp32.encode m.toNat (.ofInt x.toNat))) ∧
     Unary (.f2h d a m) d a (fun x => BitVec.ofNat 32 (fp16.encode m.toNat (fp32.decode x.toNat))) ∧
     Unary (.h2f d a) d a (fun x => BitVec.ofNat 32 (fp32.encode 0 (fp16.decode (x.toNat % 2 ^ 16)))) ∧
     UnaryToPair (.f2d d a) d a (fun x => BitVec.ofNat 64 (fp64.encode 0 (fp32.decode x.toNat))) ∧
     UnaryOfPair (.d2f d a m) d a (fun x => BitVec.ofNat 32 (fp32.encode m.toNat (fp64.decode x.toNat))) ∧
     UnaryOfPair (.d2i d a m) d a (fun x => toIntClamp (-2147483648) 2147483647 m.toNat (fp64.decode x.toNat)) ∧
     UnaryToPair (.i2d d a) d a (fun x => BitVec.ofNat 64 (fp64.encode 0 (.ofInt x.toInt)))) ∧
  (∀ (lo hi : Int) (mode : Nat), -2 ^ 31 ≤ lo → lo ≤ 0 → 0 ≤ hi → hi < 2 ^ 32 →
     toIntClamp lo hi mode .nan = 0 ∧ toIntClamp lo hi mode (.inf false) = BitVec.ofInt 32 hi ∧
     toIntClamp lo hi mode (.inf true) = BitVec.ofInt 32 lo ∧
     ∀ (neg : Bool) (m : Nat) (e : Int),
       (lo ≤ roundInt mode neg m e → roundInt mode neg m e ≤ hi → toIntClamp lo hi mode (.fin neg m e) = BitVec.ofInt 32 (roundInt mode neg m e)) ∧
       (hi < roundInt mode neg m e → toIntClamp lo hi mode (.fin neg m e) = BitVec.ofInt 32 hi) ∧
       (roundInt mode neg m e < lo → toIntClamp lo hi mode (.fin neg m e) = BitVec.ofInt 32 lo))

/-- R119, R120: the FP64 instructions on register pairs. -/
def Obligations.DoublePrecision : Prop :=
  (∀ (d a b : Reg) (sb : Bool) (m : BitVec 2),
    BinaryPair (.dadd d a b sb m) d a b sb (fun x y => BitVec.ofNat 64 (fp64.add m.toNat x.toNat y.toNat)) ∧
    BinaryPair (.dsub d a b sb m) d a b sb (fun x y => BitVec.ofNat 64 (fp64.sub m.toNat x.toNat y.toNat)) ∧
    BinaryPair (.dmul d a b sb m) d a b sb (fun x y => BitVec.ofNat 64 (fp64.mul m.toNat x.toNat y.toNat)) ∧
    TernaryPair (.dfma d a b sb m) d a b sb (fun x y z => BitVec.ofNat 64 (fp64.fma m.toNat x.toNat y.toNat z.toNat)) ∧
    BinaryPair (.dmin d a b sb) d a b sb (fun x y => BitVec.ofNat 64 (fp64.pick false false x.toNat y.toNat)) ∧
    BinaryPair (.dmax d a b sb) d a b sb (fun x y => BitVec.ofNat 64 (fp64.pick true false x.toNat y.toNat)) ∧
    BinaryPair (.dminnm d a b sb) d a b sb (fun x y => BitVec.ofNat 64 (fp64.pick false true x.toNat y.toNat)) ∧
    BinaryPair (.dmaxnm d a b sb) d a b sb (fun x y => BitVec.ofNat 64 (fp64.pick true true x.toNat y.toNat)) ∧
    UnaryPair (.dabs d a) d a (fun x => BitVec.ofNat 64 (x.toNat % 2 ^ 63))) ∧
  (∀ (c p : BitVec 3) (a b : Reg) (sb : Bool), ComparePair (.dcmp c p a b sb) p a b sb (fun x y => fp64.cond c x.toNat y.toNat))

/-- R121 to R126: packed 16-bit arithmetic acts on each half by itself, and packing and unpacking of halves, FP8, FP4 and MX scales. -/
def Obligations.PackedPrecision : Prop :=
  (∀ (d a b : Reg) (sb : Bool) (m : BitVec 2),
    let halves (f : Nat → Nat → Nat) (x y : Word) : Word :=
      BitVec.ofNat 32 (f (x.toNat % 2 ^ 16) (y.toNat % 2 ^ 16) + 65536 * f (x.toNat / 2 ^ 16) (y.toNat / 2 ^ 16))
    let halves3 (f : Nat → Nat → Nat → Nat) (x y z : Word) : Word :=
      BitVec.ofNat 32 (f (x.toNat % 2 ^ 16) (y.toNat % 2 ^ 16) (z.toNat % 2 ^ 16) +
        65536 * f (x.toNat / 2 ^ 16) (y.toNat / 2 ^ 16) (z.toNat / 2 ^ 16))
    Binary (.hadd2 d a b sb m) d a b sb (halves (fp16.add m.toNat)) ∧ Binary (.hsub2 d a b sb m) d a b sb (halves (fp16.sub m.toNat)) ∧
    Binary (.hmul2 d a b sb m) d a b sb (halves (fp16.mul m.toNat)) ∧ Ternary (.hfma2 d a b sb m) d a b sb (halves3 (fp16.fma m.toNat)) ∧
    Binary (.badd2 d a b sb m) d a b sb (halves (bf16.add m.toNat)) ∧ Binary (.bsub2 d a b sb m) d a b sb (halves (bf16.sub m.toNat)) ∧
    Binary (.bmul2 d a b sb m) d a b sb (halves (bf16.mul m.toNat)) ∧ Ternary (.bfma2 d a b sb m) d a b sb (halves3 (bf16.fma m.toNat)) ∧
    Binary (.hmin2 d a b sb) d a b sb (halves (fp16.pick false false)) ∧ Binary (.hmax2 d a b sb) d a b sb (halves (fp16.pick true false)) ∧
    Binary (.bmin2 d a b sb) d a b sb (halves (bf16.pick false false)) ∧ Binary (.bmax2 d a b sb) d a b sb (halves (bf16.pick true false)) ∧
    Binary (.pkh2 d a b sb m) d a b sb (fun x y =>
      BitVec.ofNat 32 (fp16.encode m.toNat (fp32.decode x.toNat) + 65536 * fp16.encode m.toNat (fp32.decode y.toNat))) ∧
    Binary (.pkb2 d a b sb m) d a b sb (fun x y =>
      BitVec.ofNat 32 (bf16.encode m.toNat (fp32.decode x.toNat) + 65536 * bf16.encode m.toNat (fp32.decode y.toNat)))) ∧
  (∀ (c p : BitVec 3) (a b : Reg) (sb : Bool), ∀ q ∈ [(Instr.hcmp2 c p a b sb, fp16), (Instr.bcmp2 c p a b sb, bf16)],
    Does q.1 (fun s => s.vecA a.toNat 1 ++ s.vecB b.toNat 1 sb) (fun _ => State.scaB b.toNat 1 sb)
      (fun s => s.vecA a.toNat 1 ++ s.vecB b.toNat 1 sb)
      (fun s blk t =>
        let x := (s.opA t a.toNat).toNat
        let y := (s.opB blk t b.toNat sb).toNat
        (t.putPred p.toNat (q.2.cond c (x % 65536) (y % 65536))).putPred (p.toNat + 1) (q.2.cond c (x / 65536) (y / 65536)))) ∧
  (∀ (d a : Reg) (e1 : Bool) (e2 : BitVec 2) (e3 : BitVec 3),
    Unary (.upkh d a e1) d a (fun x => BitVec.ofNat 32 (fp32.encode 0 (fp16.decode (x.toNat / 2 ^ (16 * e1.toNat) % 2 ^ 16)))) ∧
    Unary (.upkb d a e1) d a (fun x => BitVec.ofNat 32 (fp32.encode 0 (bf16.decode (x.toNat / 2 ^ (16 * e1.toNat) % 2 ^ 16)))) ∧
    Unary (.upke4 d a e2) d a (fun x => BitVec.ofNat 32 (fp32.encode 0 (e4m3.decode (x.toNat / 2 ^ (8 * e2.toNat) % 2 ^ 8)))) ∧
    Unary (.upke5 d a e2) d a (fun x => BitVec.ofNat 32 (fp32.encode 0 (e5m2.decode (x.toNat / 2 ^ (8 * e2.toNat) % 2 ^ 8)))) ∧
    Unary (.upkf4 d a e3) d a (fun x => BitVec.ofNat 32 (fp32.encode 0 (e2m1.decode (x.toNat / 2 ^ (4 * e3.toNat) % 2 ^ 4)))) ∧
    Unary (.mxscale d a e2) d a (fun x => BitVec.ofNat 32 (mxScale (match e2.toNat with | 0 => 8 | 1 => 15 | _ => 2) x.toNat))) ∧
  (∀ (d a b : Reg) (sb : Bool), ∀ q ∈ [(Instr.pke4m d a b sb, 4, 8, e4m3), (Instr.pke5m d a b sb, 4, 8, e5m2), (Instr.pkf4m d a b sb, 8, 4, e2m1)],
    Does q.1 (fun s => d.toNat :: (upto a.toNat 1 q.2.1 ++ s.vecB b.toNat 1 sb)) (fun _ => State.scaB b.toNat 1 sb)
      (fun s => upto a.toNat 1 q.2.1 ++ s.vecB b.toNat 1 sb)
      (fun s blk t => t.put d.toNat (BitVec.ofNat 32 ((List.range q.2.1).foldl (fun x i =>
        x + packMx q.2.2.2 ((s.opB blk t b.toNat sb).toNat % 256) (t.get (a.toNat + i)).toNat * 2 ^ (q.2.2.1 * i)) 0))))

/-! ## Prefix words, branches, calls and the window (R50 to R56, R130 to R140) -/

/-- R50, R52 to R55: a prefix word is latched in every active thread; SWIN moves the scalar window.
R54 to R56, R138: NOP and LAND do nothing, whatever their guard: a thread goes on to its next group, or to the next of the repeats
that it has left, with no prefix state left after the last. -/
def Obligations.PrefixesAndRepeats : Prop :=
  ((∀ (n : BitVec 6) (x y z : Bool) (st : BitVec 4) (s : State),
     exec (.rep n x y z st) s = .next (s.withActive (fun t =>
       { t with pfx := { t.pfx with repv := true, next := 0, cnt := n.toNat, sd := x, sa := y, sb := z, stride := st } }))) ∧
   (∀ (p : BitVec 3) (g : Bool) (s : State),
     exec (.ifp p g) s = .next (s.withActive (fun t => { t with pfx := { t.pfx with ifpv := true, gpred := p.toNat, gsense := g } }))) ∧
   (∀ (k : BitVec 2) (s : State),
     exec (.limm k) s = .next (State.withActive { s with cur := { s.cur with lit := some (LimmTarget.ofField k, s.cur.litWord) } }
       (fun t => { t with pfx := { t.pfx with limmv := true } }))) ∧
   (∀ w : BitVec 3, Does (.swin w) (fun _ => []) (fun _ => []) (fun _ => []) (fun _ _ t => { t with swb := 32 * w.toNat }))) ∧
  (Does .nop (fun _ => []) (fun _ => []) (fun _ => []) (fun _ _ t => t) ∧
   Does .land (fun _ => []) (fun _ => []) (fun _ => []) (fun _ _ t => t) ∧
   (∀ (t : Thread) (c : Issue),
     (t.pfx.repv = true → t.pfx.next < t.pfx.cnt → (t.retire c).pc = c.pc ∧ (t.retire c).pfx = { t.pfx with next := t.pfx.next + 1 }) ∧
     (t.pfx.repv = false ∨ t.pfx.cnt ≤ t.pfx.next → (t.retire c).pc = c.next ∧ (t.retire c).pfx = {}) ∧
     (t.retire c).regs = t.regs ∧ (t.retire c).preds = t.preds ∧ (t.retire c).wb = t.wb ∧ (t.retire c).f = t.f ∧ (t.retire c).wait = .none))

/-- R131: each thread whose guard passes goes to the target, four bytes for each unit of OFF from the branch word, or to the next group:
BRA always, BRT and BRF by its own predicate, BRANY and BRALL by the predicates of all threads of the issue whose guards pass. -/
def Obligations.BranchTargets : Prop :=
  ∀ (o : BitVec 22) (p : BitVec 3) (s : State) (b : Block), s.issuing b →
    let goes (c : Thread → Bool) : Outcome :=
        .next (s.afterTurn (fun t => t.jump (if c t then s.cur.pc + BitVec.ofInt 64 (4 * o.toInt) else s.cur.next)))
    exec (.bra o) s = goes (fun _ => true) ∧
      exec (.brt p o) s = goes (fun t => t.pred p.toNat) ∧
      exec (.brf p o) s = goes (fun t => !t.pred p.toNat) ∧
      (b.Numbered → (∀ k ∈ s.cur.tids, k < b.threads.length) →
        exec (.brany p o) s = goes (fun _ => b.threads.any (fun u => s.cur.tids.contains u.tid && u.guardOk && u.pred p.toNat)) ∧
        exec (.brall p o) s = goes (fun _ => b.threads.all (fun u => !(s.cur.tids.contains u.tid && u.guardOk) || u.pred p.toNat)))

/-- R133, R134, R137: CALL and CALLI raise WB by K, leave max(3, F − K) positions, write the link to v0 to v2 and go to the target; JMPI
goes to the target. Here the window needs no spill, and an indirect target is a LAND word.
R137: an indirect target that is no LAND word or cannot be fetched, is not a multiple of 4 or has bits above 55 raises JUMP_FAULT with the target as the
fault address, and nothing else of the thread changes before its trap. -/
def Obligations.CallsAndJumps : Prop :=
  (∀ (s : State) (b : Block) (t : Thread), Solo s b t →
     let called (k : Nat) (x : DWord) : Thread :=
         (((({ t with wb := t.wb + k, f := max 3 (t.f - k) }).put 0 (s.cur.next.setWidth 32)).put 1
           (BitVec.ofNat 32 (s.cur.next.toNat / 2 ^ 32 % 2 ^ 24))).put 2 (BitVec.ofNat 32 (k * 256 + t.f))).jump x
     (∀ (v : Reg) (i : BitVec 21), t.wb + v.toNat + max 3 (t.f - v.toNat) ≤ t.low + t.n →
         exec (.call v i) s = .next (s.becomes t (called v.toNat (s.cur.pc + BitVec.ofInt 64 (4 * i.toInt))))) ∧
       (∀ (a v : Reg) (s' : State), FieldsOk b t [a.toNat, a.toNat + 1] [] [a.toNat, a.toNat + 1] →
         (t.get64 a.toNat).toNat < 2 ^ 56 → (t.get64 a.toNat).toNat % 4 = 0 →
         s.progressed.fetchAt b t.level (t.get64 a.toNat).toNat = .ok (landWord, s') →
         exec (.jmpi a) s = .next (s.becomes t (t.jump (t.get64 a.toNat))) ∧
         (t.wb + v.toNat + max 3 (t.f - v.toNat) ≤ t.low + t.n →
           exec (.calli a v) s = .next (s.becomes t (called v.toNat (t.get64 a.toNat)))))) ∧
  (∀ (s : State) (b : Block) (t : Thread) (a v : Reg), Solo s b t → FieldsOk b t [a.toNat, a.toNat + 1] [] [a.toNat, a.toNat + 1] →
     (2 ^ 56 ≤ (t.get64 a.toNat).toNat ∨ (t.get64 a.toNat).toNat % 4 ≠ 0 ∨
       (∃ w s', w ≠ landWord ∧ s.progressed.fetchAt b t.level (t.get64 a.toNat).toNat = .ok (w, s')) ∨
       (∃ va n, s.progressed.fetchAt b t.level (t.get64 a.toNat).toNat = .error (.page n, va)) ∨
       (∃ va g n, s.progressed.fetchAt b t.level (t.get64 a.toNat).toNat = .error (.stage2 g n, va))) →
     exec (.jmpi a) s = .next (s.progressed.takeTrap t.tid { cause := .jumpFault, addr := t.get64 a.toNat }) ∧
     exec (.calli a v) s = .next (s.progressed.takeTrap t.tid { cause := .jumpFault, addr := t.get64 a.toNat }))

/-- R135: RET lowers WB by the link's K and restores its F; the positions that the caller's window has above the callee's hold undefined
values. A link that fails a check raises JUMP_FAULT. Here no position needs a fill or a spill.
The model's own, by the assumption log: 7 (positions that come into a window hold free values). -/
def Obligations.Returns : Prop :=
  ∀ (s : State) (b : Block) (t : Thread), Solo s b t → FieldsOk b t [0, 1, 2] [] [0, 1, 2] →
    let l0 := (t.get 0).toNat; let l1 := (t.get 1).toNat; let l2 := (t.get 2).toNat
    let k := l2 / 256 % 128; let f := l2 % 256
    let pc : DWord := BitVec.ofNat 64 (l1 % 2 ^ 24 * 2 ^ 32 + l0)
    let ok := l1 < 2 ^ 24 ∧ l2 < 2 ^ 15 ∧ l0 % 4 = 0 ∧ k ≠ 0 ∧ k ≤ t.wb ∧ f ≠ 0 ∧ f ≤ min t.n 128
    (¬ok → exec .ret s = .next (s.progressed.takeTrap t.tid { cause := .jumpFault, addr := pc })) ∧
      (ok → t.low ≤ t.wb - k → t.wb - k + f ≤ t.low + t.n →
        exec .ret s = .next
          (let s' := s.becomes t (Thread.jump { t with wb := t.wb - k, f := f } pc)
           if t.wb + t.f < t.wb - k + f then s'.undefine s.cur.blk t.tid (t.wb + t.f) (t.wb - k + f - (t.wb + t.f)) else s'))

/-- R136: FRAME sets F, WBASE moves WB; a position that comes into the window holds an undefined value; a size above min(N, 128) and a
negative WB raise REG_BOUND. Here no position needs a spill.
The model's own, by the assumption log: 7 (positions that come into a window hold free values). -/
def Obligations.WindowMoves : Prop :=
  ∀ (s : State) (b : Block) (t : Thread) (i : Reg), Solo s b t →
    (min t.n 128 < i.toNat + 1 → exec (.frame i) s = .next (s.progressed.takeTrap t.tid (.regBound (i.toNat + 1)))) ∧
    (i.toNat + 1 ≤ min t.n 128 → t.wb + (i.toNat + 1) ≤ t.low + t.n →
      exec (.frame i) s = .next
        (State.retireLane ((if t.f < i.toNat + 1 then s.progressed.undefine s.cur.blk t.tid (t.wb + t.f) (i.toNat + 1 - t.f) else s.progressed).updThread
          s.cur.blk t.tid (fun u => { u with f := i.toNat + 1 })) t.tid)) ∧
    ((t.wb : Int) + i.toInt < 0 →
      exec (.wbase i) s = .next (s.progressed.takeTrap t.tid (.regBound (((t.wb : Int) + i.toInt) % 2 ^ 32).toNat))) ∧
    (0 < i.toInt → t.wb + i.toNat + t.f ≤ t.low + t.n →
      exec (.wbase i) s = .next
        (State.retireLane ((s.progressed.undefine s.cur.blk t.tid (t.wb + t.f) i.toNat).updThread
          s.cur.blk t.tid (fun u => { u with wb := t.wb + i.toNat })) t.tid)) ∧
    (i.toInt < 0 → (t.low : Int) ≤ t.wb + i.toInt → (t.wb : Int) + i.toInt + t.f ≤ t.low + t.n →
      exec (.wbase i) s = .next (s.becomes t (Thread.jump { t with wb := ((t.wb : Int) + i.toInt).toNat } s.cur.next)))

/-- R18, R22, R134 to R136: a window whose top rises beyond the residency first spills its lowest positions, one after another, until the top
is within N of LOW, all in the one step or one in each; a fault among these is the instruction's own, and the positions already spilled
stay spilled. A window that falls below LOW is filled after the commit, and one whose top has risen with a return is spilled, at once or
before the thread issues again; a fault among these is the next group's. A move changes LOW and nothing else of the window.
The model's own, by the assumption log: 7 (positions that come into a window hold free values), 95 (which moves come later). -/
def Obligations.WindowsThatMove : Prop :=
  (∀ (s s' : State) (i k top n : Nat) (b : Block) (t : Thread), s.thread? i k = some (b, t) →
     (t.low + t.n < top →
       (∀ x, s.spillOne i k = .error x → s.makeRoom i k top (n + 1) = (s, some x)) ∧
       (∀ s1, s.spillOne i k = .ok s1 → s.makeRoom i k top (n + 1) = s1.makeRoom i k top n)) ∧
     (top ≤ t.low + t.n + n → s.makeRoom i k top n = (s', none) →
       ∃ b' t', s'.thread? i k = some (b', t') ∧ t'.low = max t.low (top - t.n) ∧ t'.n = t.n ∧ t'.wb = t.wb ∧ t'.f = t.f ∧ t'.pc = t.pc) ∧
     (t.f ≤ t.n → t.low ≤ t.wb + n → t.wb + t.f ≤ t.low + t.n + n → s.settle i k n = (s', none) →
       ∃ b' t', s'.thread? i k = some (b', t') ∧ t'.low ≤ t'.wb ∧ t'.wb + t'.f ≤ t'.low + t'.n ∧ t'.n = t.n ∧ t'.wb = t.wb ∧ t'.f = t.f ∧ t'.pc = t.pc) ∧
     (s.later = false → s.roomFor i k top = s.makeRoom i k top (t.low + top)) ∧
     (s.later = true → t.low + t.n < top →
       (∀ x, s.spillOne i k = .error x → s.roomFor i k top = (s, some x)) ∧
       (∀ s1, s.spillOne i k = .ok s1 → s.roomFor i k top = (s1, if t.low + 1 + t.n < top then some (.wait .none) else none)))) ∧
  (∀ (s : State) (b : Block) (t : Thread), Solo s b t →
     let room (i : Instr) (size : Nat) (f : State → State) : Prop :=
       let r := s.progressed.roomFor s.cur.blk t.tid (t.wb + size)
       (∀ s', r = (s', none) → exec i s = .next (f s')) ∧
       (∀ s' tr, r = (s', some (.trap tr)) → exec i s = .next (s'.takeTrap t.tid tr)) ∧
       (∀ s' w, r = (s', some (.wait w)) → exec i s = .next (s'.updThread s'.cur.blk t.tid (fun u => u.hold s'.cur w)))
     let settled (i : Instr) (s1 : State) : Prop :=
       (s.later = true → exec i s = .next s1) ∧
       (s.later = false →
         (∀ s', s1.settle s.cur.blk t.tid (moveFuel t) = (s', none) → exec i s = .next s') ∧
         (∀ s' x, s1.settle s.cur.blk t.tid (moveFuel t) = (s', some x) → exec i s = .next (s'.stopBefore s.cur.blk t.tid x)))
     let called (k : Nat) (x : DWord) (s' : State) : State := s'.updThread s.cur.blk t.tid (fun u =>
       (((({ u with wb := t.wb + k, f := max 3 (t.f - k) } : Thread).put 0 (s.cur.next.setWidth 32)).put 1
         (BitVec.ofNat 32 (s.cur.next.toNat / 2 ^ 32 % 2 ^ 24))).put 2 (BitVec.ofNat 32 (k * 256 + t.f))).jump x)
     (∀ (v : Reg) (i : BitVec 21),
       room (.call v i) (v.toNat + max 3 (t.f - v.toNat)) (called v.toNat (s.cur.pc + BitVec.ofInt 64 (4 * i.toInt)))) ∧
     (∀ (a v : Reg) (s' : State), FieldsOk b t [a.toNat, a.toNat + 1] [] [a.toNat, a.toNat + 1] →
       (t.get64 a.toNat).toNat < 2 ^ 56 → (t.get64 a.toNat).toNat % 4 = 0 →
       s.progressed.fetchAt b t.level (t.get64 a.toNat).toNat = .ok (landWord, s') →
       room (.calli a v) (v.toNat + max 3 (t.f - v.toNat)) (called v.toNat (t.get64 a.toNat))) ∧
     (∀ i : Reg, i.toNat + 1 ≤ min t.n 128 → room (.frame i) (i.toNat + 1) (fun s' =>
       State.retireLane ((if t.f < i.toNat + 1 then s'.undefine s.cur.blk t.tid (t.wb + t.f) (i.toNat + 1 - t.f) else s').updThread s.cur.blk t.tid
         (fun u => { u with f := i.toNat + 1 })) t.tid)) ∧
     (∀ i : Reg,
       (0 ≤ i.toInt → room (.wbase i) (i.toNat + t.f) (fun s' =>
         State.retireLane ((if i.toNat = 0 then s' else s'.undefine s.cur.blk t.tid (t.wb + t.f) i.toNat).updThread s.cur.blk t.tid
           (fun u => { u with wb := t.wb + i.toNat })) t.tid)) ∧
       (i.toInt < 0 → 0 ≤ (t.wb : Int) + i.toInt →
         settled (.wbase i) (s.becomes t (Thread.jump { t with wb := ((t.wb : Int) + i.toInt).toNat } s.cur.next)))) ∧
     (FieldsOk b t [0, 1, 2] [] [0, 1, 2] →
       let l0 := (t.get 0).toNat; let l1 := (t.get 1).toNat; let l2 := (t.get 2).toNat
       let k := l2 / 256 % 128; let f := l2 % 256
       let pc : DWord := BitVec.ofNat 64 (l1 % 2 ^ 24 * 2 ^ 32 + l0)
       l1 < 2 ^ 24 → l2 < 2 ^ 15 → l0 % 4 = 0 → k ≠ 0 → k ≤ t.wb → f ≠ 0 → f ≤ min t.n 128 →
       let s1 := s.becomes t (Thread.jump { t with wb := t.wb - k, f := f } pc)
       settled .ret (if t.wb + t.f < t.wb - k + f then
         s1.undefine s.cur.blk t.tid (t.wb + t.f) (min (t.wb - k + f - (t.wb + t.f)) (t.low + t.n - (t.wb + t.f))) else s1)))

/-- R139, R180, R160, R196: EXIT ends every thread that executes it, with nothing else of it changed; rendezvous in which members still wait are then
looked at again. REFORM sends every active thread on, whatever its guard, and files its quads, lowest lane group first: under its key
in a bin of the core that can take it, else in an unused bin while the core has one, else in a gang of its own. A bin's quads stand in the order
of the clocks in which they were filed, and within a clock in ascending lane group.
The model's own, by the assumption log: 105 (a full bin, and the quad that one of the same clock puts out of it). -/
def Obligations.EndAndReform : Prop :=
  (∀ (s : State) (b : Block), s.issuing b →
    let ended := s.afterTurn (fun t => { t.jump s.cur.next with exited := true, pend := none })
    exec .exit s = .next (((s.cur.tids.map (· / 64)).eraseDups).foldl (fun s m => s.resolveMeets s.cur.blk m) ended) ∧
    (b.NoMeeting → exec .exit s = .next ended)) ∧
  (∀ (s : State) (b : Block), s.issuing b →
    ∃ order : List Nat, order.Nodup ∧ (∀ q, q ∈ order ↔ ∃ k ∈ s.cur.tids, k / 4 = q) ∧
      order.Pairwise (fun p q => b.laneGroupOf p ≤ b.laneGroupOf q) ∧
      exec .reform s = .next (order.foldl (fun s' q =>
          match b.threads.find? (fun t => t.tid / 4 == q && s.cur.tids.contains t.tid) with
          | some t => s'.fileQuad s.cur.blk q (t.jump s.cur.next) 17
          | none => s')
        (s.progressed.withActive (fun t => t.jump s.cur.next)))) ∧
  (∀ (s : State) (p q n : Nat) (b : Block) (t : Thread), s.blocks[p]? = some b →
    let later (y : Nat × Nat) : Bool := y.2 == s.clock && b.laneGroupOf q < b.laneGroupOf y.1
    let holds (x : Bin) : Bool := x.core == b.core && x.blk == b.uid && x.pc == t.pc && x.level == t.level && x.swb == t.swb &&
      (x.quads.length < 32 || x.quads.getLast?.any later)
    let used := (s.bins.filter (fun x => x.core == b.core)).length
    let r := s.fileQuad p q t (n + 1)
    (∃ b', r.blocks[p]? = some b' ∧ b'.sregs = b.sregs ∧ b'.window = b.window ∧ r.dram = s.dram ∧ ∀ j, j ≠ p → r.blocks[j]? = s.blocks[j]?) ∧
    (∀ (i : Nat) (x : Bin), s.bins.findIdx? holds = some i → s.bins[i]? = some x → x.quads.length < 32 → ∃ b', r.blocks[p]? = some b' ∧
      r.bins = s.bins.modify i (fun x => { x with quads := Bin.insert b s.clock q x.quads }) ∧
      b'.threads = b.threads.map (fun u => if u.tid / 4 = q then { u with filed := true } else u) ∧ ∀ g ∈ b'.gangs, q ∉ g.quads) ∧
    (∀ (i : Nat) (x : Bin), s.bins.findIdx? holds = some i → s.bins[i]? = some x → x.quads.length = 32 →
      ∃ (s' : State) (y : Nat × Nat), r = s'.fileQuad p y.1 t n ∧ (Bin.insert b s.clock q x.quads)[32]? = some y ∧ later y = true ∧
        s'.bins = s.bins.modify i (fun x => { x with quads := (Bin.insert b s.clock q x.quads).take 32 })) ∧
    (s.bins.findIdx? holds = none → used < 16 → ∃ b', r.blocks[p]? = some b' ∧ r.bins = s.bins ++ [⟨b.core, b.uid, t.pc, t.level, t.swb, [(q, s.clock)]⟩] ∧
      b'.threads = b.threads.map (fun u => if u.tid / 4 = q then { u with filed := true } else u) ∧ ∀ g ∈ b'.gangs, q ∉ g.quads) ∧
    (s.bins.findIdx? holds = none → 16 ≤ used → r.bins = s.bins ∧ ∃ b' gs, r.blocks[p]? = some b' ∧
      b'.threads = b.threads.map (fun u => if u.tid / 4 = q then { u with filed := false } else u) ∧
      b'.gangs = gs ++ [{ quads := [q], since := s.clock }] ∧ ∀ g ∈ gs, q ∉ g.quads)) ∧
  (∀ (b : Block) (clock q : Nat) (l : List (Nat × Nat)),
    let ordered := List.Pairwise (fun x y : Nat × Nat => x.2 < y.2 ∨ x.2 = y.2 ∧ b.laneGroupOf x.1 ≤ b.laneGroupOf y.1)
    (∀ x, x ∈ Bin.insert b clock q l ↔ x ∈ l ∨ x = (q, clock)) ∧ (Bin.insert b clock q l).length = l.length + 1 ∧
    ((∀ x ∈ l, x.2 ≤ clock) → ordered l → ordered (Bin.insert b clock q l)))

/-! ## Traps, the return from one, special registers (R30 to R35, R144 to R146) -/

/-- R34: the 64 bytes of a trap frame, field by field.
R34, R146: a frame restores what it saved: the thread that returns with the frame written for `t` has the level, PC, predicates,
scalar window, window and prefix state that `t` had (a pending REP, IFP, or both, with or without a LIMM), whatever the handler did to its
own. -/
def Obligations.TrapFrames : Prop :=
  (∀ (e : Entry) (t : Thread),
     let field (o n : Nat) : Nat := ofBytes (((frameBytes e t).drop o).take n)
     (frameBytes e t).length = 64 ∧ field 0 8 = e.pc.toNat ∧ field 8 8 = e.addr.toNat ∧
     field 16 4 = e.cause.code * 2 ^ 24 + t.level.toNat * 2 ^ 22 ∧ field 20 4 = e.word.toNat ∧
     field 24 4 = (t.preds.toNat * 2 ^ 24 + t.swb / 32 * 2 ^ 16) % 2 ^ 32 ∧ field 28 4 = t.wb % 2 ^ 32 ∧
     field 32 4 = (t.low * 256 + t.f) % 2 ^ 32 ∧ field 36 4 = t.pfx.encode % 2 ^ 32 ∧ field 40 8 = e.extra.toNat ∧ field 48 16 = 0) ∧
  (∀ (e : Entry) (t u : Thread), t.swb % 32 = 0 → t.swb < 2 ^ 13 → t.wb < 2 ^ 32 → t.f < 256 → 
     (t.pfx = {} ∨
       (t.pfx.repv = true ∧ t.pfx.next ≤ t.pfx.cnt ∧ t.pfx.cnt < 64 ∧
         (t.pfx.ifpv = true ∧ t.pfx.gpred < 8 ∨ t.pfx.ifpv = false ∧ t.pfx.gpred = 0 ∧ t.pfx.gsense = false)) ∨
       (∃ (p : Nat) (sense lit : Bool), p < 8 ∧ t.pfx = { ifpv := true, gpred := p, gsense := sense, limmv := lit })) →
     let r := u.ofFrame (frameBytes e t)
     r.level = t.level ∧ r.pc = e.pc ∧ r.preds = t.preds ∧ r.swb = t.swb ∧ r.wb = t.wb ∧ r.f = t.f ∧ r.pfx = t.pfx)

/-- R31 to R35, R167, R198, R264: a condition met waits for its entry, which comes at once, or in a step of its own: always so while register writes
of the thread's gang are outstanding. A trap whose vector table entry is enabled and whose frame is written enters the handler at the higher
of the thread's level and the cause's: the frame stands 64 bytes below the trap stack pointer, the window moves up by F and holds min(16, N)
positions of undefined values, SWB, the predicates and the prefix state are cleared. A frame in host memory is a host write of the thread. A
barrier wait ends, but the arrival made for it counts. Here the window needs no spill.
The model's own, by the assumption log: 4 and 5 (per-thread vector bases; a handler of a thread with N below 16), 7 (undefined values), 95 (which
entries come later), 99 (a host write waits for what its thread has logged), 118 (a trap ends the clocks of waiting). -/
def Obligations.TrapEntry : Prop :=
  (∀ (s : State) (b : Block) (l : Level) (tr : Trap), tr.cause ∉ [Cause.uncorrectable, .pageFault, .stage2Fault, .fetchFault] → s.noteCause b l tr = s) ∧
  (∀ (s s' : State) (i k : Nat) (b b' : Block) (t w : Thread) (tr : Trap) (pc handler : DWord) (word : Word) (n : Bool) (l : Level),
    s.thread? i k = some (b, t) → l = (if t.level.toNat < tr.cause.minLevel.toNat then tr.cause.minLevel else t.level) →
    let e : Entry := ⟨tr.cause, tr.extra, tr.addr, pc, word⟩
    let kept : List Synced := match t.wait with
      | .barrier win addr token true => ⟨pc, win, addr, token, t.level, t.freed⟩ :: t.synced
      | _ => t.synced
    let u : Thread := { t with pend := some e, wait := .none, waited := 0, freed := false, synced := kept }
    let p := (s.noteCause b t.level tr).updThread i k (fun _ => u)
    (s.later = true ∨ b.boardFor (k / 4) ≠ [] → s.takeTrapAt i k tr pc word = p) ∧
    (s.later = false → b.boardFor (k / 4) = [] → p.vector b u l tr.cause = .handler handler →
      let v := p.noteVector b u l tr.cause
      let sp := (t.tsp l - 64).toNat
      v.hostWaits b k (b.storeReq l) sp = false →
      v.writeVa (b.storeReq l) false sp (frameBytes e t) = ((s', n), none) →
      let s1 := if s'.hostAt (b.storeReq l) sp then s'.updThread i k (fun x => { x with posted := true }) else s'
      s1.thread? i k = some (b', w) → w.low = t.low → w.n = t.n → w.wb = t.wb → w.f = t.f → t.wb + t.f + min 16 t.n ≤ t.low + t.n →
      s.takeTrapAt i k tr pc word =
        (s1.updThread i k (fun x => { (x.setTsp l (t.tsp l - 64)) with
          level := l, swb := 0, wb := x.wb + x.f, f := min 16 t.n, preds := 0, pfx := {}, pc := handler, wait := .none, pend := none })
          ).undefine i k (t.wb + t.f) (min 16 t.n)))

/-- R32, R33, R454: a table entry that is not enabled, has a reserved bit set or names no word address sends the cause to the level above; at
level F it stops the thread, which its quadrant's controller reports to the armature core. An entry whose read must wait is still to come.
The model's own, by the assumption log: 4 (per-thread vector bases), 98 (what the report holds), 99 (a host read waits for what its thread has
logged).
R35: a condition met during an entry gives DOUBLE_TRAP at the level above, for the thread as it stood: [7:0] the original cause,
[15:8] the cause met, with the fault address, PC and instruction word of the original; at F it stops the thread.
The model's own, by the assumption log: 4 (per-thread vector bases). -/
def Obligations.FailedTrapEntries : Prop :=
  ((∀ (s s' : State) (b : Block) (t : Thread) (l : Level) (c : Cause) (bytes : List Byte),
     s.hostWaits b t.tid (b.loadReq l) ((t.tvb l).toNat + 8 * c.code) = false →
     s.readVa (b.loadReq l) false ((t.tvb l).toNat + 8 * c.code) 8 = .ok (bytes, s') → s.noteVector b t l c = s' ∧
     (s.vector b t l c = .disabled ↔
       (ofBytes bytes).testBit 63 = false ∨ ofBytes bytes / 2 ^ 56 % 2 ^ 7 ≠ 0 ∨ ofBytes bytes % 4 ≠ 0)) ∧
   (∀ (s : State) (i k : Nat) (b : Block) (t : Thread) (e : Entry) (n : Nat), s.thread? i k = some (b, t) →
     let s' (l : Level) := s.noteVector b t l e.cause
     (s.vector b t .s e.cause = .disabled → s.enterAt i k e e.cause (n + 1) .s = (s' .s).enterAt i k e e.cause n .h) ∧
     (s.vector b t .h e.cause = .disabled → s.enterAt i k e e.cause (n + 1) .h = (s' .h).enterAt i k e e.cause n .f) ∧
     (s.vector b t .f e.cause = .disabled → s.enterAt i k e e.cause (n + 1) .f = (s' .f).stopThread i k) ∧
     (∀ l, s.vector b t l e.cause = .held → s.enterAt i k e e.cause (n + 1) l = s)) ∧
   (∀ (s : State) (i k : Nat) (b : Block) (t : Thread), s.thread? i k = some (b, t) →
     let u : Thread := { t with stopped := true, wait := .none, pend := none }
     let s' := s.updThread i k (fun _ => u)
     (b.core = Config.armatureCore → s.stopThread i k = s') ∧
     (∀ link, b.core < Config.nCores → s.cmdLinks[b.core / 40]? = some link →
       ∃ (m : Message) (link' : CmdLink), m.response = false ∧ m.toArmature = true ∧ m.data.length = 64 ∧
         s.stopThread i k = { s' with cmdLinks := s.cmdLinks.set (b.core / 40) link' } ∧
         (link'.sent ++ link'.waiting).length = (link.sent ++ link.waiting).length + 1 ∧ m ∈ link'.sent ++ link'.waiting))) ∧
  (∀ (s : State) (i k : Nat) (b : Block) (t : Thread) (e : Entry) (c : Cause) (n : Nat), s.thread? i k = some (b, t) →
     let again : Entry := { e with cause := .doubleTrap, extra := BitVec.ofNat 64 (e.cause.code + 256 * c.code) }
     let s' (l : Level) := s.noteVector b t l e.cause
     (s.vector b t .s e.cause = .fault c → s.enterAt i k e e.cause (n + 1) .s = (s' .s).enterAt i k again e.cause n .h) ∧
     (s.vector b t .h e.cause = .fault c → s.enterAt i k e e.cause (n + 1) .h = (s' .h).enterAt i k again e.cause n .f) ∧
     (s.vector b t .f e.cause = .fault c → s.enterAt i k e e.cause (n + 1) .f = (s' .f).stopThread i k))

/-- R34, R140: TRAP raises its cause with its immediate as the extra word, with no prefix state and with the following group as the
frame's PC. TRAP_ENTRY enters a trap whose entry had not committed, once no register write of the thread's gang is outstanding (R167). -/
def Obligations.TrapInstruction : Prop :=
  (∀ (s : State) (b : Block) (t : Thread) (i : BitVec 14), Solo s b t →
    exec (.trap i) s = .next ((s.becomes t { t with pfx := {} }).takeTrapAt s.cur.blk t.tid
      { cause := .trap, extra := i.setWidth 64 } s.cur.next s.cur.word)) ∧
  (∀ (s : State) (b k i : Nat) (blk : Block) (t : Thread) (e : Entry), s.threadAt b k = some (i, blk, t) →
    t.pend = some e → t.stopped = false → t.exited = false →
    (blk.boardFor (k / 4) ≠ [] → exec (.trapEntry b k) s = .next s) ∧
    (blk.boardFor (k / 4) = [] → exec (.trapEntry b k) s =
      .next (s.enterAt i k e e.cause 8 (if t.level.toNat < e.cause.minLevel.toNat then e.cause.minLevel else t.level))))

/-- R146: TRET restores from the frame at its level's trap stack pointer the level, PC, predicates, SWB, WB, F and prefix state, and
raises the pointer by 64. Here no position needs a move and none becomes undefined.
The model's own, by the assumption log: 4 (per-thread trap stack pointers). -/
def Obligations.TrapReturn : Prop :=
  ∀ (s s' : State) (b b' : Block) (t : Thread) (frame : List Byte) (p : Pfx), Solo s b t → t.level ≠ .u →
    s.progressed.devLoad (b.progressAt s.clock) t (b.loadReq t.level) false none (t.tsp t.level).toNat 64 = .ok frame s' →
    s'.thread? s.cur.blk t.tid = some (b', t) → s'.cur = s.cur →
    (let at4 (o : Nat) : Nat := ofBytes ((frame.drop o).take 4)
     let pc := ofBytes (frame.take 8)
     let f := at4 32 % 256
     at4 16 / 2 ^ 22 % 4 ≤ t.level.toNat → f ≠ 0 → f ≤ min t.n 128 → at4 24 / 2 ^ 16 % 256 ≤ 4 → Pfx.ofWord (at4 36) = some p →
     pc % 4 = 0 → pc < 2 ^ 56 → t.low ≤ at4 28 → at4 28 + f ≤ t.low + t.n → at4 28 + f ≤ t.wb + t.f →
     exec .tret s = .next (s'.updThread s.cur.blk t.tid (fun _ => { (t.setTsp t.level (t.tsp t.level + 64)) with
       level := Level.ofBits (at4 16 / 2 ^ 22), pc := BitVec.ofNat 64 pc, preds := BitVec.ofNat 8 (at4 24 / 2 ^ 24),
       swb := 32 * (at4 24 / 2 ^ 16 % 256), wb := at4 28, f := f, pfx := p, wait := .none, waited := 0 })))

/-- R33, R35, R146, R22, R250: a trap entry whose window outgrows the residency spills first, position by position, in one step or in one step each, in
which case the entry is still to come; a frame that cannot be written and a spill that
fails give DOUBLE_TRAP at the level above, and at level F stop the thread; where an access must wait, the entry is still to come. TRET from a frame
that no thread could have saved raises ILLEGAL_OP, from one whose PC is no address JUMP_FAULT; what the read of the frame meets is raised; a restored
window that the residency does not hold is filled or spilled after the commit, at once or before the thread issues again.
The model's own, by the assumption log: 4, 5 and 6 (per-thread trap registers; the handler's window of a thread with N below 16; what an entry meets),
7 (positions that come into a window hold free values), 95 (which moves come later), 99 (a host write waits for what its thread has logged). -/
def Obligations.TrapMoves : Prop :=
  (∀ (s s1 : State) (i k n : Nat) (b : Block) (t : Thread) (e : Entry) (handler : DWord) (cl : Bool) (l : Level),
     s.thread? i k = some (b, t) → l ≠ .u → s.vector b t l e.cause = .handler handler →
     let q := b.storeReq l
     let sp := (t.tsp l - 64).toNat
     let v := s.noteVector b t l e.cause
     let w := v.writeVa q false sp (frameBytes e t)
     let framed := s1.postsAt i k q sp
     let top := t.wb + t.f + min 16 t.n
     let room := if framed.later then framed.roomFor i k top else framed.makeRoom i k top (moveFuel t)
     let double (s : State) (c : Cause) : State :=
       if l = .f then s.stopThread i k
       else s.enterAt i k { e with cause := .doubleTrap, extra := BitVec.ofNat 64 (e.cause.code + 256 * c.code) } e.cause n (if l = .s then .h else .f)
     (v.hostWaits b k q sp = true → s.enterAt i k e e.cause (n + 1) l = v) ∧
     (v.hostWaits b k q sp = false →
       (∀ f va, w = ((s1, cl), some (f, va)) → (∀ m, f ≠ .held m) → s.enterAt i k e e.cause (n + 1) l = double s1 (f.trap q va).cause) ∧
       (∀ m va, w = ((s1, cl), some (.held m, va)) → s.enterAt i k e e.cause (n + 1) l = v)) ∧
     (v.hostWaits b k q sp = false → w = ((s1, cl), none) →
       (∀ s2 tr, room = (s2, some (.trap tr)) → s.enterAt i k e e.cause (n + 1) l = double s2 tr.cause) ∧
       (∀ s2 v, room = (s2, some (.wait v)) → s.enterAt i k e e.cause (n + 1) l = s2) ∧
       (∀ s2, room = (s2, none) → s.enterAt i k e e.cause (n + 1) l =
         (s2.updThread i k (fun u => { (u.setTsp l (t.tsp l - 64)) with
           level := l, swb := 0, wb := u.wb + u.f, f := min 16 t.n, preds := 0, pfx := {}, pc := handler, wait := .none, pend := none })
           ).undefine i k (t.wb + t.f) (min 16 t.n)))) ∧
  (∀ (s : State) (b : Block) (t : Thread), Solo s b t → t.level ≠ .u →
     let r := s.progressed.devLoad (b.progressAt s.clock) t (b.loadReq t.level) false none (t.tsp t.level).toNat 64
     (∀ tr, r = .trap tr → exec .tret s = .next (s.progressed.takeTrap t.tid tr)) ∧
     (∀ w, r = .wait w → exec .tret s = .next (s.becomes t (t.hold s.cur w))) ∧
     (∀ (frame : List Byte) (s' : State), r = .ok frame s' → s'.cur = s.cur → s'.later = s.later →
       let at4 (o : Nat) : Nat := ofBytes ((frame.drop o).take 4)
       let pc := ofBytes (frame.take 8)
       let f := at4 32 % 256
       let whole := at4 16 / 2 ^ 22 % 4 ≤ t.level.toNat ∧ f ≠ 0 ∧ f ≤ min t.n 128 ∧ at4 24 / 2 ^ 16 % 256 ≤ 4 ∧ Pfx.ofWord (at4 36) ≠ none
       (¬whole → exec .tret s = .next (s'.takeTrap t.tid { cause := .illegalOp, extra := s.cur.word.setWidth 64 })) ∧
       (whole → (pc % 4 ≠ 0 ∨ 2 ^ 56 ≤ pc) → exec .tret s = .next (s'.takeTrap t.tid { cause := .jumpFault, addr := BitVec.ofNat 64 pc })) ∧
       (∀ p b' t', whole → pc % 4 = 0 → pc < 2 ^ 56 → Pfx.ofWord (at4 36) = some p → s'.thread? s.cur.blk t.tid = some (b', t') →
         let u : Thread := { (t.setTsp t.level (t.tsp t.level + 64)) with
           level := Level.ofBits (at4 16 / 2 ^ 22), pc := BitVec.ofNat 64 pc, preds := BitVec.ofNat 8 (at4 24 / 2 ^ 24),
           swb := 32 * (at4 24 / 2 ^ 16 % 256), wb := at4 28, f := f, pfx := p, wait := .none, waited := 0 }
         let top := t.wb + t.f
         let s1 := s'.updThread s.cur.blk t.tid (fun _ => u)
         let s2 := if top < u.wb + u.f then s1.undefine s.cur.blk t.tid top (min (u.wb + u.f - top) (t.low + t.n - top)) else s1
         (s.later = true → exec .tret s = .next s2) ∧
         (s.later = false →
           (∀ s3, s2.settle s.cur.blk t.tid (moveFuel u) = (s3, none) → exec .tret s = .next s3) ∧
           (∀ s3 x, s2.settle s.cur.blk t.tid (moveFuel u) = (s3, some x) → exec .tret s = .next (s3.stopBefore s.cur.blk t.tid x))))))

/-- R30, R144, R147, R407: below its level, each system form raises PRIV with the instruction word, in every thread that reaches it, and
does nothing else. -/
def Obligations.PrivilegedForms : Prop :=
  ∀ (s : State) (b : Block) (t : Thread) (d a v : Reg) (n : BitVec 14), Solo s b t →
    (let refused : Outcome := .next (s.takeTrap t.tid { cause := .priv, extra := s.cur.word.setWidth 64 })
     (t.level = .u →
       exec .tret s = refused ∧ exec (.tinv a) s = refused ∧ exec .tinva s = refused ∧ exec (.ustat d a v) s = refused ∧
       exec (.swr d n) s = refused ∧ (n = 0x100 ∨ n = 0x101 → exec (.srd d n) s = refused)) ∧
     (t.level = .u ∨ t.level = .s →
       exec (.pinv d a v) s = refused ∧ exec (.pinva d v) s = refused ∧ exec (.keyset d a v) s = refused ∧ exec (.keyerase a) s = refused ∧
       exec (.slnew d a v) s = refused ∧ exec (.sldel d a) s = refused ∧ exec (.slassign d a v) s = refused ∧
       exec (.slquiesce d a v) s = refused ∧ exec (.slresume d a) s = refused ∧ exec (.slsplit d a v) s = refused ∧
       exec (.slfuse d a) s = refused ∧ exec (.slways d a v) s = refused ∧ exec (.slplace d a v) s = refused ∧
       exec (.slquota d a v) s = refused ∧ exec (.slreset d a) s = refused ∧ exec (.slstat d a v) s = refused ∧
       (n = 0x102 ∨ n = 0x103 → exec (.srd d n) s = refused ∧ exec (.swr d n) s = refused)) ∧
     (t.level ≠ .f → n = 0x104 ∨ n = 0x105 → exec (.srd d n) s = refused ∧ exec (.swr d n) s = refused))

/-- R26, R144: SRD of each special register.
The model's own, by the assumption log: 4 (each thread has its own trap registers), 37 (%pc is the address of the SRD word).
R144, R145: SWR of each special register that can be written, with the bits it clears; the spill registers are the quad's.
The model's own, by the assumption log: 4 (each thread has its own trap registers). -/
def Obligations.SpecialRegisters : Prop :=
  (∀ (s : State) (b : Block) (t : Thread) (d : Reg), Solo s b t →
     (∀ (n : BitVec 14) (x : Word), FieldsOk b t [d.toNat] [] [] →
       (n, x) ∈ ([(0x001, BitVec.ofNat 32 t.wb), (0x002, BitVec.ofNat 32 t.f), (0x003, BitVec.ofNat 32 t.low), (0x004, BitVec.ofNat 32 t.n),
         (0x005, BitVec.ofNat 32 t.swb), (0x006, BitVec.ofNat 32 t.level.toNat),
         (0x011, b.spillDepth.getD (t.tid / 4) 0), (0x020, BitVec.ofNat 32 t.lane), (0x021, BitVec.ofNat 32 t.tid),
         (0x028, BitVec.ofNat 32 (levelIndex b.record t.tid b.num 0)), (0x029, BitVec.ofNat 32 (levelIndex b.record t.tid b.num 1)),
         (0x02A, BitVec.ofNat 32 (levelIndex b.record t.tid b.num 2)), (0x02B, BitVec.ofNat 32 (levelIndex b.record t.tid b.num 3)),
         (0x02C, BitVec.ofNat 32 (levelIndex b.record t.tid b.num 4)), (0x02D, BitVec.ofNat 32 (levelIndex b.record t.tid b.num 5)),
         (0x02E, BitVec.ofNat 32 (levelIndex b.record t.tid b.num 6)), (0x02F, BitVec.ofNat 32 (levelIndex b.record t.tid b.num 7)),
         (0x030, BitVec.ofNat 32 b.core)] : List (BitVec 14 × Word)) →
       exec (.srd d n) s = .next (s.done t (t.put d.toNat x))) ∧
     (∀ (n : BitVec 14) (l : Level) (x : DWord), FieldsOk b t [d.toNat, d.toNat + 1] [] [] →
       (n, l, x) ∈ ([(0x000, .u, s.cur.pc), (0x010, .u, b.spillBase.getD (t.tid / 4) 0), (0x040, .u, BitVec.ofNat 64 s.devTime),
         (0x100, .s, t.tvbs), (0x101, .s, t.tsps), (0x102, .h, t.tvbh), (0x103, .h, t.tsph), (0x104, .f, t.tvbf), (0x105, .f, t.tspf)] :
         List (BitVec 14 × Level × DWord)) →
       l.toNat ≤ t.level.toNat → exec (.srd d n) s = .next (s.done t (t.put64 d.toNat x)))) ∧
  (∀ (s : State) (b : Block) (t : Thread) (d : Reg), Solo s b t → t.level ≠ .u →
     (FieldsOk b t [d.toNat, d.toNat + 1] [] [d.toNat, d.toNat + 1] →
       let x : DWord := BitVec.ofNat 64 ((t.get64 d.toNat).toNat % 2 ^ 56 / 8 * 8)
       exec (.swr d 0x100) s = .next (s.done t { t with tvbs := x }) ∧ exec (.swr d 0x101) s = .next (s.done t { t with tsps := x }) ∧
       (t.level ≠ .s →
         exec (.swr d 0x102) s = .next (s.done t { t with tvbh := x }) ∧ exec (.swr d 0x103) s = .next (s.done t { t with tsph := x })) ∧
       (t.level = .f →
         exec (.swr d 0x104) s = .next (s.done t { t with tvbf := x }) ∧ exec (.swr d 0x105) s = .next (s.done t { t with tspf := x })) ∧
       exec (.swr d 0x010) s = .next ((s.done t t).updBlock s.cur.blk (fun c => { c with
         spillBase := c.spillBase.modify (t.tid / 4) (fun _ => BitVec.ofNat 64 ((t.get64 d.toNat).toNat % 2 ^ 56 / 64 * 64)) }))) ∧
     (FieldsOk b t [d.toNat] [] [d.toNat] →
       exec (.swr d 0x011) s = .next ((s.done t t).updBlock s.cur.blk (fun c => { c with
         spillDepth := c.spillDepth.modify (t.tid / 4) (fun _ => BitVec.ofNat 32 ((t.get d.toNat).toNat % 2 ^ 24 / 16 * 16)) }))))

/-! ## Cross-lane and scalar instructions (R178 to R187) -/

/-- R178, R179, R182 to R185: where the issue runs every named member, the rendezvous completes at once: each member receives what its
form gives from the values of all members. The minimum or maximum of one NaN is the canonical NaN (R75).
R178, R179, R183: the polls and the ballot of a rendezvous that completes at once. -/
def Obligations.CrossLaneResults : Prop :=
  (∀ (s : State) (b : Block) (m : Nat) (M : DWord) (d a v : Reg), Meets s b m M v.toNat →
     let ms := s.runners b
     let words := ms.map (fun u => u.get a.toNat)
     let routed (src : Nat → Nat → Int) : Outcome := .next (s.afterMeet b (fun t => t.put d.toNat
       (((ms.find? (fun u => ((u.tid % 64 : Nat) : Int) == src (t.tid % 64) (t.get d.toNat).toNat)).map (fun u => u.get a.toNat)).getD (t.get a.toNat))))
     let reduced (f : List Word → Word) : Outcome := .next (s.afterMeet b (fun t => t.put d.toNat (f words)))
     let scanned (f : List Word → Word) : Outcome :=
       .next (s.afterMeet b (fun t => t.put d.toNat (f ((ms.filter (fun u => u.tid ≤ t.tid)).map (fun u => u.get a.toNat)))))
     let folded (f : Word → Word → Word) (xs : List Word) : Word := xs.tail.foldl f (xs.headD 0)
     let picked (max : Bool) (x y : Word) : Word := BitVec.ofNat 32 (fp32.pick max false x.toNat y.toNat)
     ((∀ t ∈ s.runners b, FieldsOk b t [d.toNat, a.toNat] [v.toNat, v.toNat + 1] [d.toNat, a.toNat]) →
       exec (.routePick d a v) s = routed (fun _ x => (x % 64 : Nat)) ∧
       exec (.routeRot d a v) s = routed (fun j x => ((j + x) % 64 : Nat)) ∧
       exec (.routeShift d a v) s = routed (fun j x => (j : Int) + (BitVec.ofNat 7 x).toInt) ∧
       exec (.routeFlip d a v) s = routed (fun j x => (Nat.xor j (x % 64) : Nat))) ∧
     ((∀ t ∈ s.runners b, FieldsOk b t [d.toNat, a.toNat] [v.toNat, v.toNat + 1] [a.toNat]) →
       exec (.reduxAdd d a v) s = reduced (folded (fun x y => x + y)) ∧
       exec (.reduxMin d a v) s = reduced (folded (fun x y => if x.toInt ≤ y.toInt then x else y)) ∧
       exec (.reduxMax d a v) s = reduced (folded (fun x y => if x.toInt ≤ y.toInt then y else x)) ∧
       exec (.reduxMinu d a v) s = reduced (folded (fun x y => if x.toNat ≤ y.toNat then x else y)) ∧
       exec (.reduxMaxu d a v) s = reduced (folded (fun x y => if x.toNat ≤ y.toNat then y else x)) ∧
       exec (.reduxAnd d a v) s = reduced (folded (fun x y => x &&& y)) ∧
       exec (.reduxOr d a v) s = reduced (folded (fun x y => x ||| y)) ∧
       exec (.reduxXor d a v) s = reduced (folded (fun x y => x ^^^ y)) ∧
       exec (.reduxFadd d a v) s = reduced (fun xs => BitVec.ofNat 32 (fsum (xs.map (·.toNat)))) ∧
       exec (.reduxFmin d a v) s = reduced (fun xs => picked false (folded (picked false) xs) (folded (picked false) xs)) ∧
       exec (.reduxFmax d a v) s = reduced (fun xs => picked true (folded (picked true) xs) (folded (picked true) xs)) ∧
       exec (.scanAdd d a v) s = scanned (folded (fun x y => x + y)) ∧
       exec (.scanFadd d a v) s = scanned (fun xs => BitVec.ofNat 32 (fsum (xs.map (·.toNat)))))) ∧
  (∀ (s : State) (b : Block) (m : Nat) (M : DWord) (p q : BitVec 3) (v : Reg), Meets s b m M v.toNat →
     (∀ t ∈ s.runners b, FieldsOk b t [] [v.toNat, v.toNat + 1] []) →
     let votes := (s.runners b).map (fun u => u.pred q.toNat)
     exec (.pollOr p q v) s = .next (s.afterMeet b (fun t => t.putPred p.toNat (votes.any id))) ∧
     exec (.pollAnd p q v) s = .next (s.afterMeet b (fun t => t.putPred p.toNat (votes.all id))) ∧
     exec (.pollSame p q v) s = .next (s.afterMeet b (fun t => t.putPred p.toNat (votes.all id || !votes.any id))) ∧
     (∀ d : Reg, (∀ t ∈ s.runners b, FieldsOk b t [d.toNat, d.toNat + 1] [v.toNat, v.toNat + 1] []) →
       exec (.pgather d q v) s = .next (s.afterMeet b (fun t => t.put64 d.toNat
         (((s.runners b).filter (fun u => u.pred q.toNat)).foldl (fun x u => x ||| BitVec.twoPow 64 (u.tid % 64)) 0)))))

/-- R186: the scalar unit's instructions, for a thread alone: s(SWB + d) gets the result, or the predicate or the vector register does.
R186, R187, R214, R216, R230, R301: SLD.32 and SST.32 reach the word at s(a) + 4 × b of the block's own scratchpad, raise MISALIGN or BOUND where the
address is not a multiple of 4 or its word is not inside, and BARRIER_CLOBBER where a store meets a live barrier object. Of the bytes there, those that an engine leaves undefined are loaded as free
values, and a load of a poisoned word raises UNCORRECTABLE. -/
def Obligations.ScalarUnit : Prop :=
  (∀ (s : State) (b : Block) (t : Thread) (d a v : Reg), Solo s b t →
     (FieldsOk b t [] (d.toNat :: (s.scA a.toNat 1 ++ s.scB v.toNat 1)) [] →
       let x := s.sopA b t a.toNat
       let y := s.sopB b t v.toNat
       let gives (z : Word) : Outcome := .next (s.afterScalar t (t.swb + d.toNat) z)
       exec (.sadd d a v) s = gives (x + y) ∧ exec (.ssub d a v) s = gives (x - y) ∧ exec (.smul d a v) s = gives (x * y) ∧
       exec (.sand d a v) s = gives (x &&& y) ∧ exec (.sor d a v) s = gives (x ||| y) ∧ exec (.sxor d a v) s = gives (x ^^^ y) ∧
       exec (.sshl d a v) s = gives (BitVec.ofNat 32 (x.toNat * 2 ^ (y.toNat % 32))) ∧
       exec (.sshr d a v) s = gives (BitVec.ofNat 32 (x.toNat / 2 ^ (y.toNat % 32))) ∧
       exec (.ssar d a v) s = gives (BitVec.ofInt 32 (x.toInt / 2 ^ (y.toNat % 32))) ∧
       exec (.smin d a v) s = gives (BitVec.ofInt 32 (min x.toInt y.toInt)) ∧ exec (.smax d a v) s = gives (BitVec.ofInt 32 (max x.toInt y.toInt)) ∧
       exec (.sminu d a v) s = gives (BitVec.ofNat 32 (min x.toNat y.toNat)) ∧
       exec (.smaxu d a v) s = gives (BitVec.ofNat 32 (max x.toNat y.toNat))) ∧
     (FieldsOk b t [] (d.toNat :: s.scA a.toNat 1) [] →
       let x := s.sopA b t a.toNat
       let gives (z : Word) : Outcome := .next (s.afterScalar t (t.swb + d.toNat) z)
       exec (.smov d a) s = gives x ∧ exec (.saddi d a v) s = gives (BitVec.ofInt 32 (x.toInt + v.toInt)) ∧
       (∀ n : BitVec 5, exec (.sshli d a n) s = gives (BitVec.ofNat 32 (x.toNat * 2 ^ n.toNat)) ∧
         exec (.sshri d a n) s = gives (BitVec.ofNat 32 (x.toNat / 2 ^ n.toNat)) ∧
         exec (.ssari d a n) s = gives (BitVec.ofInt 32 (x.toInt / 2 ^ n.toNat)))) ∧
     (∀ c p : BitVec 3, FieldsOk b t [] (s.scA a.toNat 1 ++ s.scB v.toNat 1) [] →
       exec (.scmp c p a v) s = .next (s.done t (t.putPred p.toNat (icond c (s.sopA b t a.toNat) (s.sopB b t v.toNat))))) ∧
     (FieldsOk b t (s.vecA a.toNat 1) [d.toNat] (s.vecA a.toNat 1) →
       exec (.v2s d a) s = .next (s.afterScalar t (t.swb + d.toNat) (s.opA t a.toNat))) ∧
     (FieldsOk b t [d.toNat] (s.scA a.toNat 1) [] →
       exec (.s2v d a) s = .next (s.done t (t.put d.toNat (s.sopA b t a.toNat)))) ∧
     (s.litFor .a = none → s.litFor .b = none →
       FieldsOk b t [] [d.toNat, d.toNat + 1, a.toNat, a.toNat + 1, v.toNat, v.toNat + 1] [] →
       let z := b.sget64 t a.toNat + b.sget64 t v.toNat
       exec (.sadd64 d a v) s =
         .next ((s.updBlock s.cur.blk (fun b => b.sput (t.swb + d.toNat) (z.setWidth 32))).afterScalar t (t.swb + (d.toNat + 1)) ((z >>> 32).setWidth 32)))) ∧
  (∀ (s : State) (b : Block) (t : Thread) (d a k : Reg), Solo s b t → FieldsOk b t [] (d.toNat :: s.scA a.toNat 1) [] →
     let x := (s.sopA b t a.toNat).toNat + 4 * k.toNat
     let traps (tr : Trap) : Prop := exec (.sld32 d a k) s = .next (s.progressed.takeTrap t.tid tr) ∧
       exec (.sst32 d a k) s = .next (s.progressed.takeTrap t.tid tr)
     let gets (s : State) (bytes : List Byte) : State := s.afterScalar t (t.swb + d.toNat) (BitVec.ofNat 32 (ofBytes bytes))
     let puts (s : State) (bytes : List Byte) : State := (s.afterStore s.cur.blk b x bytes).done t t
     (x % 4 ≠ 0 → traps { cause := .misalign, extra := 4, addr := BitVec.ofNat 64 x }) ∧
     (x % 4 = 0 → b.scratchSize < x + 4 → traps { cause := .bound, extra := BitVec.ofNat 64 (x % 2 ^ 32), addr := BitVec.ofNat 64 x }) ∧
     (x % 4 = 0 → x + 4 ≤ b.scratchSize →
       (b.Quiet t b x 4 → exec (.sld32 d a k) s = .next (gets s (b.scratchBytes x 4))) ∧
       (¬ b.Settled t b x 4 → (∀ i < 4, b.undefAt t b (x + i) = false → b.scratchSyndrome (x + i) 1 = none) →
         exec (.sld32 d a k) s = .next (gets s.drew (s.drawn (fun i => b.undefAt t b (x + i)) (b.scratchBytes x 4)))) ∧
       (∀ syn : Nat, b.Settled t b x 4 → b.scratchSyndrome x 4 = some syn → exec (.sld32 d a k) s = .next (s.progressed.takeTrap t.tid
         { cause := .uncorrectable, extra := BitVec.ofNat 64 syn, addr := BitVec.ofNat 64 x })) ∧
       (b.liveIn x 4 = none → b.Covered t b x 4 → exec (.sst32 d a k) s = .next (puts s (toBytes 4 (b.sget t d.toNat).toNat))) ∧
       (b.liveIn x 4 = none → ¬ b.Covered t b x 4 →
         exec (.sst32 d a k) s = .next (puts s.drew (s.drawn (fun i => b.spUncovered t b (x + i)) (toBytes 4 (b.sget t d.toNat).toNat)))) ∧
       (∀ g : Nat, b.liveIn x 4 = some g → exec (.sst32 d a k) s = .next (s.progressed.takeTrap t.tid
         { cause := .barrierClobber, extra := BitVec.ofNat 64 (16 * g), addr := BitVec.ofNat 64 x }))))

/-! ## Barriers, convergence registers, fences, waits and tiles (R189 to R198, R212 to R215, R257 to R259, R303, R355) -/

/-- R191, R198: barrier objects in scratchpads, by BAR forms in the block's own and by NBAR forms anywhere in the neighbourhood. BARINIT
makes an object of EXPECT b, or none of b = 0. An arrival gives PHASE, and completes the phase when it is the last expected one. A wait
ends once PHASE is not its token. BARSYNC does both. Arriving and waiting need a live object. An object written with another PHASE, or no longer
live, releases its waiters, whatever it becomes after. A live object with a poisoned word raises UNCORRECTABLE (R230).
R191, R198, R259: a thread whose object has released it goes on when its BARWAIT or BARSYNC executes again, whatever the object is by then; so
does one whose BARSYNC a trap interrupted after its arrival, which does not arrive twice.
R190, R193, R230, R251, R259: barrier objects in device memory, at the address in bits 55 to 0 of a pair with bit 63 set: read and written back as
a read-modify-write of the thread; the waits that the bytes written release go on. A live object whose bytes no barrier instruction wrote, and an
arrival or wait on one that is not live, raise BARRIER_CLOBBER; what the read or the write meets is raised.
R189, R190, R251: the faults of an object's address, in the order in which they are raised: must-be-zero bits, alignment, and for a scratchpad or window
object its end; in device memory what the translation meets, and STAGE2_FAULT where the address is no DRAM page.
The model's own, by the assumption log: 23 (the window of a block that is gone is outside the neighbourhood). -/
def Obligations.BarrierObjects : Prop :=
  (∀ (s : State) (b c : Block) (t : Thread) (d a v : Reg) (p x : Nat), Solo s b t → t.OffBarriers →
     let clean : Prop := (c.barrier x).live = true → c.scratchSyndrome x 16 = none
     (BarrierAt s b t false a.toNat p c x → FieldsOk b t [] [a.toNat, a.toNat + 1, v.toNat] [] → clean →
       let o := c.barrier x
       let phase := if o.live then (o.phase + 1) % 2 ^ 32 else 0
       let n := (b.sget t v.toNat).toNat % 2 ^ 31
       exec (.barinit a v) s = .next (((s.updBlock s.cur.blk (fun c => c.noteArrival x t)).withBarrier b t.level p x
         (if n = 0 then { o with live := false, phase := phase } else { o with live := true, phase := phase, arrived := 0, expect := n })).done t t)) ∧
     (∀ win : Bool, BarrierAt s.progressed (b.progressAt s.clock) t win a.toNat p c x → s.ownLogged b.uid t.tid = false →
       let o := c.barrier x
       let addr := if win then (b.sget t a.toNat).toNat else (b.sget64 t a.toNat).toNat
       let regs := if win then [a.toNat] else [a.toNat, a.toNat + 1]
       let arrived : Barrier := if (o.arrived + 1) % 2 ^ 32 = o.expect then { o with phase := (o.phase + 1) % 2 ^ 32, arrived := 0 }
         else { o with arrived := (o.arrived + 1) % 2 ^ 32 }
       let arv := if win then Instr.nbararv d a else .bararv d a
       let wait := if win then Instr.nbarwait a v else .barwait a v
       let sync := if win then Instr.nbarsync a else .barsync a
       let dead : State := s.progressed.takeTrap t.tid
         { cause := .barrierClobber, extra := BitVec.ofNat 64 (addr % 2 ^ 32), addr := BitVec.ofNat 64 (addr % 2 ^ 56) }
       (FieldsOk b t [d.toNat] regs [] → clean →
         (o.live = true → exec arv s = .next (((s.afterArrival b addr p x arrived t).updThread s.cur.blk t.tid
           (fun u => u.put d.toNat (BitVec.ofNat 32 o.phase))).retireLane t.tid)) ∧
         (o.live = false → exec arv s = .next dead)) ∧
       (FieldsOk b t [v.toNat] regs [v.toNat] → clean →
         (o.live = true → o.phase ≠ (t.get v.toNat).toNat → exec wait s = .next ((s.progressed.joinView t.tid (s.padKey addr p x)).retireLane t.tid)) ∧
         (o.live = true → o.phase = (t.get v.toNat).toNat →
           exec wait s = .next (s.becomes t (t.hold s.cur (.barrier win addr (t.get v.toNat) false)))) ∧
         (o.live = false → exec wait s = .next dead)) ∧
       (FieldsOk b t [] regs [] → clean →
         (o.live = true → (o.arrived + 1) % 2 ^ 32 = o.expect →
           exec sync s = .next (((s.afterArrival b addr p x arrived t).joinView t.tid (s.padKey addr p x)).retireLane t.tid)) ∧
         (o.live = true → (o.arrived + 1) % 2 ^ 32 ≠ o.expect →
           exec sync s = .next ((s.afterArrival b addr p x arrived t).updThread s.cur.blk t.tid
             (fun u => u.hold s.cur (.barrier win addr (BitVec.ofNat 32 o.phase) true)))) ∧
         (o.live = false → exec sync s = .next dead)) ∧
       (FieldsOk b t [d.toNat, v.toNat] regs [v.toNat] → o.live = true → ∀ syn : Nat, c.scratchSyndrome x 16 = some syn →
         let bad : Trap := { cause := .uncorrectable, extra := BitVec.ofNat 64 syn, addr := BitVec.ofNat 64 (addr % 2 ^ 56) }
         exec arv s = .next (s.progressed.takeTrap t.tid bad) ∧ exec wait s = .next (s.progressed.takeTrap t.tid bad) ∧
         exec sync s = .next (s.progressed.takeTrap t.tid bad) ∧
         (win = false → FieldsOk b t [] [a.toNat, a.toNat + 1, v.toNat] [] → exec (.barinit a v) s = .next (s.progressed.takeTrap t.tid bad))) ∧
       (∀ (l : Level) (o' : Barrier) (i : Nat) (e : Block) (u : Thread) (addr' : Nat) (token : Word) (arrived : Bool),
         s.blocks[i]? = some e → u ∈ e.threads → u.wait = .barrier win addr' token arrived → s.barLoc i win addr' = some (.scratch p x) →
         ∃ e' u', (s.withBarrier b l p x o').blocks[i]? = some e' ∧ u' ∈ e'.threads ∧ u'.tid = u.tid ∧ u'.wait = u.wait ∧
           (o'.live = false ∨ o'.phase % 2 ^ 32 ≠ token.toNat → u'.freed = true) ∧
           (o'.live = true → o'.phase % 2 ^ 32 = token.toNat → u'.freed = u.freed)))) ∧
  (∀ (s : State) (b : Block) (t : Thread) (a v : Reg) (win : Bool), Solo s b t →
     let here := if win then (b.sget t a.toNat).toNat else (b.sget64 t a.toNat).toNat
     let regs := if win then [a.toNat] else [a.toNat, a.toNat + 1]
     let wait := if win then Instr.nbarwait a v else .barwait a v
     let sync := if win then Instr.nbarsync a else .barsync a
     let goesOn (z : State) (w : Bool) (addr : Nat) : Outcome := .next (((z.updThread s.cur.blk t.tid (fun u => { u with freed := false })).joinView
       t.tid (z.barKey b t w addr)).retireLane t.tid)
     (∀ (w : Bool) (addr : Nat) (token : Word) (arrived : Bool), t.wait = .barrier w addr token arrived → t.freed = true →
       (FieldsOk b t [v.toNat] regs [v.toNat] → exec wait s = goesOn s.progressed w addr) ∧
       (arrived = true → FieldsOk b t [] regs [] → exec sync s = goesOn s.progressed w addr)) ∧
     (∀ y : Synced, (∀ w addr token arrived, t.wait ≠ .barrier w addr token arrived) → t.arrivalAt win here = some y → y.freed = true →
       FieldsOk b t [] regs [] → exec sync s = goesOn (s.progressed.updThread s.cur.blk t.tid (fun u => { u with
         synced := u.synced.erase y, wait := .barrier win here y.token true, freed := true })) win here)) ∧
  (∀ (s : State) (b : Block) (t : Thread) (d a v : Reg), Solo s b t → t.OffBarriers →
     let addr := (b.sget64 t a.toNat).toNat
     let va := addr % 2 ^ 56
     let q := b.rmwReq t.level
     let S := s.progressed
     let traps (i : Instr) (c : Cause) : Prop := exec i s = .next (S.takeTrap t.tid
       { cause := c, extra := BitVec.ofNat 64 (addr % 2 ^ 32), addr := BitVec.ofNat 64 va })
     let broken (o : Barrier) : Prop := o.live = true ∧ (o.top % 2 ^ 31 ≠ 0 ∨ o.expect = 0 ∨ 2 ^ 31 ≤ o.expect ∨ o.expect ≤ o.arrived)
     2 ^ 63 ≤ addr → s.ownLogged b.uid t.tid = false → S.readHeld q va 16 = false → s.readHeld q va 16 = false →
     S.barCheck b t false addr = none → s.barCheck b t false addr = none →
     (∀ (bytes : List Byte) (s1 s2 : State) (cl : Bool), S.readVa q false va 16 = .ok (bytes, s1) →
       let o := Barrier.ofNat (ofBytes bytes) ((ofBytes bytes).testBit 127)
       let arrived : Barrier := if (o.arrived + 1) % 2 ^ 32 = o.expect then { o with phase := (o.phase + 1) % 2 ^ 32, arrived := 0 }
         else { o with arrived := (o.arrived + 1) % 2 ^ 32 }
       let key := S.barKey b t false addr
       (FieldsOk b t [d.toNat, v.toNat] [a.toNat, a.toNat + 1] [v.toNat] → broken o ∨ o.live = false →
         traps (.bararv d a) .barrierClobber ∧ traps (.barwait a v) .barrierClobber ∧ traps (.barsync a) .barrierClobber) ∧
       (FieldsOk b t [d.toNat] [a.toNat, a.toNat + 1] [] → o.live = true → ¬broken o →
         (s1.writeVa q false va arrived.bytes = ((s2, cl), none) →
           let z := s2.barRelease (ownerAt b.owner t.level) (.device va) arrived
           exec (.bararv d a) s = .next (((z.updBlock z.cur.blk (fun c => c.noteArrival key t)).updThread z.cur.blk t.tid
             (fun u => u.put d.toNat (BitVec.ofNat 32 o.phase))).retireLane t.tid)) ∧
         (∀ f at', s1.writeVa q false va arrived.bytes = ((s2, cl), some (f, at')) → exec (.bararv d a) s = .next (S.takeTrap t.tid (f.trap q at')))) ∧
       (FieldsOk b t [v.toNat] [a.toNat, a.toNat + 1] [v.toNat] → o.live = true → ¬broken o →
         (o.phase ≠ (t.get v.toNat).toNat → exec (.barwait a v) s = .next ((s1.joinView t.tid key).retireLane t.tid)) ∧
         (o.phase = (t.get v.toNat).toNat →
           exec (.barwait a v) s = .next (s.becomes t (t.hold s.cur (.barrier false addr (t.get v.toNat) false)))))) ∧
     (FieldsOk b t [d.toNat, v.toNat] [a.toNat, a.toNat + 1] [v.toNat] → ∀ f at', S.readVa q false va 16 = .error (f, at') →
       ∀ i ∈ [Instr.bararv d a, .barwait a v, .barsync a], exec i s = .next (S.takeTrap t.tid (f.trap q va))) ∧
     (FieldsOk b t [] [a.toNat, a.toNat + 1, v.toNat] [] →
       ∀ (bytes : List Byte) (s1 s2 : State) (cl : Bool) (c : Block), s.readVa q false va 16 = .ok (bytes, s1) →
       let o := Barrier.ofNat (ofBytes bytes) ((ofBytes bytes).testBit 127)
       let n := (b.sget t v.toNat).toNat % 2 ^ 31
       let phase := if o.live then (o.phase + 1) % 2 ^ 32 else 0
       let made : Barrier := if n = 0 then { o with live := false, phase := phase } else { o with live := true, phase := phase, arrived := 0, expect := n }
       let z := s2.barRelease (ownerAt b.owner t.level) (.device va) made
       (broken o → traps (.barinit a v) .barrierClobber) ∧
       (¬broken o → (s1.noteReset (s.barKey b t false addr)).writeVa q false va made.bytes = ((s2, cl), none) → Solo z c t →
         exec (.barinit a v) s = .next (z.done t t)))) ∧
  (∀ (s : State) (b : Block) (t : Thread) (d a v : Reg) (win : Bool), Solo s b t → t.OffBarriers → s.ownLogged b.uid t.tid = false →
     FieldsOk b t [d.toNat, v.toNat] (if win then [a.toNat] else [a.toNat, a.toNat + 1]) [v.toNat] →
     let addr := if win then (b.sget t a.toNat).toNat else (b.sget64 t a.toNat).toNat
     let device := win = false ∧ 2 ^ 63 ≤ addr
     let va := addr % 2 ^ 56
     let q := b.rmwReq t.level
     let S := s.progressed
     (device → S.readHeld q va 16 = false ∧ s.readHeld q va 16 = false) →
     let traps (tr : Trap) : Prop :=
       (∀ i ∈ (if win then [Instr.nbararv d a, .nbarwait a v, .nbarsync a] else [.bararv d a, .barwait a v, .barsync a]), exec i s = .next (S.takeTrap t.tid tr)) ∧
       (win = false → s.barCheck b t false addr = S.barCheck b t false addr → FieldsOk b t [] [a.toNat, a.toNat + 1, v.toNat] [] →
         exec (.barinit a v) s = .next (S.takeTrap t.tid tr))
     let bound : Trap := { cause := .bound, extra := BitVec.ofNat 64 (addr % 2 ^ 32), addr := BitVec.ofNat 64 va }
     let misaligned (x : Nat) : Trap := { cause := .misalign, extra := 16, addr := BitVec.ofNat 64 x }
     (win = true →
       (addr % 16 ≠ 0 → traps (misaligned addr)) ∧
       (addr % 16 = 0 → recNrows b.record * recNcols b.record ≤ addr / 262144 ∨ b.scratchSize < addr % 262144 + 16 ∨
         S.nbhdBlock s.cur.blk (addr / 262144) = none → traps bound)) ∧
     (win = false → addr < 2 ^ 63 →
       (2 ^ 18 ≤ addr → traps bound) ∧ (addr < 2 ^ 18 → addr % 16 ≠ 0 → traps (misaligned addr)) ∧
       (addr < 2 ^ 18 → addr % 16 = 0 → b.scratchSize < addr + 16 → traps bound)) ∧
     (device →
       (2 ^ 63 + 2 ^ 56 ≤ addr → traps bound) ∧ (addr < 2 ^ 63 + 2 ^ 56 → va % 16 ≠ 0 → traps (misaligned va)) ∧
       (addr < 2 ^ 63 + 2 ^ 56 → va % 16 = 0 →
         (∀ f, S.translate q va 16 = .error f → traps (f.trap q va)) ∧
         (∀ x, S.translate q va 16 = .ok x → x.place.device = none →
           traps { cause := .stage2Fault, extra := BitVec.ofNat 64 x.gpa, addr := BitVec.ofNat 64 va }))))

/-- R194, R195, R259: CINIT sets EXPECTM1 and COUNT and starts the next generation, or raises BOUND; MSIGN counts a signature, the last of
which starts the next generation, and gives the GEN it met; CWAIT goes on once GEN is not its token. A generation that ends lets every thread that waits
for its end go on, whatever GEN is by then.
R250, R257 to R259, R264, R266, R278, R279: a fence completes at once for a thread with nothing in its core's side log, and its scope's commands that start
later see what was written before it; FENCE.N is FENCE.B where the launch has no neighbourhood; behind an entry of its own the thread waits. FENCE.S sends a flushing read where the thread has sent host
writes, and waits until it is acknowledged; it counts a demotion where the slice's TSCOPE is set. OFENCE orders the thread's own writes
before its later commands.
The model's own, by the assumption log: 95 (which acknowledgments come later). -/
def Obligations.ConvergenceAndFences : Prop :=
  ((∀ c : Word, let e := c.toNat / 2 ^ 22; let n := c.toNat / 2 ^ 12 % 2 ^ 10; let g := c.toNat % 2 ^ 12
     convSign c = if n = e then BitVec.ofNat 32 (e * 2 ^ 22 + (g + 1) % 4096) else BitVec.ofNat 32 (e * 2 ^ 22 + (n + 1) % 1024 * 2 ^ 12 + g)) ∧
   (∀ (b : Block) (n k : Nat) (t : Thread), b.threads[k]? = some t → ∃ u, (b.fire n).threads[k]? = some u ∧ u.wait = t.wait ∧ u.pc = t.pc ∧ u.regs = t.regs ∧
     u.freed = (t.freed || match t.wait with | .conv r token => r == n && token != (b.cregs.getD n 0).toNat % 4096 | _ => false)) ∧
   (∀ (s : State) (b : Block) (t : Thread) (n : BitVec 4) (a : Reg), Solo s b t →
     let c := b.cregs.getD n.toNat 0
     let S := s.progressed
     let goesOn : Outcome := .next (((S.updThread s.cur.blk t.tid (fun u => { u with freed := false })).joinView t.tid (convKey n.toNat)).retireLane t.tid)
     (FieldsOk b t [] [a.toNat] [] →
       let x := (b.sget t a.toNat).toNat
       (1 ≤ x → x ≤ 1024 → t.OffRegisters → exec (.cinit n a) s = .next ((s.updBlock s.cur.blk (fun b => { b.noteArrival (convKey n.toNat) t with
         cregs := b.cregs.modify n.toNat (fun c => BitVec.ofNat 32 ((x - 1) * 2 ^ 22 + (c.toNat + 1) % 4096)) }.fire n.toNat)).done t t)) ∧
       (x = 0 ∨ 1024 < x → exec (.cinit n a) s = .next (S.takeTrap t.tid { cause := .bound, extra := BitVec.ofNat 64 x }))) ∧
     (FieldsOk b t [a.toNat] [] [] →
       exec (.msign a n) s = .next (((S.updBlock s.cur.blk (fun b => { b.noteArrival (convKey n.toNat) t with
         cregs := b.cregs.modify n.toNat convSign }.fire n.toNat)).updThread s.cur.blk t.tid
           (fun u => u.put a.toNat (BitVec.ofNat 32 (c.toNat % 4096)))).retireLane t.tid)) ∧
     (FieldsOk b t [a.toNat] [] [a.toNat] →
       (t.OffRegisters →
         (c.toNat % 4096 ≠ (t.get a.toNat).toNat → exec (.cwait n a) s = goesOn) ∧
         (c.toNat % 4096 = (t.get a.toNat).toNat →
           exec (.cwait n a) s = .next (s.becomes t (t.hold s.cur (.conv n.toNat (t.get a.toNat).toNat))))) ∧
       (∀ r token, t.wait = .conv r token → t.freed = true → exec (.cwait n a) s = goesOn)))) ∧
  ((∀ (s : State) (b : Block) (t : Thread), Solo s b t →
     let fenced (x : Nat) : State := { s.progressed with views := SMap.set s.views (b.scopeKey x) s.stamp }
     let tscope := s.tscope (ownerAt b.owner t.level)
     let waits : Outcome := .next (s.becomes t (t.hold s.cur .fence))
     let sent : State := { s with outbox := s.outbox ++ [.flushRead (s.portOf (ownerAt b.owner t.level))] }
     (s.ownLogged b.uid t.tid = false → t.flushing = false →
       exec .fenceB s = .next ((fenced 0).retireLane t.tid) ∧ exec .fenceN s =
         .next ((fenced (if recNrows b.record * recNcols b.record = 0 then 0 else 1)).retireLane t.tid) ∧
       exec .fenceQ s = .next ((fenced 2).retireLane t.tid) ∧ exec .fenceT s = .next ((fenced 3).retireLane t.tid) ∧
       (t.posted = false ∨ tscope = true → exec .fenceS s = .next (State.retireLane (if tscope then
         (fenced 3).count b.owner (fun c => { c with scopeClamp := min (c.scopeClamp + 1) (2 ^ 64 - 1) }) else fenced 3) t.tid)) ∧
       (t.posted = true → tscope = false →
         (s.later = false → exec .fenceS s = .next (State.done { sent with views := SMap.set s.views (b.scopeKey 3) s.stamp } t { t with posted := false })) ∧
         (s.later = true → exec .fenceS s = .next (sent.becomes t (Thread.hold { t with flushing := true } s.cur .fence))))) ∧
     (s.ownLogged b.uid t.tid = true ∨ t.flushing = true → ∀ i ∈ [Instr.fenceB, .fenceN, .fenceQ, .fenceT], exec i s = waits) ∧
     (t.flushing = true → exec .fenceS s = waits) ∧
     (s.ownLogged b.uid t.tid = true → t.posted = false ∨ tscope = true → exec .fenceS s = waits) ∧
     (s.ownLogged b.uid t.tid = true → t.flushing = false → t.posted = true → tscope = false →
       exec .fenceS s = .next (sent.becomes t (Thread.hold { t with posted := s.later, flushing := s.later } s.cur .fence)))) ∧
   Does .ofence (fun _ => []) (fun _ => []) (fun _ => []) (fun s _ t => { t with oview := s.stamp }))

/-- R301 to R304, R356: COMMIT closes the open batch, and waits while fifteen closed batches are outstanding; WAITB closes it too and goes
on once at most n are outstanding; WAITSEQ goes on once the kind's completed sequence number has reached its target, modulo 2^32. A wait
that ends covers the commands it waited for: the thread need no longer wait for them, and what they wrote is defined for every thread
that did not issue them, and for those that did once each has waited. -/
def Obligations.BatchesAndSequences : Prop :=
  (∀ (s : State) (b : Block) (t : Thread), Solo s b t →
    (let closed : Thread := { t with openB := [], closedB := b.outstanding t ++ [t.openB] }
     (t.openB = [] → exec .commit s = .next (s.done t t)) ∧
     (t.openB ≠ [] → (b.outstanding t).length < 15 → exec .commit s = .next (s.done t closed)) ∧
     (t.openB ≠ [] → 15 ≤ (b.outstanding t).length → exec .commit s = .next (s.becomes t (t.hold s.cur (.batch 14 none)))) ∧
     (∀ n : BitVec 4,
       let tried (u : Thread) : Outcome := .next (if (b.outstanding u).length ≤ n.toNat then ((s.becomes t u).coverBatches t.tid).retireLane t.tid
         else s.becomes t (u.hold s.cur (.batch n.toNat (some n.toNat))))
       (t.openB = [] → exec (.waitb n) s = tried t) ∧
       (t.openB ≠ [] → (b.outstanding t).length < 15 → exec (.waitb n) s = tried closed) ∧
       (t.openB ≠ [] → 15 ≤ (b.outstanding t).length → exec (.waitb n) s = .next (s.becomes t (t.hold s.cur (.batch 14 (some n.toNat))))))) ∧
    (∀ (a : Reg) (e : BitVec 3), FieldsOk b t [] [a.toNat] [] → b.csn.getD e.toNat 0 < 2 ^ 32 →
      let target := (b.sget t a.toNat).toNat
      let ahead := (BitVec.ofNat 32 (b.csn.getD e.toNat 0) - b.sget t a.toNat).toNat
      (ahead < 2 ^ 31 → exec (.waitseq a e) s = .next ((s.progressed.coverSeq t.tid e.toNat target).retireLane t.tid)) ∧
      (2 ^ 31 ≤ ahead → exec (.waitseq a e) s = .next (s.becomes t (t.hold s.cur (.seq e.toNat target)))))) ∧
  (∀ (s : State) (b : Block) (t : Thread) (kind target : Nat), Solo s b t →
    let covers (s' : State) (f : Nat → Prop) : Prop :=
      ∃ b' t', s'.thread? s.cur.blk t.tid = some (b', t') ∧ (∀ u, u ∈ t'.unwaited ↔ u ∈ t.unwaited ∧ ¬ f u) ∧
        (∀ (q : Req) (va : Nat), s'.devUncovered b' t' q va = true →
          ∃ p ∈ b.past, ¬ f p.uid ∧ ∃ gpa, s'.gpaOf q va = some gpa ∧ inWrote p.wrote 0 q.owner gpa = true) ∧
        (∀ (c : Block) (x : Nat), b'.spUncovered t' c x = true →
          (∃ p ∈ b.past, ¬ f p.uid ∧ inWrote p.wrote 1 c.uid x = true) ∨
          (b.uid ≠ c.uid ∧ ∃ p ∈ c.past, p.covered = false ∧ inWrote p.wrote 1 c.uid x = true)) ∧
        (∀ q ∈ b.past, ¬ f q.uid → q.covered = false → q ∈ b'.past)
    covers (s.coverBatches t.tid) (fun u => u ∈ t.unwaited ∧ ∀ l ∈ b.outstanding t, u ∉ l) ∧
    covers (s.coverSeq t.tid kind target) (fun u => ∃ p ∈ b.past, p.uid = u ∧ p.kind = kind ∧ (target + 2 ^ 32 - p.seq) % 2 ^ 32 < 2 ^ 31) ∧
    covers (s.coverTile t.tid target) (fun u => ∃ p ∈ b.past, p.uid = u ∧ target ∈ p.tiles))

/-- R167, R212, R214, R215, R355: TSTAT reads an entry of the tile table, TWAIT waits for a tile that is neither full nor empty, and TMOV moves a
slice of a full tile that no command of the thread is still to write: thread index j, slice x = s(b) + off; rows hold columns j, 64 + j, 128 + j and 192 + j for the thread. An undeclared
tile raises REG_BOUND, a slice beyond the tile BOUND. -/
def Obligations.TileMoves : Prop :=
  ∀ (s : State) (b : Block) (u : Thread), Solo s b u →
    (∀ (d : Reg) (n : BitVec 5), let e := if n.toNat < 16 then n.toNat % 8 else 8 + n.toNat % 16
      ((b.tile e).decl = true → FieldsOk b u [d.toNat] [] [] →
        exec (.tstat d n) s = .next (s.done u (u.put d.toNat (BitVec.ofNat 32
          ((b.tile e).state * 2 ^ 30 + 2 ^ 29 + (b.tile e).cmd % 64 * 2 ^ 18 + (b.tile e).base % 2 ^ 14))))) ∧
      ((b.tile e).decl = true → (b.tile e).state = 2 ∨ (b.tile e).state = 0 →
        exec (.twait n) s = .next ((s.progressed.coverTile u.tid e).retireLane u.tid)) ∧
      ((b.tile e).decl = true → (b.tile e).state = 1 ∨ (b.tile e).state = 3 →
        exec (.twait n) s = .next (s.becomes u (u.hold s.cur (.tile e true)))) ∧
      ((b.tile e).decl = false → exec (.twait n) s = .next (s.progressed.takeTrap u.tid (.regBound e)))) ∧
    (∀ (d v : Reg) (n : BitVec 3) (o : BitVec 6), let x := ((b.sget u v.toNat).toNat + o.toNat) % 2 ^ 32; let j := u.tid % 64
      let S := s.progressed.coverTile u.tid n.toNat
      let gets (f : Thread → Thread) : Outcome := .next ((S.updThread s.cur.blk u.tid f).retireLane u.tid)
      let puts (cells : List (Nat × Nat)) (f : Block → Block) : Outcome := .next (((S.noteTile s.cur.blk n.toNat cells).updBlock s.cur.blk f).retireLane u.tid)
      (b.tile n.toNat).decl = true →
      ((b.tile n.toNat).state = 2 → b.ownWriter u n.toNat = false →
        (x < 64 → FieldsOk b u [d.toNat, d.toNat + 1, d.toNat + 2, d.toNat + 3] [v.toNat] [] →
          ((∀ i < 4, b.accSyndrome n.toNat x (64 * i + j) = none) →
            exec (.tmovTr d n v o) s = gets (fun u => (((u.put d.toNat (b.acc n.toNat x j)).put (d.toNat + 1) (b.acc n.toNat x (64 + j))).put
              (d.toNat + 2) (b.acc n.toNat x (128 + j))).put (d.toNat + 3) (b.acc n.toNat x (192 + j)))) ∧
          (checkPoison u [d.toNat, d.toNat + 1, d.toNat + 2, d.toNat + 3] = none →
            exec (.tmovRt d n v o) s = puts [(x, j), (x, 64 + j), (x, 128 + j), (x, 192 + j)] (fun c =>
              (((c.putAcc n.toNat x j (u.get d.toNat)).putAcc n.toNat x (64 + j) (u.get (d.toNat + 1))).putAcc n.toNat x (128 + j)
                (u.get (d.toNat + 2))).putAcc n.toNat x (192 + j) (u.get (d.toNat + 3))))) ∧
        (x < 256 → FieldsOk b u [d.toNat] [v.toNat] [] →
          (b.accSyndrome n.toNat j x = none → exec (.tmovTc d n v o) s = gets (fun u => u.put d.toNat (b.acc n.toNat j x))) ∧
          (checkPoison u [d.toNat] = none →
            exec (.tmovCt d n v o) s = puts [(j, x)] (fun c => c.putAcc n.toNat j x (u.get d.toNat)))) ∧
        (64 ≤ x → FieldsOk b u [d.toNat, d.toNat + 1, d.toNat + 2, d.toNat + 3] [v.toNat] [] →
          exec (.tmovTr d n v o) s = .next (s.progressed.takeTrap u.tid { cause := .bound, extra := BitVec.ofNat 64 x }))) ∧
      ((b.tile n.toNat).state ≠ 2 ∨ b.ownWriter u n.toNat = true → FieldsOk b u [d.toNat, d.toNat + 1, d.toNat + 2, d.toNat + 3] [v.toNat] [] →
        exec (.tmovTr d n v o) s = .next (s.becomes u (u.hold s.cur (.tile n.toNat false)))))

/-! ## Memory accesses (R27 to R29, R141, R214, R216, R270 to R283) -/

/-- R107, R155, R214, R216, R230, R270, R271, R273, R274, R301: loads, stores and atomics of the block's own scratchpad and of the neighbourhood window, at the
address v(a) + k × w: the bytes a load gets, those a store leaves, the old word an atomic returns and the new one it stores. A misaligned
address raises MISALIGN, an access outside BOUND, a load of a poisoned word UNCORRECTABLE, a store onto a live barrier object
BARRIER_CLOBBER. The bytes that an engine leaves undefined are loaded as free values, and those that no wait covers are left undefined by a store. What
a load brings is in d at once, or a return on its way there.
The model's own, by the assumption log: 95 (which results come later).
R270, R271, R301: the frame of a store to a scratchpad: at the offset stored to stand the bytes stored, every other byte of that scratchpad
reads as before, and so do every other scratchpad, device memory and the words of no block; threads and registers stay. Of commands that are to
write there, only that they are spoilt changes. -/
def Obligations.LocalMemory : Prop :=
  ((∀ (s : State) (t : Thread) (d : Nat) (bytes : List Byte) (divide : Bool),
     (s.later = false → s.deliver t d bytes divide = s.updThread s.cur.blk t.tid (fun u => u.putBytes d bytes)) ∧
     (s.later = true → s.deliver t d bytes divide = s.updBlock s.cur.blk (fun b => { b with
       returns := b.returns ++ [{
         tid := t.tid, width := 4 * ((bytes.length + 3) / 4), pos := t.wb + d, value := ofBytes bytes, divide := divide }] }))) ∧
   (∀ (s : State) (b c : Block) (t : Thread) (win : Bool) (d a k : Reg) (code : BitVec 3) (p y : Nat), Solo s b t →
     let w := 2 ^ code.toNat
     let x := (t.get a.toNat).toNat + k.toNat * w
     let ld := if win then Instr.nld d a k code else .sld d a k code
     let st := if win then Instr.nst d a k code else .sst d a k code
     let S := s.progressed
     let traps (i : Instr) (tr : Trap) : Prop := exec i s = .next (S.takeTrap t.tid tr)
     let gets (s' : State) (bytes : List Byte) : Outcome := .next ((s'.deliver t d.toNat bytes false).retireLane t.tid)
     let misaligned : Trap := { cause := .misalign, extra := BitVec.ofNat 64 w, addr := BitVec.ofNat 64 x }
     let outside : Trap := { cause := .bound, extra := BitVec.ofNat 64 (x % 2 ^ 32), addr := BitVec.ofNat 64 x }
     let beyond : Prop := if win then recNrows b.record * recNcols b.record ≤ x / 262144 ∨ b.scratchSize < x % 262144 + w else b.scratchSize < x + w
     let here : Prop := LocalAt S (b.progressAt s.clock) win x w p c y
     (FieldsOk b t (dataRegs d.toNat w ++ [a.toNat]) [] [a.toNat] →
       (x % w ≠ 0 → traps ld misaligned) ∧ (x % w = 0 → beyond → traps ld outside) ∧
       (here →
         (b.Quiet t c y w → exec ld s = gets S (c.scratchBytes y w)) ∧
         (¬ b.Settled t c y w → (∀ i < w, b.undefAt t c (y + i) = false → c.scratchSyndrome (y + i) 1 = none) →
           exec ld s = gets S.drew (S.drawn (fun i => b.undefAt t c (y + i)) (c.scratchBytes y w))) ∧
         (∀ syn : Nat, b.Settled t c y w → c.scratchSyndrome y w = some syn →
           traps ld { cause := .uncorrectable, extra := BitVec.ofNat 64 syn, addr := BitVec.ofNat 64 x }) ∧
         (∀ j syn : Nat, ¬ b.Settled t c y w → j < w → b.undefAt t c (y + j) = false → c.scratchSyndrome (y + j) 1 = some syn →
           (∀ i < j, b.undefAt t c (y + i) = true ∨ c.scratchSyndrome (y + i) 1 = none) →
           traps ld { cause := .uncorrectable, extra := BitVec.ofNat 64 syn, addr := BitVec.ofNat 64 x }))) ∧
     (FieldsOk b t (dataRegs d.toNat w ++ [a.toNat]) [] (dataRegs d.toNat w ++ [a.toNat]) →
       (x % w ≠ 0 → traps st misaligned) ∧ (x % w = 0 → beyond → traps st outside) ∧
       (here →
         (c.liveIn y w = none →
           (b.Covered t c y w → exec st s = .next ((S.afterStore p c y (t.dataBytes d.toNat w)).retireLane t.tid)) ∧
           (¬ b.Covered t c y w → exec st s = .next ((S.drew.afterStore p c y
             (S.drawn (fun i => b.spUncovered t c (y + i)) (t.dataBytes d.toNat w))).retireLane t.tid))) ∧
         (∀ g : Nat, c.liveIn y w = some g → traps st
           { cause := .barrierClobber, extra := BitVec.ofNat 64 ((if win then x / 262144 * 262144 else 0) + 16 * g), addr := BitVec.ofNat 64 x }))) ∧
     (∀ q : BitVec 4, q.toNat ≤ 10 → code = 2 → here → b.Quiet t c y 4 → c.liveIn y 4 = none →
       FieldsOk b t (atomRegs d.toNat 1 q.toNat ++ [a.toNat]) [] (atomRegs d.toNat 1 q.toNat ++ [a.toNat]) →
       let old : Word := BitVec.ofNat 32 (ofBytes (c.scratchBytes y 4))
       let v := t.get d.toNat
       let new : Word := ([old + v, BitVec.ofInt 32 (min old.toInt v.toInt), BitVec.ofInt 32 (max old.toInt v.toInt),
         BitVec.ofNat 32 (min old.toNat v.toNat), BitVec.ofNat 32 (max old.toNat v.toNat), old &&& v, old ||| v, old ^^^ v, v,
         (if old = v then t.get (d.toNat + 1) else old), BitVec.ofNat 32 (fp32.add 0 old.toNat v.toNat)] : List Word).getD q.toNat 0
       let stored : State := S.afterStore p c y (toBytes 4 new.toNat)
       exec (if win then Instr.atomNb d a k q else .atomSp d a k q) s = if win then gets stored (c.scratchBytes y 4) else
         .next ((stored.updThread s.cur.blk t.tid (fun u => u.put d.toNat old)).retireLane t.tid)))) ∧
  (∀ (s : State) (p y : Nat) (c : Block) (bytes : List Byte), s.blocks[p]? = some c →
     let s' := s.afterStore p c y bytes
     let marked (e e' : Block) : Prop := e'.window.map (fun x => { x with spoilt := [] }) = e.window.map (fun x => { x with spoilt := [] })
     (∃ c', s'.blocks[p]? = some c' ∧ c'.scratchBytes y bytes.length = bytes ∧
       (∀ x, x < y ∨ y + bytes.length ≤ x → c'.scratchByte x = c.scratchByte x) ∧
       c'.threads = c.threads ∧ c'.sregs = c.sregs ∧ c'.cregs = c.cregs ∧ c'.rows = c.rows ∧ c'.live = c.live ∧ c'.past = c.past ∧ marked c c') ∧
     (∀ (p' : Nat) (e : Block), p' ≠ p → s.blocks[p']? = some e →
       ∃ e', s'.blocks[p']? = some e' ∧ e' = { e with window := e'.window } ∧ marked e e' ∧ (p' ≠ s.cur.blk → e' = e)) ∧
     s'.dram = s.dram ∧ s'.dramKey = s.dramKey ∧ s'.l2 = s.l2 ∧ s'.sram = s.sram ∧ s'.remains = s.remains ∧ s'.slices = s.slices ∧
     s'.sideLog = s.sideLog)

/-- R27 to R29: how the record r, the index i, the offset and the width give an address, and which rule of the record an access breaks.
R27, R28, R141, R143, R248, R250, R264, R275, R277, R301: accesses through a buffer record, for a thread alone whose address translates: what LD, RCRD
and the atomics read is brought to d, what ST, FADDX, RCCLR and the atomics write is in memory, where no wait of the thread leaves bytes that a command
wrote uncovered, which stay undefined; out of bounds without a trap, a load reads 0 and a store does nothing. A store whose address does not translate
retires into the side log, or waits while the log is full; one whose granule another entry of the owner holds waits; a host write waits for what its
thread has logged.
The model's own, by the assumption log: 95 (which results come later), 99 (how long a host write waits). -/
def Obligations.BufferRecords : Prop :=
  (∀ (r k i off w : Nat) (reads writes : Bool), 0 < w →
     let base := r % 2 ^ 56; let count := r / 2 ^ 64 % 2 ^ 32; let stride := r / 2 ^ 96 % 2 ^ 16; let esize := r / 2 ^ 112 % 2 ^ 12
     let mode := r / 2 ^ 124 % 2 ^ 4
     let o := i * stride + off
     let a := base + (if mode = 1 then Nat.xor o (o / 2 ^ 7 % 2 ^ 5 * 4) else if mode = 2 then Nat.xor o (o / 2 ^ 7 % 2 ^ 4 * 8)
       else if mode = 3 then Nat.xor o (o / 2 ^ 7 % 2 ^ 3 * 16) else o)
     let good := r / 2 ^ 56 % 2 ^ 4 = 0 ∧ mode ≤ 3 ∧ esize ≠ 0
     let allowed := (reads = true → r.testBit 63 = true) ∧ (writes = true → r.testBit 62 = true)
     let inside := i < count ∧ off + w ≤ esize ∧ a + w ≤ 2 ^ 56
     (¬good → bufAddr r k i off w reads writes = .error { cause := .badRecord, extra := BitVec.ofNat 64 k }) ∧
     (good → ¬allowed → bufAddr r k i off w reads writes = .error { cause := .permDenied, extra := BitVec.ofNat 64 k }) ∧
     (good → allowed → inside → a % w ≠ 0 →
       bufAddr r k i off w reads writes = .error { cause := .misalign, extra := BitVec.ofNat 64 w, addr := BitVec.ofNat 64 a }) ∧
     (good → allowed → inside → a % w = 0 → bufAddr r k i off w reads writes = .ok (some a)) ∧
     (good → allowed → ¬inside → (writes = true ∧ r.testBit 60 = true ∨ writes = false ∧ reads = true ∧ r.testBit 61 = true) →
       bufAddr r k i off w reads writes = .error { cause := .bound, extra := BitVec.ofNat 64 i, addr := BitVec.ofNat 64 (a % 2 ^ 64) }) ∧
     (good → allowed → ¬inside → ¬(writes = true ∧ r.testBit 60 = true ∨ writes = false ∧ reads = true ∧ r.testBit 61 = true) →
       bufAddr r k i off w reads writes = .ok none)) ∧
  (∀ (s s' s'' : State) (b : Block) (t : Thread) (d a : Reg) (k : BitVec 5) (x : Xlated) (va : Nat) (bytes : List Byte), Solo s b t →
     let r := b.recOf t k.toNat
     let i := (t.get a.toNat).toNat
     let ss := [4 * k.toNat, 4 * k.toNat + 1, 4 * k.toNat + 2, 4 * k.toNat + 3]
     let S := s.progressed
     let load := b.loadReq t.level
     let rmw := b.rmwReq t.level
     let store := b.storeReq t.level
     let read (q : Req) (dramOnly : Bool) (n : Nat) : Prop := S.devLoad (b.progressAt s.clock) t q dramOnly none va n = .ok bytes s'
     let gets (s' : State) (bytes : List Byte) : Outcome := .next ((s'.deliver t d.toNat bytes false).retireLane t.tid)
     let waits (X : State) (w : Wait) : Outcome := .next (X.updThread s.cur.blk t.tid (fun u => u.hold s.cur w))
     let room : Prop := (s.logOf b.core).length < 64
     let put (data : List Byte) (X : State) (out : List Byte) : Prop :=
       let open' (i : Nat) : Bool := S.devUncovered b t store (va + i)
       (∀ i < data.length, open' i = false) ∧ X = S ∧ out = data ∨ (∃ i < data.length, open' i = true) ∧ X = S.drew ∧ out = S.drawn open' data
     (∀ (w : BitVec 2) (o : BitVec 6), let n := 2 ^ w.toNat
       (FieldsOk b t (dataRegs d.toNat n ++ [a.toNat]) ss [a.toNat] →
         (bufAddr r k.toNat i (o.toNat * n) n true false = .ok none → exec (.ld d a k w o) s = gets S (List.replicate n 0)) ∧
         (bufAddr r k.toNat i (o.toNat * n) n true false = .ok (some va) → read load false n → exec (.ld d a k w o) s = gets s' bytes) ∧
         (∀ tr, bufAddr r k.toNat i (o.toNat * n) n true false = .error tr → exec (.ld d a k w o) s = .next (S.takeTrap t.tid tr))) ∧
       (FieldsOk b t (dataRegs d.toNat n ++ [a.toNat]) ss (dataRegs d.toNat n ++ [a.toNat]) →
         let st := exec (.st d a k w o) s
         let logged (stage2 byVa np : Bool) (gpa : Nat) (X : State) (out : List Byte) : Prop := (X.noteWalks store va).enterLog
           { core := b.core, owner := store.owner, slice := b.owner, blk := b.uid, tids := [t.tid], level := t.level, stage2 := stage2, byVa := byVa
             va := va / 128 * 128, gpa := gpa / 128 * 128, cells := cellsAt va out, addend := none, rmw := false, seq := 0 } np = some s'
         (bufAddr r k.toNat i (o.toNat * n) n false true = .ok none → st = .next (s.done t t)) ∧
         (∀ tr, bufAddr r k.toNat i (o.toNat * n) n false true = .error tr → st = .next (S.takeTrap t.tid tr)) ∧
         (∀ (X : State) (out : List Byte), bufAddr r k.toNat i (o.toNat * n) n false true = .ok (some va) → put (t.dataBytes d.toNat n) X out →
           (S.translate store va n = .ok x → X.translate store va n = .ok x →
             (X.granuleHeld store.owner va x.gpa = true → st = waits X (.load va 1 false)) ∧
             (X.granuleHeld store.owner va x.gpa = false →
               (x.place.inHost = true → s.ownLogged b.uid t.tid = true → st = waits X .fence) ∧
               ((x.place.inHost = true → s.ownLogged b.uid t.tid = false) →
                 (∀ skipped, (X.atAccess t store x va n).writeCells store false x va (cellsAt va out) false = .ok (s', skipped) →
                   st = .next (s'.retireLane t.tid)) ∧
                 (∀ f, (X.atAccess t store x va n).writeCells store false x va (cellsAt va out) false = .error f →
                   st = .next (X.takeTrap t.tid (f.trap store va)))))) ∧
           (∀ np : Bool, S.translate store va n = .error (.page np) → X.translate store va n = .error (.page np) →
             (room → logged false true np 0 X out → st = .next (s'.retireLane t.tid)) ∧ (¬ room → st = waits S (.load va 1 true))) ∧
           (∀ (g : Nat) (np : Bool), S.translate store va n = .error (.stage2 g np) → X.translate store va n = .error (.stage2 g np) →
             (∀ byVa : Bool, (byVa = true ↔ ∀ y, X.translate1 store.owner va ≠ .ok y) → room → logged true byVa np g X out → st = .next (s'.retireLane t.tid)) ∧
             (¬ room → st = waits S (.load va 1 true)))))) ∧
     (FieldsOk b t [d.toNat, a.toNat] ss [a.toNat] → bufAddr r k.toNat i 0 64 true false = .ok (some va) → read load true 64 →
       exec (.rcrd d a k) s = gets s' (toBytes 4 (cellRead (ofBytes bytes)))) ∧
     (FieldsOk b t [d.toNat, a.toNat] ss [d.toNat, a.toNat] → bufAddr r k.toNat i 0 64 true true = .ok (some va) →
       S.translate { rmw with code := 3 } va 64 = .ok x → S.granuleHeld rmw.owner va x.gpa = false →
       ∀ h slot g, x.place = .dram h slot g →
       let s1 := S.atAccess t rmw x va 64
       let sum := s1.addCell b rmw x va [(t.tid, va, [], cellTerm (t.get d.toNat).toNat)] (cellTerm (t.get d.toNat).toNat)
       ((∀ j < 64, s1.devPending b t rmw (va + j) = false) → sum = (toBytes 64
         (cellAdd (ofBytes (s1.dramBytes rmw.owner x.gpa h slot 64).1) (cellTerm (t.get d.toNat).toNat)),
           (s1.noteSector rmw.owner x.gpa h).noteSector rmw.owner (x.gpa + 32) (h + 32))) ∧
       (sum.2.rmwCells rmw x va (cellsAt va sum.1) true = .ok s' → exec (.faddx d a k) s = .next (s'.retireLane t.tid))) ∧
     (FieldsOk b t [a.toNat] ss [a.toNat] → bufAddr r k.toNat i 0 64 false true = .ok (some va) →
       ∀ (X : State) (out : List Byte), put (List.replicate 64 0) X out → S.translate { store with code := 3 } va 64 = .ok x →
       X.translate { store with code := 3 } va 64 = .ok x → X.granuleHeld store.owner va x.gpa = false →
       x.InDram → (X.atAccess t store x va 64).rmwCells store x va (cellsAt va out) false = .ok s' →
       exec (.rcclr a k) s = .next (s'.retireLane t.tid)) ∧
     (∀ (wide : Bool) (q : BitVec 4), let w := if wide then 2 else 1
       FieldsOk b t (atomRegs d.toNat w q.toNat ++ [a.toNat]) ss (atomRegs d.toNat w q.toNat ++ [a.toNat]) →
       bufAddr r k.toNat i 0 (4 * w) true true = .ok (some va) → read rmw true (4 * w) → s'.translate rmw va = .ok x →
       let z := s'.spoilDevice s'.cur.blk rmw va (4 * w)
       let new := atomBytes t d.toNat w q.toNat (ofBytes bytes)
       let open' (j : Nat) : Bool := S.devUncovered (b.progressAt s.clock) t rmw (va + j)
       ((∀ j < 4 * w, open' j = false) → z.rmwCells rmw x va (cellsAt va new) true = .ok s'' →
         exec (if wide then Instr.atom64 d a k q else .atomRec d a k q) s = gets s'' bytes) ∧
       ((∃ j < 4 * w, open' j = true) → z.drew.rmwCells rmw x va (cellsAt va (z.drawn open' new)) true = .ok s'' →
         exec (if wide then Instr.atom64 d a k q else .atomRec d a k q) s = gets s'' bytes)))

/-- R221, R280, R423: PREF brings the four sectors of the line into its home cache slice and keeps the translation, and does nothing where its
translation fails, but that its walks are counted; CWB writes the dirty sectors of the line back and keeps them clean, CINV writes them back and
drops them, and neither does anything off device memory. A request that no die port lets through to the line's home, or on from there to its
memory, is refused, which is counted.
The model's own, by the assumption log: 73 (a request that no die port lets through).
R155, R281 to R283: SAMPLE brings to four registers the weighted texels of its taps, each channel rounded once; a coordinate that is no
number gives NaNs.
The model's own, by the assumption log: 95 (which results come later). -/
def Obligations.CachesAndSampler : Prop :=
  (∀ (s : State) (b : Block) (t : Thread) (a : Reg) (k : BitVec 5) (x : Xlated) (va : Nat), Solo s b t →
     FieldsOk b t [a.toNat] [4 * k.toNat, 4 * k.toNat + 1, 4 * k.toNat + 2, 4 * k.toNat + 3] [a.toNat] →
     let r := b.recOf t k.toNat
     let S := s.progressed
     let pf := b.prefetchReq t.level
     let wb := b.writeBackReq t.level
     let four (s : State) (f : State → Nat → State) : Outcome := .next (State.retireLane (f (f (f (f s 0) 32) 64) 96) t.tid)
     let refused : Outcome := .next (State.retireLane { S with refused := s.refused + 1 } t.tid)
     let line := x.gpa / 128 * 128
     bufOk r = true → bufAddr r k.toNat (t.get a.toNat).toNat 0 1 false false = .ok (some va) →
     (∀ l : Bool,
       (r.testBit 63 = true →
         (∀ h slot g, S.translate pf (va / 128 * 128) 128 = .ok x → x.place = .dram h slot g →
           let reached := S.homeReach pf x.gpa = true ∧
             (S.cached pf.owner x.gpa = false ∨ S.holds pf.owner x.gpa 128 = true ∨ S.routeOk pf.owner x.gpa h = true)
           (reached → exec (.pref l a k) s = four (S.noteXl x) (fun s i => s.fetchSector x.t2 (x.gpa + i) (h + i) slot)) ∧
           (¬reached → exec (.pref l a k) s = .next (State.retireLane { S.noteXl x with refused := s.refused + 1 } t.tid))) ∧
         (∀ f, S.translate pf (va / 128 * 128) 128 = .error f → exec (.pref l a k) s = .next ((S.noteWalks pf va).retireLane t.tid))) ∧
       (r.testBit 63 = false → exec (.pref l a k) s = .next (s.done t t))) ∧
     (r.testBit 62 = true → ∀ f, S.translate wb va = .error f → ∀ i ∈ [Instr.cwb a k, .cinv a k], exec i s = .next (S.takeTrap t.tid (f.trap wb va))) ∧
     (r.testBit 62 = true → S.translate wb va = .ok x →
       (S.granuleHeld wb.owner va x.gpa = true → ∀ i ∈ [Instr.cwb a k, .cinv a k], exec i s = .next (s.becomes t (t.hold s.cur (.load va 1 false)))) ∧
       (S.granuleHeld wb.owner va x.gpa = false →
         (x.place.device = none → ∀ i ∈ [Instr.cwb a k, .cinv a k], exec i s = .next (s.done t t)) ∧
         (x.place.device.isSome = true → S.homeReach wb x.gpa = false → ∀ i ∈ [Instr.cwb a k, .cinv a k], exec i s = refused) ∧
         (x.place.device.isSome = true → S.homeReach wb x.gpa = true →
           exec (.cwb a k) s = four (S.noteXl x) (fun s i => s.cleanSector (l2Key wb.owner (line + i))) ∧
           exec (.cinv a k) s = four (S.noteXl x) (fun s i => s.flushSector (l2Key wb.owner (line + i)))))) ∧
     (r.testBit 62 = false → ∀ i ∈ [Instr.cwb a k, .cinv a k],
       exec i s = .next (S.takeTrap t.tid { cause := .permDenied, extra := BitVec.ofNat 64 k.toNat }))) ∧
  (∀ (s s' : State) (b : Block) (t : Thread) (d a : Reg) (k : BitVec 5), Solo s b t →
     FieldsOk b t [d.toNat, d.toNat + 1, d.toNat + 2, d.toNat + 3, a.toNat, a.toNat + 1]
       [4 * k.toNat, 4 * k.toNat + 1, 4 * k.toNat + 2, 4 * k.toNat + 3, 4 * k.toNat + 4, 4 * k.toNat + 5, 4 * k.toNat + 6, 4 * k.toNat + 7]
       [a.toNat, a.toNat + 1] →
     let r := b.recOf t k.toNat
     let sm := b.recOf t (k.toNat + 1)
     let fmt := sm / 2 ^ 12 % 2 ^ 4
     let gets (s' : State) (xs : List Nat) : Outcome := .next ((s'.deliver t d.toNat (xs.flatMap (toBytes 4)) false).retireLane t.tid)
     bufOk r = true → r.testBit 63 = true → sm % 2 ^ 6 = 0 → sm / 2 ^ 16 % 2 ^ 32 = 0 → sm / 2 ^ 80 % 2 ^ 48 = 0 → fmt < 4 → sm / 2 ^ 10 % 4 < 2 →
     texelBytes fmt ≤ bufEsize r →
     (∀ n1 m1 e1 n2 m2 e2 cs, fp32.decode (t.get a.toNat).toNat = .fin n1 m1 e1 → fp32.decode (t.get (a.toNat + 1)).toNat = .fin n2 m2 e2 →
       s.progressed.readTaps (b.progressAt s.clock) t r k.toNat sm (taps (sm / 2 ^ 10 % 4 == 1) (n1, m1, e1) (n2, m2, e2) (sm / 2 ^ 48 % 2 ^ 16 + 1)
         (sm / 2 ^ 64 % 2 ^ 16 + 1)) = .ok (cs, s') →
       exec (.sample d a k) s = gets s' ((List.range 4).map (fun c => sampleChannel fmt (cs.map (fun y => (y.1.getD c (.fin false 0 0), y.2)))))) ∧
     ((∀ n m e, fp32.decode (t.get a.toNat).toNat ≠ .fin n m e) ∨ (∀ n m e, fp32.decode (t.get (a.toNat + 1)).toNat ≠ .fin n m e) →
       exec (.sample d a k) s = gets s.progressed [0x7FC00000, 0x7FC00000, 0x7FC00000, 0x7FC00000]))

/-! ## Engines (R297 to R303, R317 to R319, R344 to R366) -/

/-- R167, R257, R259, R298, R301, R302, R344: a class 0xC group, for a thread alone. While a command with its ID is outstanding the group waits. Otherwise one
command enters the window with the parameter words s(SWB + 8k) to s(SWB + 8k + 7), bound to the commands that its predecessor fields
name, with the next sequence number of its engine kind; it is not running, and a matrix command of a block without the engine already
has its status. The thread goes on. A tile that the group names must be declared. R301: register slots that a COPY or a SCATTER may write hold
undefined words from then on. R425: a COLL counts at its issue for the group that its descriptor names, and any other command for none. The
model's own, by the assumption log: 32 (what the descriptor names at the issue), 48 (a matrix command without the engine has its status at its
issue), 49 (the bytes that a command is to write, as its words and the tables tell at its issue). -/
def Obligations.CommandIssue : Prop :=
  ∀ (s : State) (b : Block) (t : Thread) (id p q : BitVec 6) (k : BitVec 5), Solo s b t →
    ∀ x ∈ [(0x00, 0, Instr.bload id p q k), (0x01, 0, .mma id p q k), (0x02, 0, .mmas id p q k), (0x03, 0, .tzero id p q k),
        (0x04, 0, .tdrain id p q k), (0x05, 0, .tfill id p q k), (0x08, 1, .xtrav id p q k), (0x09, 1, .xtravRes id p q k),
        (0x10, 2, .copy id p q k), (0x11, 2, .scatter id p q k), (0x12, 2, .restripe id p q k), (0x13, 3, .coll id p q k),
        (0x18, 4, .enc id p q k), (0x19, 5, .emit id p q k), (0x1A, 5, .ndone id p q k), (0x1B, 5, .tcbarm id p q k),
        (0x1C, 5, .tcbret id p q k)],
      let pb := (List.range 8).map (fun n => b.sget t (8 * k.toNat + n))
      let bound (f : BitVec 6) : Option (Nat × Nat × Nat) :=
        if f.toNat = 63 then none else (b.command f.toNat).map (fun c => (c.uid, c.seq, kindOf c.op5))
      let recs := (recRefs x.1 pb).foldl (fun m j => if t.swb + 4 * j + 3 < b.sregs.length then SMap.set m j (b.recOf t j) else m) ([] : SMap Nat)
      let z := s.atIssue b t.level x.1 pb (s.cmdWrites b t x.1 pb recs)
      FieldsOk b t [] (upto (8 * k.toNat) 1 8) [] →
      (∀ tr, b.tileFault x.1 pb = some tr → exec x.2.2 s = .next (s.progressed.takeTrap t.tid tr)) ∧
      (b.tileFault x.1 pb = none → (b.command id.toNat).isSome = true → exec x.2.2 s = .next (s.becomes t (t.hold s.cur (.window id.toNat)))) ∧
      (b.tileFault x.1 pb = none → b.command id.toNat = none →
        ∃ (c : Cmd) (tiles : List TileEntry), exec x.2.2 s = .next
            ((({ z.1 with uids := s.uids + 1 } : State).updBlock s.cur.blk (fun b => { b with
              window := b.window ++ [c], issued := upd b.issued x.2.1 (fun n => (n + 1) % 2 ^ 32), ttab := tiles })).progressed.updThread s.cur.blk t.tid
              (fun u => ({ u with openB := u.openB ++ [s.uids], unwaited := u.unwaited ++ [s.uids] } : Thread).retire s.cur)) ∧
          c.uid = s.uids ∧ c.id = id.toNat ∧ c.op5 = x.1 ∧ c.seq = (b.issued.getD x.2.1 0 + 1) % 2 ^ 32 ∧ c.preds = [bound p, bound q] ∧
          c.pb = pb ∧ c.recs = recs ∧
          (∀ j ∈ recRefs x.1 pb, t.swb + 4 * j + 3 < b.sregs.length → SMap.get c.recs j = some (b.recOf t j)) ∧
          c.level = t.level ∧ c.view = ofenceView x.2.1 t.oview ∧ c.writes = s.cmdWrites b t x.1 pb recs ∧ c.tiles = tilesWritten x.1 pb ∧
          c.late = z.2.late ∧ c.group = z.2.group ∧ c.matchNo = z.2.matchNo ∧ c.wrote = [] ∧ c.src = none ∧
          (x.1 ≠ 0x10 → x.1 ≠ 0x11 → x.1 ≠ 0x13 → z = (s, {})) ∧
          (x.1 = 0x10 ∨ x.1 = 0x11 → c.group = 0 ∧ c.matchNo = 0 ∧ c.late.map (·.addr) = s.slotsIn (b.storeReq t.level) c.writes ∧
            (∀ l ∈ c.late, l.value = s.slotWord l.addr ∧ l.written = false ∧ ∃ n, l.shown = Config.freeWord s.fresh n) ∧ (c.late = [] → z.1 = s)) ∧
          (x.1 = 0x13 → c.late = [] ∧ (∀ (bytes : List Byte) (s1 : State),
            s.readVa (b.loadReq t.level) false (pbw pb 1 + 2 ^ 32 * pbw pb 2) 32 = .ok (bytes, s1) →
              let key := b.owner * 2 ^ 48 + fld (ofBytes bytes) 32 160 * 65536 + fld (pbw pb 4) 16 16
              c.group = ofBytes bytes ∧ c.matchNo = SMap.getD s.collCount key 0 + 1 ∧
              z.1 = { s with collCount := SMap.set s.collCount key (SMap.getD s.collCount key 0 + 1) }) ∧
            (∀ e, s.readVa (b.loadReq t.level) false (pbw pb 1 + 2 ^ 32 * pbw pb 2) 32 = .error e → z = (s, {}))) ∧
          c.running = false ∧ c.cursor = 0 ∧ c.spoilt = [] ∧ c.fin = (if x.1 ≤ 2 ∧ recMatrix b.record = false then some 8 else none) ∧
          (b.declares x.1 pb = none → tiles = b.ttab) ∧
          (∀ base size, b.declares x.1 pb = some (base, size) → tiles = upd b.ttab (8 + fld (pbw pb 0) 4 27) (fun _ =>
            { state := 1, decl := true, cmd := id.toNat, base := base / 16, size := size })))

/-- R261, R299, R315, R345, R365, R366: a command starts when it is due, with a view point no older than its OFENCEs, the latest fence
that covers its kind and its convergence gate have ordered. A tile of it released meanwhile, or a control word that is not well-formed, ends it
with BAD_PARAM; TZERO with good parameters is then at work, its tile filling; TCBARM, and NDONE's release and flush, are done in the event of their
start, and have not started where their accesses must wait. R317: an MMA that streams B and A, while its own engine runs another product, may move
to a free helper while tokens last. R419: a lease whose limit is reached ends, and its commands leave the lent quadrant.
The model's own, by the assumption log: 90 (the view of a gated command), 107 (the view of a block's start).
R260, R300 to R303, R308, R346, R350: a command whose work is over retires: it leaves the window, its sequence number counts as retired, its tiles
and B slots settle, commands that name it as predecessor and are not over end CANCELLED if it failed, and a status record, if it asks for one, lies
at its offset; on a live barrier object nothing is written, and a command that had not failed ends BARRIER_CLOBBER, with tiles that hold
what a failure leaves (R300, R351). What it wrote stays undefined to
threads until their waits cover it. -/
def Obligations.CommandLives : Prop :=
  (∀ (s : State) (b i p : Nat) (blk : Block) (c : Cmd), s.cmdAt b i = some (p, blk, c) →
     (s.mayStart blk c = false → exec (.commandStart b i) s = .next s) ∧
     (s.mayStart blk c = true →
       let kind := kindOf c.op5
       let gate := if bit (pbw c.pb 7) 31 then ofenceView kind (SMap.getD blk.arrViews (convKey (fld (pbw c.pb 7) 4 27)) 0) else 0
       let view := max (max c.view (s.fenceView blk kind)) gate
       let c' : Cmd := { c with view := view, arrived := some (c.arrived.getD s.clock) }
       let ends (s' : State) : Outcome := .next (s'.closed (s.poised p c view) c')
       let started := s.starting p c view
       let p0 := pbw c.pb 0
       let own := ownerAt blk.owner c.level
       let told (blk : Block) : Nat := if c.op5 = 5 ∧ bit p0 31 = true then (blk.tile (8 + fld p0 4 27)).size
         else if c.op5 = 0x10 ∨ c.op5 = 0x19 then c.cursor else 0
       let rest (k : Nat) : Prop := ∀ n, k ≤ n → n ≤ 6 → pbw c.pb n = 0
       (blk.released c = true → exec (.commandStart b i) s = ends (((s.poised p c view).opened c').over p c 2 (told blk) 0)) ∧
       (blk.released c = false →
         (blk.ctlOk c = false → tileRefs c.op5 c.pb = [] → exec (.commandStart b i) s = ends (started.over p c 2 (told blk) 0)) ∧
         (blk.ctlOk c = true →
           (c.op5 = 3 → fld p0 27 0 = 0 → rest 1 → bit p0 30 = false → exec (.commandStart b i) s = ends started) ∧
           (c.op5 = 0x1B → p0 % 64 = 0 → pbw c.pb 1 < 2 ^ 24 → rest 2 →
             (∀ (st : Nat) (s1 : State), started.tcbArm own c.level (p0 + 2 ^ 32 * pbw c.pb 1) = .ok st s1 →
               exec (.commandStart b i) s = ends (s1.over p c 0 st 0)) ∧
             (started.tcbArm own c.level (p0 + 2 ^ 32 * pbw c.pb 1) = .wait → exec (.commandStart b i) s = .next s)) ∧
           (c.op5 = 0x1A → fld p0 22 0 = 0 → rest 1 →
             (bit p0 23 = true → bit p0 22 = false → ∀ r : BatchRef, blk.batch = some r → r.node = fld p0 8 24 →
               exec (.ndoneRel b i) s = ends (({ started with niches := s.niches.map (fun n =>
                 if n.launch = r.launch ∧ n.node = r.node then { n with claimed := n.claimed.filter (fun k => k.1 != r.batch) } else n) } : State).over p c 0 0 0)) ∧
             (bit p0 23 = false → bit p0 22 = true → ∀ n : Niche, s.niche? blk.launch (fld p0 8 24) = some n →
               exec (.ndoneFlush b i) s = ends ((started.launchBatch blk.launch (fld p0 8 24) n.pending.length).over p c 0 0 0)))))) ∧
     (∀ core : Nat, c.running = true → c.fin = none → c.helper = none → (c.op5 = 1 ∨ c.op5 = 2) → bit (pbw c.pb 0) 21 = true →
       bit (pbw c.pb 0) 31 = false → s.engineTaken blk.core c.uid = true → core ≠ blk.core → s.helps blk.owner blk.core core = true →
       s.helperFree core c.uid = true → s.tokensHeld blk.owner + 3 ≤ s.sliceWord blk.owner 13 → s.poolHeld + 3 ≤ s.pool →
       exec (.migration b i core) s = .next (s.updCmd p c.uid (fun c => { c with helper := some core }))) ∧
     (∀ (o limit lessor quad : Nat), s.leaseOf o = some (limit, lessor, quad) → limit ≤ (s.slice o).leaseUsed →
       exec (.leaseLapse o) s = .next ((s.reclaim (fun b core => b.owner == o && quadOfCore core == quad)).updSlice o
         (fun x => { x with record := x.record.set 15 0, leaseUsed := 0 })))) ∧
  (∀ (s : State) (b i p code0 : Nat) (blk : Block) (c : Cmd), s.cmdAt b i = some (p, blk, c) → blk.halted = none → c.fin = some code0 →
     code0 ≠ 6 → c.spoilt = [] → (∀ r ∈ tileRefs c.op5 c.pb, (blk.tile r.entry).spoilt = false) → c.helper = none →
     (c.op5 = 4 → bit (pbw c.pb 0) 23 = true ∨ c.running = false) →
     let w := pbw c.pb 7
     let at' := 16 * fld w 14 0
     let record : List Byte := toBytes 4 (c.id * 65536 + kindOf c.op5 * 2 ^ 24 + c.aux % 256 * 256 + code0) ++ toBytes 4 c.seq ++ toBytes 8 c.detail
     let leaves (code : Nat) (wrote : List (Nat × Nat × Nat × Nat)) (b : Block) : Block :=
       { ((b.settleTiles c).settleSlots c code).countRetired (kindOf c.op5) c.seq with
         window := (b.window.filter (fun d => d.uid != c.uid)).map (fun d =>
           if code ≠ 0 ∧ d.fin = none ∧ (∃ x ∈ d.preds, x.map (·.1) = some c.uid) then { d with fin := some 1, detail := 0, aux := 0 } else d)
         past := b.past ++ [{ uid := c.uid, kind := kindOf c.op5, seq := c.seq, wrote := c.wrote ++ wrote, late := c.late, tiles := c.tiles }]
         progress := s.clock }
     (bit w 14 = false ∨ blk.scratchSize < at' + 16 → exec (.commandRetire b i) s = .next (s.updBlock p (leaves code0 []))) ∧
     (bit w 14 = true → at' + 16 ≤ blk.scratchSize → blk.live.contains (at' / 16) = false →
       exec (.commandRetire b i) s = .next ((s.engineWrote 1 blk.uid at' 16).updBlock p (fun b => leaves code0 [(1, blk.uid, at', 16)] (b.putScratch at' record)))) ∧
     (bit w 14 = true → at' + 16 ≤ blk.scratchSize → blk.live.contains (at' / 16) = true →
       exec (.commandRetire b i) s = .next ((if code0 = 0 ∧ c.running = true then s.undefTiles p c else s).updBlock p (leaves (if code0 = 0 then 7 else code0) []))))

/-- R228, R260, R337, R352, R353: commands at work. An engine's write of a run of accumulators puts its words there and nowhere else, and clears the
poison of the pairs that it covers. TZERO clears 512 bytes of an accumulator tile; TFILL makes a declared tile ready, fills 512 bytes, or ends a
declaration; a traversal drains a record from its overflow region into the niche. The model's own, by the assumption log: 31 (how the head of
the overflow region moves, DEDUCED).
R245, R360: a RESTRIPE at work moves one line of its page, and after the last writes the new entry with MOVING clear. -/
def Obligations.EngineWork : Prop :=
  ((∀ (s : State) (p tile row lo : Nat) (blk : Block) (ws : List Word), s.blocks[p]? = some blk →
     lo + ws.length ≤ 256 → row < 64 → ∃ b', s.accWrite p tile row lo ws =
       (s.engineWrote 2 blk.uid (accAddr tile row lo) (4 * ws.length)).updBlock p (fun _ => b') ∧
       b' = { blk with rows := b'.rows, accPoison := b'.accPoison } ∧
       (∀ (n r k : Nat), r < 64 → b'.acc n r k = if n = tile ∧ r = row ∧ lo ≤ k ∧ k < lo + ws.length then ws.getD (k - lo) 0 else blk.acc n r k) ∧
       (∀ k, SMap.get b'.accPoison k = if accAddr tile row lo ≤ 8 * k ∧ 8 * k + 8 ≤ accAddr tile row lo + 4 * ws.length then none
         else SMap.get blk.accPoison k)) ∧
   (∀ (s : State) (b i p : Nat) (blk : Block) (c : Cmd), Working s b i p blk c →
     let w := s.opened c
     let ends (s' : State) : Outcome := .next (s'.closed s c)
     let p0 := pbw c.pb 0
     let row := c.cursor / 1024
     let half := c.cursor / 512 % 2
     (c.op5 = 3 → bit p0 31 = false → exec (.commandCursorAdvance b i) s = ends
       ((w.accWrite p (fld p0 4 27) row (c.cursor % 1024 / 4) (List.replicate 128 0)).goesOn p c 512 65536 0)) ∧
     (c.op5 = 5 → fld p0 2 25 = 0 → exec (.tfillDeclare b i) s = ends (w.over p c 0 (pbw c.pb 2) 0)) ∧
     (c.op5 = 5 → fld p0 2 25 = 1 → bit p0 31 = false → ∀ (a : Area) (bytes : List Byte) (s1 : State),
       c.area p (bit p0 24) (fld p0 5 19) = some a →
       w.areaRead (c.req blk false) a (pbw c.pb 3 + row * pbw c.pb 4 + 512 * half) 512 = .ok bytes s1 →
       exec (.tfillFill b i) s = ends ((s1.accWrite p (fld p0 4 27) row (128 * half)
         ((List.range 128).map (fun n => BitVec.ofNat 32 (ofBytes ((bytes.drop (4 * n)).take 4))))).goesOn p c 512
           (1024 * (fld p0 6 13 + 1)) 0)) ∧
     (c.op5 = 5 → fld p0 2 25 = 2 → let n := 8 + fld p0 4 27
       exec (.tfillRelease b i) s = ends ((w.updBlock p (fun b => { b with ttab := upd b.ttab n (fun _ => {}) })).over p c 0 (blk.tile n).size 0)) ∧
     (∀ (t : Trav) (n : Niche) (rcd : List Byte) (s1 s2 : State), c.trav = some t → t.ovrCnt ≠ 0 → s.niche? blk.launch c.node = some n →
       n.full = false → s.caliperTaken blk c = false → w.engRead (c.req blk false) 2 (bufBase c.ovr + 16 * t.ovrHead) 16 = .ok rcd s1 →
       s1.nichePut (c.req blk true) 2 n rcd = .ok () s2 →
       exec (.overflowDrain b i) s = ends (s2.updCmd p c.uid (fun d => { d with
         trav := some { t with ovrHead := if t.ovrCnt = 1 then 0 else t.ovrHead + 1, ovrCnt := t.ovrCnt - 1 } }))))) ∧
  (∀ (s : State) (b i : Nat) (blk : Block) (c : Cmd) (m : Moving), s.cmdOf b i = some (blk, c) → c.op5 = 0x12 → c.running = true → c.fin = none →
     s.moving.find? (fun m => m.cmd == c.uid) = some m →
     (m.cursor + 1 < m.size / 128 → exec (.restripeLineMove b i) s =
       .next { (s.moveLine m).noteProgress c.uid with
         moving := (s.moveLine m).moving.map (fun x => if x.cmd = c.uid then { x with cursor := x.cursor + 1 } else x) }) ∧
     (m.size / 128 ≤ m.cursor + 1 →
       let s1 := ((s.moveLine m).noteProgress c.uid).writeEntry m.owner m.gpa m.size m.entryAddr m.new
       exec (.restripeLineMove b i) s = .next (({ s1 with moving := s1.moving.filter (fun x => x.cmd != c.uid) } : State).updCmdOf c.uid
         (fun d => { d with fin := some 0, detail := m.size / 128, aux := 0 }))))

/-- R361, R362, R425: a collective on one device whose members, one of each rank, have all joined: what every rank read from its source
decides what each writes to its destination, and every member ends OK. Before all have joined nothing happens; where they disagree, all
end COLL_MISMATCH. The model's own, by the assumption log: 34 (a collective among devices, of which these
clauses say how its members meet), 61 (what a mismatch compares).
R363, R364: ENC with no earlier command of its session at work: START begins the session, END ends, and FRAME writes what the codec gives
for the picture, free as it is, behind the bitstream record, counts the frame, and tells its length and whether it is a key frame.
The model's own, by the assumption log: 59 (what an ENC leaves in its work area). -/
def Obligations.CollectivesAndCoding : Prop :=
  (∀ (s : State) (b i op : Nat) (blk : Block) (c : Cmd) (r v w : Nat → State) (bytes : Nat → List Byte),
     s.cmdOf b i = some (blk, c) → c.joined = true → (collParams c.pb).op = op → op < 5 →
     let g := groupOf c.group
     let n := g.members
     let ms := s.collMembers blk c
     let event : Instr := ([.collAllreduce b i, .collReduce b i, .collBroadcast b i, .collAllgather b i, .collReducescatter b i] : List Instr).getD op
       (.collAllreduce b i)
     let agree := ∀ x ∈ ms, (collParams x.2.pb).op = op ∧ (collParams x.2.pb).dtype = (collParams c.pb).dtype ∧
       (collParams x.2.pb).count = (collParams c.pb).count ∧ (collParams x.2.pb).root = (collParams c.pb).root ∧ x.2.group = c.group
     (ms.length < g.perDev → exec event s = .next s) ∧
     (g.perDev ≤ ms.length → ¬agree → exec event s = .next (ms.foldl (fun s x => s.finishOf x.2.uid 16 0 0) s)) ∧
     (g.devices = 1 → ms.length = n → n = g.perDev → agree →
       (∀ x ∈ ms, ∀ y ∈ ms, (collParams x.2.pb).scope = 2 → quadOfCore y.1.core = quadOfCore x.1.core) →
       (∀ k x, ms[k]? = some x → (collParams x.2.pb).rank = k ∧ x.2.src = none) → r 0 = s →
       (∀ k x, ms[k]? = some x → let p := collParams x.2.pb
         ({ r k with view := some x.2.view } : State).engRead (x.2.req x.1 false) 0 (bufBase (SMap.getD x.2.recs p.sk 0) + p.soff) (p.reads n * p.esize) =
           .ok (bytes k) (r (k + 1))) →
       let data := ms.zipIdx.map (fun x => elemsOf (collParams x.1.2.pb).esize (bytes x.2) ((collParams x.1.2.pb).reads n))
       let gone : State := (r n).closed s c
       w 0 = { gone with fresh := gone.fresh + 1 + n } →
       (∀ k x, ms[k]? = some x → let p := collParams x.2.pb
         (p.writes n = 0 → w (k + 1) = (w k).finishOf x.2.uid 0 0 0) ∧
         (p.writes n ≠ 0 → ((w k).opened x.2).engWrite (x.2.req x.1 true) 0 (bufBase (SMap.getD x.2.recs p.dk 0) + p.doff)
             ((collResult p n data).flatMap (toBytes p.esize)) = .ok none (v k) ∧ w (k + 1) = ((v k).closed (w k) x.2).finishOf x.2.uid 0 0 0)) →
       exec event s = .next (w n))) ∧
  (∀ (s s1 s2 s3 s4 : State) (b i : Nat) (blk : Block) (c : Cmd) (block data : List Byte), s.cmdOf b i = some (blk, c) → c.op5 = 0x18 →
     c.running = true → c.fin = none → s.encBehind blk c = false →
     let v := Session.ofNat (ofBytes block)
     let ends (s' : State) : Outcome := .next (s'.closed s c)
     let key := blk.owner * 2 ^ 56 + c.session
     (s.opened c).engRead (c.req blk false) 0 c.session 64 = .ok block s1 → sessionOk (ofBytes block) = true →
     (c.encOp = 0 → s1.touchWork blk c v = .ok () s2 →
       exec (.encStart b i) s = ends ({ s2 with sessions := SMap.set s2.sessions key 0 }.finishOf c.uid 0 0 0)) ∧
     (c.encOp = 2 → exec (.encEnd b i) s = ends (s1.finishOf c.uid 0 0 0)) ∧
     (c.encOp = 1 → s1.engRead (c.req blk false) 0 (bufBase c.picture) (v.height * bufStride c.picture * 3 / 2) = .ok data s2 →
       let bits := Config.encodeFrame key s2.fresh data
       let at' := bufBase c.stream + pbw c.pb 4
       bits.length ≤ recBytes c.stream - pbw c.pb 4 → ∀ hit : Option Nat,
       ({ s2 with fresh := s2.fresh + 1 } : State).engWrite (c.req blk true) 0 at' bits = .ok hit s3 → s3.touchWork blk c v = .ok () s4 →
       ∀ frame : Nat, SMap.get s4.sessions key = some frame →
       exec (.encFrame b i) s = ends ((({ s4 with fresh := s4.fresh + 1, sessions := SMap.set s4.sessions key (frame + 1) } : State).updSlice blk.owner
         (fun x => { x with usage := { x.usage with frames := x.usage.frames + 1 } })).finishOf c.uid 0
           (bits.length % 2 ^ 32 + if frame % v.gop = 0 then 2 ^ 32 else 0) 0)))

/-! ## Queues, work graphs and checkpoints (R147 to R151, R333 to R336, R341 to R343, R388 to R392) -/

/-- R147, R148, R150, R216, R250, R251, R301, R389, R390, R392: LAUNCH and the QWAITs, for a thread alone: a launch record that a handle with right E may enqueue goes
to the queue's tail, and d tells 0; a full queue gives 1, a refused handle 2, a bad address 3. QWAIT.DONE waits for DONE to reach its
target; QWAIT.TAKE takes the record at the head into the scratchpad; both raise QUEUE_REFUSED on a refused handle, and QWAIT.TAKE raises MISALIGN,
BOUND and BARRIER_CLOBBER for its scratchpad address, in this order. An access to a ring entry whose granule has an entry in the side log waits;
what LAUNCH's store replaced, engines that lag may still read.
The model's own, by the assumption log: 25 (when the controller takes the counters), 50 and 51 (a ring that cannot be read or written). -/
def Obligations.QueueInstructions : Prop :=
  ∀ (s s' : State) (b : Block) (t : Thread) (d a v : Reg) (e : BitVec 6) (rcd : List Byte), Solo s b t →
    let P := s.progressed
    let gives (s' : State) (i : Nat) (x : Word) : Outcome := .next ((s'.updThread s.cur.blk t.tid (fun u => u.put i x)).retireLane t.tid)
    let tells (s' : State) (x : Word) : Outcome := .next ((s'.updThread s'.cur.blk t.tid (fun u => u.put d.toNat x)).retireLane t.tid)
    let pair (r : Reg) : List Nat := [r.toNat, r.toNat + 1]
    let waits (w : Wait) : Outcome := .next (s.becomes t (t.hold s.cur w))
    (FieldsOk b t (d.toNat :: (pair a ++ pair v)) [] (pair a ++ pair v) →
      let x := (t.get64 a.toNat).toNat
      let h := P.handle b.owner (t.get64 v.toNat).toNat 0
      (2 ^ 56 ≤ x → exec (.launch d a v) s = tells P 3) ∧
      (x < 2 ^ 56 → h = none → exec (.launch d a v) s = tells P 2) ∧
      (∀ q desc : Nat, x < 2 ^ 56 → h = some (q, desc) →
        (descHost desc = true → exec (.launch d a v) s = tells P 2) ∧
        (descHost desc = false → x % 256 ≠ 0 → exec (.launch d a v) s = tells P 3) ∧
        (descHost desc = false → x % 256 = 0 →
          P.devLoad (b.progressAt s.clock) t (b.loadReq t.level) false none x 256 = .ok rcd s' →
          let y := s'.queueOf b.owner q desc
          (2 ^ descLog desc ≤ (y.tail - y.head).toNat → exec (.launch d a v) s = tells s' 1) ∧
          let entry := entryAddr desc y.tail.toNat
          (∀ s2, (y.tail - y.head).toNat < 2 ^ descLog desc → s'.devWrite b.owner entry rcd = some s2 →
            (s'.gpaHeld b.owner entry 256 = true → exec (.launch d a v) s = waits (.load (2 ^ 63 + entry) 256 false)) ∧
            (s'.gpaHeld b.owner entry 256 = false → ∀ old : List Byte, s'.devRead b.owner entry 256 = .ok old →
              exec (.launch d a v) s =
                tells ((s2.putQueue { y with tail := y.tail + 1, times := y.times ++ [s2.clock] }).noteStale 0 b.owner (cellsAt entry old)) 0))))) ∧
    (FieldsOk b t [e.toNat, v.toNat] (pair a) [v.toNat] →
      let h := (b.sget64 t a.toNat).toNat
      let x := t.get v.toNat
      let refused : Outcome := .next (P.takeTrap t.tid { cause := .queueRefused, extra := BitVec.ofNat 64 (h % 2 ^ 32) })
      (P.handle b.owner h 2 = none → exec (.qwaitDone e a v) s = refused) ∧
      (P.handle b.owner h 1 = none → exec (.qwaitTake e a v) s = refused) ∧
      (∀ q desc : Nat, P.handle b.owner h 2 = some (q, desc) →
        let y := P.queueOf b.owner q desc
        ((y.done - x).toNat < 2 ^ 31 → exec (.qwaitDone e a v) s = gives P e.toNat y.done) ∧
        (2 ^ 31 ≤ (y.done - x).toNat → exec (.qwaitDone e a v) s = waits (.queue h b.owner q false x))) ∧
      (∀ q desc : Nat, P.handle b.owner h 1 = some (q, desc) →
        let X := x.toNat
        let traps (tr : Trap) : Outcome := .next (P.takeTrap t.tid tr)
        (X % 16 ≠ 0 → exec (.qwaitTake e a v) s = traps { cause := .misalign, extra := 16, addr := BitVec.ofNat 64 X }) ∧
        (X % 16 = 0 → b.scratchSize < X + 256 →
          exec (.qwaitTake e a v) s = traps { cause := .bound, extra := BitVec.ofNat 64 (X % 2 ^ 32), addr := BitVec.ofNat 64 X }) ∧
        (∀ g, X % 16 = 0 → X + 256 ≤ b.scratchSize → b.liveIn X 256 = some g →
          exec (.qwaitTake e a v) s = traps { cause := .barrierClobber, extra := BitVec.ofNat 64 (16 * g), addr := BitVec.ofNat 64 X }) ∧
        (X % 16 = 0 → X + 256 ≤ b.scratchSize → b.liveIn X 256 = none →
          let y := P.queueOf b.owner q desc
          let entry := entryAddr desc y.head.toNat
          (y.tail = y.head → exec (.qwaitTake e a v) s = waits (.queue h b.owner q true 0)) ∧
          (y.tail ≠ y.head → P.gpaHeld b.owner entry 256 = true → exec (.qwaitTake e a v) s = waits (.load (2 ^ 63 + entry) 256 false)) ∧
          let taken (s' : State) : Outcome := gives (s'.putQueue { y with head := y.head + 1, times := y.times.drop 1 }) e.toNat y.head
          let N := P.noteDev b.owner entry 256
          let here := b.progressAt s.clock
          let bare (i : Nat) : Bool := b.spUncovered t here (X + i)
          (y.tail ≠ y.head → P.gpaHeld b.owner entry 256 = false → P.devRead b.owner entry 256 = .ok rcd → rcd.length = 256 →
            N.blocks[s.cur.blk]? = some here →
            (b.Covered t here X 256 → exec (.qwaitTake e a v) s = taken (N.afterStore s.cur.blk here X rcd)) ∧
            (¬ b.Covered t here X 256 → exec (.qwaitTake e a v) s = taken (N.drew.afterStore s.cur.blk here X (N.drawn bare rcd)))))))

/-- R147, R151, R153, R333, R336: NICHEWAIT ends at once where the niche of the node holds no record, and waits where it holds one; a node that the
launch does not have raises BOUND. CKPT gives 0 without a checkpoint area; with one, the launch's next checkpoint number, the block's
checkpoint taken after the group; where a stop may find the thread waiting, nothing is done yet.
The model's own, by the assumption log: 65 (the checkpoint shows the thread after its group, DEDUCED), 95 (which operations end in a step of their own). -/
def Obligations.NicheWaitAndCheckpoint : Prop :=
  ∀ (s s1 s2 : State) (b : Block) (t : Thread) (a d : Reg) (entry rcd : List Byte), Solo s b t →
    (FieldsOk b t [] [a.toNat] [] →
      let n := (b.sget t a.toNat).toNat
      let tab := recNodetab b.record
      let P := s.progressed
      let e := NodeEntry.ofNat (ofBytes entry)
      let bound (s : State) : Outcome := .next (s.takeTrap t.tid { cause := .bound, extra := BitVec.ofNat 64 n })
      (256 ≤ n ∨ tab = 0 → exec (.nichewait a) s = bound P) ∧
      (n < 256 → tab ≠ 0 → P.devLoad (b.progressAt s.clock) t (b.loadReq t.level) false none (tab + 32 * n) 32 = .ok entry s1 →
        (e.valid = false ∨ e.ok = false → exec (.nichewait a) s = bound s1) ∧
        (e.valid = true → e.ok = true → s1.devLoad (b.progressAt s.clock) t (b.loadReq t.level) false none e.consumer 256 = .ok rcd s2 →
          (1 < recBlocks (ofBytes rcd) → exec (.nichewait a) s = bound s2) ∧
          (recBlocks (ofBytes rcd) ≤ 1 → s2.nicheEmpty b.launch n = true → exec (.nichewait a) s = .next (s2.retireLane t.tid)) ∧
          (recBlocks (ofBytes rcd) ≤ 1 → s2.nicheEmpty b.launch n = false →
            exec (.nichewait a) s = .next (s.becomes t (t.hold s.cur (.niche b.launch n))))))) ∧
    (FieldsOk b t [d.toNat] [] [] →
      let area := b.owner < Config.nSlices ∧ s.sliceWord b.owner 8 ≠ 0
      (¬area → exec (.ckpt d) s = .next (s.done t (t.put d.toNat 0))) ∧
      (area → s.later = true → exec (.ckpt d) s = .next (s.becomes t (t.hold s.cur .none))) ∧
      (∀ l : Launch, area → s.later = false → s.launches.find? (fun l => l.uid == b.launch) = some l →
        let s1 := s.done t (t.put d.toNat (BitVec.ofNat 32 (l.ckpts + 1)))
        let s2 := { s1 with launches := s1.launches.map (fun (x : Launch) => if x.uid = b.launch then { x with ckpts := l.ckpts + 1 } else x) }
        ∃ b', s2.blocks[s.cur.blk]? = some b' ∧ exec (.ckpt d) s = .next (s2.checkpoint b.owner 1 (l.ckpts + 1) (fun _ => l.ckpts + 1) [b'])))

/-- R250, R334, R335, R341 to R343, R389, R391, R393: events of queues and work graphs: a notify write moves the TAIL of an enabled host queue; a niche's timer
hands its pending records to a consumer launch; a task control block counts its predecessors down and submits itself at zero; a
submission that found its queue full, and an operation that must wait, are tried again, the successors of a block in their order; a launch whose blocks
have all retired completes, its queue's DONE advances, and its task control block retires, later where that must wait. The model's own, by the
assumption log: 25 (when the controller takes the counters), 28 (the level of an agent's accesses), 62 (an event that must wait is tried
again), 94 (a timer acts at its clock or after). -/
def Obligations.GraphEvents : Prop :=
  ∀ s : State,
    (∀ (port vf o q desc : Nat) (x : Word), s.boundSlice port vf = some o → (s.slice o).ready = true → (s.slice o).resetting = false → q < 64 → s.queueDesc o q = some desc →
      descEn desc = true → descBad desc = false → descHost desc = true →
      let y := s.queueOf o q desc
      let n := (x - y.head).toNat
      n ≤ 2 ^ descLog desc → exec (.notifyWrite port vf q x) s =
        .next (s.putQueue { y with tail := x, times := (y.times ++ List.replicate n s.clock).take n })) ∧
    (∀ (launch node slot at' : Nat) (n : Niche) (rest : List (Nat × Nat)), s.niche? launch node = some n →
      n.pending = (slot, at') :: rest → n.timer ≠ 0 → at' + n.timer ≤ s.clock →
      let own := ((s.launches.find? (fun l => l.uid == launch)).map (fun l => recDeadline l.record)).getD 0
      let r := setFld (setFld (setFld (setFld (setFld 0 64 704 own) 32 896 slot) 32 928 n.pending.length) 32 960 n.capacity) 32 992 node
      let l : Launch := { uid := s.uids + 1, owner := n.owner, q := 64, seq := 0, record := r, nblocks := 1, unplaced := [0]
                          enqueuedAt := s.clock, batch := some ⟨launch, node, s.uids⟩, source := some n.consumer }
      exec (.nicheTimerExpiry launch node) s = .next (({ s with
        uids := s.uids + 2
        launches := s.launches ++ [l]
        niches := s.niches.map (fun m => if m.launch = launch ∧ m.node = node then
          { m with pending := m.pending.drop n.pending.length, claimed := m.claimed ++ [(s.uids, n.pending.map (·.1))] } else m) } : State).updSlice n.owner
            (fun x => { x with nicheList := x.nicheList ++ [s.uids + 1] }))) ∧
    (∀ r : TcbRetry, s.tcbRetries.find? (fun x => x.owner == r.owner && x.addr == r.addr) = some r →
      let s0 := { s with tcbRetries := s.tcbRetries.erase r }
      let again := { s0 with tcbRetries := s0.tcbRetries ++ [r] }
      (r.op = 3 → (∀ s', s0.tcbRetire r.owner r.level r.addr r.n = some s' → exec (.tcbSubmitRetry r.owner r.addr) s = .next s') ∧
        (s0.tcbRetire r.owner r.level r.addr r.n = none → exec (.tcbSubmitRetry r.owner r.addr) s = .next again)) ∧
      (r.op ≠ 3 → s0.tcbRead r.owner r.level r.addr = .wait → exec (.tcbSubmitRetry r.owner r.addr) s = .next again) ∧
      (∀ (x : Nat) (s' : State), s0.tcbRead r.owner r.level r.addr = .ok x s' →
        (r.op = 2 → exec (.tcbSubmitRetry r.owner r.addr) s =
          .next (s'.tcbSuccs r.owner r.level r.addr (fld x 64 128) (tcbNsucc x - r.n) r.n)) ∧
        (r.op = 0 → tcbState x = 2 → exec (.tcbSubmitRetry r.owner r.addr) s = .next (s'.tcbSubmit r.owner r.level r.addr x)) ∧
        (r.op = 0 → tcbState x ≠ 2 → exec (.tcbSubmitRetry r.owner r.addr) s = .next s'))) ∧
    (∀ (o a : Nat) (l : Level), s.tcbRead o l a = .wait → s.tcbDecrement o l a = none ∧ s.tcbRetire o l a s.devTime = none) ∧
    (∀ (o a succs k i : Nat) (l : Level) (bytes : List Byte) (s' : State),
      ({ s with view := none } : State).engRead (Req.load o l) 0 (succs + 8 * i) 8 = .ok bytes s' →
      (∀ s1, s.tcbDecrement o l (ofBytes bytes) = some s1 → s.tcbSuccs o l a succs (k + 1) i = s1.tcbSuccs o l a succs k (i + 1)) ∧
      (s.tcbDecrement o l (ofBytes bytes) = none → s.tcbSuccs o l a succs (k + 1) i =
        { s with tcbRetries := s.tcbRetries ++ [{ owner := o, addr := a, op := 2, n := i, level := l }] })) ∧
    (∀ (o a x : Nat) (l : Level) (s' : State), s.tcbRead o l a = .ok x s' →
      let word (pred state err : Nat) : State :=
        s'.tcbPut o l a 8 (toBytes 8 (fld (setFld (setFld (setFld x 32 64 pred) 2 96 state) 4 100 err) 64 64))
      (tcbState x = 0 → tcbPred x ≠ 0 → s.tcbArm o l a = .ok 0 (word (tcbPred x) 1 (fld x 4 100))) ∧
      (tcbState x = 0 → tcbPred x = 0 → s.tcbArm o l a = .ok 0 ((word 0 2 (fld x 4 100)).tcbSubmit o l a (setFld x 2 96 2))) ∧
      (tcbState x ≠ 0 → s.tcbArm o l a = .ok (tcbState x) s') ∧
      (tcbPred x = 0 → s.tcbDecrement o l a = some (word 0 (tcbState x) 2)) ∧
      (tcbState x = 1 → tcbPred x = 1 → s.tcbDecrement o l a = some ((word 0 2 (fld x 4 100)).tcbSubmit o l a (setFld (setFld x 32 64 0) 2 96 2))) ∧
      (tcbState x ≤ 1 → 1 < tcbPred x → s.tcbDecrement o l a = some (word (tcbPred x - 1) (tcbState x) (fld x 4 100)))) ∧
    (∀ (l : Launch) (desc : Nat), s.launches.find? (fun x => x.uid == l.uid) = some l → s.launchDone l = true → l.q < 64 → l.batch = none → recDeadline l.record = 0 →
      let s1 := { s with launches := s.launches.map (fun (x : Launch) => if x.uid = l.uid then { x with completed := true, unplaced := [] } else x) }
      s1.queueDesc l.owner l.q = some desc → descEn desc = true →
      let y := s1.queueOf l.owner l.q desc
      let s2 := (s1.putQueue { y with done := y.done + 1 }).msix l.owner 2
      let a := recTcb l.record
      (a = 0 → exec (.launchCompletion l.uid) s = .next s2) ∧
      (∀ s3, a ≠ 0 → s2.tcbRetire l.owner .s a s2.devTime = some s3 → exec (.launchCompletion l.uid) s = .next s3) ∧
      (a ≠ 0 → s2.tcbRetire l.owner .s a s2.devTime = none → exec (.launchCompletion l.uid) s = .next
        { s2 with tcbRetries := s2.tcbRetries ++ [{ owner := l.owner, addr := a, op := 3, n := s2.devTime, level := .s }] }))

/-! ## Invalidations and keys (R147 to R149, R152, R237, R439 to R449) -/

/-- R147 to R149, R153, R236, R237, R250: TINV and TINVA drop the first-stage translations of the block's owner for an address, or all, and TINVA makes its
root the one that its record gives; PINV and PINVA drop the second-stage ones of the owner that b names, the lines of L2 that came from such pages
written back first, and d tells 0, 1 for no such owner, 3 for a bad address. After any of them the owner's side log is tried again. Where a
stop may find the thread waiting, it stays at the group, from which it executes again.
The model's own, by the assumption log: 95 (which operations end in a step of their own), 110 (other times at which a root is taken).
R152, R153, R439 to R449: KEYSET of a readable object, its rules in order: slots 254 and 255 and slots of another owner refuse with 1, a field out
of range with 3, and plain material makes an EMPTY or LIVE slot LIVE under the key derived from it. KEYERASE empties a slot and
counts it. A lapsed share empties a LIVE or PARTIAL slot. USTAT writes a statement under a fresh session key. Where a stop may find the thread
waiting, it stays at the group, from which it executes again; USTAT has then done nothing yet.
The model's own, by the assumption log: 13 (cryptography is opaque), 75 (a statement whose buffer does not translate), 95 (which operations end in a
step of their own). -/
def Obligations.InvalidationsAndKeys : Prop :=
  (∀ (s : State) (b : Block) (t : Thread) (d a v : Reg), Solo s b t →
     let P := s.progressed
     let stays (s' : State) : Outcome := .next (s'.updThread s'.cur.blk t.tid (fun u => u.hold s'.cur .none))
     let ends (i : Instr) (s' : State) : Prop := (s.later = false → exec i s = .next (s'.retireLane t.tid)) ∧ (s.later = true → exec i s = stays s')
     let tells (i : Instr) (s' : State) (x : Nat) : Prop := (s.later = true → exec i s = stays s') ∧
       (s.later = false → exec i s = .next ((s'.updThread s'.cur.blk t.tid (fun u => u.put d.toNat (BitVec.ofNat 32 x))).retireLane t.tid))
     let x := (t.get64 a.toNat).toNat
     let o := (t.get v.toNat).toNat
     let dropped (f : Nat → Nat → Bool) : State :=
       let s1 := ((P.l2.filter (fun c => c.1 / 2 ^ 47 == o && f c.2.page c.2.size)).map (·.1)).foldl State.flushSector P
       ({ s1 with tlb2 := s1.tlb2.filter (fun e => !(e.owner == o && f e.gpa e.size)) } : State).retryOwner o
     (t.level.ge .s = true → FieldsOk b t [a.toNat, a.toNat + 1] [] [a.toNat, a.toNat + 1] →
       (x < 2 ^ 56 → ends (.tinv a) (({ P with
         tlb1 := P.tlb1.filter (fun e => !(e.owner == b.owner && e.va ≤ x && x < e.va + e.size)) } : State).retryOwner b.owner)) ∧
       (2 ^ 56 ≤ x → exec (.tinv a) s = .next (P.takeTrap t.tid { cause := .illegalOp, extra := s.cur.word.setWidth 64 }))) ∧
     (t.level.ge .s = true → ends .tinva ((({ P with tlb1 := P.tlb1.filter (fun e => e.owner != b.owner) } : State).updSlice b.owner
       (fun x => { x with root1 := x.record.getD 2 0 })).retryOwner b.owner)) ∧
     (t.level.ge .h = true → FieldsOk b t [d.toNat, a.toNat, a.toNat + 1, v.toNat] [] [a.toNat, a.toNat + 1, v.toNat] →
       (2 ^ 56 ≤ x → tells (.pinv d a v) P 3) ∧ (x < 2 ^ 56 → 47 < o → tells (.pinv d a v) P 1) ∧
       (x < 2 ^ 56 → o ≤ 47 → tells (.pinv d a v) (dropped (fun g n => g ≤ x && x < g + n)) 0)) ∧
     (t.level.ge .h = true → FieldsOk b t [d.toNat, v.toNat] [] [v.toNat] →
       (47 < o → tells (.pinva d v) P 1) ∧ (o ≤ 47 → tells (.pinva d v) (dropped (fun _ _ => true)) 0))) ∧
  (∀ (s s' : State) (b : Block) (t : Thread) (d a v : Reg) (bytes : List Byte), Solo s b t →
     let P := s.progressed
     let stays (s' : State) : Outcome := .next (s'.updThread s'.cur.blk t.tid (fun u => u.hold s'.cur .none))
     let gives (s' : State) (x : Nat) : Outcome := .next ((s'.updThread s'.cur.blk t.tid (fun u => u.put d.toNat (BitVec.ofNat 32 x))).retireLane t.tid)
     let tells (i : Instr) (s' : State) (x : Nat) : Prop := (s.later = false → exec i s = gives s' x) ∧ (s.later = true → exec i s = stays s')
     let ends (i : Instr) (s' : State) : Prop := (s.later = false → exec i s = .next (s'.retireLane t.tid)) ∧ (s.later = true → exec i s = stays s')
     let read (at' n : Nat) : Prop := P.devLoad (b.progressAt s.clock) t (b.loadReq t.level) false none at' n = .ok bytes s'
     let n := (t.get a.toNat).toNat % 256
     (t.level.ge .h = true → FieldsOk b t [d.toNat, a.toNat, v.toNat, v.toNat + 1] [] [a.toNat, v.toNat, v.toNat + 1] →
       let at' := (t.get64 v.toNat).toNat
       let k := KeyObject.of bytes
       (2 ^ 56 ≤ at' ∨ at' % 64 ≠ 0 → tells (.keyset d a v) P 3) ∧
       (∀ x : KeySlot, at' < 2 ^ 56 → at' % 64 = 0 → read at' 2048 → s'.keySlots[n]? = some x →
         (254 ≤ n ∨ (x.state ≠ .empty ∧ x.owner ≠ k.owner) → tells (.keyset d a v) s' 1) ∧
         (n < 254 → (x.state = .empty ∨ x.owner = k.owner) → s'.keyFieldsBad k = true → tells (.keyset d a v) s' 3) ∧
         (n < 254 → (x.state = .empty ∨ x.owner = k.owner) → s'.keyFieldsBad k = false → k.kind = 0 → (x.state = .empty ∨ x.state = .live) →
           let y : KeySlot := { x with state := .live, owner := k.owner }
           let key := ascii "GW-FD48 KEY0" ++ (k.bytes.drop 64).take 64 ++ s'.fwDigest ++ s'.bootId ++ toBytes 1 n ++ toBytes 4 x.erases
           tells (.keyset d a v) ((s'.internKey key).1.updSlot n (fun _ => { y with key := some (s'.internKey key).2 })) 0))) ∧
     (t.level.ge .h = true → FieldsOk b t [a.toNat] [] [a.toNat] →
       (n < 254 → ends (.keyerase a) (P.updSlot n (fun x => { erases := (x.erases + 1) % 2 ^ 32 }))) ∧ (254 ≤ n → ends (.keyerase a) P)) ∧
     (t.level.ge .s = true → FieldsOk b t [d.toNat, a.toNat, a.toNat + 1, v.toNat, v.toNat + 1] [] [a.toNat, a.toNat + 1, v.toNat, v.toNat + 1] →
       let dst := (t.get64 a.toNat).toNat
       let src := (t.get64 v.toNat).toNat
       let subject := if t.level = .s then b.owner else Config.ownerHv
       let good := dst < 2 ^ 56 ∧ src < 2 ^ 56 ∧ dst % 64 = 0
       (¬good → tells (.ustat d a v) P 3) ∧
       (good → s.later = true → exec (.ustat d a v) s = stays P) ∧
       (∀ (s2 : State) (hit : Bool), good → s.later = false → read src 32 →
         let at' : List Nat := [dst, dst + 4096, dst + 8191]
         (∀ x ∈ at', P.hostWaits (b.progressAt s.clock) t.tid (b.storeReq t.level) x = false) →
         (s'.newSession subject).writeVa (b.storeReq t.level) false dst
           ((s'.newSession subject).statement subject s'.fresh bytes) = ((s2, hit), none) →
         exec (.ustat d a v) s = gives (at'.foldl (fun s x => s.postsAt s.cur.blk t.tid (b.storeReq t.level) x) s2) 0)) ∧
     (∀ slot : Nat, exec (.keyLapse slot) s = .next { s with keySlots := upd s.keySlots slot (fun k =>
       if k.due s.secure then { k with
         state := .lapsed, key := none, shares := [none, none]
         passed := (List.range 2).map (fun j => k.passed.getD j false || k.reached s.secure j) } else k) }))

/-! ## Slices (R407 to R419) -/

/-- R413, R414, R418: every SL instruction raises PRIV off the armature core. Where a slice that it names is in PROTOCOL, and the request in hand
is not the thread's own, it answers 5; but SLRESET waits while a partition protocol names its slice. While another thread's request is in hand a
request waits its turn, SLRESET only if no partition protocol is under way; a request to which a partition protocol gives way is then done at once.
The model's own, by the assumption log: 95 (a reset beside another request comes in one step).
R221, R236, R407 to R412, R414, R415, R458: slice requests that are answered at once: a slice made from its record, deleted, resumed; its placement
words, its record and the module's pool written, and a lease, whose quadrant the lessor's commands leave; its ways changed, in one cache slice or in all of its owner's; a notice given; its status told. A
reset is answered at once, or its end comes when the request, in hand meanwhile, is tried again.
The model's own, by the assumption log: 44 (a change of ways in one step), 76 (which status where several rules are broken), 95 (which operations end
in a step of their own), 110 (when a slice takes its root). -/
def Obligations.SliceRequests : Prop :=
  (∀ (s : State) (b : Block) (t : Thread) (d a v : Reg), Solo s b t → let x := (t.get a.toNat).toNat
     (b.core ≠ Config.armatureCore →
       ∀ i ∈ [Instr.slnew d a v, .sldel d a, .slassign d a v, .slsplit d a v, .slfuse d a, .slquiesce d a v, .slresume d a, .slways d a v,
           .slplace d a v, .slquota d a v, .slreset d a, .slstat d a v],
         exec i s = .next (s.trapAll (s.wordTrap .priv))) ∧
     (b.core = Config.armatureCore → t.level.ge .h = true → s.request ≠ some (b.uid, t.tid) →
       let o := x % 64
       let u := fld x 6 8
       let busy (o : Nat) : Prop := o < Config.nSlices ∧ (s.slice o).state = .inProtocol
       let five := Host.Outcome.next ((s.progressed.updThread s.cur.blk t.tid (fun u => u.put d.toNat 5)).retireLane t.tid)
       let waits := Host.Outcome.next (s.becomes t (t.hold s.cur .none))
       let met (i : Instr) (named : List Nat) : Prop := ((∃ o ∈ named, busy o) → exec i s = five) ∧
         ((∀ o ∈ named, ¬busy o) → s.request ≠ none → exec i s = waits)
       (FieldsOk b t [d.toNat, a.toNat] [] [a.toNat] → met (.sldel d a) [o] ∧ met (.slresume d a) [o] ∧ met (.slfuse d a) [o, u] ∧
         (busy o → (s.slice o).resetting = true → exec (.slreset d a) s = five) ∧
         (busy o → (s.slice o).resetting = false → exec (.slreset d a) s = waits) ∧
         (¬busy o → s.request ≠ none → s.inPartition = false → exec (.slreset d a) s = waits) ∧
         (¬busy o → s.request ≠ none → s.inPartition = true → x < 64 → o < Config.nSlices → (s.slice o).state ≠ .free →
           exec (.slreset d a) s = (s.progressed.sliceReset o).answers b t d 0)) ∧
       (FieldsOk b t [d.toNat, a.toNat, a.toNat + 1, v.toNat, v.toNat + 1] [] [a.toNat, a.toNat + 1, v.toNat, v.toNat + 1] →
         met (.slquiesce d a v) [o]) ∧
       (FieldsOk b t [d.toNat, a.toNat, v.toNat] [] [a.toNat, v.toNat] →
         met (.slways d a v) [x % 128] ∧ met (.slassign d a v) [o] ∧ met (.slsplit d a v) [o, u]) ∧
       (FieldsOk b t [d.toNat, a.toNat, v.toNat, v.toNat + 1] [] [a.toNat, v.toNat, v.toNat + 1] →
         ∀ i ∈ [Instr.slnew d a v, .slplace d a v, .slquota d a v, .slstat d a v], met i [o]))) ∧
  ((∀ (s : State) (b : Block) (t : Thread) (d a : Reg), Solo s b t → b.core = Config.armatureCore → t.level.ge .h = true →
     s.request = some (b.uid, t.tid) → FieldsOk b t [d.toNat, a.toNat] [] [a.toNat] → (s.slice ((t.get a.toNat).toNat % 64)).resetting = true →
     let ended := (s.progressed.finishReset ((t.get a.toNat).toNat % 64)).reseat b.uid
     exec (.slreset d a) s = .next ((ended.updThread ended.cur.blk t.tid (fun u => (u.put d.toNat 0).retire ended.cur)).answered.reseat b.uid)) ∧
   (∀ (s s' : State) (b : Block) (t : Thread) (d a v : Reg) (bytes : List Byte) (hit : Bool), Asks s b t →
     let P := s.progressed
     let x := (t.get a.toNat).toNat
     let o := x % 64
     let y := t.get64 v.toNat
     let exists' := o < Config.nSlices ∧ (s.slice o).state ≠ .free
     let ordinary := fld x 2 6 = 0
     (s.slice o).state ≠ .inProtocol →
     (FieldsOk b t [d.toNat, a.toNat, v.toNat, v.toNat + 1] [] [a.toNat, v.toNat, v.toNat + 1] →
       (let word (i : Nat) : Nat := numAt bytes (8 * i) 8
        x < 64 → o < Config.nSlices → (s.slice o).state = .free → y.toNat < 2 ^ 56 → y.toNat % 256 = 0 →
        P.readVa (Req.load Config.ownerHv t.level) false y.toNat 256 = .ok (bytes, s') → (∀ i < 32, recordWordOk i (word i) = true) →
        fld (word 0) 6 0 = o → P.claimsHeld o (fun i => ((List.range 32).map (fun i => numAt bytes (8 * i) 8)).getD i 0) = false →
        (∀ z ∈ P.leaseChecks o (fld (word 0) 4 24) (word 15), z.1 = false) →
        exec (.slnew d a v) s = (s'.updSlice o (fun z => { z with
          state := .quiesced, record := (List.range 32).map (fun i => BitVec.ofNat 64 (word i)), hard := 0, shares := [], place := List.replicate 64 0
          counters := {}, usage := {}, leaseUsed := 0, incarnation := z.incarnation + 1, ready := false, session := none, admissions := 0
          decisions := 0, root1 := BitVec.ofNat 64 (word 2) })).answers b t d 0) ∧
       (exists' → x < 2 ^ 14 → ordinary → y.toNat < 2 ^ 36 →
         exec (.slplace d a v) s = (P.updSlice o (fun z => { z with place := z.place.set (fld x 6 8) y })).answers b t d 0) ∧
       (o = 63 → ordinary → x < 2 ^ 13 →
         (fld x 5 8 = 0 → y.toNat ≤ 4096 → exec (.slquota d a v) s = (if s.hot then ({ P with pool := min s.pool y.toNat, poolKept := some y.toNat } : State)
           else { P with pool := y.toNat }).answers b t d 0) ∧
         (fld x 5 8 = 1 → ringOk y.toNat = true → exec (.slquota d a v) s = ({ P with hvFaultQ := y } : State).answers b t d 0)) ∧
       (∀ i, i = fld x 5 8 → exists' → ordinary → x < 2 ^ 13 → 1 ≤ i → i ≤ 14 → recordWordOk i y.toNat = true →
         (quiescedWord i = true → (s.slice o).state = .quiesced) → P.claimsHeld o (fun j => if j = i then y.toNat else P.sliceWord o j) = false →
         exec (.slquota d a v) s = (P.updSlice o (fun z => { z with record := z.record.set i y })).answers b t d 0) ∧
       (fld x 5 8 = 15 → exists' → ordinary → x < 2 ^ 13 → recordWordOk 15 y.toNat = true → (∀ z ∈ P.leaseChecks o (s.worldOf o) y.toNat, z.1 = false) →
         P.claimsHeld o (fun j => if j = 15 then y.toNat else P.sliceWord o j) = false →
         let out := if fld y.toNat 40 24 = 0 then P.endLease o
           else (P.endLease o).reclaim (fun b core => b.owner == fld y.toNat 6 16 && quadOfCore core == fld y.toNat 5 0)
         exec (.slquota d a v) s = (out.updSlice o (fun z => { z with record := z.record.set 15 y })).answers b t d 0) ∧
       (o < Config.nSlices → x < 2 ^ 9 → ordinary → y.toNat < 2 ^ 56 → y.toNat % 64 = 0 →
         P.writeVa (Req.store Config.ownerHv t.level) false y.toNat (P.statusBlock o) = ((s', hit), none) →
         exec (.slstat d a v) s = (if bit x 8 then s'.updSlice o (fun z => { z with counters := {} }) else s').answers b t d 0)) ∧
     (FieldsOk b t [d.toNat, a.toNat] [] [a.toNat] → x < 64 →
       ((s.slice o).state = .quiesced → o < Config.nSlices → s.quadsOfSlice o = [] → (∀ c ∈ s.casts, c.blk.owner ≠ o) →
         let s1 := (P.forget o).discardL2 (fun w _ => w == o)
         let s2 := { s1 with
           otherUsage := s1.otherUsage.add (s1.slice o).usage
           tlb1 := s1.tlb1.filter (fun e => e.owner != o), tlb2 := s1.tlb2.filter (fun e => e.owner != o) }
         exec (.sldel d a) s =
           (s2.updSlice o (fun z => { ({} : Slice) with incarnation := z.incarnation, statements := z.statements })).answers b t d 0) ∧
       ((s.slice o).state = .quiesced → o < Config.nSlices → s.quadsOfSlice o ≠ [] →
         let s1 := P.updSlice o (fun z => { z with state := .running, ready := true, decideDue := true })
         exec (.slresume d a) s = (if (s.slice o).ready then s1 else s1.sendReady o).answers b t d 0) ∧
       (exists' → s.later = false → exec (.slreset d a) s = (P.sliceReset o).answers b t d 0) ∧
       (exists' → s.later = true → exec (.slreset d a) s = (P.beginSliceReset o).inHand b t)) ∧
     (FieldsOk b t [d.toNat, a.toNat, v.toNat] [] [a.toNat, v.toNat] →
       let z := (t.get v.toNat).toNat
       let tag := x % 128
       let cs := fld z 9 16
       x < 128 → (tag < Config.nSlices ∧ exists' ∨ tag = Config.ownerHv) →
       (z < 2 ^ 25 → cs ∈ s.cacheSet tag → exec (.slways d a v) s = (P.changeWays tag cs (fld z 16 0)).answers b t d 0) ∧
       (z / 2 ^ 16 = 2 ^ 15 → exec (.slways d a v) s =
         ((s.cacheSet tag).foldl (fun s c => s.changeWays tag c (fld z 16 0)) P).answers b t d 0)) ∧
     (FieldsOk b t [d.toNat, a.toNat, a.toNat + 1, v.toNat, v.toNat + 1] [] [a.toNat, a.toNat + 1, v.toNat, v.toNat + 1] →
       let m := (t.get (a.toNat + 1)).toNat
       exists' → x < 256 → fld x 2 6 = 1 → bitsOf 32 m ≠ [] → (∀ q ∈ bitsOf 32 m, q ∈ s.quadsOfSlice o) →
       exec (.slquiesce d a v) s = (P.giveNotice o m y.toNat).answers b t d 0)))

/-- R413, R414, R416 to R418: requests carried through step by step: the named slices enter the protocol, their blocks are halted and cast,
and the request stays in hand until every cast is valid; then quadrants pass, lines of the named slices are written back, cores that
change owner are cleared, and the slices return to their former state. SLQUIESCE casts its slice's blocks likewise. -/
def Obligations.SlicePartition : Prop :=
  ∀ (s : State) (b : Block) (t : Thread) (d a v : Reg), Asks s b t →
    let P := s.progressed
    let x := (t.get a.toNat).toNat
    let o := x % 64
    let u := fld x 6 8
    let quads := bitsOf 32 (t.get v.toNat).toNat
    let goes (i : Instr) (named : List Nat) (move : State → State) (cleared : List Nat) : Prop :=
      let p := (named.foldl (fun s o => s.updSlice o (fun z => { z with prior := z.state, state := .inProtocol })) P).castAll 3 named
      (p.drained named = true → exec i s = (((p.flushOwners named).reassign move cleared).resumeSlices named).answers b t d 0) ∧
      (p.drained named = false → exec i s = p.inHand b t)
    let there (o : Nat) := o < Config.nSlices ∧ ((s.slice o).state = .quiesced ∨ (s.slice o).state = .running)
    there o →
    (FieldsOk b t [d.toNat, a.toNat, v.toNat] [] [a.toNat, v.toNat] →
      (x < 64 → quads ≠ [] → (∀ q ∈ quads, bit s.removed q = false ∧ s.holders q = []) → (s.slice o).shares = [] →
        let move (s : State) : State := quads.foldl (fun s q => s.joinHard o q) s
        P.worldBad (P.worldOf o) quads move = false → goes (.slassign d a v) [o] move quads) ∧
      (x < 2 ^ 14 → fld x 2 6 = 0 → u = 63 → (s.slice o).shares = [] → quads ≠ [] → (∀ q ∈ quads, q ∈ s.quadsOfSlice o) →
        ((∃ q ∈ s.quadsOfSlice o, q ∉ quads) ∨ (s.slice o).state = .quiesced) →
        let move (s : State) : State := s.passQuads o 63 quads
        P.worldBad 0 [] move = false → goes (.slsplit d a v) [o] move quads)) ∧
    (FieldsOk b t [d.toNat, a.toNat] [] [a.toNat] → x < 2 ^ 14 → fld x 2 6 = 0 → u ≠ o → there u → (s.slice u).state = .quiesced →
      (∀ c ∈ s.casts, c.blk.owner ≠ u) → (∀ q < 64, ∀ desc, P.queueDesc u q = some desc → descEn desc = false) →
      (s.slice u).shares = [] → (s.slice o).shares = [] → s.worldOf u = s.worldOf o →
      let move (s : State) : State := s.passQuads u o (P.quadsOfSlice u)
      P.worldBad (P.worldOf o) (P.quadsOfSlice u) move = false → goes (.slfuse d a) [o, u] move (P.quadsOfSlice u)) ∧
    (FieldsOk b t [d.toNat, a.toNat, a.toNat + 1, v.toNat, v.toNat + 1] [] [a.toNat, a.toNat + 1, v.toNat, v.toNat + 1] → x < 64 → v = 0 →
      t.get (a.toNat + 1) = 0 → (s.slice o).state = .running →
      let p := (P.updSlice o (fun y => { y with quiescing := true })).castAll 3 [o]
      (p.drained [o] = true → exec (.slquiesce d a v) s = (p.updSlice o (fun y => { y with state := .quiesced, quiescing := false })).answers b t d 0) ∧
      (p.drained [o] = false → exec (.slquiesce d a v) s = p.inHand b t))

/-! ## Threads between instructions, and errors in storage (R18 to R22, R107, R155, R161, R164, R228, R231, R250) -/

/-- R18 to R22, R31, R34: a runnable thread whose window reaches beyond its residency spills its lowest position, and the position that comes into the
window in its slot is undefined; one whose window begins below it fills one. What the move meets is raised at the thread's PC, with the word that
stands there and, for a page fault and a corrupt slot, the position as extra word; or the thread waits. Whatever class the spill engine packs the
values of a quad's threads in, each lane's value comes back.
The model's own, by the assumption log: 96 (the extra word of a page fault in a move). -/
def Obligations.SpillsAndFills : Prop :=
  (∀ (s : State) (b k i : Nat) (blk : Block) (t : Thread), s.threadAt b k = some (i, blk, t) → s.runnable i blk t = true →
    let w := (s.targetWord blk t).1
    let s1 := (s.targetWord blk t).2
    let raised (x : Stop) (pos : Nat) : State := match x with
      | .trap tr => s1.takeTrapAt i k (if tr.cause = .pageFault ∨ tr.cause = .spillCorrupt then { tr with extra := BitVec.ofNat 64 pos } else tr) t.pc w
      | .wait v => s1.updThread i k (fun t => { t with wait := v, waitWord := w, waited := 0 })
    (t.low ≤ t.wb → t.low + t.n < t.wb + t.f →
      (∀ s', s.spillOne i k = .ok s' → exec (.spill b k) s = .next (s'.undefine i k (t.low + t.n) 1)) ∧
      (∀ x, s.spillOne i k = .error x → exec (.spill b k) s = .next (raised x t.low)) ∧
      ((blk.spillDepth.getD (k / 4) 0).toNat ≤ t.low →
        exec (.spill b k) s = .next (raised (.trap { cause := .stackOverflow, extra := BitVec.ofNat 64 t.low }) t.low))) ∧
    (t.wb < t.low →
      (∀ s', s.fillOne i k = .ok s' → exec (.fill b k) s = .next s') ∧
      (∀ x, s.fillOne i k = .error x → exec (.fill b k) s = .next (raised x (t.low - 1))))) ∧
  (∀ vals : List (Nat × Nat), (vals.map (·.1)).Pairwise (· < ·) → (∀ v ∈ vals, v.1 < 4 ∧ v.2 < 2 ^ 32) →
    let p := packLanes vals
    p.2.2.length = 4 ∧ (∀ w ∈ p.2.2, w < 2 ^ 32) ∧ ∀ v ∈ vals, unpackLane p.1 p.2.1 p.2.2 v.1 = v.2)

/-- R107, R155, R161, R164, R167, R250, R254, R258, R264, R434: a pending return reaches its register, with the poison that it met on its way, and is
outstanding for no gang any more; the acknowledgment of a flushing read ends what its FENCE.S waits
for, and every other access is performed in the step that issues it (log entry 42); a
ready gang enters the active set of its core; a REFORM bin releases quads of different lane groups, at most 16; the oldest entry of a
side log is retried once 4,096 clocks have passed, behind one that is performed the next, and none before an earlier one of another core for its
granule. The model's own, by the assumption log: 42 (when an access is performed), 103 (which of several gangs leaves the active set).
R228, R231, R434: one wrong bit of a word on a core is corrected and counted, two make the register, word or accumulator pair poison; a sector of L1 is
fetched again and counted; in DRAM a second wrong symbol makes the sector poison, and a scrub corrects and counts what it finds in a line. One wrong bit
of an L2 tag is corrected and counted for the line's owner; two discard the set, and every owner whose mask includes the way is told. What a ring or a
station corrects in data on their way to a core, or poisons, counts for the slice whose data they are; a host port tells Advanced Error Reporting.
The model's own, by the assumption log: 122 (which data are on their way), 78 (an L1 sector fetched again counts), 108 (who takes the report of a tag). -/
def Obligations.ThreadsAndStorageErrors : Prop :=
  (∀ s : State,
     (∀ (b k i : Nat) (blk : Block) (r : Return) (divide : Bool), s.placeOfUid b = some i → s.blocks[i]? = some blk →
       blk.returns.find? (fun r => r.tid == k && r.divide == divide) = some r →
       exec (if divide then Instr.divideCompletion b k else .loadDataReturn b k) s = .next (s.updBlock i (fun c =>
         { c with
           returns := blk.returns.erase r
           gangs := blk.gangs.map (fun g => { g with board := g.board.erase r })
           threads := blk.threads.map (fun t => if t.tid = r.tid ∧ t.n ≠ 0 then
             (List.range ((r.width + 3) / 4)).foldl (fun t j => { t with
               regs := t.regs.set ((r.pos + j) % t.n) (BitVec.ofNat 32 (fld r.value 32 (32 * j)))
               poison := if r.bad then SMap.set t.poison ((r.pos + j) % t.n) true else SMap.erase t.poison ((r.pos + j) % t.n) }) t
             else t) }))) ∧
     (∀ b k : Nat, s.threadAt b k = none → exec (.accessPerformed b k) s = .next s) ∧
     (∀ (b k i : Nat) (blk : Block) (t : Thread), s.threadAt b k = some (i, blk, t) →
       (t.flushing = false → exec (.accessPerformed b k) s = .next s) ∧
       (t.flushing = true → exec (.accessPerformed b k) s = .next (s.updThread i k (fun t => { t with posted := false, flushing := false })))) ∧
     (∀ (core p n : Nat) (g : Gang), let gs := s.gangsOf core
       s.longest Gang.since ((s.readyOf core).filter (fun x => !x.2.2.active)) = some (p, n, g) →
       let enters (s' : State) : State := (s'.updBlock p (fun b => { b with
         gangs := upd b.gangs n (fun g => { g with active := true, since := s'.clock, last := none }) })).mergeBlock p
       ((gs.filter (fun x => x.2.2.active)).length < 8 → exec (.activeSetSwap core) s = .next (enters s)) ∧
       (∀ (p' n' : Nat) (g' : Gang), 8 ≤ (gs.filter (fun x => x.2.2.active)).length →
         (gs.filter (fun x => x.2.2.active)).find? (fun x => x.2.2.since + 64 ≤ s.clock && x.2.2.last.isSome) = some (p', n', g') →
         exec (.activeSetSwap core) s = .next (enters (s.updBlock p' (fun b => { b with
           gangs := upd b.gangs n' (fun g => { g with active := false, since := s.clock, last := none }) })))) ∧
       (8 ≤ (gs.filter (fun x => x.2.2.active)).length →
         (gs.filter (fun x => x.2.2.active)).find? (fun x => x.2.2.since + 64 ≤ s.clock && x.2.2.last.isSome) = none →
         exec (.activeSetSwap core) s = .next s)) ∧
     (∀ (core n j p : Nat) (bin : Bin) (b : Block), (s.bins.zipIdx.filter (fun x => x.1.core == core))[n]? = some (bin, j) → s.bins[j]? = some bin →
       s.placeOfUid bin.blk = some p → s.blocks[p]? = some b → b.halted = none →
       let out := releaseOf b bin.quads
       let all := List.range (quadsOf b.threads.length)
       let left := bin.quads.filter (fun q => !out.contains q.1)
       (out.length = 16 ∨ (∃ q at', bin.quads.head? = some (q, at') ∧ at' + 256 ≤ s.clock) ∨ (∀ q ∈ all, s.quadRunnable p b q = [])) →
       let s1 := s.updBlock p (fun b => { b with
         gangs := b.gangs ++ [{ quads := all.filter out.contains, since := s.clock }]
         threads := b.threads.map (fun t => if out.contains (t.tid / 4) then { t with filed := false } else t) })
       exec (.reformBinRelease core n) s =
         .next { s1 with bins := if left = [] then s1.bins.eraseIdx j else upd s1.bins j (fun x => { x with quads := left }) }) ∧
     (∀ core : Nat,
       let due := SMap.getD s.logTried core 0 + 4096 ≤ s.clock
       let tried : State := { s with logTried := SMap.set s.logTried core s.clock }
       (¬due → exec (.sideLogRetry core) s = .next s) ∧
       (due → s.sideLog.find? (fun e => e.core == core) = none → exec (.sideLogRetry core) s = .next tried) ∧
       (∀ e, due → s.sideLog.find? (fun e => e.core == core) = some e →
         (tried.retryEntry e = none → exec (.sideLogRetry core) s = .next tried) ∧
         (∀ s', tried.retryEntry e = some s' →
           exec (.sideLogRetry core) s = .next (State.retryLog { s' with sideLog := s'.sideLog.erase e } core (s.sideLog.length - 1)))) ∧
       (∀ (e older : LogEntry) (x : Xlated), s.translate e.req e.span.1 e.span.2 = .ok x → older ∈ s.sideLog → older.core ≠ e.core →
         older.owner = e.owner → older.stamp < e.stamp → older.granule e.va x.gpa = true → s.retryEntry e = none))) ∧
  (∀ (s : State) (loc bits : Nat), 0 < bits →
     let hit (struct : Nat) : Outcome := exec (.softError struct loc bits) s
     let counted (s : State) (o : Nat) : Outcome := .next (s.count o (fun c => { c with corrected := satAdd c.corrected 1 }))
     (∀ (struct i : Nat) (b : Block), struct ≤ 2 → s.blocks[i]? = some b →
       (∀ k n, s.chipCell (loc / 4 * 4) = .reg i k n →
         (bits = 1 → hit struct = counted s b.owner) ∧
         (2 ≤ bits → hit struct = .next (s.updBlock i (fun b => b.updThread k (fun t => { t with poison := SMap.set t.poison n false }))))) ∧
       (∀ x, s.chipCell (loc / 4 * 4) = .scratch i x →
         (bits = 1 → hit struct = counted s b.owner) ∧
         (2 ≤ bits → hit struct = .next (s.updBlock i (fun b => { b with scratchPoison := SMap.set b.scratchPoison (x / 4) false })))) ∧
       (∀ n row col, s.chipCell (loc / 4 * 4) = .acc i n row col →
         (bits = 1 → hit struct = counted s b.owner) ∧
         (2 ≤ bits → hit struct =
           .next (s.updBlock i (fun b => { b with accPoison := SMap.set b.accPoison ((64 * n + row) * 128 + col / 2) false }))))) ∧
     (∀ struct ≤ 2, s.chipCell (loc / 4 * 4) = .idle → 2 ≤ bits →
       let words := if chipStruct (loc / 4 * 4) = 2 then [loc / 8 * 8, loc / 8 * 8 + 4] else [loc / 4 * 4]
       hit struct = .next { s with sramPoison := words.foldl (fun m x => SMap.set m x false) s.sramPoison }) ∧
     (∀ (struct i : Nat) (b : Block) (r : Return), struct = 10 ∨ struct = 11 → s.blocks.findIdx? (fun b => b.core == loc && b.returns.any (fun r => !r.divide)) = some i →
       s.blocks[i]? = some b → b.returns.find? (fun r => !r.divide) = some r →
       (bits = 1 → hit struct = counted s b.owner) ∧
       (2 ≤ bits → let spoilt (x : Return) : Return := if x = r then { x with bad := true } else x
         hit struct = .next ((s.updBlock i (fun b => { b with
           returns := b.returns.map spoilt, gangs := b.gangs.map (fun g => { g with board := g.board.map spoilt }) })).count b.owner
             (fun c => { c with uncorrectable := satAdd c.uncorrectable 1 })))) ∧
     (loc < s.ports.length → hit 12 = .next { s with outbox := s.outbox ++ [.aer loc (bits == 1)] }) ∧
     (∀ b : Block, s.blocks.find? (fun b => b.core == loc / 2 ^ 21) = some b → hit 4 = counted s b.owner) ∧
     (∀ x : Sector, SMap.get s.l2 loc = some x →
       (bits = 1 → hit 5 = counted s (loc / 2 ^ 47)) ∧
       (2 ≤ bits → hit 5 = .next { s with l2 := SMap.set s.l2 loc { x with poison := some (x.poison.getD false) } })) ∧
     (let cs := loc / 2 ^ 14
      let set := loc / 16 % 1024
      (∀ c : Nat × Sector, bits = 1 → (s.inSet cs set).find? (fun c => c.2.way == loc % 16) = some c → hit 6 = counted s (c.1 / 2 ^ 47)) ∧
      (2 ≤ bits → hit 6 = .next (((s.ways.filter (fun w => w.1 / 128 == cs && w.2.testBit (loc % 16))).map (fun w => w.1 % 128)).foldl
        (fun s o => s.reportTag cs o) { s with l2 := s.l2.filter (fun c => !(c.2.home == cs && c.1 / 4 % 1024 == set)) }))) ∧
     (∀ struct ∈ [7, 8],
       (2 ≤ SMap.getD s.latent (loc / 32) 0 + bits → hit struct =
         .next { s with dramPoison := SMap.set s.dramPoison (loc / 32) false, latent := SMap.erase s.latent (loc / 32) }) ∧
       (SMap.getD s.latent (loc / 32) 0 + bits < 2 → hit struct = .next { s with latent := SMap.set s.latent (loc / 32) 1 })) ∧
     (∀ (n o : Nat), let k := loc / 128 * 4 + n
       n < 4 → (SMap.get s.latent k).isSome = true → (∀ m < 4, m ≠ n → SMap.get s.latent (loc / 128 * 4 + m) = none) → s.dramOwner (32 * k) = some o →
       exec (.scrub loc) s = counted { s with latent := SMap.erase s.latent k } o))

/-! ## Pre-emption and dispatch (R139, R375, R377 to R399) -/

/-- R139, R173, R295, R335, R375, R377 to R379, R385, R386, R388: a request halts its blocks and those cast with them; a halted block is written to the save area at
the lowest place that has room, and leaves its core with what it held there; a valid cast of a running slice comes back, but not while
a block restored with it still halts; a block whose threads have all ended
leaves with its neighbourhood, and the records of its batch are released; a block without progress for HANGLIMIT raises HANG in every thread whose wait goes on; a notice is given, and at its time the blocks it found running halt.
The model's own, by the assumption log: 23 (a neighbourhood retires as a unit), 36 (a cast takes the lowest place that has room).
R393 to R399: an admission takes the head with the earliest deadline, every sixteenth the oldest, into the ready set, or refuses it with
a reason; a decision places the next unit of the first launch, by deadline, that fits, every sixteenth the one that waits longest;
a quadrant whose quantum is over goes to the next of its sharers, of those with the least share the one of the lowest function number.
The model's own, by the assumption log: 63 (which casts are packed), 68 to 70 (choices of the dispatcher). -/
def Obligations.PreemptionAndDispatch : Prop :=
  (∀ s : State,
     (∀ (blks : List Nat) (kind o : Nat), ((s.blocks.filter (fun b => blks.contains b.uid)).map (·.owner)).eraseDups = [o] → o < Config.nSlices →
       (kind = 0 ∨ kind = 3) →
       let named := s.blocks.filter (fun b => blks.contains b.uid)
       exec (.preemptionRequest blks kind) s = .next { s with blocks := s.blocks.map (fun b =>
         if b.halted = none ∧ (∃ x ∈ named, x.unitOf b = true) then { b with halted := some kind, haltTime := s.devTime } else b) }) ∧
     (∀ (uid k a : Nat) (blk : Block) (s' : State), s.blocks.find? (fun x => x.uid == uid) = some blk → blk.halted = some k →
       let b := blk.leaving s.clock
       let log := s.logOfBlock blk.uid
       let image := s.castImage b k blk.haltTime 0 log
       let base := s.sliceWord blk.owner 6
       let used := (s.casts.filter (fun c => c.blk.owner == blk.owner)).map (fun c => (c.addr - base, c.bytes.length))
       (firstFit used image.length 64 (s.sliceWord blk.owner 7) = none → exec (.castWrite uid) s = .next s) ∧
       (firstFit used image.length 64 (s.sliceWord blk.owner 7) = some a → s.writeMarked blk.owner (base + a) image = some s' →
         exec (.castWrite uid) s = .next (State.updSlice { (((blk.window.filterMap (fun c => c.helper)).foldl State.clearAcc s').leaveCore blk).keepView blk with
           blocks := s'.blocks.filter (fun x => x.uid != blk.uid)
           casts := s'.casts ++ [{ blk := b, kind := k, time := blk.haltTime, addr := base + a, bytes := image.map (·.1), log := log }]
           bins := s'.bins.filter (fun x => x.blk != blk.uid)
           sideLog := s'.sideLog.filter (fun e => e.blk != blk.uid) } blk.owner (fun x => { x with decideDue := true })))) ∧
     (∀ (uid core : Nat) (c : Cast), s.casts.find? (fun c => c.blk.uid == uid && c.valid) = some c → s.dispatches c.blk.owner = true →
       (s.restoreUnit c (some core) = none → exec (.restore uid core) s = .next s) ∧
       (∀ s', s.restoreUnit c (some core) = some s' → exec (.restore uid core) s = .next s') ∧
       (s.stillHalting c = true → exec (.restore uid core) s = .next s) ∧
       (s.castBlock c = none → s.castsWith c = [c] → s.stillHalting c = false → exec (.restore uid core) s = .next (s.castBad c))) ∧
     (∀ (uid : Nat) (x : Block), s.blocks.find? (fun y => y.uid == uid) = some x → (∀ t ∈ x.threads, t.exited = true) → x.window = [] → x.halted = none →
       let mates := (s.blocks ++ s.casts.map (·.blk)).filter (fun y => nbhdSize x.record != 0 && y.launch == x.launch &&
         y.num / nbhdSize x.record == x.num / nbhdSize x.record)
       let spent (y : Block) : Prop := (∀ t ∈ y.threads, t.exited = true) ∧ y.window = []
       ((∃ y ∈ mates, ¬spent y) → exec (.blockRetire uid) s = .next s) ∧
       ((∀ y ∈ mates, spent y) →
         let s1 := match x.batch with
           | some r => { s with niches := s.niches.map (fun (n : Niche) => if n.launch = r.launch ∧ n.node = r.node then
               { n with claimed := n.claimed.filter (fun k => k.1 != r.batch) } else n) }
           | none => s
         exec (.blockRetire uid) s = .next (State.updSlice { s1.leaveCore x with
           blocks := s.blocks.filter (fun y => y.uid != uid), bins := s.bins.filter (fun y => y.blk != uid) } x.owner (fun y => { y with decideDue := true })))) ∧
     (∀ (uid i : Nat) (x : Block), s.blocks.zipIdx.find? (fun y => y.1.uid == uid) = some (x, i) → x.halted = none → x.owner < Config.nSlices →
       x.progress + 2 ^ fld (s.sliceWord x.owner 1) 5 8 ≤ s.clock →
       let stuck (t : Thread) : Bool := t.wait != .none && !t.exited && !t.stopped && t.pend.isNone && !s.waitOver i x t
       let hung (y : Block) : Block := { y with progress := s.clock, threads := y.threads.map (fun t => if s.stuck i y t then
         ({ t with
           wait := .none, waited := 0, freed := false, synced := t.arrivals t.pc
           pend := some ⟨.hang, BitVec.ofNat 64 t.wait.fields.1, 0, t.pc, t.waitWord⟩ } : Thread) else t) }
       let s1 := s.updBlock i hung
       exec (.hang uid) s = .next ((s1.count x.owner (fun c => { c with hangs := satAdd c.hangs (x.threads.filter stuck).length })).postEvent
         x.owner 2 0 0 x.num (s1.launchId x.launch))) ∧
     (∀ sl mask time : Nat, s.dispatches sl = true → mask ≠ 0 → mask < 2 ^ 32 → (∀ q ∈ bitsOf 32 mask, q ∈ s.quadsOfSlice sl) →
       exec (.preemptionNotice sl mask time) s = .next (s.giveNotice sl mask time)) ∧
     (∀ (sl : Nat) (n : Notice), (s.slice sl).notices.find? (fun x => x.time ≤ s.devTime) = some n →
       exec (.noticeTimeReached sl) s = .next ((s.haltBlocks 0 (fun b => b.owner == sl && n.blks.contains b.uid)).updSlice sl
         (fun x => { x with notices := x.notices.erase n })))) ∧
  (∀ (s : State) (o : Nat),
     (∀ h : Head, s.dispatches o = true → (s.readyLaunches o).length < 8 → s.keyHeld o = false →
       chooseHead ((s.slice o).admissions % 16 == 15) (s.heads o) = some h → h.q < 64 →
       let s1 := (s.noteDev o (entryAddr h.desc (s.queueOf o h.q h.desc).head.toNat) 256).updSlice o (fun x => { x with admissions := x.admissions + 1 })
       let x := s1.queueOf o h.q h.desc
       let r := h.rcd.getD 0
       let l : Launch := { uid := s1.uids, owner := o, q := h.q, seq := x.head.toNat, record := r, nblocks := recBlocks r, unplaced := List.range (recBlocks r)
                           enqueuedAt := h.since, admitted := true, admittedAt := s.clock, lastPlaced := s.clock }
       let s2 : State := { s1.putQueue { x with head := x.head + 1, times := x.times.drop 1 } with uids := s1.uids + 1, launches := s1.launches ++ [l] }
       (s2.refusal l h.rcd.isSome false = none → exec (.admission o) s = .next (s2.updSlice o (fun x => { x with decideDue := true }))) ∧
       (∀ reason, s2.refusal l h.rcd.isSome false = some reason →
         exec (.admission o) s = .next ((s2.completeLaunch l).postEvent o 1 reason (h.q % 64) l.seq l.id))) ∧
     (s.dispatches o = true →
       let s1 := s.updSlice o (fun x => { x with decisions := (s.slice o).decisions + 1, decidedAt := s.clock, decideDue := false })
       exec (.dispatchDecision o) s = .next (if (s.slice o).decisions % 16 = 15 then s1.decideAging o else s1.decideEdf o)) ∧
     (∀ (quad ql sl w : Nat), SMap.get s.qlog quad = some ql → SMap.getD s.quantumAt quad 0 + 2 ^ ql ≤ s.clock → s.nextSharer quad = some (sl, w) →
       (∀ o' w', o' < Config.nSlices → SMap.get (s.slice o').shares quad = some w' → s.dispatches o' = true → s.hasWork o' = true → 0 < w → 0 < w' →
         (∀ u x, u < Config.nSlices → SMap.get (s.slice u).shares quad = some x → 0 < x) →
         s.quantaOf quad sl * w' < s.quantaOf quad o' * w ∨ s.quantaOf quad sl * w' = s.quantaOf quad o' * w ∧ s.vfOf sl ≤ s.vfOf o') ∧
       (((List.range Config.nSlices).map (s.quantaOf quad)).foldl (· + ·) 0 < 64 →
       let s1 := if SMap.get s.onQuad quad = some sl then s
         else s.haltBlocks 0 (fun b => SMap.get s.onQuad quad == some b.owner && quadOfCore b.core == quad)
       exec (.quantumExpiry quad) s = .next (State.updSlice { s1 with
         onQuad := SMap.set s1.onQuad quad sl, quantumAt := SMap.set s1.quantumAt quad s1.clock
         quanta := SMap.set s1.quanta (64 * quad + sl) (s1.quantaOf quad sl + 1) } sl (fun x => { x with decideDue := true })))))

/-! ## The host's side and the module (R429 to R434, R451 to R461) -/

/-- R429 to R432, R456, R459, R460: what the host does at a port of a module in service: VFs enabled, a VF's BAR 2 read and written, PF
registers written, CQTAIL moved, resets of a VF, of a PF and of the port, and the VFs that the PF reports. A reset of a VF leaves its slice as it
was, in the step in which it begins or in a step of its own; meanwhile the slice is in PROTOCOL and its VF is not ready.
The model's own, by the assumption log: 73 and 87 (an access that no die port lets through), 81 (an unaligned CQRING), 95 (which operations end in a
step of their own).
R433, R453: the mailbox takes an image for a slot that has not booted, from a place that keeps the limits, and tells how it went; an image
of an older security version is refused. A restart of boot needs recovery or a module without slices. A control kernel of the oldest
notify starts on the armature core.
The model's own, by the assumption log: 81 (a mailbox beyond its limits), 82 (what a port reset leaves), 83 (a refused record's CQDONE and interrupt), 84
(the check of an image is free), 93 (what a control record must meet). -/
def Obligations.HostSide : Prop :=
  (∀ (s : State) (port : Nat) (p : Port), s.ports[port]? = some p → s.inService = true →
     let put (f : Port → Port) : State := { s with ports := upd s.ports port f }
     s.srIov port = { initialVfs := 48, totalVfs := 48, numVfs := p.numVfs, vfEnable := p.vfEnable } ∧
     (∀ (num : Nat) (en : Bool),
       let s1 := put (fun p => { p with numVfs := num, vfEnable := en && s.vfsElsewhere port + num ≤ 48 })
       let come := (List.range Config.nSlices).filter (fun o => (s.slice o).state != .free && (s.slice o).ready && s.portOf o == port &&
         s1.vfExists port (s.vfOf o) && !s.vfExists port (s.vfOf o))
       exec (.vfEnableWrite port num en) s = .next (come.foldl State.sendReady s1)) ∧
     (∀ (vf off : Nat) (data : List Byte),
       (s.boundSlice port vf = none → ∀ wr, exec (.bar2Access port vf off wr data) s = .next { s with outbox := s.outbox ++ [.ursStatus port vf off] }) ∧
       (∀ o, s.boundSlice port vf = some o → (s.slice o).ready = true → (s.slice o).resetting = false → off + data.length ≤ 2 ^ 36 →
         (∀ x ∈ pieces off data.length, s.portReach o x.1 port = true) →
         (∀ s', s.devWrite o off data = some s' → exec (.bar2Access port vf off true data) s = .next s') ∧
         (∀ bytes, s.devRead o off data.length = .ok bytes → let s1 := s.noteDev o off data.length
           exec (.bar2Access port vf off false data) s = .next { s1 with outbox := s1.outbox ++ [.readData port vf off bytes] })) ∧
       (∀ o wr, s.boundSlice port vf = some o → ((s.slice o).ready = false ∨ (s.slice o).resetting = true) →
         exec (.bar2Access port vf off wr data) s = .next (({ s with outbox := s.outbox ++ [.ursStatus port vf off] } : State).count o
           (fun c => { c with refusals := satAdd c.refusals 1 }))) ∧
       (∀ o, s.boundSlice port vf = some o → (s.slice o).ready = true → (s.slice o).resetting = false → off + data.length ≤ 2 ^ 36 →
         (∃ x ∈ pieces off data.length, s.portReach o x.1 port = false) →
         exec (.bar2Access port vf off true data) s = .next { s with refused := s.refused + 1 })) ∧
     (∀ v : DWord,
       exec (.registerWrite port 0x040 v) s =
         .next (put (fun p => if p.cqEn then p else { p with cqRing := BitVec.ofNat 64 (v.toNat / 256 * 256) })) ∧
       exec (.registerWrite port 0x048 v) s =
         .next (put (fun p => { p with cqEn := bit v.toNat 8, cqLog2n := if p.cqEn then p.cqLog2n else fld v.toNat 8 0 })) ∧
       exec (.registerWrite port 0x100 v) s = .next (put (fun p => { p with mbAddr := v }))) ∧
     (∀ v : Word, let n := (v - p.cqHead).toNat
       p.cqEn = true → 4 ≤ p.cqLog2n → p.cqLog2n ≤ 12 → s.boot.recovery = false →
       (n ≤ 2 ^ p.cqLog2n → exec (.cqtailWrite port v) s = .next ((put (fun p => { p with cqTail := v })).setControls port n)) ∧
       (2 ^ p.cqLog2n < n → exec (.cqtailWrite port v) s =
         .next ((put (fun p => { p with cqRefused := min (p.cqRefused + 1) (2 ^ 32 - 1) })).postHvEvent 7 port v.toNat))) ∧
     (∀ vf o : Nat,
       (s.resettingSlice port vf = some o → exec (.functionLevelReset port vf) s = .next (s.finishReset o)) ∧
       (s.resettingSlice port vf = none → s.boundSlice port vf = some o → (s.slice o).resetting = false → o < s.slices.length →
         ((s.slice o).state = .inProtocol → exec (.functionLevelReset port vf) s = .next (s.updSlice o (fun x => { x with resetDue := true }))) ∧
         ((s.slice o).state ≠ .inProtocol →
           let s1 := s.updSlice o (fun x => { x with prior := (s.slice o).state, state := .inProtocol, resetting := true, ready := false, readyDue := (s.slice o).ready })
           (s.later = true → exec (.functionLevelReset port vf) s = .next s1) ∧
           (s.later = false → exec (.functionLevelReset port vf) s = .next (s1.finishReset o))))) ∧
     (∀ o : Nat, (s.slice o).resetting = true → let s1 := (s.resetSteps o).updSlice o (fun x => { x with
       state := x.prior, resetting := false, ready := x.readyDue, readyDue := false })
       s.finishReset o = if (s1.slice o).ready then s1.sendReady o else s1) ∧
     exec (.pfFunctionLevelReset port) s =
       .next { s.pfReset port with outbox := (s.pfReset port).outbox ++ [.readiness port 0] } ∧
     let s1 : State := { put (fun p => { discard := p.discard }) with controls := s.controls.filter (· != port) }
     exec (.conventionalReset port) s = .next { s1.pfReset port with outbox := (s1.pfReset port).outbox ++ [.readiness port 0] }) ∧
  (∀ (s : State) (port : Nat) (p : Port), s.ports[port]? = some p → s.answering = true →
     let put (f : Port → Port) : State := { s with ports := upd s.ports port f }
     (∀ n : Nat, n = 1 ∨ n = 2 → p.mbStat ≠ 1 → let i := if n = 1 then Instr.mailboxWriteSlotA port else .mailboxWriteSlotB port
       (s.boot.recovery = false ∧ s.boot.booted = n → exec i s = .next (put (fun p => { p with mbStat := 3, mbCmd := 0 }))) ∧
       ((s.boot.recovery = true ∨ s.boot.booted ≠ n) → p.mbAddr.toNat % 4096 = 0 → p.mbLen % 4096 = 0 → p.mbLen ≤ 64 * 2 ^ 20 →
         exec i s = .next (put (fun p => { p with mbStat := 1, mbCmd := n })))) ∧
     (p.mbStat ≠ 1 →
       ((s.boot.recovery = true ∨ ∀ x ∈ s.slices, x.state = .free) →
         exec (.mailboxRestartBoot port) s = .next (put (fun p => { p with mbStat := 2, mbCmd := 0 })).reboot) ∧
       (s.boot.recovery = false → (∃ x ∈ s.slices, x.state ≠ .free) →
         exec (.mailboxRestartBoot port) s = .next (put (fun p => { p with mbStat := 3, mbCmd := 0 })))) ∧
     (p.mbStat = 1 →
       let done (st : Nat) (boot : Boot) : Outcome :=
         .next { s with boot := boot, fresh := s.fresh + 1, ports := upd s.ports port (fun p => { p with mbStat := st, mbCmd := 0 }) }
       (Config.pick s.fresh % 2 = 1 → exec (.mailboxDone port) s = done 4 s.boot) ∧
       (Config.pick s.fresh % 2 ≠ 1 → Config.imageCheck s.fresh = none → exec (.mailboxDone port) s = done 3 s.boot) ∧
       (∀ v, Config.pick s.fresh % 2 ≠ 1 → Config.imageCheck s.fresh = some v →
         (v < s.boot.rollback → exec (.mailboxDone port) s = done 3 s.boot) ∧
         (s.boot.rollback ≤ v → exec (.mailboxDone port) s =
           done 2 (if p.mbCmd = 1 then { s.boot with slotA := some v, imageA := s.fresh + 1 }
             else { s.boot with slotB := some v, imageB := s.fresh + 1 })))) ∧
     (∀ (bytes : List Byte), s.inService = true → (∀ b ∈ s.blocks, b.core ≠ Config.armatureCore) → s.runningControl = none → s.nextControl = some port →
       s.devRead Config.ownerHv (p.cqRing.toNat + 256 * (p.cqHead.toNat % 2 ^ p.cqLog2n)) 256 = .ok bytes →
       let s0 := State.noteDev { s with controls := s.controls.erase port } Config.ownerHv
         (p.cqRing.toNat + 256 * (p.cqHead.toNat % 2 ^ p.cqLog2n)) 256
       let s1 : State := { s0 with ports := upd s0.ports port (fun p => { p with cqHead := p.cqHead + 1 }) }
       let r := ofBytes bytes
       (controlOk r = false → exec .controlKernelStart s = .next { s1 with
         ports := upd s1.ports port (fun p => { p with cqDone := p.cqDone + 1 }), outbox := s1.outbox ++ [.msix port 0 0] }) ∧
       (controlOk r = true → let l : Launch :=
         { uid := s1.uids, owner := Config.ownerHv, q := 65 + port, seq := p.cqHead.toNat, record := r, nblocks := recBlocks r
           unplaced := List.range (recBlocks r), admitted := true, admittedAt := s1.clock, lastPlaced := s1.clock, enqueuedAt := s1.clock }
         exec .controlKernelStart s = .next (({ s1 with uids := s1.uids + 1, launches := s1.launches ++ [l] } : State).startControl l))))

/-- R434, R445, R452, R455, R461: the module powers up and boots the newest good slot, or enters recovery; it powers down, its keys and sessions
gone; it stops with the armature core or with a hot die; a quadrant whose controller fails is lost to its slices, which are reset; a hot
inlet lowers POOL until it has cooled; a die-to-die port goes down at its sixteenth failed replay in a row, and poisons data in flight. What boots
is the image of its slot, sent to every quadrant controller.
The model's own, by the assumption log: 86 (power-down leaves DRAM and its keys), 122 (which data are in flight), 123 (what the messages hold).
R427, R428, R434, R450: device links: training agrees keys; a data flit in order, of an accepted generation and with a good tag is taken, and its
ACK counts; another is asked for again, and a tag that fails twice on one flit takes the link down, where what is in flight on it is lost; an ACK frees the
replay buffer; a replay request sends again from the flit named; a rekey sends a marker, which takes a SEQ, and then what was held, and a rekey marker
changes generation, the old one accepted for 4,096 clocks more. What a flit's 256 bytes are.
The model's own, by the assumption log: 72 (event types are free), 89 (generations after training), 124 (the marker is the first flit of its generation; a
replay request takes no SEQ; what a link that goes down loses). -/
def Obligations.ModuleAndLinks : Prop :=
  (∀ s : State,
     (s.boot.powered = true → exec .powerUp s = .next s) ∧
     (s.boot.powered = false → exec .powerUp s = .next s.restart) ∧
     (s.boot.slotA = none → s.boot.slotB = none → s.bootUp.boot.recovery = true ∧ s.bootUp.boot.ready = false ∧ s.bootUp.boot.booted = 0 ∧
       (∀ l ∈ s.bootUp.links, l.up = false) ∧ ∀ d ∈ s.bootUp.diePorts, d.up = false) ∧
     (∀ v, s.boot.slotA = some v → s.boot.rollback ≤ v → s.boot.slotB = none →
       s.bootUp.boot.recovery = false ∧ s.bootUp.boot.ready = true ∧ s.bootUp.boot.booted = 1 ∧ s.bootUp.boot.fwVer = v ∧ s.bootUp.boot.rollback = v ∧
       s.bootUp.boot.image = s.boot.imageA ∧ s.bootUp.fwDigest = fitBytes 64 (Config.shake256 (Config.imageBytes s.boot.imageA) 64) ∧
       s.bootUp.cmdLinks = (s.tellQuads ((List.range 32).filter (fun q => !bit s.removed q)) (fun _ => (Config.imageBytes s.boot.imageA).take 64)).cmdLinks) ∧
     (∀ v w, s.boot.slotA = some v → s.boot.rollback ≤ v → s.boot.slotB = some w → v < w → s.bootUp.boot.booted = 2 ∧ s.bootUp.boot.fwVer = w) ∧
     (∃ s', exec .powerDown s = .next s' ∧ s'.boot.powered = false ∧ s'.blocks = [] ∧ s'.casts = [] ∧ s'.launches = [] ∧
       s'.keySlots = List.replicate 256 {} ∧ s'.hvSession = none ∧ (∀ x ∈ s'.slices, x.session = none ∧ x.ready = false) ∧
       s'.dram = s.dram ∧ s'.dramKey = s.dramKey) ∧
     (s.boot.powered = true →
       let stopped : State := { s with
         blocks := [], casts := [], launches := [], sideLog := [], bins := [], moving := [], niches := [], tcbRetries := [], controls := []
         request := none, boot := { s.boot with ready := false, stopped := true } }
       exec .armatureStop s = .next stopped ∧ ∀ die < 8, exec (.dieOvertemperature die) s = .next stopped) ∧
     (∀ quad : Nat, quad < 32 → s.inService = true → bit s.removed quad = false →
       let hs := s.holders quad
       let s1 := (hs.foldl State.failReset s).reassign (fun s => hs.foldl (fun s o => s.leaveQuad o quad) s) []
       exec (.quadrantControllerFailure quad) s = .next (({ s1 with removed := s1.removed + 2 ^ quad, fresh := s1.fresh + 1 } : State).postHvEvent
         (Config.freeNat s1.fresh % 256) quad 0)) ∧
     (s.inService = true → ∀ pool : Nat, exec (.inletOvertemperature pool) s =
         .next { s with hot := true, poolKept := some (s.poolKept.getD s.pool), pool := min s.pool pool } ∧
       exec .inletTemperatureRecovery s = .next { s with hot := false, pool := s.poolKept.getD s.pool, poolKept := none }) ∧
     (∀ (pair : Nat) (d : DiePort), s.diePorts[pair]? = some d → d.up = true →
       exec (.diePortReplay pair true) s = .next { s with diePorts := s.diePorts.set pair { d with replays := 0 } } ∧
       (d.replays < 15 → exec (.diePortReplay pair false) s = .next { s with diePorts := s.diePorts.set pair { d with replays := d.replays + 1 } }) ∧
       (15 ≤ d.replays → ∃ s', exec (.diePortReplay pair false) s = .next s' ∧ s'.diePorts = s.diePorts.set pair ⟨false, d.replays + 1⟩ ∧
         s'.blocks.length = s.blocks.length ∧ ∀ b ∈ s'.blocks, ∃ c ∈ s.blocks, b.uid = c.uid ∧ b.threads = c.threads ∧
           b.returns.map (fun r => { r with bad := false }) = c.returns.map (fun r => { r with bad := false })))) ∧
  (∀ (s : State) (k : Nat) (l : Link), s.links[k]? = some l → k < 16 →
     let to' (l' : Link) : State := { s with links := s.links.set k l' }
     let sends (l' : Link) (f : Flit) : State := { to' l' with outbox := s.outbox ++ [.flit k (f.bytes k)] }
     let asks (l' : Link) : State := if 2 ^ 40 ≤ l'.sealedFlits then to' l' else sends { l' with sealedFlits := l'.sealedFlits + 1 } (l'.next 2 [])
     let falls (f : Link → Link) : State := (s.linkFails k).updLink k f
     let reports (s : State) : State := State.postHvEvent { s with fresh := s.fresh + 1 } (Config.freeNat s.fresh % 256) k 0
     (s.inService = true →
       exec (.linkTraining k true) s = .next (to' { l with up := true, trained := true, tagFail := none, rekeyDue := true }) ∧
       exec (.linkTraining k false) s = .next (reports (falls (fun l => { l with up := false, trained := true })))) ∧
     exec (.deviceLinkDown k) s = .next (falls (fun l => { l with up := false, trained := false })) ∧
     ((∀ x ∈ s.allCmds, x.2.src = none ∨ x.2.port ≠ k) → s.linkFails k = to' { l with held := [] }) ∧
     (l.up = true →
       (∀ (head gen : Nat) (crcOk tagOk : Bool), let i := Instr.linkDataFlit k head gen crcOk tagOk
         let seq := fld head 16 0
         let ack := fld head 16 16
         let good := gen = l.rxGen ∨ ∃ g until', l.oldGen = some (g, until') ∧ g = gen ∧ s.clock < until'
         (crcOk = false ∨ seq ≠ l.rxSeq → exec i s = .next (asks { l with askReplay := some l.rxSeq })) ∧
         (crcOk = true → seq = l.rxSeq → tagOk = true → good →
           exec i s = .next (to' { l.acked ack with rxSeq := (seq + 1) % 65536, tagFail := none, askReplay := none })) ∧
         (crcOk = true → seq = l.rxSeq → (tagOk = false ∨ ¬good) →
           (l.tagFail = some seq → exec i s = .next (reports (falls (fun l => { l with up := false, tagFail := none, askReplay := none })))) ∧
           (l.tagFail ≠ some seq → exec i s = .next (asks { l with tagFail := some seq, askReplay := some seq })))) ∧
       (∀ ack : Nat, exec (.linkIdleFlit k ack) s = .next (to' (l.acked ack)) ∧ l.acked ack = { l with
         peerAck := ack % 65536, replay := l.replay.filter (fun f => (ack + 65536 - f.seq % 65536) % 65536 ≥ 32768) }) ∧
       (∀ seq : Nat, exec (.linkReplayRequest k seq) s = .next
         { s with outbox := s.outbox ++ (l.replay.dropWhile (fun f => f.seq != seq)).map (fun f => .flit k (f.bytes k)) }) ∧
       (∀ gen : Nat, exec (.linkRekeyMarker k gen) s =
         .next (to' { l with oldGen := some (l.rxGen, s.clock + 4096), rxGen := gen % 256, rxSeq := (l.rxSeq + 1) % 65536 })) ∧
       (l.rekeyDue = true ∨ 2 ^ 36 ≤ l.sealedFlits →
         let gen := (l.txGen + 1) % 256
         let l1 : Link := { l with txGen := gen, txKey := s.fresh + 1, sealedFlits := 0, rekeyDue := false, held := [] }
         let marked : State := { sends (l1.sent (l1.next 3 [])) (l1.next 3 []) with fresh := s.fresh + 1 }
         exec (.linkRekey k) s = .next (marked.sendHeld k gen l.held) ∧ (l.held = [] → marked.sendHeld k gen l.held = marked))) ∧
     (∀ g until', l.oldGen = some (g, until') → until' ≤ s.clock → exec (.linkOldGenerationExpiry k) s = .next (to' { l with oldGen := none })) ∧
     (∀ (type : Nat) (payload : List Byte), payload.length ≤ 224 → let f := l.next type payload
       s.sendFlit k type payload = sends (l.sent f) f ∧ (l.sent f).txSeq = (l.txSeq + 1) % 65536 ∧ (l.sent f).sealedFlits = l.sealedFlits + 1 ∧
       (f.bytes k).length = 256 ∧ f.payload.length = 224 ∧ f.payload.take payload.length = payload ∧
       (f.bytes k).take 8 = toBytes 2 l.txSeq ++ toBytes 2 ((l.rxSeq + 65535) % 65536) ++ toBytes 1 type ++ toBytes 1 l.txGen ++ toBytes 2 0 ∧
       (f.bytes k).drop 248 = toBytes 8 (crc64 ((f.bytes k).take 248)).toNat))

/-! ## Steps, reset and what every step keeps -/

/-- R36, R50 to R52, R54 to R56, R157, R163, R375: what one step does. What comes from outside is taken first; a module that is stopped or without power does nothing
else; an agent that has the turn takes its step. Otherwise a gang issues: the one that a core's decoder 0 has chosen, or, after it, the one
that decoder 1 of that core has chosen beside it. Its active threads run, by `exec`, the instruction that the word at their PC decodes to;
behind prefix words, REP before IFP before LIMM with its literal word, first these, in order, and then the instruction word; in the midst of a REP or
behind a pending IFP the instruction word alone, its literal read again; under a REP the word with its fields stepped. Then releases of waits are noted,
and time passes. The model's own, by the assumption log: 39 (who has the turn, and which core), 104 (the literal's target after a resumption). -/
def Obligations.StepRunsDecoded : Prop :=
  ∀ s : State,
    let passes (o : Outcome) : Outcome := thenDo o (fun x => .next (x.noteReleases s).passTime)
    (∀ i rest, s.inputs = i :: rest → step s = passes (exec i { s with inputs := rest })) ∧
    (s.inputs = [] → s.boot.stopped = true ∨ s.boot.powered = false → step s = .fault .moduleStopped) ∧
    (s.inputs = [] → s.boot.stopped = false → s.boot.powered = true →
      (s.agents = true → s.decoder1 = none →
        (∀ i, s.agentStep = some i → step s = passes (exec i { s with fresh := s.fresh + 2 })) ∧
        (s.agentStep = none → step s = passes (.next s))) ∧
      (s.agents = false ∨ s.decoder1 ≠ none →
        let s0 := s.regangAll.coresInUse.foldl State.swapActive s.regangAll
        (s0.decoder1 = none → s0.nextGang = none → step s = passes (.next s)) ∧
        (∀ core groups, s0.decoder1 = some (core, groups) → ({ s0 with decoder1 := none } : State).besideGang core groups = none →
          step s = passes (.next { s0 with decoder1 := none })) ∧
        ∀ (bi gi k : Nat) (g : Gang) (b b' : Block) (t : Thread) (ks : List Nat) (s1 s2 s4 : State) (w : Word),
          (s0.decoder1 = none ∧ s0.nextGang = some (bi, gi, g) ∧ s1 = { s0 with decoder1 := s0.forDecoder1 bi g } ∨
            ∃ core groups, s0.decoder1 = some (core, groups) ∧ s1 = { s0 with decoder1 := none } ∧ s1.besideGang core groups = some (bi, gi, g)) →
          s1.blocks[bi]? = some b → s1.settleAll bi (s1.activeTids bi b g) = (s2, k :: ks) →
          let s3 := (s2.ageQuads bi g (s1.activeTids bi b g)).updBlock bi
            (fun b => { b with gangs := upd b.gangs gi (fun g => { g with last := some s2.clock }) })
          s3.thread? bi k = some (b', t) →
          let pc := t.pc.toNat
          let stands (a : Nat) (w : Word) : Prop := ∃ s', s3.fetchAt b t.level a = .ok (w, s')
          let issued (at' : Nat) (lit : Word) (target : Option LimmTarget) : State := { s4 with cur :=
            { blk := bi, tids := k :: ks, grp := t.pc, pc := BitVec.ofNat 64 at', next := BitVec.ofNat 64 (at' + 4), word := w, litWord := lit
              lit := target.map (fun x => (x, lit)) } }
          (t.pfx.repv = false → t.pfx.ifpv = false →
            (s3.fetchAt b t.level pc = .ok (w, s4) → w.toNat / 2 ^ 28 ≠ 15 ∨ w.toNat / 2 ^ 24 % 16 = 3 → ∀ i, decodeWord w = .ok i →
              step s = passes (exec i (issued pc 0 none))) ∧
            (∀ (rep ifp limm : Option (Word × Instr)) (lit : Word) (i : Instr),
              let a1 := pc + (if rep.isSome then 4 else 0)
              let a2 := a1 + (if ifp.isSome then 4 else 0)
              let a3 := a2 + (if limm.isSome then 8 else 0)
              (∀ x ∈ rep, stands pc x.1 ∧ x.1.toNat / 2 ^ 24 = 0xF0 ∧ decodeWord x.1 = .ok x.2) →
              (∀ x ∈ ifp, stands a1 x.1 ∧ x.1.toNat / 2 ^ 24 = 0xF1 ∧ decodeWord x.1 = .ok x.2) →
              (∀ x ∈ limm, stands a2 x.1 ∧ x.1.toNat / 2 ^ 24 = 0xF2 ∧ decodeWord x.1 = .ok x.2 ∧ stands (a2 + 4) lit) → (limm = none → lit = 0) →
              s3.fetchAt b t.level a3 = .ok (w, s4) → w.toNat / 2 ^ 28 ≠ 15 → decodeWord w = .ok i →
              prefixDefect i w (rep.map (fun x => repSteps x.1)) (limm.map (fun x => limmTargetOf x.1)) = none →
              step s = passes (thenDo ((rep.toList ++ ifp.toList ++ limm.toList).foldl (fun o x => thenDo o (exec x.2)) (.next (issued a3 lit none)))
                runRepeat))) ∧
          (t.pfx.repv = true ∨ t.pfx.ifpv = true → s3.fetchAt b t.level pc = .ok (w, s4) →
            (t.pfx.limmv = false → ∀ j, Group.checkResumed { grp := pc, pc := pc, word := w } t.pfx = .ok j →
              step s = passes (runRepeat (issued pc 0 none))) ∧
            (∀ (lw lit : Word) (j : Instr), t.pfx.limmv = true → stands (pc - 4) lit → stands (pc - 8) lw →
              Group.checkResumed { grp := pc, pc := pc, word := w, limm := some (pc - 8, lw), lit := lit } t.pfx = .ok j →
              step s = passes (runRepeat (issued pc lit (some (limmTargetOf lw)))))))) ∧
    (∀ (b : Block) (t : Thread) (k : Nat) (ks : List Nat), s.cur.tids = k :: ks → s.thread? s.cur.blk k = some (b, t) →
      (t.pfx.repv = false → ∀ i, decodeWord s.cur.word = .ok i → runRepeat s = exec i s) ∧
      (t.pfx.repv = true → stepOffender s.cur.word t.pfx = none → ∀ i,
        decodeWord (stepWord s.cur.word t.pfx.sd t.pfx.sa t.pfx.sb t.pfx.next t.pfx.stride.toInt) = .ok i → runRepeat s = exec i s))

/-- R407, R432, R436, R439, R452: the state in which boot ends: every slice FREE, every latch 0, POOL 4,096, the module READY and in service,
slots 254 and 255 LIVE for owners 0x7F and 0x7E and every other slot empty, and no block, launch or input: no thread is there to issue.
The model's own, by the assumption log: 9 (the secure clock at the end of boot). -/
def Obligations.StateAtReset : Prop :=
  let s := State.reset
  s.slices.length = 48 ∧ (∀ x ∈ s.slices, x.state = .free) ∧ s.latches = List.replicate 8 0 ∧ s.pool = 4096 ∧ s.boot.ready = true ∧
  s.boot.recovery = false ∧ s.inService = true ∧ s.devTime = 0 ∧ s.secure = 0 ∧ s.keySlots.length = 256 ∧
  (∀ k ∈ s.keySlots.take 254, k.state = .empty) ∧
  (s.keySlots[254]?).map (fun k => (k.state, k.owner)) = some (.live, 0x7F) ∧ (s.keySlots[255]?).map (fun k => (k.state, k.owner)) = some (.live, 0x7E) ∧
  s.blocks = [] ∧ s.casts = [] ∧ s.launches = [] ∧ s.inputs = [] ∧ s.remains = [] ∧
  s.decoder1 = none ∧ (∀ l ∈ s.cmdLinks, l.sent = [] ∧ l.waiting = []) ∧ s.nextGang = none ∧ Memory.wf s.dram

/-- The canonical form of device memory (the model's own, log entry 1) holds after every step that it holds before. -/
def Obligations.MemoryFormKept : Prop :=
  ∀ s s' : State, Memory.wf s.dram → step s = .next s' → Memory.wf s'.dram

/-- R163, R451, R453: no step lowers the rollback count or the count of restarts, and the module's clock stands only between the issues of
the two decoders of one clock.
The model's own, by the assumption log: 9 (the clock is a count of steps with a free number more). -/
def Obligations.CountersNeverFall : Prop :=
  ∀ s s' : State, step s = .next s' → s.boot.rollback ≤ s'.boot.rollback ∧ s.clock ≤ s'.clock ∧
    (s'.decoder1 = none → s.clock < s'.clock) ∧ s.boot.boots ≤ s'.boot.boots

/-- R439: no instruction changes key slots 254 and 255, whatever it does and whoever issues it. -/
def Obligations.FirmwareKeysStand : Prop :=
  ∀ (i : Instr) (w : Word) (s s' : State) (x y : KeySlot), encode i = some w → s.slices.length = 48 → s.keySlots.length = 256 →
    s.keySlots[254]? = some x → x.owner = Config.ownerFw → s.keySlots[255]? = some y → y.owner = Config.ownerHv →
    exec i s = .next s' → s'.keySlots.length = 256 ∧ s'.keySlots[254]? = some x ∧ s'.keySlots[255]? = some y

/-- R152, R225, R229: 32 bytes stored to a sector of device memory under a slot with a key for the owner read back, the sector's key is the
slot's, a latent error is gone, and every byte outside the sector reads as before; under a slot without a key for the owner nothing is
stored and the loss is counted.
The model's own, by the assumption log: 1 (what an unlisted byte reads as) and 13 (keys as names). -/
def Obligations.SectorsReadBack : Prop :=
  ∀ (s : State) (owner slot h : Nat) (bytes : List Byte) (poison : Option Bool), bytes.length = 32 →
    let s' := s.putDramSector owner slot h bytes poison
    (∀ k, s.keyFor owner slot = some k →
      (∀ i < 32, Cells.read s'.dram (h / 32 * 32 + i) = bytes.getD i 0) ∧
      (∀ a, a < h / 32 * 32 ∨ h / 32 * 32 + 32 ≤ a → Cells.read s'.dram a = Cells.read s.dram a) ∧
      SMap.get s'.dramKey (h / 32) = some k ∧ SMap.get s'.latent (h / 32) = none ∧ SMap.get s'.dramPoison (h / 32) = poison ∧
      ∀ j, j ≠ h / 32 → SMap.get s'.dramKey j = SMap.get s.dramKey j ∧ SMap.get s'.latent j = SMap.get s.latent j ∧
        SMap.get s'.dramPoison j = SMap.get s.dramPoison j) ∧
    (s.keyFor owner slot = none → s' = s.count owner (fun c => { c with keyDropped := satAdd c.keyDropped 1 }))

/-- R12, R85 to R88: what an instruction of any register shape of this file leaves alone, where it answers as its shape says: all memory,
every other block, the scalar and convergence registers, every thread that does not execute the group, and in one that does
everything but its place in the program and what the instruction's own effect `f` changes; a write of register d changes register d
alone, a write of predicate p predicate p alone. -/
def Obligations.RegisterFrame : Prop :=
  (∀ (i : Instr) (vs ss srcs : State → List Nat) (f : State → Block → Thread → Thread), Does i vs ss srcs f →
    ∀ (s : State) (b : Block), s.issuing b → s.regsOk b (vs s) (ss s) (srcs s) →
      ∃ s', exec i s = .next s' ∧ SameMemory s s' ∧
        s'.slices = s.slices ∧ s'.keySlots = s.keySlots ∧ s'.ports = s.ports ∧ s'.links = s.links ∧ s'.outbox = s.outbox ∧ s'.launches = s.launches ∧
        (∀ j, j ≠ s.cur.blk → s'.blocks[j]? = s.blocks[j]?) ∧
        ∃ b', s'.blocks[s.cur.blk]? = some b' ∧ b'.sregs = b.sregs ∧ b'.cregs = b.cregs ∧ b'.window = b.window ∧
          ∀ (k : Nat) (t : Thread), b.threads[k]? = some t →
            (¬ s.runs t → b'.threads[k]? = some t) ∧
            (s.runs t → t.guardOk = false → ∃ u, b'.threads[k]? = some u ∧ SameSystem t u ∧ u.regs = t.regs ∧ u.preds = t.preds) ∧
            (s.runs t → t.guardOk = true → ∃ u, b'.threads[k]? = some u ∧ u.regs = (f s b t).regs ∧ u.preds = (f s b t).preds ∧
              (SameSystem t (f s b t) → SameSystem t u))) ∧
  (∀ (t : Thread) (d : Nat) (x : Word),
    SameSystem t (t.put d x) ∧ (t.put d x).preds = t.preds ∧
    (t.n ≤ t.regs.length → t.f ≤ t.n → d < t.f → (t.put d x).get d = x ∧ ∀ r, r < t.f → r ≠ d → (t.put d x).get r = t.get r)) ∧
  (∀ (t : Thread) (p : Nat) (v : Bool), p < 8 →
    SameSystem t (t.putPred p v) ∧ (t.putPred p v).regs = t.regs ∧ (t.putPred p v).pred p = v ∧
    ∀ q, q < 8 → q ≠ p → (t.putPred p v).pred q = t.pred q)
end

