-- ==== Sys2Proof/Laws/Cells.lean ====
section
/-! SUPPORT. Sparse data: reading after writing, and that every operation keeps keys rising and byte memories canonical. -/

namespace Sys2Proof.Machine

section
variable {α : Type}

@[simp] theorem SMap.get_nil (k : Nat) : SMap.get ([] : SMap α) k = none := rfl

theorem SMap.get_cons (a : Nat) (x : α) (m : SMap α) (k : Nat) :
    SMap.get ((a, x) :: m) k = if a = k then some x else SMap.get m k := rfl

/-- Reading a key that was just written. -/
@[simp] theorem SMap.get_set_same (m : SMap α) (k : Nat) (v : α) : SMap.get (SMap.set m k v) k = some v := by
  induction m with
  | nil => simp [SMap.set, SMap.get_cons]
  | cons p m ih =>
    obtain ⟨a, x⟩ := p
    simp only [SMap.set]
    split
    · simp [SMap.get_cons]
    · split
      · simp [SMap.get_cons]
      · next h1 h2 => simp [SMap.get_cons, ih, Ne.symm h2]

/-- Reading another key than the one written. -/
theorem SMap.get_set_other (m : SMap α) (k j : Nat) (v : α) (h : j ≠ k) : SMap.get (SMap.set m k v) j = SMap.get m j := by
  induction m with
  | nil => simp [SMap.set, SMap.get_cons, Ne.symm h]
  | cons p m ih =>
    obtain ⟨a, x⟩ := p
    simp only [SMap.set]
    split
    · simp [SMap.get_cons, Ne.symm h]
    · split
      · next h2 => subst h2; simp [SMap.get_cons, Ne.symm h]
      · simp [SMap.get_cons, ih]

theorem SMap.get_filter (m : SMap α) (q : Nat → Bool) (j : Nat) :
    SMap.get (m.filter (fun c => q c.1)) j = if q j then SMap.get m j else none := by
  induction m with
  | nil => simp
  | cons p m ih =>
    obtain ⟨a, x⟩ := p
    by_cases hq : q a = true
    · simp only [List.filter_cons, hq, if_true, SMap.get_cons, ih]
      by_cases h : a = j
      · subst h; simp [hq]
      · simp [h]
    · simp only [List.filter_cons, hq, SMap.get_cons]
      by_cases h : a = j
      · subst h; simp [hq, ih]
      · simp [h, ih]

@[simp] theorem SMap.get_erase_same (m : SMap α) (k : Nat) : SMap.get (SMap.erase m k) k = none := by
  simp only [SMap.erase]; rw [SMap.get_filter m (fun c => c != k)]; simp

theorem SMap.get_erase_other (m : SMap α) (k j : Nat) (h : j ≠ k) : SMap.get (SMap.erase m k) j = SMap.get m j := by
  simp only [SMap.erase]; rw [SMap.get_filter m (fun c => c != k)]; simp [h]

/-- Rising keys, as Mathlib says it. -/
theorem SMap.sorted_iff (m : SMap α) : SMap.sorted m = true ↔ m.Pairwise (fun c d => c.1 < d.1) := by
  induction m with
  | nil => simp [SMap.sorted]
  | cons p m ih =>
    match p, m, ih with
    | (a, x), [], _ => simp [SMap.sorted]
    | (a, x), (b, y) :: m, ih =>
      simp only [SMap.sorted, Bool.and_eq_true, decide_eq_true_eq, ih, List.pairwise_cons]
      constructor
      · rintro ⟨h, h1, h2⟩
        refine ⟨?_, h1, h2⟩
        intro c hc
        rcases List.mem_cons.1 hc with rfl | hc
        · exact h
        · exact Nat.lt_trans h (h1 c hc)
      · rintro ⟨h, h1, h2⟩
        exact ⟨h _ List.mem_cons_self, h1, h2⟩

theorem SMap.mem_set (m : SMap α) (k : Nat) (v : α) (c : Nat × α) (h : c ∈ SMap.set m k v) : c = (k, v) ∨ c ∈ m := by
  induction m with
  | nil => simpa [SMap.set] using h
  | cons p m ih =>
    obtain ⟨a, x⟩ := p
    simp only [SMap.set] at h
    split at h
    · simpa using h
    · split at h
      · rcases List.mem_cons.1 h with h | h
        · exact .inl h
        · exact .inr (List.mem_cons_of_mem _ h)
      · rcases List.mem_cons.1 h with h | h
        · exact .inr (by simp [h])
        · rcases ih h with h | h
          · exact .inl h
          · exact .inr (List.mem_cons_of_mem _ h)

/-- Writing keeps keys rising. -/
theorem SMap.sorted_set (m : SMap α) (k : Nat) (v : α) (h : SMap.sorted m = true) : SMap.sorted (SMap.set m k v) = true := by
  rw [SMap.sorted_iff] at h ⊢
  induction m with
  | nil => simp [SMap.set]
  | cons p m ih =>
    obtain ⟨a, x⟩ := p
    rw [List.pairwise_cons] at h
    simp only [SMap.set]
    split
    · next hk =>
      refine List.pairwise_cons.2 ⟨?_, List.pairwise_cons.2 h⟩
      intro c hc
      rcases List.mem_cons.1 hc with rfl | hc
      · exact hk
      · exact Nat.lt_trans hk (h.1 c hc)
    · split
      · next hk => subst hk; exact List.pairwise_cons.2 ⟨h.1, h.2⟩
      · next h1 h2 =>
        refine List.pairwise_cons.2 ⟨?_, ih h.2⟩
        intro c hc
        rcases SMap.mem_set _ _ _ _ hc with rfl | hc
        · simp only; omega
        · exact h.1 c hc

/-- Erasing keeps keys rising. -/
theorem SMap.sorted_erase (m : SMap α) (k : Nat) (h : SMap.sorted m = true) : SMap.sorted (SMap.erase m k) = true := by
  rw [SMap.sorted_iff] at h ⊢; exact h.filter _

/-- Dropping keeps keys rising. -/
theorem SMap.sorted_drop (m : SMap α) (p : Nat → Bool) (h : SMap.sorted m = true) : SMap.sorted (SMap.drop m p) = true := by
  rw [SMap.sorted_iff] at h ⊢; exact h.filter _

end

/-- The byte just written. -/
@[simp] theorem Cells.read_write_same (m : Cells) (a : Nat) (v : Byte) : Cells.read (Cells.write m a v) a = v := by
  unfold Cells.read Cells.write SMap.getD
  split
  · next h => simp [h]
  · simp

/-- Any other byte. -/
theorem Cells.read_write_other (m : Cells) (a b : Nat) (v : Byte) (h : b ≠ a) :
    Cells.read (Cells.write m a v) b = Cells.read m b := by
  unfold Cells.read Cells.write SMap.getD
  split
  · rw [SMap.get_erase_other _ _ _ h]
  · rw [SMap.get_set_other _ _ _ _ h]

/-- The canonical form, in two halves. -/
theorem Cells.wf_iff (m : Cells) : m.wf = true ↔ SMap.sorted m = true ∧ ∀ c ∈ m, c.2 ≠ unlistedByte := by
  simp [Cells.wf, List.all_eq_true]

@[simp] theorem Cells.wf_nil : Cells.wf [] = true := rfl

/-- Writing a byte keeps the canonical form. -/
theorem Cells.wf_write (m : Cells) (a : Nat) (v : Byte) (h : m.wf = true) : (Cells.write m a v).wf = true := by
  rw [Cells.wf_iff] at h ⊢
  unfold Cells.write
  split
  · refine ⟨SMap.sorted_erase _ _ h.1, fun c hc => h.2 c (List.mem_of_mem_filter hc)⟩
  · next hv =>
    refine ⟨SMap.sorted_set _ _ _ h.1, fun c hc => ?_⟩
    rcases SMap.mem_set _ _ _ _ hc with rfl | hc
    · exact hv
    · exact h.2 c hc

/-- Writing a list of bytes keeps the canonical form. -/
theorem Cells.wf_writeList (l : List Byte) : ∀ (m : Cells) (b : Nat), m.wf = true → (Cells.writeList m b l).wf = true := by
  induction l with
  | nil => intro m b h; exact h
  | cons v l ih => intro m b h; exact ih _ _ (Cells.wf_write m b v h)

/-- Bytes below a written list. -/
theorem Cells.read_writeList_below (l : List Byte) :
    ∀ (m : Cells) (b a : Nat), a < b → Cells.read (Cells.writeList m b l) a = Cells.read m a := by
  induction l with
  | nil => intro m b a _; rfl
  | cons v l ih =>
    intro m b a h
    rw [Cells.writeList, ih _ _ _ (by omega), Cells.read_write_other _ _ _ _ (by omega)]

/-- Bytes above a written list. -/
theorem Cells.read_writeList_above (l : List Byte) :
    ∀ (m : Cells) (b a : Nat), b + l.length ≤ a → Cells.read (Cells.writeList m b l) a = Cells.read m a := by
  induction l with
  | nil => intro m b a _; rfl
  | cons v l ih =>
    intro m b a h
    rw [List.length_cons] at h
    rw [Cells.writeList, ih _ _ _ (by omega), Cells.read_write_other _ _ _ _ (by omega)]

/-- Bytes of a written list. -/
theorem Cells.read_writeList_in (l : List Byte) :
    ∀ (m : Cells) (b i : Nat), i < l.length → Cells.read (Cells.writeList m b l) (b + i) = l.getD i 0 := by
  induction l with
  | nil => intro m b i h; simp at h
  | cons v l ih =>
    intro m b i h
    cases i with
    | zero => rw [Cells.writeList, Nat.add_zero, Cells.read_writeList_below _ _ _ _ (by omega)]; simp
    | succ i =>
      rw [List.length_cons] at h
      rw [Cells.writeList, show b + (i + 1) = b + 1 + i by omega, ih _ _ _ (by omega)]; simp

end Sys2Proof.Machine
end

