-- ==== Sys2Proof/Laws/State.lean ====
section
/-! SUPPORT. What each update of the state leaves alone, field by field. -/

namespace Sys2Proof.Machine

/-! A block changed -/

@[simp] theorem State.updBlock_clock (s : State) (i : Nat) (f : Block → Block) : (s.updBlock i f).clock = s.clock := rfl
@[simp] theorem State.updBlock_devTime (s : State) (i : Nat) (f : Block → Block) : (s.updBlock i f).devTime = s.devTime := rfl
@[simp] theorem State.updBlock_secure (s : State) (i : Nat) (f : Block → Block) : (s.updBlock i f).secure = s.secure := rfl
@[simp] theorem State.updBlock_fresh (s : State) (i : Nat) (f : Block → Block) : (s.updBlock i f).fresh = s.fresh := rfl
@[simp] theorem State.updBlock_uids (s : State) (i : Nat) (f : Block → Block) : (s.updBlock i f).uids = s.uids := rfl
@[simp] theorem State.updBlock_inputs (s : State) (i : Nat) (f : Block → Block) : (s.updBlock i f).inputs = s.inputs := rfl
@[simp] theorem State.updBlock_cur (s : State) (i : Nat) (f : Block → Block) : (s.updBlock i f).cur = s.cur := rfl
@[simp] theorem State.updBlock_casts (s : State) (i : Nat) (f : Block → Block) : (s.updBlock i f).casts = s.casts := rfl
@[simp] theorem State.updBlock_launches (s : State) (i : Nat) (f : Block → Block) : (s.updBlock i f).launches = s.launches := rfl
@[simp] theorem State.updBlock_dram (s : State) (i : Nat) (f : Block → Block) : (s.updBlock i f).dram = s.dram := rfl
@[simp] theorem State.updBlock_dramKey (s : State) (i : Nat) (f : Block → Block) : (s.updBlock i f).dramKey = s.dramKey := rfl
@[simp] theorem State.updBlock_dramPoison (s : State) (i : Nat) (f : Block → Block) : (s.updBlock i f).dramPoison = s.dramPoison := rfl
@[simp] theorem State.updBlock_latent (s : State) (i : Nat) (f : Block → Block) : (s.updBlock i f).latent = s.latent := rfl
@[simp] theorem State.updBlock_l2 (s : State) (i : Nat) (f : Block → Block) : (s.updBlock i f).l2 = s.l2 := rfl
@[simp] theorem State.updBlock_ways (s : State) (i : Nat) (f : Block → Block) : (s.updBlock i f).ways = s.ways := rfl
@[simp] theorem State.updBlock_tlb1 (s : State) (i : Nat) (f : Block → Block) : (s.updBlock i f).tlb1 = s.tlb1 := rfl
@[simp] theorem State.updBlock_tlb2 (s : State) (i : Nat) (f : Block → Block) : (s.updBlock i f).tlb2 = s.tlb2 := rfl
@[simp] theorem State.updBlock_moving (s : State) (i : Nat) (f : Block → Block) : (s.updBlock i f).moving = s.moving := rfl
@[simp] theorem State.updBlock_otherUsage (s : State) (i : Nat) (f : Block → Block) : (s.updBlock i f).otherUsage = s.otherUsage := rfl
@[simp] theorem State.updBlock_sideLog (s : State) (i : Nat) (f : Block → Block) : (s.updBlock i f).sideLog = s.sideLog := rfl
@[simp] theorem State.updBlock_logSeq (s : State) (i : Nat) (f : Block → Block) : (s.updBlock i f).logSeq = s.logSeq := rfl
@[simp] theorem State.updBlock_logTried (s : State) (i : Nat) (f : Block → Block) : (s.updBlock i f).logTried = s.logTried := rfl
@[simp] theorem State.updBlock_bins (s : State) (i : Nat) (f : Block → Block) : (s.updBlock i f).bins = s.bins := rfl
@[simp] theorem State.updBlock_keySlots (s : State) (i : Nat) (f : Block → Block) : (s.updBlock i f).keySlots = s.keySlots := rfl
@[simp] theorem State.updBlock_keys (s : State) (i : Nat) (f : Block → Block) : (s.updBlock i f).keys = s.keys := rfl
@[simp] theorem State.updBlock_slices (s : State) (i : Nat) (f : Block → Block) : (s.updBlock i f).slices = s.slices := rfl
@[simp] theorem State.updBlock_queues (s : State) (i : Nat) (f : Block → Block) : (s.updBlock i f).queues = s.queues := rfl
@[simp] theorem State.updBlock_niches (s : State) (i : Nat) (f : Block → Block) : (s.updBlock i f).niches = s.niches := rfl
@[simp] theorem State.updBlock_tcbRetries (s : State) (i : Nat) (f : Block → Block) : (s.updBlock i f).tcbRetries = s.tcbRetries := rfl
@[simp] theorem State.updBlock_collCount (s : State) (i : Nat) (f : Block → Block) : (s.updBlock i f).collCount = s.collCount := rfl
@[simp] theorem State.updBlock_sessions (s : State) (i : Nat) (f : Block → Block) : (s.updBlock i f).sessions = s.sessions := rfl
@[simp] theorem State.updBlock_pool (s : State) (i : Nat) (f : Block → Block) : (s.updBlock i f).pool = s.pool := rfl
@[simp] theorem State.updBlock_hvFaultQ (s : State) (i : Nat) (f : Block → Block) : (s.updBlock i f).hvFaultQ = s.hvFaultQ := rfl
@[simp] theorem State.updBlock_qlog (s : State) (i : Nat) (f : Block → Block) : (s.updBlock i f).qlog = s.qlog := rfl
@[simp] theorem State.updBlock_quanta (s : State) (i : Nat) (f : Block → Block) : (s.updBlock i f).quanta = s.quanta := rfl
@[simp] theorem State.updBlock_onQuad (s : State) (i : Nat) (f : Block → Block) : (s.updBlock i f).onQuad = s.onQuad := rfl
@[simp] theorem State.updBlock_quantumAt (s : State) (i : Nat) (f : Block → Block) : (s.updBlock i f).quantumAt = s.quantumAt := rfl
@[simp] theorem State.updBlock_request (s : State) (i : Nat) (f : Block → Block) : (s.updBlock i f).request = s.request := rfl
@[simp] theorem State.updBlock_agents (s : State) (i : Nat) (f : Block → Block) : (s.updBlock i f).agents = s.agents := rfl
@[simp] theorem State.updBlock_later (s : State) (i : Nat) (f : Block → Block) : (s.updBlock i f).later = s.later := rfl
@[simp] theorem State.updBlock_decoder1 (s : State) (i : Nat) (f : Block → Block) : (s.updBlock i f).decoder1 = s.decoder1 := rfl
@[simp] theorem State.updBlock_latches (s : State) (i : Nat) (f : Block → Block) : (s.updBlock i f).latches = s.latches := rfl
@[simp] theorem State.updBlock_removed (s : State) (i : Nat) (f : Block → Block) : (s.updBlock i f).removed = s.removed := rfl
@[simp] theorem State.updBlock_sram (s : State) (i : Nat) (f : Block → Block) : (s.updBlock i f).sram = s.sram := rfl
@[simp] theorem State.updBlock_sramPoison (s : State) (i : Nat) (f : Block → Block) : (s.updBlock i f).sramPoison = s.sramPoison := rfl
@[simp] theorem State.updBlock_remains (s : State) (i : Nat) (f : Block → Block) : (s.updBlock i f).remains = s.remains := rfl
@[simp] theorem State.updBlock_cmdLinks (s : State) (i : Nat) (f : Block → Block) : (s.updBlock i f).cmdLinks = s.cmdLinks := rfl
@[simp] theorem State.updBlock_hvPlace (s : State) (i : Nat) (f : Block → Block) : (s.updBlock i f).hvPlace = s.hvPlace := rfl
@[simp] theorem State.updBlock_hvRoot1 (s : State) (i : Nat) (f : Block → Block) : (s.updBlock i f).hvRoot1 = s.hvRoot1 := rfl
@[simp] theorem State.updBlock_hvRoot2 (s : State) (i : Nat) (f : Block → Block) : (s.updBlock i f).hvRoot2 = s.hvRoot2 := rfl
@[simp] theorem State.updBlock_fwRoot1 (s : State) (i : Nat) (f : Block → Block) : (s.updBlock i f).fwRoot1 = s.fwRoot1 := rfl
@[simp] theorem State.updBlock_fwRoot2 (s : State) (i : Nat) (f : Block → Block) : (s.updBlock i f).fwRoot2 = s.fwRoot2 := rfl
@[simp] theorem State.updBlock_hvSession (s : State) (i : Nat) (f : Block → Block) : (s.updBlock i f).hvSession = s.hvSession := rfl
@[simp] theorem State.updBlock_hvStatements (s : State) (i : Nat) (f : Block → Block) : (s.updBlock i f).hvStatements = s.hvStatements := rfl
@[simp] theorem State.updBlock_ports (s : State) (i : Nat) (f : Block → Block) : (s.updBlock i f).ports = s.ports := rfl
@[simp] theorem State.updBlock_controls (s : State) (i : Nat) (f : Block → Block) : (s.updBlock i f).controls = s.controls := rfl
@[simp] theorem State.updBlock_links (s : State) (i : Nat) (f : Block → Block) : (s.updBlock i f).links = s.links := rfl
@[simp] theorem State.updBlock_diePorts (s : State) (i : Nat) (f : Block → Block) : (s.updBlock i f).diePorts = s.diePorts := rfl
@[simp] theorem State.updBlock_boot (s : State) (i : Nat) (f : Block → Block) : (s.updBlock i f).boot = s.boot := rfl
@[simp] theorem State.updBlock_hot (s : State) (i : Nat) (f : Block → Block) : (s.updBlock i f).hot = s.hot := rfl
@[simp] theorem State.updBlock_poolKept (s : State) (i : Nat) (f : Block → Block) : (s.updBlock i f).poolKept = s.poolKept := rfl
@[simp] theorem State.updBlock_refused (s : State) (i : Nat) (f : Block → Block) : (s.updBlock i f).refused = s.refused := rfl
@[simp] theorem State.updBlock_cleared (s : State) (i : Nat) (f : Block → Block) : (s.updBlock i f).cleared = s.cleared := rfl
@[simp] theorem State.updBlock_stale (s : State) (i : Nat) (f : Block → Block) : (s.updBlock i f).stale = s.stale := rfl
@[simp] theorem State.updBlock_stamp (s : State) (i : Nat) (f : Block → Block) : (s.updBlock i f).stamp = s.stamp := rfl
@[simp] theorem State.updBlock_views (s : State) (i : Nat) (f : Block → Block) : (s.updBlock i f).views = s.views := rfl
@[simp] theorem State.updBlock_view (s : State) (i : Nat) (f : Block → Block) : (s.updBlock i f).view = s.view := rfl
@[simp] theorem State.updBlock_trace (s : State) (i : Nat) (f : Block → Block) : (s.updBlock i f).trace = s.trace := rfl
@[simp] theorem State.updBlock_outbox (s : State) (i : Nat) (f : Block → Block) : (s.updBlock i f).outbox = s.outbox := rfl

/-! A thread changed -/

@[simp] theorem State.updThread_clock (s : State) (i k : Nat) (f : Thread → Thread) : (s.updThread i k f).clock = s.clock := rfl
@[simp] theorem State.updThread_devTime (s : State) (i k : Nat) (f : Thread → Thread) : (s.updThread i k f).devTime = s.devTime := rfl
@[simp] theorem State.updThread_secure (s : State) (i k : Nat) (f : Thread → Thread) : (s.updThread i k f).secure = s.secure := rfl
@[simp] theorem State.updThread_fresh (s : State) (i k : Nat) (f : Thread → Thread) : (s.updThread i k f).fresh = s.fresh := rfl
@[simp] theorem State.updThread_uids (s : State) (i k : Nat) (f : Thread → Thread) : (s.updThread i k f).uids = s.uids := rfl
@[simp] theorem State.updThread_inputs (s : State) (i k : Nat) (f : Thread → Thread) : (s.updThread i k f).inputs = s.inputs := rfl
@[simp] theorem State.updThread_cur (s : State) (i k : Nat) (f : Thread → Thread) : (s.updThread i k f).cur = s.cur := rfl
@[simp] theorem State.updThread_casts (s : State) (i k : Nat) (f : Thread → Thread) : (s.updThread i k f).casts = s.casts := rfl
@[simp] theorem State.updThread_launches (s : State) (i k : Nat) (f : Thread → Thread) : (s.updThread i k f).launches = s.launches := rfl
@[simp] theorem State.updThread_dram (s : State) (i k : Nat) (f : Thread → Thread) : (s.updThread i k f).dram = s.dram := rfl
@[simp] theorem State.updThread_dramKey (s : State) (i k : Nat) (f : Thread → Thread) : (s.updThread i k f).dramKey = s.dramKey := rfl
@[simp] theorem State.updThread_dramPoison (s : State) (i k : Nat) (f : Thread → Thread) : (s.updThread i k f).dramPoison = s.dramPoison := rfl
@[simp] theorem State.updThread_latent (s : State) (i k : Nat) (f : Thread → Thread) : (s.updThread i k f).latent = s.latent := rfl
@[simp] theorem State.updThread_l2 (s : State) (i k : Nat) (f : Thread → Thread) : (s.updThread i k f).l2 = s.l2 := rfl
@[simp] theorem State.updThread_ways (s : State) (i k : Nat) (f : Thread → Thread) : (s.updThread i k f).ways = s.ways := rfl
@[simp] theorem State.updThread_tlb1 (s : State) (i k : Nat) (f : Thread → Thread) : (s.updThread i k f).tlb1 = s.tlb1 := rfl
@[simp] theorem State.updThread_tlb2 (s : State) (i k : Nat) (f : Thread → Thread) : (s.updThread i k f).tlb2 = s.tlb2 := rfl
@[simp] theorem State.updThread_moving (s : State) (i k : Nat) (f : Thread → Thread) : (s.updThread i k f).moving = s.moving := rfl
@[simp] theorem State.updThread_otherUsage (s : State) (i k : Nat) (f : Thread → Thread) : (s.updThread i k f).otherUsage = s.otherUsage := rfl
@[simp] theorem State.updThread_sideLog (s : State) (i k : Nat) (f : Thread → Thread) : (s.updThread i k f).sideLog = s.sideLog := rfl
@[simp] theorem State.updThread_logSeq (s : State) (i k : Nat) (f : Thread → Thread) : (s.updThread i k f).logSeq = s.logSeq := rfl
@[simp] theorem State.updThread_logTried (s : State) (i k : Nat) (f : Thread → Thread) : (s.updThread i k f).logTried = s.logTried := rfl
@[simp] theorem State.updThread_bins (s : State) (i k : Nat) (f : Thread → Thread) : (s.updThread i k f).bins = s.bins := rfl
@[simp] theorem State.updThread_keySlots (s : State) (i k : Nat) (f : Thread → Thread) : (s.updThread i k f).keySlots = s.keySlots := rfl
@[simp] theorem State.updThread_keys (s : State) (i k : Nat) (f : Thread → Thread) : (s.updThread i k f).keys = s.keys := rfl
@[simp] theorem State.updThread_slices (s : State) (i k : Nat) (f : Thread → Thread) : (s.updThread i k f).slices = s.slices := rfl
@[simp] theorem State.updThread_queues (s : State) (i k : Nat) (f : Thread → Thread) : (s.updThread i k f).queues = s.queues := rfl
@[simp] theorem State.updThread_niches (s : State) (i k : Nat) (f : Thread → Thread) : (s.updThread i k f).niches = s.niches := rfl
@[simp] theorem State.updThread_tcbRetries (s : State) (i k : Nat) (f : Thread → Thread) : (s.updThread i k f).tcbRetries = s.tcbRetries := rfl
@[simp] theorem State.updThread_collCount (s : State) (i k : Nat) (f : Thread → Thread) : (s.updThread i k f).collCount = s.collCount := rfl
@[simp] theorem State.updThread_sessions (s : State) (i k : Nat) (f : Thread → Thread) : (s.updThread i k f).sessions = s.sessions := rfl
@[simp] theorem State.updThread_pool (s : State) (i k : Nat) (f : Thread → Thread) : (s.updThread i k f).pool = s.pool := rfl
@[simp] theorem State.updThread_hvFaultQ (s : State) (i k : Nat) (f : Thread → Thread) : (s.updThread i k f).hvFaultQ = s.hvFaultQ := rfl
@[simp] theorem State.updThread_qlog (s : State) (i k : Nat) (f : Thread → Thread) : (s.updThread i k f).qlog = s.qlog := rfl
@[simp] theorem State.updThread_quanta (s : State) (i k : Nat) (f : Thread → Thread) : (s.updThread i k f).quanta = s.quanta := rfl
@[simp] theorem State.updThread_onQuad (s : State) (i k : Nat) (f : Thread → Thread) : (s.updThread i k f).onQuad = s.onQuad := rfl
@[simp] theorem State.updThread_quantumAt (s : State) (i k : Nat) (f : Thread → Thread) : (s.updThread i k f).quantumAt = s.quantumAt := rfl
@[simp] theorem State.updThread_request (s : State) (i k : Nat) (f : Thread → Thread) : (s.updThread i k f).request = s.request := rfl
@[simp] theorem State.updThread_agents (s : State) (i k : Nat) (f : Thread → Thread) : (s.updThread i k f).agents = s.agents := rfl
@[simp] theorem State.updThread_later (s : State) (i k : Nat) (f : Thread → Thread) : (s.updThread i k f).later = s.later := rfl
@[simp] theorem State.updThread_decoder1 (s : State) (i k : Nat) (f : Thread → Thread) : (s.updThread i k f).decoder1 = s.decoder1 := rfl
@[simp] theorem State.updThread_latches (s : State) (i k : Nat) (f : Thread → Thread) : (s.updThread i k f).latches = s.latches := rfl
@[simp] theorem State.updThread_removed (s : State) (i k : Nat) (f : Thread → Thread) : (s.updThread i k f).removed = s.removed := rfl
@[simp] theorem State.updThread_sram (s : State) (i k : Nat) (f : Thread → Thread) : (s.updThread i k f).sram = s.sram := rfl
@[simp] theorem State.updThread_sramPoison (s : State) (i k : Nat) (f : Thread → Thread) : (s.updThread i k f).sramPoison = s.sramPoison := rfl
@[simp] theorem State.updThread_remains (s : State) (i k : Nat) (f : Thread → Thread) : (s.updThread i k f).remains = s.remains := rfl
@[simp] theorem State.updThread_cmdLinks (s : State) (i k : Nat) (f : Thread → Thread) : (s.updThread i k f).cmdLinks = s.cmdLinks := rfl
@[simp] theorem State.updThread_hvPlace (s : State) (i k : Nat) (f : Thread → Thread) : (s.updThread i k f).hvPlace = s.hvPlace := rfl
@[simp] theorem State.updThread_hvRoot1 (s : State) (i k : Nat) (f : Thread → Thread) : (s.updThread i k f).hvRoot1 = s.hvRoot1 := rfl
@[simp] theorem State.updThread_hvRoot2 (s : State) (i k : Nat) (f : Thread → Thread) : (s.updThread i k f).hvRoot2 = s.hvRoot2 := rfl
@[simp] theorem State.updThread_fwRoot1 (s : State) (i k : Nat) (f : Thread → Thread) : (s.updThread i k f).fwRoot1 = s.fwRoot1 := rfl
@[simp] theorem State.updThread_fwRoot2 (s : State) (i k : Nat) (f : Thread → Thread) : (s.updThread i k f).fwRoot2 = s.fwRoot2 := rfl
@[simp] theorem State.updThread_hvSession (s : State) (i k : Nat) (f : Thread → Thread) : (s.updThread i k f).hvSession = s.hvSession := rfl
@[simp] theorem State.updThread_hvStatements (s : State) (i k : Nat) (f : Thread → Thread) : (s.updThread i k f).hvStatements = s.hvStatements := rfl
@[simp] theorem State.updThread_ports (s : State) (i k : Nat) (f : Thread → Thread) : (s.updThread i k f).ports = s.ports := rfl
@[simp] theorem State.updThread_controls (s : State) (i k : Nat) (f : Thread → Thread) : (s.updThread i k f).controls = s.controls := rfl
@[simp] theorem State.updThread_links (s : State) (i k : Nat) (f : Thread → Thread) : (s.updThread i k f).links = s.links := rfl
@[simp] theorem State.updThread_diePorts (s : State) (i k : Nat) (f : Thread → Thread) : (s.updThread i k f).diePorts = s.diePorts := rfl
@[simp] theorem State.updThread_boot (s : State) (i k : Nat) (f : Thread → Thread) : (s.updThread i k f).boot = s.boot := rfl
@[simp] theorem State.updThread_hot (s : State) (i k : Nat) (f : Thread → Thread) : (s.updThread i k f).hot = s.hot := rfl
@[simp] theorem State.updThread_poolKept (s : State) (i k : Nat) (f : Thread → Thread) : (s.updThread i k f).poolKept = s.poolKept := rfl
@[simp] theorem State.updThread_refused (s : State) (i k : Nat) (f : Thread → Thread) : (s.updThread i k f).refused = s.refused := rfl
@[simp] theorem State.updThread_cleared (s : State) (i k : Nat) (f : Thread → Thread) : (s.updThread i k f).cleared = s.cleared := rfl
@[simp] theorem State.updThread_stale (s : State) (i k : Nat) (f : Thread → Thread) : (s.updThread i k f).stale = s.stale := rfl
@[simp] theorem State.updThread_stamp (s : State) (i k : Nat) (f : Thread → Thread) : (s.updThread i k f).stamp = s.stamp := rfl
@[simp] theorem State.updThread_views (s : State) (i k : Nat) (f : Thread → Thread) : (s.updThread i k f).views = s.views := rfl
@[simp] theorem State.updThread_view (s : State) (i k : Nat) (f : Thread → Thread) : (s.updThread i k f).view = s.view := rfl
@[simp] theorem State.updThread_trace (s : State) (i k : Nat) (f : Thread → Thread) : (s.updThread i k f).trace = s.trace := rfl
@[simp] theorem State.updThread_outbox (s : State) (i k : Nat) (f : Thread → Thread) : (s.updThread i k f).outbox = s.outbox := rfl

/-! A slice changed -/

@[simp] theorem State.updSlice_clock (s : State) (o : Nat) (f : Slice → Slice) : (s.updSlice o f).clock = s.clock := rfl
@[simp] theorem State.updSlice_devTime (s : State) (o : Nat) (f : Slice → Slice) : (s.updSlice o f).devTime = s.devTime := rfl
@[simp] theorem State.updSlice_secure (s : State) (o : Nat) (f : Slice → Slice) : (s.updSlice o f).secure = s.secure := rfl
@[simp] theorem State.updSlice_fresh (s : State) (o : Nat) (f : Slice → Slice) : (s.updSlice o f).fresh = s.fresh := rfl
@[simp] theorem State.updSlice_uids (s : State) (o : Nat) (f : Slice → Slice) : (s.updSlice o f).uids = s.uids := rfl
@[simp] theorem State.updSlice_inputs (s : State) (o : Nat) (f : Slice → Slice) : (s.updSlice o f).inputs = s.inputs := rfl
@[simp] theorem State.updSlice_cur (s : State) (o : Nat) (f : Slice → Slice) : (s.updSlice o f).cur = s.cur := rfl
@[simp] theorem State.updSlice_blocks (s : State) (o : Nat) (f : Slice → Slice) : (s.updSlice o f).blocks = s.blocks := rfl
@[simp] theorem State.updSlice_casts (s : State) (o : Nat) (f : Slice → Slice) : (s.updSlice o f).casts = s.casts := rfl
@[simp] theorem State.updSlice_launches (s : State) (o : Nat) (f : Slice → Slice) : (s.updSlice o f).launches = s.launches := rfl
@[simp] theorem State.updSlice_dram (s : State) (o : Nat) (f : Slice → Slice) : (s.updSlice o f).dram = s.dram := rfl
@[simp] theorem State.updSlice_dramKey (s : State) (o : Nat) (f : Slice → Slice) : (s.updSlice o f).dramKey = s.dramKey := rfl
@[simp] theorem State.updSlice_dramPoison (s : State) (o : Nat) (f : Slice → Slice) : (s.updSlice o f).dramPoison = s.dramPoison := rfl
@[simp] theorem State.updSlice_latent (s : State) (o : Nat) (f : Slice → Slice) : (s.updSlice o f).latent = s.latent := rfl
@[simp] theorem State.updSlice_l2 (s : State) (o : Nat) (f : Slice → Slice) : (s.updSlice o f).l2 = s.l2 := rfl
@[simp] theorem State.updSlice_ways (s : State) (o : Nat) (f : Slice → Slice) : (s.updSlice o f).ways = s.ways := rfl
@[simp] theorem State.updSlice_tlb1 (s : State) (o : Nat) (f : Slice → Slice) : (s.updSlice o f).tlb1 = s.tlb1 := rfl
@[simp] theorem State.updSlice_tlb2 (s : State) (o : Nat) (f : Slice → Slice) : (s.updSlice o f).tlb2 = s.tlb2 := rfl
@[simp] theorem State.updSlice_moving (s : State) (o : Nat) (f : Slice → Slice) : (s.updSlice o f).moving = s.moving := rfl
@[simp] theorem State.updSlice_otherUsage (s : State) (o : Nat) (f : Slice → Slice) : (s.updSlice o f).otherUsage = s.otherUsage := rfl
@[simp] theorem State.updSlice_sideLog (s : State) (o : Nat) (f : Slice → Slice) : (s.updSlice o f).sideLog = s.sideLog := rfl
@[simp] theorem State.updSlice_logSeq (s : State) (o : Nat) (f : Slice → Slice) : (s.updSlice o f).logSeq = s.logSeq := rfl
@[simp] theorem State.updSlice_logTried (s : State) (o : Nat) (f : Slice → Slice) : (s.updSlice o f).logTried = s.logTried := rfl
@[simp] theorem State.updSlice_bins (s : State) (o : Nat) (f : Slice → Slice) : (s.updSlice o f).bins = s.bins := rfl
@[simp] theorem State.updSlice_keySlots (s : State) (o : Nat) (f : Slice → Slice) : (s.updSlice o f).keySlots = s.keySlots := rfl
@[simp] theorem State.updSlice_keys (s : State) (o : Nat) (f : Slice → Slice) : (s.updSlice o f).keys = s.keys := rfl
@[simp] theorem State.updSlice_queues (s : State) (o : Nat) (f : Slice → Slice) : (s.updSlice o f).queues = s.queues := rfl
@[simp] theorem State.updSlice_niches (s : State) (o : Nat) (f : Slice → Slice) : (s.updSlice o f).niches = s.niches := rfl
@[simp] theorem State.updSlice_tcbRetries (s : State) (o : Nat) (f : Slice → Slice) : (s.updSlice o f).tcbRetries = s.tcbRetries := rfl
@[simp] theorem State.updSlice_collCount (s : State) (o : Nat) (f : Slice → Slice) : (s.updSlice o f).collCount = s.collCount := rfl
@[simp] theorem State.updSlice_sessions (s : State) (o : Nat) (f : Slice → Slice) : (s.updSlice o f).sessions = s.sessions := rfl
@[simp] theorem State.updSlice_pool (s : State) (o : Nat) (f : Slice → Slice) : (s.updSlice o f).pool = s.pool := rfl
@[simp] theorem State.updSlice_hvFaultQ (s : State) (o : Nat) (f : Slice → Slice) : (s.updSlice o f).hvFaultQ = s.hvFaultQ := rfl
@[simp] theorem State.updSlice_qlog (s : State) (o : Nat) (f : Slice → Slice) : (s.updSlice o f).qlog = s.qlog := rfl
@[simp] theorem State.updSlice_quanta (s : State) (o : Nat) (f : Slice → Slice) : (s.updSlice o f).quanta = s.quanta := rfl
@[simp] theorem State.updSlice_onQuad (s : State) (o : Nat) (f : Slice → Slice) : (s.updSlice o f).onQuad = s.onQuad := rfl
@[simp] theorem State.updSlice_quantumAt (s : State) (o : Nat) (f : Slice → Slice) : (s.updSlice o f).quantumAt = s.quantumAt := rfl
@[simp] theorem State.updSlice_request (s : State) (o : Nat) (f : Slice → Slice) : (s.updSlice o f).request = s.request := rfl
@[simp] theorem State.updSlice_agents (s : State) (o : Nat) (f : Slice → Slice) : (s.updSlice o f).agents = s.agents := rfl
@[simp] theorem State.updSlice_later (s : State) (o : Nat) (f : Slice → Slice) : (s.updSlice o f).later = s.later := rfl
@[simp] theorem State.updSlice_decoder1 (s : State) (o : Nat) (f : Slice → Slice) : (s.updSlice o f).decoder1 = s.decoder1 := rfl
@[simp] theorem State.updSlice_latches (s : State) (o : Nat) (f : Slice → Slice) : (s.updSlice o f).latches = s.latches := rfl
@[simp] theorem State.updSlice_removed (s : State) (o : Nat) (f : Slice → Slice) : (s.updSlice o f).removed = s.removed := rfl
@[simp] theorem State.updSlice_sram (s : State) (o : Nat) (f : Slice → Slice) : (s.updSlice o f).sram = s.sram := rfl
@[simp] theorem State.updSlice_sramPoison (s : State) (o : Nat) (f : Slice → Slice) : (s.updSlice o f).sramPoison = s.sramPoison := rfl
@[simp] theorem State.updSlice_remains (s : State) (o : Nat) (f : Slice → Slice) : (s.updSlice o f).remains = s.remains := rfl
@[simp] theorem State.updSlice_cmdLinks (s : State) (o : Nat) (f : Slice → Slice) : (s.updSlice o f).cmdLinks = s.cmdLinks := rfl
@[simp] theorem State.updSlice_hvPlace (s : State) (o : Nat) (f : Slice → Slice) : (s.updSlice o f).hvPlace = s.hvPlace := rfl
@[simp] theorem State.updSlice_hvRoot1 (s : State) (o : Nat) (f : Slice → Slice) : (s.updSlice o f).hvRoot1 = s.hvRoot1 := rfl
@[simp] theorem State.updSlice_hvRoot2 (s : State) (o : Nat) (f : Slice → Slice) : (s.updSlice o f).hvRoot2 = s.hvRoot2 := rfl
@[simp] theorem State.updSlice_fwRoot1 (s : State) (o : Nat) (f : Slice → Slice) : (s.updSlice o f).fwRoot1 = s.fwRoot1 := rfl
@[simp] theorem State.updSlice_fwRoot2 (s : State) (o : Nat) (f : Slice → Slice) : (s.updSlice o f).fwRoot2 = s.fwRoot2 := rfl
@[simp] theorem State.updSlice_hvSession (s : State) (o : Nat) (f : Slice → Slice) : (s.updSlice o f).hvSession = s.hvSession := rfl
@[simp] theorem State.updSlice_hvStatements (s : State) (o : Nat) (f : Slice → Slice) : (s.updSlice o f).hvStatements = s.hvStatements := rfl
@[simp] theorem State.updSlice_ports (s : State) (o : Nat) (f : Slice → Slice) : (s.updSlice o f).ports = s.ports := rfl
@[simp] theorem State.updSlice_controls (s : State) (o : Nat) (f : Slice → Slice) : (s.updSlice o f).controls = s.controls := rfl
@[simp] theorem State.updSlice_links (s : State) (o : Nat) (f : Slice → Slice) : (s.updSlice o f).links = s.links := rfl
@[simp] theorem State.updSlice_diePorts (s : State) (o : Nat) (f : Slice → Slice) : (s.updSlice o f).diePorts = s.diePorts := rfl
@[simp] theorem State.updSlice_boot (s : State) (o : Nat) (f : Slice → Slice) : (s.updSlice o f).boot = s.boot := rfl
@[simp] theorem State.updSlice_hot (s : State) (o : Nat) (f : Slice → Slice) : (s.updSlice o f).hot = s.hot := rfl
@[simp] theorem State.updSlice_poolKept (s : State) (o : Nat) (f : Slice → Slice) : (s.updSlice o f).poolKept = s.poolKept := rfl
@[simp] theorem State.updSlice_refused (s : State) (o : Nat) (f : Slice → Slice) : (s.updSlice o f).refused = s.refused := rfl
@[simp] theorem State.updSlice_cleared (s : State) (o : Nat) (f : Slice → Slice) : (s.updSlice o f).cleared = s.cleared := rfl
@[simp] theorem State.updSlice_stale (s : State) (o : Nat) (f : Slice → Slice) : (s.updSlice o f).stale = s.stale := rfl
@[simp] theorem State.updSlice_stamp (s : State) (o : Nat) (f : Slice → Slice) : (s.updSlice o f).stamp = s.stamp := rfl
@[simp] theorem State.updSlice_views (s : State) (o : Nat) (f : Slice → Slice) : (s.updSlice o f).views = s.views := rfl
@[simp] theorem State.updSlice_view (s : State) (o : Nat) (f : Slice → Slice) : (s.updSlice o f).view = s.view := rfl
@[simp] theorem State.updSlice_trace (s : State) (o : Nat) (f : Slice → Slice) : (s.updSlice o f).trace = s.trace := rfl
@[simp] theorem State.updSlice_outbox (s : State) (o : Nat) (f : Slice → Slice) : (s.updSlice o f).outbox = s.outbox := rfl

/-! A key slot changed -/

@[simp] theorem State.updSlot_clock (s : State) (n : Nat) (f : KeySlot → KeySlot) : (s.updSlot n f).clock = s.clock := rfl
@[simp] theorem State.updSlot_devTime (s : State) (n : Nat) (f : KeySlot → KeySlot) : (s.updSlot n f).devTime = s.devTime := rfl
@[simp] theorem State.updSlot_secure (s : State) (n : Nat) (f : KeySlot → KeySlot) : (s.updSlot n f).secure = s.secure := rfl
@[simp] theorem State.updSlot_fresh (s : State) (n : Nat) (f : KeySlot → KeySlot) : (s.updSlot n f).fresh = s.fresh := rfl
@[simp] theorem State.updSlot_uids (s : State) (n : Nat) (f : KeySlot → KeySlot) : (s.updSlot n f).uids = s.uids := rfl
@[simp] theorem State.updSlot_inputs (s : State) (n : Nat) (f : KeySlot → KeySlot) : (s.updSlot n f).inputs = s.inputs := rfl
@[simp] theorem State.updSlot_cur (s : State) (n : Nat) (f : KeySlot → KeySlot) : (s.updSlot n f).cur = s.cur := rfl
@[simp] theorem State.updSlot_blocks (s : State) (n : Nat) (f : KeySlot → KeySlot) : (s.updSlot n f).blocks = s.blocks := rfl
@[simp] theorem State.updSlot_casts (s : State) (n : Nat) (f : KeySlot → KeySlot) : (s.updSlot n f).casts = s.casts := rfl
@[simp] theorem State.updSlot_launches (s : State) (n : Nat) (f : KeySlot → KeySlot) : (s.updSlot n f).launches = s.launches := rfl
@[simp] theorem State.updSlot_dram (s : State) (n : Nat) (f : KeySlot → KeySlot) : (s.updSlot n f).dram = s.dram := rfl
@[simp] theorem State.updSlot_dramKey (s : State) (n : Nat) (f : KeySlot → KeySlot) : (s.updSlot n f).dramKey = s.dramKey := rfl
@[simp] theorem State.updSlot_dramPoison (s : State) (n : Nat) (f : KeySlot → KeySlot) : (s.updSlot n f).dramPoison = s.dramPoison := rfl
@[simp] theorem State.updSlot_latent (s : State) (n : Nat) (f : KeySlot → KeySlot) : (s.updSlot n f).latent = s.latent := rfl
@[simp] theorem State.updSlot_l2 (s : State) (n : Nat) (f : KeySlot → KeySlot) : (s.updSlot n f).l2 = s.l2 := rfl
@[simp] theorem State.updSlot_ways (s : State) (n : Nat) (f : KeySlot → KeySlot) : (s.updSlot n f).ways = s.ways := rfl
@[simp] theorem State.updSlot_tlb1 (s : State) (n : Nat) (f : KeySlot → KeySlot) : (s.updSlot n f).tlb1 = s.tlb1 := rfl
@[simp] theorem State.updSlot_tlb2 (s : State) (n : Nat) (f : KeySlot → KeySlot) : (s.updSlot n f).tlb2 = s.tlb2 := rfl
@[simp] theorem State.updSlot_moving (s : State) (n : Nat) (f : KeySlot → KeySlot) : (s.updSlot n f).moving = s.moving := rfl
@[simp] theorem State.updSlot_otherUsage (s : State) (n : Nat) (f : KeySlot → KeySlot) : (s.updSlot n f).otherUsage = s.otherUsage := rfl
@[simp] theorem State.updSlot_sideLog (s : State) (n : Nat) (f : KeySlot → KeySlot) : (s.updSlot n f).sideLog = s.sideLog := rfl
@[simp] theorem State.updSlot_logSeq (s : State) (n : Nat) (f : KeySlot → KeySlot) : (s.updSlot n f).logSeq = s.logSeq := rfl
@[simp] theorem State.updSlot_logTried (s : State) (n : Nat) (f : KeySlot → KeySlot) : (s.updSlot n f).logTried = s.logTried := rfl
@[simp] theorem State.updSlot_bins (s : State) (n : Nat) (f : KeySlot → KeySlot) : (s.updSlot n f).bins = s.bins := rfl
@[simp] theorem State.updSlot_keys (s : State) (n : Nat) (f : KeySlot → KeySlot) : (s.updSlot n f).keys = s.keys := rfl
@[simp] theorem State.updSlot_slices (s : State) (n : Nat) (f : KeySlot → KeySlot) : (s.updSlot n f).slices = s.slices := rfl
@[simp] theorem State.updSlot_queues (s : State) (n : Nat) (f : KeySlot → KeySlot) : (s.updSlot n f).queues = s.queues := rfl
@[simp] theorem State.updSlot_niches (s : State) (n : Nat) (f : KeySlot → KeySlot) : (s.updSlot n f).niches = s.niches := rfl
@[simp] theorem State.updSlot_tcbRetries (s : State) (n : Nat) (f : KeySlot → KeySlot) : (s.updSlot n f).tcbRetries = s.tcbRetries := rfl
@[simp] theorem State.updSlot_collCount (s : State) (n : Nat) (f : KeySlot → KeySlot) : (s.updSlot n f).collCount = s.collCount := rfl
@[simp] theorem State.updSlot_sessions (s : State) (n : Nat) (f : KeySlot → KeySlot) : (s.updSlot n f).sessions = s.sessions := rfl
@[simp] theorem State.updSlot_pool (s : State) (n : Nat) (f : KeySlot → KeySlot) : (s.updSlot n f).pool = s.pool := rfl
@[simp] theorem State.updSlot_hvFaultQ (s : State) (n : Nat) (f : KeySlot → KeySlot) : (s.updSlot n f).hvFaultQ = s.hvFaultQ := rfl
@[simp] theorem State.updSlot_qlog (s : State) (n : Nat) (f : KeySlot → KeySlot) : (s.updSlot n f).qlog = s.qlog := rfl
@[simp] theorem State.updSlot_quanta (s : State) (n : Nat) (f : KeySlot → KeySlot) : (s.updSlot n f).quanta = s.quanta := rfl
@[simp] theorem State.updSlot_onQuad (s : State) (n : Nat) (f : KeySlot → KeySlot) : (s.updSlot n f).onQuad = s.onQuad := rfl
@[simp] theorem State.updSlot_quantumAt (s : State) (n : Nat) (f : KeySlot → KeySlot) : (s.updSlot n f).quantumAt = s.quantumAt := rfl
@[simp] theorem State.updSlot_request (s : State) (n : Nat) (f : KeySlot → KeySlot) : (s.updSlot n f).request = s.request := rfl
@[simp] theorem State.updSlot_agents (s : State) (n : Nat) (f : KeySlot → KeySlot) : (s.updSlot n f).agents = s.agents := rfl
@[simp] theorem State.updSlot_later (s : State) (n : Nat) (f : KeySlot → KeySlot) : (s.updSlot n f).later = s.later := rfl
@[simp] theorem State.updSlot_decoder1 (s : State) (n : Nat) (f : KeySlot → KeySlot) : (s.updSlot n f).decoder1 = s.decoder1 := rfl
@[simp] theorem State.updSlot_latches (s : State) (n : Nat) (f : KeySlot → KeySlot) : (s.updSlot n f).latches = s.latches := rfl
@[simp] theorem State.updSlot_removed (s : State) (n : Nat) (f : KeySlot → KeySlot) : (s.updSlot n f).removed = s.removed := rfl
@[simp] theorem State.updSlot_sram (s : State) (n : Nat) (f : KeySlot → KeySlot) : (s.updSlot n f).sram = s.sram := rfl
@[simp] theorem State.updSlot_sramPoison (s : State) (n : Nat) (f : KeySlot → KeySlot) : (s.updSlot n f).sramPoison = s.sramPoison := rfl
@[simp] theorem State.updSlot_remains (s : State) (n : Nat) (f : KeySlot → KeySlot) : (s.updSlot n f).remains = s.remains := rfl
@[simp] theorem State.updSlot_cmdLinks (s : State) (n : Nat) (f : KeySlot → KeySlot) : (s.updSlot n f).cmdLinks = s.cmdLinks := rfl
@[simp] theorem State.updSlot_hvPlace (s : State) (n : Nat) (f : KeySlot → KeySlot) : (s.updSlot n f).hvPlace = s.hvPlace := rfl
@[simp] theorem State.updSlot_hvRoot1 (s : State) (n : Nat) (f : KeySlot → KeySlot) : (s.updSlot n f).hvRoot1 = s.hvRoot1 := rfl
@[simp] theorem State.updSlot_hvRoot2 (s : State) (n : Nat) (f : KeySlot → KeySlot) : (s.updSlot n f).hvRoot2 = s.hvRoot2 := rfl
@[simp] theorem State.updSlot_fwRoot1 (s : State) (n : Nat) (f : KeySlot → KeySlot) : (s.updSlot n f).fwRoot1 = s.fwRoot1 := rfl
@[simp] theorem State.updSlot_fwRoot2 (s : State) (n : Nat) (f : KeySlot → KeySlot) : (s.updSlot n f).fwRoot2 = s.fwRoot2 := rfl
@[simp] theorem State.updSlot_hvSession (s : State) (n : Nat) (f : KeySlot → KeySlot) : (s.updSlot n f).hvSession = s.hvSession := rfl
@[simp] theorem State.updSlot_hvStatements (s : State) (n : Nat) (f : KeySlot → KeySlot) : (s.updSlot n f).hvStatements = s.hvStatements := rfl
@[simp] theorem State.updSlot_ports (s : State) (n : Nat) (f : KeySlot → KeySlot) : (s.updSlot n f).ports = s.ports := rfl
@[simp] theorem State.updSlot_controls (s : State) (n : Nat) (f : KeySlot → KeySlot) : (s.updSlot n f).controls = s.controls := rfl
@[simp] theorem State.updSlot_links (s : State) (n : Nat) (f : KeySlot → KeySlot) : (s.updSlot n f).links = s.links := rfl
@[simp] theorem State.updSlot_diePorts (s : State) (n : Nat) (f : KeySlot → KeySlot) : (s.updSlot n f).diePorts = s.diePorts := rfl
@[simp] theorem State.updSlot_boot (s : State) (n : Nat) (f : KeySlot → KeySlot) : (s.updSlot n f).boot = s.boot := rfl
@[simp] theorem State.updSlot_hot (s : State) (n : Nat) (f : KeySlot → KeySlot) : (s.updSlot n f).hot = s.hot := rfl
@[simp] theorem State.updSlot_poolKept (s : State) (n : Nat) (f : KeySlot → KeySlot) : (s.updSlot n f).poolKept = s.poolKept := rfl
@[simp] theorem State.updSlot_refused (s : State) (n : Nat) (f : KeySlot → KeySlot) : (s.updSlot n f).refused = s.refused := rfl
@[simp] theorem State.updSlot_cleared (s : State) (n : Nat) (f : KeySlot → KeySlot) : (s.updSlot n f).cleared = s.cleared := rfl
@[simp] theorem State.updSlot_stale (s : State) (n : Nat) (f : KeySlot → KeySlot) : (s.updSlot n f).stale = s.stale := rfl
@[simp] theorem State.updSlot_stamp (s : State) (n : Nat) (f : KeySlot → KeySlot) : (s.updSlot n f).stamp = s.stamp := rfl
@[simp] theorem State.updSlot_views (s : State) (n : Nat) (f : KeySlot → KeySlot) : (s.updSlot n f).views = s.views := rfl
@[simp] theorem State.updSlot_view (s : State) (n : Nat) (f : KeySlot → KeySlot) : (s.updSlot n f).view = s.view := rfl
@[simp] theorem State.updSlot_trace (s : State) (n : Nat) (f : KeySlot → KeySlot) : (s.updSlot n f).trace = s.trace := rfl
@[simp] theorem State.updSlot_outbox (s : State) (n : Nat) (f : KeySlot → KeySlot) : (s.updSlot n f).outbox = s.outbox := rfl

/-! A host port changed -/

@[simp] theorem State.updPort_clock (s : State) (p : Nat) (f : Port → Port) : (s.updPort p f).clock = s.clock := rfl
@[simp] theorem State.updPort_devTime (s : State) (p : Nat) (f : Port → Port) : (s.updPort p f).devTime = s.devTime := rfl
@[simp] theorem State.updPort_secure (s : State) (p : Nat) (f : Port → Port) : (s.updPort p f).secure = s.secure := rfl
@[simp] theorem State.updPort_fresh (s : State) (p : Nat) (f : Port → Port) : (s.updPort p f).fresh = s.fresh := rfl
@[simp] theorem State.updPort_uids (s : State) (p : Nat) (f : Port → Port) : (s.updPort p f).uids = s.uids := rfl
@[simp] theorem State.updPort_inputs (s : State) (p : Nat) (f : Port → Port) : (s.updPort p f).inputs = s.inputs := rfl
@[simp] theorem State.updPort_cur (s : State) (p : Nat) (f : Port → Port) : (s.updPort p f).cur = s.cur := rfl
@[simp] theorem State.updPort_blocks (s : State) (p : Nat) (f : Port → Port) : (s.updPort p f).blocks = s.blocks := rfl
@[simp] theorem State.updPort_casts (s : State) (p : Nat) (f : Port → Port) : (s.updPort p f).casts = s.casts := rfl
@[simp] theorem State.updPort_launches (s : State) (p : Nat) (f : Port → Port) : (s.updPort p f).launches = s.launches := rfl
@[simp] theorem State.updPort_dram (s : State) (p : Nat) (f : Port → Port) : (s.updPort p f).dram = s.dram := rfl
@[simp] theorem State.updPort_dramKey (s : State) (p : Nat) (f : Port → Port) : (s.updPort p f).dramKey = s.dramKey := rfl
@[simp] theorem State.updPort_dramPoison (s : State) (p : Nat) (f : Port → Port) : (s.updPort p f).dramPoison = s.dramPoison := rfl
@[simp] theorem State.updPort_latent (s : State) (p : Nat) (f : Port → Port) : (s.updPort p f).latent = s.latent := rfl
@[simp] theorem State.updPort_l2 (s : State) (p : Nat) (f : Port → Port) : (s.updPort p f).l2 = s.l2 := rfl
@[simp] theorem State.updPort_ways (s : State) (p : Nat) (f : Port → Port) : (s.updPort p f).ways = s.ways := rfl
@[simp] theorem State.updPort_tlb1 (s : State) (p : Nat) (f : Port → Port) : (s.updPort p f).tlb1 = s.tlb1 := rfl
@[simp] theorem State.updPort_tlb2 (s : State) (p : Nat) (f : Port → Port) : (s.updPort p f).tlb2 = s.tlb2 := rfl
@[simp] theorem State.updPort_moving (s : State) (p : Nat) (f : Port → Port) : (s.updPort p f).moving = s.moving := rfl
@[simp] theorem State.updPort_otherUsage (s : State) (p : Nat) (f : Port → Port) : (s.updPort p f).otherUsage = s.otherUsage := rfl
@[simp] theorem State.updPort_sideLog (s : State) (p : Nat) (f : Port → Port) : (s.updPort p f).sideLog = s.sideLog := rfl
@[simp] theorem State.updPort_logSeq (s : State) (p : Nat) (f : Port → Port) : (s.updPort p f).logSeq = s.logSeq := rfl
@[simp] theorem State.updPort_logTried (s : State) (p : Nat) (f : Port → Port) : (s.updPort p f).logTried = s.logTried := rfl
@[simp] theorem State.updPort_bins (s : State) (p : Nat) (f : Port → Port) : (s.updPort p f).bins = s.bins := rfl
@[simp] theorem State.updPort_keySlots (s : State) (p : Nat) (f : Port → Port) : (s.updPort p f).keySlots = s.keySlots := rfl
@[simp] theorem State.updPort_keys (s : State) (p : Nat) (f : Port → Port) : (s.updPort p f).keys = s.keys := rfl
@[simp] theorem State.updPort_slices (s : State) (p : Nat) (f : Port → Port) : (s.updPort p f).slices = s.slices := rfl
@[simp] theorem State.updPort_queues (s : State) (p : Nat) (f : Port → Port) : (s.updPort p f).queues = s.queues := rfl
@[simp] theorem State.updPort_niches (s : State) (p : Nat) (f : Port → Port) : (s.updPort p f).niches = s.niches := rfl
@[simp] theorem State.updPort_tcbRetries (s : State) (p : Nat) (f : Port → Port) : (s.updPort p f).tcbRetries = s.tcbRetries := rfl
@[simp] theorem State.updPort_collCount (s : State) (p : Nat) (f : Port → Port) : (s.updPort p f).collCount = s.collCount := rfl
@[simp] theorem State.updPort_sessions (s : State) (p : Nat) (f : Port → Port) : (s.updPort p f).sessions = s.sessions := rfl
@[simp] theorem State.updPort_pool (s : State) (p : Nat) (f : Port → Port) : (s.updPort p f).pool = s.pool := rfl
@[simp] theorem State.updPort_hvFaultQ (s : State) (p : Nat) (f : Port → Port) : (s.updPort p f).hvFaultQ = s.hvFaultQ := rfl
@[simp] theorem State.updPort_qlog (s : State) (p : Nat) (f : Port → Port) : (s.updPort p f).qlog = s.qlog := rfl
@[simp] theorem State.updPort_quanta (s : State) (p : Nat) (f : Port → Port) : (s.updPort p f).quanta = s.quanta := rfl
@[simp] theorem State.updPort_onQuad (s : State) (p : Nat) (f : Port → Port) : (s.updPort p f).onQuad = s.onQuad := rfl
@[simp] theorem State.updPort_quantumAt (s : State) (p : Nat) (f : Port → Port) : (s.updPort p f).quantumAt = s.quantumAt := rfl
@[simp] theorem State.updPort_request (s : State) (p : Nat) (f : Port → Port) : (s.updPort p f).request = s.request := rfl
@[simp] theorem State.updPort_agents (s : State) (p : Nat) (f : Port → Port) : (s.updPort p f).agents = s.agents := rfl
@[simp] theorem State.updPort_later (s : State) (p : Nat) (f : Port → Port) : (s.updPort p f).later = s.later := rfl
@[simp] theorem State.updPort_decoder1 (s : State) (p : Nat) (f : Port → Port) : (s.updPort p f).decoder1 = s.decoder1 := rfl
@[simp] theorem State.updPort_latches (s : State) (p : Nat) (f : Port → Port) : (s.updPort p f).latches = s.latches := rfl
@[simp] theorem State.updPort_removed (s : State) (p : Nat) (f : Port → Port) : (s.updPort p f).removed = s.removed := rfl
@[simp] theorem State.updPort_sram (s : State) (p : Nat) (f : Port → Port) : (s.updPort p f).sram = s.sram := rfl
@[simp] theorem State.updPort_sramPoison (s : State) (p : Nat) (f : Port → Port) : (s.updPort p f).sramPoison = s.sramPoison := rfl
@[simp] theorem State.updPort_remains (s : State) (p : Nat) (f : Port → Port) : (s.updPort p f).remains = s.remains := rfl
@[simp] theorem State.updPort_cmdLinks (s : State) (p : Nat) (f : Port → Port) : (s.updPort p f).cmdLinks = s.cmdLinks := rfl
@[simp] theorem State.updPort_hvPlace (s : State) (p : Nat) (f : Port → Port) : (s.updPort p f).hvPlace = s.hvPlace := rfl
@[simp] theorem State.updPort_hvRoot1 (s : State) (p : Nat) (f : Port → Port) : (s.updPort p f).hvRoot1 = s.hvRoot1 := rfl
@[simp] theorem State.updPort_hvRoot2 (s : State) (p : Nat) (f : Port → Port) : (s.updPort p f).hvRoot2 = s.hvRoot2 := rfl
@[simp] theorem State.updPort_fwRoot1 (s : State) (p : Nat) (f : Port → Port) : (s.updPort p f).fwRoot1 = s.fwRoot1 := rfl
@[simp] theorem State.updPort_fwRoot2 (s : State) (p : Nat) (f : Port → Port) : (s.updPort p f).fwRoot2 = s.fwRoot2 := rfl
@[simp] theorem State.updPort_hvSession (s : State) (p : Nat) (f : Port → Port) : (s.updPort p f).hvSession = s.hvSession := rfl
@[simp] theorem State.updPort_hvStatements (s : State) (p : Nat) (f : Port → Port) : (s.updPort p f).hvStatements = s.hvStatements := rfl
@[simp] theorem State.updPort_controls (s : State) (p : Nat) (f : Port → Port) : (s.updPort p f).controls = s.controls := rfl
@[simp] theorem State.updPort_links (s : State) (p : Nat) (f : Port → Port) : (s.updPort p f).links = s.links := rfl
@[simp] theorem State.updPort_diePorts (s : State) (p : Nat) (f : Port → Port) : (s.updPort p f).diePorts = s.diePorts := rfl
@[simp] theorem State.updPort_boot (s : State) (p : Nat) (f : Port → Port) : (s.updPort p f).boot = s.boot := rfl
@[simp] theorem State.updPort_hot (s : State) (p : Nat) (f : Port → Port) : (s.updPort p f).hot = s.hot := rfl
@[simp] theorem State.updPort_poolKept (s : State) (p : Nat) (f : Port → Port) : (s.updPort p f).poolKept = s.poolKept := rfl
@[simp] theorem State.updPort_refused (s : State) (p : Nat) (f : Port → Port) : (s.updPort p f).refused = s.refused := rfl
@[simp] theorem State.updPort_cleared (s : State) (p : Nat) (f : Port → Port) : (s.updPort p f).cleared = s.cleared := rfl
@[simp] theorem State.updPort_stale (s : State) (p : Nat) (f : Port → Port) : (s.updPort p f).stale = s.stale := rfl
@[simp] theorem State.updPort_stamp (s : State) (p : Nat) (f : Port → Port) : (s.updPort p f).stamp = s.stamp := rfl
@[simp] theorem State.updPort_views (s : State) (p : Nat) (f : Port → Port) : (s.updPort p f).views = s.views := rfl
@[simp] theorem State.updPort_view (s : State) (p : Nat) (f : Port → Port) : (s.updPort p f).view = s.view := rfl
@[simp] theorem State.updPort_trace (s : State) (p : Nat) (f : Port → Port) : (s.updPort p f).trace = s.trace := rfl
@[simp] theorem State.updPort_outbox (s : State) (p : Nat) (f : Port → Port) : (s.updPort p f).outbox = s.outbox := rfl

/-! A device link changed -/

@[simp] theorem State.updLink_clock (s : State) (k : Nat) (f : Link → Link) : (s.updLink k f).clock = s.clock := rfl
@[simp] theorem State.updLink_devTime (s : State) (k : Nat) (f : Link → Link) : (s.updLink k f).devTime = s.devTime := rfl
@[simp] theorem State.updLink_secure (s : State) (k : Nat) (f : Link → Link) : (s.updLink k f).secure = s.secure := rfl
@[simp] theorem State.updLink_fresh (s : State) (k : Nat) (f : Link → Link) : (s.updLink k f).fresh = s.fresh := rfl
@[simp] theorem State.updLink_uids (s : State) (k : Nat) (f : Link → Link) : (s.updLink k f).uids = s.uids := rfl
@[simp] theorem State.updLink_inputs (s : State) (k : Nat) (f : Link → Link) : (s.updLink k f).inputs = s.inputs := rfl
@[simp] theorem State.updLink_cur (s : State) (k : Nat) (f : Link → Link) : (s.updLink k f).cur = s.cur := rfl
@[simp] theorem State.updLink_blocks (s : State) (k : Nat) (f : Link → Link) : (s.updLink k f).blocks = s.blocks := rfl
@[simp] theorem State.updLink_casts (s : State) (k : Nat) (f : Link → Link) : (s.updLink k f).casts = s.casts := rfl
@[simp] theorem State.updLink_launches (s : State) (k : Nat) (f : Link → Link) : (s.updLink k f).launches = s.launches := rfl
@[simp] theorem State.updLink_dram (s : State) (k : Nat) (f : Link → Link) : (s.updLink k f).dram = s.dram := rfl
@[simp] theorem State.updLink_dramKey (s : State) (k : Nat) (f : Link → Link) : (s.updLink k f).dramKey = s.dramKey := rfl
@[simp] theorem State.updLink_dramPoison (s : State) (k : Nat) (f : Link → Link) : (s.updLink k f).dramPoison = s.dramPoison := rfl
@[simp] theorem State.updLink_latent (s : State) (k : Nat) (f : Link → Link) : (s.updLink k f).latent = s.latent := rfl
@[simp] theorem State.updLink_l2 (s : State) (k : Nat) (f : Link → Link) : (s.updLink k f).l2 = s.l2 := rfl
@[simp] theorem State.updLink_ways (s : State) (k : Nat) (f : Link → Link) : (s.updLink k f).ways = s.ways := rfl
@[simp] theorem State.updLink_tlb1 (s : State) (k : Nat) (f : Link → Link) : (s.updLink k f).tlb1 = s.tlb1 := rfl
@[simp] theorem State.updLink_tlb2 (s : State) (k : Nat) (f : Link → Link) : (s.updLink k f).tlb2 = s.tlb2 := rfl
@[simp] theorem State.updLink_moving (s : State) (k : Nat) (f : Link → Link) : (s.updLink k f).moving = s.moving := rfl
@[simp] theorem State.updLink_otherUsage (s : State) (k : Nat) (f : Link → Link) : (s.updLink k f).otherUsage = s.otherUsage := rfl
@[simp] theorem State.updLink_sideLog (s : State) (k : Nat) (f : Link → Link) : (s.updLink k f).sideLog = s.sideLog := rfl
@[simp] theorem State.updLink_logSeq (s : State) (k : Nat) (f : Link → Link) : (s.updLink k f).logSeq = s.logSeq := rfl
@[simp] theorem State.updLink_logTried (s : State) (k : Nat) (f : Link → Link) : (s.updLink k f).logTried = s.logTried := rfl
@[simp] theorem State.updLink_bins (s : State) (k : Nat) (f : Link → Link) : (s.updLink k f).bins = s.bins := rfl
@[simp] theorem State.updLink_keySlots (s : State) (k : Nat) (f : Link → Link) : (s.updLink k f).keySlots = s.keySlots := rfl
@[simp] theorem State.updLink_keys (s : State) (k : Nat) (f : Link → Link) : (s.updLink k f).keys = s.keys := rfl
@[simp] theorem State.updLink_slices (s : State) (k : Nat) (f : Link → Link) : (s.updLink k f).slices = s.slices := rfl
@[simp] theorem State.updLink_queues (s : State) (k : Nat) (f : Link → Link) : (s.updLink k f).queues = s.queues := rfl
@[simp] theorem State.updLink_niches (s : State) (k : Nat) (f : Link → Link) : (s.updLink k f).niches = s.niches := rfl
@[simp] theorem State.updLink_tcbRetries (s : State) (k : Nat) (f : Link → Link) : (s.updLink k f).tcbRetries = s.tcbRetries := rfl
@[simp] theorem State.updLink_collCount (s : State) (k : Nat) (f : Link → Link) : (s.updLink k f).collCount = s.collCount := rfl
@[simp] theorem State.updLink_sessions (s : State) (k : Nat) (f : Link → Link) : (s.updLink k f).sessions = s.sessions := rfl
@[simp] theorem State.updLink_pool (s : State) (k : Nat) (f : Link → Link) : (s.updLink k f).pool = s.pool := rfl
@[simp] theorem State.updLink_hvFaultQ (s : State) (k : Nat) (f : Link → Link) : (s.updLink k f).hvFaultQ = s.hvFaultQ := rfl
@[simp] theorem State.updLink_qlog (s : State) (k : Nat) (f : Link → Link) : (s.updLink k f).qlog = s.qlog := rfl
@[simp] theorem State.updLink_quanta (s : State) (k : Nat) (f : Link → Link) : (s.updLink k f).quanta = s.quanta := rfl
@[simp] theorem State.updLink_onQuad (s : State) (k : Nat) (f : Link → Link) : (s.updLink k f).onQuad = s.onQuad := rfl
@[simp] theorem State.updLink_quantumAt (s : State) (k : Nat) (f : Link → Link) : (s.updLink k f).quantumAt = s.quantumAt := rfl
@[simp] theorem State.updLink_request (s : State) (k : Nat) (f : Link → Link) : (s.updLink k f).request = s.request := rfl
@[simp] theorem State.updLink_agents (s : State) (k : Nat) (f : Link → Link) : (s.updLink k f).agents = s.agents := rfl
@[simp] theorem State.updLink_later (s : State) (k : Nat) (f : Link → Link) : (s.updLink k f).later = s.later := rfl
@[simp] theorem State.updLink_decoder1 (s : State) (k : Nat) (f : Link → Link) : (s.updLink k f).decoder1 = s.decoder1 := rfl
@[simp] theorem State.updLink_latches (s : State) (k : Nat) (f : Link → Link) : (s.updLink k f).latches = s.latches := rfl
@[simp] theorem State.updLink_removed (s : State) (k : Nat) (f : Link → Link) : (s.updLink k f).removed = s.removed := rfl
@[simp] theorem State.updLink_sram (s : State) (k : Nat) (f : Link → Link) : (s.updLink k f).sram = s.sram := rfl
@[simp] theorem State.updLink_sramPoison (s : State) (k : Nat) (f : Link → Link) : (s.updLink k f).sramPoison = s.sramPoison := rfl
@[simp] theorem State.updLink_remains (s : State) (k : Nat) (f : Link → Link) : (s.updLink k f).remains = s.remains := rfl
@[simp] theorem State.updLink_cmdLinks (s : State) (k : Nat) (f : Link → Link) : (s.updLink k f).cmdLinks = s.cmdLinks := rfl
@[simp] theorem State.updLink_hvPlace (s : State) (k : Nat) (f : Link → Link) : (s.updLink k f).hvPlace = s.hvPlace := rfl
@[simp] theorem State.updLink_hvRoot1 (s : State) (k : Nat) (f : Link → Link) : (s.updLink k f).hvRoot1 = s.hvRoot1 := rfl
@[simp] theorem State.updLink_hvRoot2 (s : State) (k : Nat) (f : Link → Link) : (s.updLink k f).hvRoot2 = s.hvRoot2 := rfl
@[simp] theorem State.updLink_fwRoot1 (s : State) (k : Nat) (f : Link → Link) : (s.updLink k f).fwRoot1 = s.fwRoot1 := rfl
@[simp] theorem State.updLink_fwRoot2 (s : State) (k : Nat) (f : Link → Link) : (s.updLink k f).fwRoot2 = s.fwRoot2 := rfl
@[simp] theorem State.updLink_hvSession (s : State) (k : Nat) (f : Link → Link) : (s.updLink k f).hvSession = s.hvSession := rfl
@[simp] theorem State.updLink_hvStatements (s : State) (k : Nat) (f : Link → Link) : (s.updLink k f).hvStatements = s.hvStatements := rfl
@[simp] theorem State.updLink_ports (s : State) (k : Nat) (f : Link → Link) : (s.updLink k f).ports = s.ports := rfl
@[simp] theorem State.updLink_controls (s : State) (k : Nat) (f : Link → Link) : (s.updLink k f).controls = s.controls := rfl
@[simp] theorem State.updLink_diePorts (s : State) (k : Nat) (f : Link → Link) : (s.updLink k f).diePorts = s.diePorts := rfl
@[simp] theorem State.updLink_boot (s : State) (k : Nat) (f : Link → Link) : (s.updLink k f).boot = s.boot := rfl
@[simp] theorem State.updLink_hot (s : State) (k : Nat) (f : Link → Link) : (s.updLink k f).hot = s.hot := rfl
@[simp] theorem State.updLink_poolKept (s : State) (k : Nat) (f : Link → Link) : (s.updLink k f).poolKept = s.poolKept := rfl
@[simp] theorem State.updLink_refused (s : State) (k : Nat) (f : Link → Link) : (s.updLink k f).refused = s.refused := rfl
@[simp] theorem State.updLink_cleared (s : State) (k : Nat) (f : Link → Link) : (s.updLink k f).cleared = s.cleared := rfl
@[simp] theorem State.updLink_stale (s : State) (k : Nat) (f : Link → Link) : (s.updLink k f).stale = s.stale := rfl
@[simp] theorem State.updLink_stamp (s : State) (k : Nat) (f : Link → Link) : (s.updLink k f).stamp = s.stamp := rfl
@[simp] theorem State.updLink_views (s : State) (k : Nat) (f : Link → Link) : (s.updLink k f).views = s.views := rfl
@[simp] theorem State.updLink_view (s : State) (k : Nat) (f : Link → Link) : (s.updLink k f).view = s.view := rfl
@[simp] theorem State.updLink_trace (s : State) (k : Nat) (f : Link → Link) : (s.updLink k f).trace = s.trace := rfl
@[simp] theorem State.updLink_outbox (s : State) (k : Nat) (f : Link → Link) : (s.updLink k f).outbox = s.outbox := rfl

/-! One thread of a block changed -/

@[simp] theorem Block.updThread_uid (b : Block) (k : Nat) (f : Thread → Thread) : (b.updThread k f).uid = b.uid := rfl
@[simp] theorem Block.updThread_launch (b : Block) (k : Nat) (f : Thread → Thread) : (b.updThread k f).launch = b.launch := rfl
@[simp] theorem Block.updThread_owner (b : Block) (k : Nat) (f : Thread → Thread) : (b.updThread k f).owner = b.owner := rfl
@[simp] theorem Block.updThread_num (b : Block) (k : Nat) (f : Thread → Thread) : (b.updThread k f).num = b.num := rfl
@[simp] theorem Block.updThread_core (b : Block) (k : Nat) (f : Thread → Thread) : (b.updThread k f).core = b.core := rfl
@[simp] theorem Block.updThread_g0 (b : Block) (k : Nat) (f : Thread → Thread) : (b.updThread k f).g0 = b.g0 := rfl
@[simp] theorem Block.updThread_scratchBase (b : Block) (k : Nat) (f : Thread → Thread) : (b.updThread k f).scratchBase = b.scratchBase := rfl
@[simp] theorem Block.updThread_record (b : Block) (k : Nat) (f : Thread → Thread) : (b.updThread k f).record = b.record := rfl
@[simp] theorem Block.updThread_sregs (b : Block) (k : Nat) (f : Thread → Thread) : (b.updThread k f).sregs = b.sregs := rfl
@[simp] theorem Block.updThread_cregs (b : Block) (k : Nat) (f : Thread → Thread) : (b.updThread k f).cregs = b.cregs := rfl
@[simp] theorem Block.updThread_ttab (b : Block) (k : Nat) (f : Thread → Thread) : (b.updThread k f).ttab = b.ttab := rfl
@[simp] theorem Block.updThread_rows (b : Block) (k : Nat) (f : Thread → Thread) : (b.updThread k f).rows = b.rows := rfl
@[simp] theorem Block.updThread_tileBase (b : Block) (k : Nat) (f : Thread → Thread) : (b.updThread k f).tileBase = b.tileBase := rfl
@[simp] theorem Block.updThread_accPoison (b : Block) (k : Nat) (f : Thread → Thread) : (b.updThread k f).accPoison = b.accPoison := rfl
@[simp] theorem Block.updThread_scratch (b : Block) (k : Nat) (f : Thread → Thread) : (b.updThread k f).scratch = b.scratch := rfl
@[simp] theorem Block.updThread_scratchSeed (b : Block) (k : Nat) (f : Thread → Thread) : (b.updThread k f).scratchSeed = b.scratchSeed := rfl
@[simp] theorem Block.updThread_live (b : Block) (k : Nat) (f : Thread → Thread) : (b.updThread k f).live = b.live := rfl
@[simp] theorem Block.updThread_scratchPoison (b : Block) (k : Nat) (f : Thread → Thread) : (b.updThread k f).scratchPoison = b.scratchPoison := rfl
@[simp] theorem Block.updThread_window (b : Block) (k : Nat) (f : Thread → Thread) : (b.updThread k f).window = b.window := rfl
@[simp] theorem Block.updThread_past (b : Block) (k : Nat) (f : Thread → Thread) : (b.updThread k f).past = b.past := rfl
@[simp] theorem Block.updThread_issued (b : Block) (k : Nat) (f : Thread → Thread) : (b.updThread k f).issued = b.issued := rfl
@[simp] theorem Block.updThread_gaps (b : Block) (k : Nat) (f : Thread → Thread) : (b.updThread k f).gaps = b.gaps := rfl
@[simp] theorem Block.updThread_csn (b : Block) (k : Nat) (f : Thread → Thread) : (b.updThread k f).csn = b.csn := rfl
@[simp] theorem Block.updThread_slots (b : Block) (k : Nat) (f : Thread → Thread) : (b.updThread k f).slots = b.slots := rfl
@[simp] theorem Block.updThread_spillBase (b : Block) (k : Nat) (f : Thread → Thread) : (b.updThread k f).spillBase = b.spillBase := rfl
@[simp] theorem Block.updThread_spillDepth (b : Block) (k : Nat) (f : Thread → Thread) : (b.updThread k f).spillDepth = b.spillDepth := rfl
@[simp] theorem Block.updThread_gangs (b : Block) (k : Nat) (f : Thread → Thread) : (b.updThread k f).gangs = b.gangs := rfl
@[simp] theorem Block.updThread_batch (b : Block) (k : Nat) (f : Thread → Thread) : (b.updThread k f).batch = b.batch := rfl
@[simp] theorem Block.updThread_returns (b : Block) (k : Nat) (f : Thread → Thread) : (b.updThread k f).returns = b.returns := rfl
@[simp] theorem Block.updThread_halted (b : Block) (k : Nat) (f : Thread → Thread) : (b.updThread k f).halted = b.halted := rfl
@[simp] theorem Block.updThread_haltTime (b : Block) (k : Nat) (f : Thread → Thread) : (b.updThread k f).haltTime = b.haltTime := rfl
@[simp] theorem Block.updThread_progress (b : Block) (k : Nat) (f : Thread → Thread) : (b.updThread k f).progress = b.progress := rfl
@[simp] theorem Block.updThread_grace (b : Block) (k : Nat) (f : Thread → Thread) : (b.updThread k f).grace = b.grace := rfl
@[simp] theorem Block.updThread_placedAt (b : Block) (k : Nat) (f : Thread → Thread) : (b.updThread k f).placedAt = b.placedAt := rfl
@[simp] theorem Block.updThread_arrViews (b : Block) (k : Nat) (f : Thread → Thread) : (b.updThread k f).arrViews = b.arrViews := rfl

/-! A scalar register written -/

@[simp] theorem Block.sput_uid (b : Block) (i : Nat) (x : Word) : (b.sput i x).uid = b.uid := rfl
@[simp] theorem Block.sput_launch (b : Block) (i : Nat) (x : Word) : (b.sput i x).launch = b.launch := rfl
@[simp] theorem Block.sput_owner (b : Block) (i : Nat) (x : Word) : (b.sput i x).owner = b.owner := rfl
@[simp] theorem Block.sput_num (b : Block) (i : Nat) (x : Word) : (b.sput i x).num = b.num := rfl
@[simp] theorem Block.sput_core (b : Block) (i : Nat) (x : Word) : (b.sput i x).core = b.core := rfl
@[simp] theorem Block.sput_g0 (b : Block) (i : Nat) (x : Word) : (b.sput i x).g0 = b.g0 := rfl
@[simp] theorem Block.sput_scratchBase (b : Block) (i : Nat) (x : Word) : (b.sput i x).scratchBase = b.scratchBase := rfl
@[simp] theorem Block.sput_record (b : Block) (i : Nat) (x : Word) : (b.sput i x).record = b.record := rfl
@[simp] theorem Block.sput_threads (b : Block) (i : Nat) (x : Word) : (b.sput i x).threads = b.threads := rfl
@[simp] theorem Block.sput_cregs (b : Block) (i : Nat) (x : Word) : (b.sput i x).cregs = b.cregs := rfl
@[simp] theorem Block.sput_ttab (b : Block) (i : Nat) (x : Word) : (b.sput i x).ttab = b.ttab := rfl
@[simp] theorem Block.sput_rows (b : Block) (i : Nat) (x : Word) : (b.sput i x).rows = b.rows := rfl
@[simp] theorem Block.sput_tileBase (b : Block) (i : Nat) (x : Word) : (b.sput i x).tileBase = b.tileBase := rfl
@[simp] theorem Block.sput_accPoison (b : Block) (i : Nat) (x : Word) : (b.sput i x).accPoison = b.accPoison := rfl
@[simp] theorem Block.sput_scratch (b : Block) (i : Nat) (x : Word) : (b.sput i x).scratch = b.scratch := rfl
@[simp] theorem Block.sput_scratchSeed (b : Block) (i : Nat) (x : Word) : (b.sput i x).scratchSeed = b.scratchSeed := rfl
@[simp] theorem Block.sput_live (b : Block) (i : Nat) (x : Word) : (b.sput i x).live = b.live := rfl
@[simp] theorem Block.sput_scratchPoison (b : Block) (i : Nat) (x : Word) : (b.sput i x).scratchPoison = b.scratchPoison := rfl
@[simp] theorem Block.sput_window (b : Block) (i : Nat) (x : Word) : (b.sput i x).window = b.window := rfl
@[simp] theorem Block.sput_past (b : Block) (i : Nat) (x : Word) : (b.sput i x).past = b.past := rfl
@[simp] theorem Block.sput_issued (b : Block) (i : Nat) (x : Word) : (b.sput i x).issued = b.issued := rfl
@[simp] theorem Block.sput_gaps (b : Block) (i : Nat) (x : Word) : (b.sput i x).gaps = b.gaps := rfl
@[simp] theorem Block.sput_csn (b : Block) (i : Nat) (x : Word) : (b.sput i x).csn = b.csn := rfl
@[simp] theorem Block.sput_slots (b : Block) (i : Nat) (x : Word) : (b.sput i x).slots = b.slots := rfl
@[simp] theorem Block.sput_spillBase (b : Block) (i : Nat) (x : Word) : (b.sput i x).spillBase = b.spillBase := rfl
@[simp] theorem Block.sput_spillDepth (b : Block) (i : Nat) (x : Word) : (b.sput i x).spillDepth = b.spillDepth := rfl
@[simp] theorem Block.sput_gangs (b : Block) (i : Nat) (x : Word) : (b.sput i x).gangs = b.gangs := rfl
@[simp] theorem Block.sput_batch (b : Block) (i : Nat) (x : Word) : (b.sput i x).batch = b.batch := rfl
@[simp] theorem Block.sput_returns (b : Block) (i : Nat) (x : Word) : (b.sput i x).returns = b.returns := rfl
@[simp] theorem Block.sput_halted (b : Block) (i : Nat) (x : Word) : (b.sput i x).halted = b.halted := rfl
@[simp] theorem Block.sput_haltTime (b : Block) (i : Nat) (x : Word) : (b.sput i x).haltTime = b.haltTime := rfl
@[simp] theorem Block.sput_progress (b : Block) (i : Nat) (x : Word) : (b.sput i x).progress = b.progress := rfl
@[simp] theorem Block.sput_grace (b : Block) (i : Nat) (x : Word) : (b.sput i x).grace = b.grace := rfl
@[simp] theorem Block.sput_placedAt (b : Block) (i : Nat) (x : Word) : (b.sput i x).placedAt = b.placedAt := rfl
@[simp] theorem Block.sput_arrViews (b : Block) (i : Nat) (x : Word) : (b.sput i x).arrViews = b.arrViews := rfl

/-! A register written -/

@[simp] theorem Thread.put_tid (t : Thread) (n : Nat) (x : Word) : (t.put n x).tid = t.tid := rfl
@[simp] theorem Thread.put_lane (t : Thread) (n : Nat) (x : Word) : (t.put n x).lane = t.lane := rfl
@[simp] theorem Thread.put_quad (t : Thread) (n : Nat) (x : Word) : (t.put n x).quad = t.quad := rfl
@[simp] theorem Thread.put_pc (t : Thread) (n : Nat) (x : Word) : (t.put n x).pc = t.pc := rfl
@[simp] theorem Thread.put_slot (t : Thread) (n : Nat) (x : Word) : (t.put n x).slot = t.slot := rfl
@[simp] theorem Thread.put_n (t : Thread) (n : Nat) (x : Word) : (t.put n x).n = t.n := rfl
@[simp] theorem Thread.put_wb (t : Thread) (n : Nat) (x : Word) : (t.put n x).wb = t.wb := rfl
@[simp] theorem Thread.put_f (t : Thread) (n : Nat) (x : Word) : (t.put n x).f = t.f := rfl
@[simp] theorem Thread.put_low (t : Thread) (n : Nat) (x : Word) : (t.put n x).low = t.low := rfl
@[simp] theorem Thread.put_swb (t : Thread) (n : Nat) (x : Word) : (t.put n x).swb = t.swb := rfl
@[simp] theorem Thread.put_preds (t : Thread) (n : Nat) (x : Word) : (t.put n x).preds = t.preds := rfl
@[simp] theorem Thread.put_level (t : Thread) (n : Nat) (x : Word) : (t.put n x).level = t.level := rfl
@[simp] theorem Thread.put_pfx (t : Thread) (n : Nat) (x : Word) : (t.put n x).pfx = t.pfx := rfl
@[simp] theorem Thread.put_tvbs (t : Thread) (n : Nat) (x : Word) : (t.put n x).tvbs = t.tvbs := rfl
@[simp] theorem Thread.put_tvbh (t : Thread) (n : Nat) (x : Word) : (t.put n x).tvbh = t.tvbh := rfl
@[simp] theorem Thread.put_tvbf (t : Thread) (n : Nat) (x : Word) : (t.put n x).tvbf = t.tvbf := rfl
@[simp] theorem Thread.put_tsps (t : Thread) (n : Nat) (x : Word) : (t.put n x).tsps = t.tsps := rfl
@[simp] theorem Thread.put_tsph (t : Thread) (n : Nat) (x : Word) : (t.put n x).tsph = t.tsph := rfl
@[simp] theorem Thread.put_tspf (t : Thread) (n : Nat) (x : Word) : (t.put n x).tspf = t.tspf := rfl
@[simp] theorem Thread.put_wait (t : Thread) (n : Nat) (x : Word) : (t.put n x).wait = t.wait := rfl
@[simp] theorem Thread.put_waitWord (t : Thread) (n : Nat) (x : Word) : (t.put n x).waitWord = t.waitWord := rfl
@[simp] theorem Thread.put_exited (t : Thread) (n : Nat) (x : Word) : (t.put n x).exited = t.exited := rfl
@[simp] theorem Thread.put_stopped (t : Thread) (n : Nat) (x : Word) : (t.put n x).stopped = t.stopped := rfl
@[simp] theorem Thread.put_pend (t : Thread) (n : Nat) (x : Word) : (t.put n x).pend = t.pend := rfl
@[simp] theorem Thread.put_openB (t : Thread) (n : Nat) (x : Word) : (t.put n x).openB = t.openB := rfl
@[simp] theorem Thread.put_closedB (t : Thread) (n : Nat) (x : Word) : (t.put n x).closedB = t.closedB := rfl
@[simp] theorem Thread.put_waited (t : Thread) (n : Nat) (x : Word) : (t.put n x).waited = t.waited := rfl
@[simp] theorem Thread.put_filed (t : Thread) (n : Nat) (x : Word) : (t.put n x).filed = t.filed := rfl
@[simp] theorem Thread.put_unwaited (t : Thread) (n : Nat) (x : Word) : (t.put n x).unwaited = t.unwaited := rfl
@[simp] theorem Thread.put_oview (t : Thread) (n : Nat) (x : Word) : (t.put n x).oview = t.oview := rfl
@[simp] theorem Thread.put_freed (t : Thread) (n : Nat) (x : Word) : (t.put n x).freed = t.freed := rfl
@[simp] theorem Thread.put_synced (t : Thread) (n : Nat) (x : Word) : (t.put n x).synced = t.synced := rfl
@[simp] theorem Thread.put_posted (t : Thread) (n : Nat) (x : Word) : (t.put n x).posted = t.posted := rfl
@[simp] theorem Thread.put_flushing (t : Thread) (n : Nat) (x : Word) : (t.put n x).flushing = t.flushing := rfl

/-! A predicate written -/

@[simp] theorem Thread.putPred_tid (t : Thread) (p : Nat) (v : Bool) : (t.putPred p v).tid = t.tid := rfl
@[simp] theorem Thread.putPred_lane (t : Thread) (p : Nat) (v : Bool) : (t.putPred p v).lane = t.lane := rfl
@[simp] theorem Thread.putPred_quad (t : Thread) (p : Nat) (v : Bool) : (t.putPred p v).quad = t.quad := rfl
@[simp] theorem Thread.putPred_pc (t : Thread) (p : Nat) (v : Bool) : (t.putPred p v).pc = t.pc := rfl
@[simp] theorem Thread.putPred_slot (t : Thread) (p : Nat) (v : Bool) : (t.putPred p v).slot = t.slot := rfl
@[simp] theorem Thread.putPred_regs (t : Thread) (p : Nat) (v : Bool) : (t.putPred p v).regs = t.regs := rfl
@[simp] theorem Thread.putPred_n (t : Thread) (p : Nat) (v : Bool) : (t.putPred p v).n = t.n := rfl
@[simp] theorem Thread.putPred_wb (t : Thread) (p : Nat) (v : Bool) : (t.putPred p v).wb = t.wb := rfl
@[simp] theorem Thread.putPred_f (t : Thread) (p : Nat) (v : Bool) : (t.putPred p v).f = t.f := rfl
@[simp] theorem Thread.putPred_low (t : Thread) (p : Nat) (v : Bool) : (t.putPred p v).low = t.low := rfl
@[simp] theorem Thread.putPred_swb (t : Thread) (p : Nat) (v : Bool) : (t.putPred p v).swb = t.swb := rfl
@[simp] theorem Thread.putPred_level (t : Thread) (p : Nat) (v : Bool) : (t.putPred p v).level = t.level := rfl
@[simp] theorem Thread.putPred_pfx (t : Thread) (p : Nat) (v : Bool) : (t.putPred p v).pfx = t.pfx := rfl
@[simp] theorem Thread.putPred_tvbs (t : Thread) (p : Nat) (v : Bool) : (t.putPred p v).tvbs = t.tvbs := rfl
@[simp] theorem Thread.putPred_tvbh (t : Thread) (p : Nat) (v : Bool) : (t.putPred p v).tvbh = t.tvbh := rfl
@[simp] theorem Thread.putPred_tvbf (t : Thread) (p : Nat) (v : Bool) : (t.putPred p v).tvbf = t.tvbf := rfl
@[simp] theorem Thread.putPred_tsps (t : Thread) (p : Nat) (v : Bool) : (t.putPred p v).tsps = t.tsps := rfl
@[simp] theorem Thread.putPred_tsph (t : Thread) (p : Nat) (v : Bool) : (t.putPred p v).tsph = t.tsph := rfl
@[simp] theorem Thread.putPred_tspf (t : Thread) (p : Nat) (v : Bool) : (t.putPred p v).tspf = t.tspf := rfl
@[simp] theorem Thread.putPred_wait (t : Thread) (p : Nat) (v : Bool) : (t.putPred p v).wait = t.wait := rfl
@[simp] theorem Thread.putPred_waitWord (t : Thread) (p : Nat) (v : Bool) : (t.putPred p v).waitWord = t.waitWord := rfl
@[simp] theorem Thread.putPred_exited (t : Thread) (p : Nat) (v : Bool) : (t.putPred p v).exited = t.exited := rfl
@[simp] theorem Thread.putPred_stopped (t : Thread) (p : Nat) (v : Bool) : (t.putPred p v).stopped = t.stopped := rfl
@[simp] theorem Thread.putPred_pend (t : Thread) (p : Nat) (v : Bool) : (t.putPred p v).pend = t.pend := rfl
@[simp] theorem Thread.putPred_openB (t : Thread) (p : Nat) (v : Bool) : (t.putPred p v).openB = t.openB := rfl
@[simp] theorem Thread.putPred_closedB (t : Thread) (p : Nat) (v : Bool) : (t.putPred p v).closedB = t.closedB := rfl
@[simp] theorem Thread.putPred_poison (t : Thread) (p : Nat) (v : Bool) : (t.putPred p v).poison = t.poison := rfl
@[simp] theorem Thread.putPred_waited (t : Thread) (p : Nat) (v : Bool) : (t.putPred p v).waited = t.waited := rfl
@[simp] theorem Thread.putPred_filed (t : Thread) (p : Nat) (v : Bool) : (t.putPred p v).filed = t.filed := rfl
@[simp] theorem Thread.putPred_unwaited (t : Thread) (p : Nat) (v : Bool) : (t.putPred p v).unwaited = t.unwaited := rfl
@[simp] theorem Thread.putPred_oview (t : Thread) (p : Nat) (v : Bool) : (t.putPred p v).oview = t.oview := rfl
@[simp] theorem Thread.putPred_freed (t : Thread) (p : Nat) (v : Bool) : (t.putPred p v).freed = t.freed := rfl
@[simp] theorem Thread.putPred_synced (t : Thread) (p : Nat) (v : Bool) : (t.putPred p v).synced = t.synced := rfl
@[simp] theorem Thread.putPred_posted (t : Thread) (p : Nat) (v : Bool) : (t.putPred p v).posted = t.posted := rfl
@[simp] theorem Thread.putPred_flushing (t : Thread) (p : Nat) (v : Bool) : (t.putPred p v).flushing = t.flushing := rfl

/-! A group or a repeat done -/

@[simp] theorem Thread.retire_tid (t : Thread) (c : Issue) : (t.retire c).tid = t.tid := by unfold Thread.retire; split <;> rfl
@[simp] theorem Thread.retire_lane (t : Thread) (c : Issue) : (t.retire c).lane = t.lane := by unfold Thread.retire; split <;> rfl
@[simp] theorem Thread.retire_quad (t : Thread) (c : Issue) : (t.retire c).quad = t.quad := by unfold Thread.retire; split <;> rfl
@[simp] theorem Thread.retire_slot (t : Thread) (c : Issue) : (t.retire c).slot = t.slot := by unfold Thread.retire; split <;> rfl
@[simp] theorem Thread.retire_regs (t : Thread) (c : Issue) : (t.retire c).regs = t.regs := by unfold Thread.retire; split <;> rfl
@[simp] theorem Thread.retire_n (t : Thread) (c : Issue) : (t.retire c).n = t.n := by unfold Thread.retire; split <;> rfl
@[simp] theorem Thread.retire_wb (t : Thread) (c : Issue) : (t.retire c).wb = t.wb := by unfold Thread.retire; split <;> rfl
@[simp] theorem Thread.retire_f (t : Thread) (c : Issue) : (t.retire c).f = t.f := by unfold Thread.retire; split <;> rfl
@[simp] theorem Thread.retire_low (t : Thread) (c : Issue) : (t.retire c).low = t.low := by unfold Thread.retire; split <;> rfl
@[simp] theorem Thread.retire_swb (t : Thread) (c : Issue) : (t.retire c).swb = t.swb := by unfold Thread.retire; split <;> rfl
@[simp] theorem Thread.retire_preds (t : Thread) (c : Issue) : (t.retire c).preds = t.preds := by unfold Thread.retire; split <;> rfl
@[simp] theorem Thread.retire_level (t : Thread) (c : Issue) : (t.retire c).level = t.level := by unfold Thread.retire; split <;> rfl
@[simp] theorem Thread.retire_tvbs (t : Thread) (c : Issue) : (t.retire c).tvbs = t.tvbs := by unfold Thread.retire; split <;> rfl
@[simp] theorem Thread.retire_tvbh (t : Thread) (c : Issue) : (t.retire c).tvbh = t.tvbh := by unfold Thread.retire; split <;> rfl
@[simp] theorem Thread.retire_tvbf (t : Thread) (c : Issue) : (t.retire c).tvbf = t.tvbf := by unfold Thread.retire; split <;> rfl
@[simp] theorem Thread.retire_tsps (t : Thread) (c : Issue) : (t.retire c).tsps = t.tsps := by unfold Thread.retire; split <;> rfl
@[simp] theorem Thread.retire_tsph (t : Thread) (c : Issue) : (t.retire c).tsph = t.tsph := by unfold Thread.retire; split <;> rfl
@[simp] theorem Thread.retire_tspf (t : Thread) (c : Issue) : (t.retire c).tspf = t.tspf := by unfold Thread.retire; split <;> rfl
@[simp] theorem Thread.retire_waitWord (t : Thread) (c : Issue) : (t.retire c).waitWord = t.waitWord := by unfold Thread.retire; split <;> rfl
@[simp] theorem Thread.retire_exited (t : Thread) (c : Issue) : (t.retire c).exited = t.exited := by unfold Thread.retire; split <;> rfl
@[simp] theorem Thread.retire_stopped (t : Thread) (c : Issue) : (t.retire c).stopped = t.stopped := by unfold Thread.retire; split <;> rfl
@[simp] theorem Thread.retire_pend (t : Thread) (c : Issue) : (t.retire c).pend = t.pend := by unfold Thread.retire; split <;> rfl
@[simp] theorem Thread.retire_openB (t : Thread) (c : Issue) : (t.retire c).openB = t.openB := by unfold Thread.retire; split <;> rfl
@[simp] theorem Thread.retire_closedB (t : Thread) (c : Issue) : (t.retire c).closedB = t.closedB := by unfold Thread.retire; split <;> rfl
@[simp] theorem Thread.retire_poison (t : Thread) (c : Issue) : (t.retire c).poison = t.poison := by unfold Thread.retire; split <;> rfl
@[simp] theorem Thread.retire_filed (t : Thread) (c : Issue) : (t.retire c).filed = t.filed := by unfold Thread.retire; split <;> rfl
@[simp] theorem Thread.retire_unwaited (t : Thread) (c : Issue) : (t.retire c).unwaited = t.unwaited := by unfold Thread.retire; split <;> rfl
@[simp] theorem Thread.retire_oview (t : Thread) (c : Issue) : (t.retire c).oview = t.oview := by unfold Thread.retire; split <;> rfl
@[simp] theorem Thread.retire_freed (t : Thread) (c : Issue) : (t.retire c).freed = t.freed := by unfold Thread.retire; split <;> rfl
@[simp] theorem Thread.retire_synced (t : Thread) (c : Issue) : (t.retire c).synced = t.synced := by unfold Thread.retire; split <;> rfl
@[simp] theorem Thread.retire_posted (t : Thread) (c : Issue) : (t.retire c).posted = t.posted := by unfold Thread.retire; split <;> rfl
@[simp] theorem Thread.retire_flushing (t : Thread) (c : Issue) : (t.retire c).flushing = t.flushing := by unfold Thread.retire; split <;> rfl

/-! A jump -/

@[simp] theorem Thread.jump_tid (t : Thread) (pc : DWord) : (t.jump pc).tid = t.tid := rfl
@[simp] theorem Thread.jump_lane (t : Thread) (pc : DWord) : (t.jump pc).lane = t.lane := rfl
@[simp] theorem Thread.jump_quad (t : Thread) (pc : DWord) : (t.jump pc).quad = t.quad := rfl
@[simp] theorem Thread.jump_slot (t : Thread) (pc : DWord) : (t.jump pc).slot = t.slot := rfl
@[simp] theorem Thread.jump_regs (t : Thread) (pc : DWord) : (t.jump pc).regs = t.regs := rfl
@[simp] theorem Thread.jump_n (t : Thread) (pc : DWord) : (t.jump pc).n = t.n := rfl
@[simp] theorem Thread.jump_wb (t : Thread) (pc : DWord) : (t.jump pc).wb = t.wb := rfl
@[simp] theorem Thread.jump_f (t : Thread) (pc : DWord) : (t.jump pc).f = t.f := rfl
@[simp] theorem Thread.jump_low (t : Thread) (pc : DWord) : (t.jump pc).low = t.low := rfl
@[simp] theorem Thread.jump_swb (t : Thread) (pc : DWord) : (t.jump pc).swb = t.swb := rfl
@[simp] theorem Thread.jump_preds (t : Thread) (pc : DWord) : (t.jump pc).preds = t.preds := rfl
@[simp] theorem Thread.jump_level (t : Thread) (pc : DWord) : (t.jump pc).level = t.level := rfl
@[simp] theorem Thread.jump_tvbs (t : Thread) (pc : DWord) : (t.jump pc).tvbs = t.tvbs := rfl
@[simp] theorem Thread.jump_tvbh (t : Thread) (pc : DWord) : (t.jump pc).tvbh = t.tvbh := rfl
@[simp] theorem Thread.jump_tvbf (t : Thread) (pc : DWord) : (t.jump pc).tvbf = t.tvbf := rfl
@[simp] theorem Thread.jump_tsps (t : Thread) (pc : DWord) : (t.jump pc).tsps = t.tsps := rfl
@[simp] theorem Thread.jump_tsph (t : Thread) (pc : DWord) : (t.jump pc).tsph = t.tsph := rfl
@[simp] theorem Thread.jump_tspf (t : Thread) (pc : DWord) : (t.jump pc).tspf = t.tspf := rfl
@[simp] theorem Thread.jump_waitWord (t : Thread) (pc : DWord) : (t.jump pc).waitWord = t.waitWord := rfl
@[simp] theorem Thread.jump_exited (t : Thread) (pc : DWord) : (t.jump pc).exited = t.exited := rfl
@[simp] theorem Thread.jump_stopped (t : Thread) (pc : DWord) : (t.jump pc).stopped = t.stopped := rfl
@[simp] theorem Thread.jump_pend (t : Thread) (pc : DWord) : (t.jump pc).pend = t.pend := rfl
@[simp] theorem Thread.jump_openB (t : Thread) (pc : DWord) : (t.jump pc).openB = t.openB := rfl
@[simp] theorem Thread.jump_closedB (t : Thread) (pc : DWord) : (t.jump pc).closedB = t.closedB := rfl
@[simp] theorem Thread.jump_poison (t : Thread) (pc : DWord) : (t.jump pc).poison = t.poison := rfl
@[simp] theorem Thread.jump_filed (t : Thread) (pc : DWord) : (t.jump pc).filed = t.filed := rfl
@[simp] theorem Thread.jump_unwaited (t : Thread) (pc : DWord) : (t.jump pc).unwaited = t.unwaited := rfl
@[simp] theorem Thread.jump_oview (t : Thread) (pc : DWord) : (t.jump pc).oview = t.oview := rfl
@[simp] theorem Thread.jump_freed (t : Thread) (pc : DWord) : (t.jump pc).freed = t.freed := rfl
@[simp] theorem Thread.jump_synced (t : Thread) (pc : DWord) : (t.jump pc).synced = t.synced := rfl
@[simp] theorem Thread.jump_posted (t : Thread) (pc : DWord) : (t.jump pc).posted = t.posted := rfl
@[simp] theorem Thread.jump_flushing (t : Thread) (pc : DWord) : (t.jump pc).flushing = t.flushing := rfl

end Sys2Proof.Machine
end

