-- ==== Sys2Proof/Laws/Lanes.lean ====
section
/-! SUPPORT. What an issue does: over registers alone when no thread meets a condition, and when one thread issues alone. -/

namespace Sys2Proof.Machine

@[simp] theorem upd_length {α : Type} (l : List α) (n : Nat) (f : α → α) : (upd l n f).length = l.length := by simp [upd]

theorem upd_get_same {α : Type} (l : List α) (n : Nat) (f : α → α) (x : α) (h : l[n]? = some x) : (upd l n f)[n]? = some (f x) := by
  simp [upd, List.getElem?_modify, h]

theorem upd_get_other {α : Type} (l : List α) (n m : Nat) (f : α → α) (h : n ≠ m) : (upd l n f)[m]? = l[m]? := by
  simp [upd, List.getElem?_modify, h]

/-- The block in issue after a change of it. -/
theorem State.updBlock_get (s : State) (i : Nat) (f : Block → Block) (b : Block) (h : s.blocks[i]? = some b) :
    (s.updBlock i f).blocks[i]? = some (f b) := upd_get_same _ _ _ _ h

/-- A thread after a change of it. -/
theorem State.updThread_get (s : State) (i k : Nat) (f : Thread → Thread) (b : Block) (t : Thread) (h : s.thread? i k = some (b, t)) :
    (s.updThread i k f).thread? i k = some (b.updThread k f, f t) := by
  unfold State.thread? at h ⊢
  cases hb : s.blocks[i]? with
  | none => simp [hb] at h
  | some x =>
    simp only [hb, Option.bind_some] at h
    cases ht : x.threads[k]? with
    | none => simp [ht] at h
    | some u =>
      simp only [ht, Option.map_some, Option.some.injEq, Prod.mk.injEq] at h
      obtain ⟨rfl, rfl⟩ := h
      simp only [State.updThread, State.updBlock_get _ _ _ _ hb, Option.bind_some]
      simp [Block.updThread, upd_get_same _ _ _ _ ht]

/-- Two changes of one block are one. -/
theorem State.updBlock_updBlock (s : State) (i : Nat) (f g : Block → Block) :
    (s.updBlock i f).updBlock i g = s.updBlock i (fun b => g (f b)) := by
  simp only [State.updBlock, upd, List.modify_modify_eq]; rfl

theorem updBlock_congr (s : State) (i : Nat) (f g : Block → Block) (b : Block) (h : s.blocks[i]? = some b) (e : f b = g b) :
    s.updBlock i f = s.updBlock i g := by
  simp only [State.updBlock, upd]
  congr 1
  apply List.ext_getElem?
  intro j
  simp only [List.getElem?_modify]
  by_cases hj : i = j
  · subst hj; simp [h, e]
  · simp [hj]

/-- A group over registers alone, when no thread that executes it meets a condition. -/
theorem State.lanesBy_ok (s : State) (f : Block → Thread → Except Trap Thread) (g : Block → Thread → Thread) (b : Block) (hb : s.issuing b)
    (h : ∀ t ∈ b.threads, s.runs t → t.guardOk = true → f b t = .ok (g b t)) :
    s.lanes f = s.afterEach g := by
  unfold State.lanes State.lanesBy State.issuing at *
  have key : ∀ t ∈ b.threads, laneOut s (fun t => t.retire s.cur) b f t =
      ((if s.cur.tids.contains t.tid then (if t.guardOk then (g b t).retire s.cur else t.retire s.cur) else t), none) := by
    intro t ht
    unfold laneOut
    by_cases h1 : s.cur.tids.contains t.tid = true
    · by_cases h2 : t.guardOk = true
      · simp [h1, h2, h t ht h1 h2, -List.contains_eq_mem]
      · simp [h1, h2, -List.contains_eq_mem]
    · simp [h1, -List.contains_eq_mem]
  rw [hb]
  simp only
  rw [List.map_congr_left key]
  simp only [List.filterMap_map, Function.comp_def, Option.map_none, List.filterMap_none, List.foldl_nil]
  unfold State.afterEach
  apply updBlock_congr _ _ _ _ b hb
  simp [List.map_map, Function.comp_def]

/-- An instruction of registers alone, when no thread that executes it meets a condition (R58). -/
theorem State.alu_ok (s : State) (vs ss srcs : List Nat) (f : Block → Thread → Thread) (b : Block) (hb : s.issuing b)
    (h : s.regsOk b vs ss srcs) : s.alu vs ss srcs f = .next (s.afterEach f) := by
  unfold State.alu
  rw [State.lanesBy_ok s _ f b hb]
  intro t ht h1 h2
  obtain ⟨e1, e2⟩ := h t ht h1 h2
  simp [e1, e2]

@[simp] theorem State.progressed_cur (s : State) : s.progressed.cur = s.cur := rfl

/-- What a lane that issues alone does (R54, R58). -/
theorem State.foldLanes_solo (s : State) (f : State → Block → Thread → LaneRes) (b : Block) (t : Thread) (h : Solo s b t) :
    s.foldLanes f = s.progressed.closeLane t.tid (f s.progressed (b.progressAt s.clock) t) := by
  have hb : s.progressed.blocks[s.cur.blk]? = some (b.progressAt s.clock) := State.updBlock_get _ _ _ _ h.block
  have ht : s.progressed.thread? s.cur.blk t.tid = some (b.progressAt s.clock, t) := by
    simp only [State.thread?, hb, Option.bind_some]
    rw [show (b.progressAt s.clock).threads = b.threads from rfl, h.thread]
    rfl
  have e : s.foldLanes f = s.cur.tids.foldl (fun s k => match s.thread? s.cur.blk k with
      | none => s
      | some (b, t) => if !t.guardOk then s.retireLane k else s.closeLane k (f s b t)) s.progressed := rfl
  rw [e, h.alone]
  simp only [List.foldl_cons, List.foldl_nil, State.progressed_cur, ht, h.guard]
  simp

/-- The checks before a lane's work, when they pass. -/
theorem laneChecked_ok (b : Block) (t : Thread) (vs ss srcs : List Nat) (s : State) (f : Unit → LaneRes)
    (h1 : checkRegs b t vs ss = none) (h2 : checkPoison t srcs = none) : laneChecked b t vs ss srcs s f = f () := by
  simp [laneChecked, h1, h2]

/-- The checks do not look at the clock of progress. -/
@[simp] theorem checkRegs_progress (b : Block) (c : Nat) (t : Thread) (vs ss : List Nat) :
    checkRegs (b.progressAt c) t vs ss = checkRegs b t vs ss := rfl

end Sys2Proof.Machine
end

