-- ==== Sys2Proof/Laws/Memory.lean ====
section
/-! SUPPORT. Device memory: what a stored sector changes, and that every operation that writes it keeps its canonical form. -/

namespace Sys2Proof.Machine

/-- Counting bytes moved leaves memory alone (R448). -/
theorem State.moved_dram (s : State) (owner h n : Nat) : (s.moved owner h n).dram = s.dram := by
  unfold State.moved; split <;> rfl

/-- Counting leaves memory alone (R415). -/
@[simp] theorem State.count_dram (s : State) (o : Nat) (f : Counters → Counters) : (s.count o f).dram = s.dram := rfl

/-- R225: the bytes of device memory after a sector was stored. -/
theorem State.putDramSector_dram (s : State) (owner slot h : Nat) (bytes : List Byte) (poison : Option Bool) :
    (s.putDramSector owner slot h bytes poison).dram =
      match s.keyFor owner slot with
      | none => s.dram
      | some _ => Cells.writeList s.dram (h / 32 * 32) bytes := by
  unfold State.putDramSector
  cases s.keyFor owner slot with
  | none => rfl
  | some k => simp only; rw [State.moved_dram]

/-- Storing a sector keeps the canonical form. -/
theorem State.putDramSector_wf (s : State) (owner slot h : Nat) (bytes : List Byte) (poison : Option Bool) (hw : Memory.wf s.dram) :
    Memory.wf (s.putDramSector owner slot h bytes poison).dram := by
  rw [State.putDramSector_dram]
  cases s.keyFor owner slot with
  | none => exact hw
  | some k => exact Cells.wf_writeList _ _ _ hw

/-- Device memory right after reset is in its canonical form. -/
theorem State.reset_wf : Memory.wf State.reset.dram := rfl

/-- A program placed where the next step fetches keeps the canonical form (log entry 2). -/
theorem State.withFetchWord_wf (s : State) (nbits w : Nat) (hw : Memory.wf s.dram) : Memory.wf (s.withFetchWord nbits w).dram :=
  Cells.wf_writeList _ _ _ hw

end Sys2Proof.Machine
end

