-- ==== Sys2Proof/Laws/Solo.lean ====
section
/-! SUPPORT. A group that one thread issues alone: what its checks, its work and its traps come to. -/

namespace Sys2Proof.Machine

/-- An instruction whose meaning is a register operation has the shape of that operation. -/
theorem does_of (i : Instr) (vs ss srcs : State → List Nat) (f g : State → Block → Thread → Thread)
   (h : ∀ s, exec i s = s.alu (vs s) (ss s) (srcs s) (f s)) (e : ∀ s b t, f s b t = g s b t) : Does i vs ss srcs g := by
  intro s b hb hr
  have : f s = g s := by funext b t; exact e s b t
  rw [h s, State.alu_ok s _ _ _ _ b hb hr, this]

/-- The thread that issues alone, found where it stands. -/
theorem solo_thread {s b t} (h : Solo s b t) : s.progressed.thread? s.cur.blk t.tid = some (b.progressAt s.clock, t) := by
  have hb : s.progressed.blocks[s.cur.blk]? = some (b.progressAt s.clock) := State.updBlock_get _ _ _ _ h.block
  simp only [State.thread?, hb, Option.bind_some]
  rw [show (b.progressAt s.clock).threads = b.threads from rfl, h.thread]; rfl

/-- A change of one thread depends on that thread alone. -/
theorem updThread_const (s : State) (i k : Nat) (f : Thread → Thread) (b t) (h : s.thread? i k = some (b, t)) :
   s.updThread i k f = s.updThread i k (fun _ => f t) := by
  unfold State.thread? at h
  cases hb : s.blocks[i]? with
  | none => simp [hb] at h
  | some x =>
    simp only [hb, Option.bind_some] at h
    cases ht : x.threads[k]? with
    | none => simp [ht] at h
    | some u =>
      simp only [ht, Option.map_some, Option.some.injEq, Prod.mk.injEq] at h
      obtain ⟨rfl, rfl⟩ := h
      unfold State.updThread
      apply updBlock_congr _ _ _ _ x hb
      unfold Block.updThread
      congr 1
      unfold upd
      apply List.ext_getElem?
      intro j
      simp only [List.getElem?_modify]
      by_cases hj : k = j
      · subst hj; simp [ht]
      · simp [hj]

/-- A change of the thread that issues alone. -/
theorem becomes_of {s b t} (h : Solo s b t) (f : Thread → Thread) : s.progressed.updThread s.cur.blk t.tid f = s.becomes t (f t) :=
  updThread_const _ _ _ _ _ _ (solo_thread h)

/-- R18: no spill where the window fits. -/
theorem makeRoom_none (s : State) (i k top n b t) (h : s.thread? i k = some (b, t)) (hn : top ≤ t.low + t.n) :
   s.makeRoom i k top n = (s, none) := by
  cases n with
  | zero => rfl
  | succ n => simp [State.makeRoom, h, hn]

/-- R18: room is there at once where the window fits. -/
theorem roomFor_none (s : State) (i k top b t) (h : s.thread? i k = some (b, t)) (hn : top ≤ t.low + t.n) :
   s.roomFor i k top = (s, none) := by
  have hl : ¬ t.low + t.n < top := by omega
  simp [State.roomFor, h, makeRoom_none _ _ _ _ _ _ _ h hn, hl]

/-- R43: a branch offset in bytes. -/
theorem off22 (o : BitVec 22) : o.signExtend 64 * 4 = BitVec.ofInt 64 (4 * o.toInt) := by
  rw [BitVec.signExtend]
  apply BitVec.eq_of_toInt_eq
  simp [BitVec.toInt_mul, BitVec.toInt_ofInt, Int.mul_comm]

/-- R43: a call offset in bytes. -/
theorem off21 (o : BitVec 21) : o.signExtend 64 * 4 = BitVec.ofInt 64 (4 * o.toInt) := by
  rw [BitVec.signExtend]
  apply BitVec.eq_of_toInt_eq
  simp [BitVec.toInt_mul, BitVec.toInt_ofInt, Int.mul_comm]

/-- Lanes that meet no condition and choose where they go (R131). -/
theorem lanesBy_turn (s : State) (g : Thread → Thread) (b : Block) (hb : s.issuing b) :
    s.lanesBy id (fun _ t => .ok (g t)) = s.afterTurn g := by
  unfold State.lanesBy State.issuing at *
  have key : ∀ t ∈ b.threads, laneOut s id b (fun _ t => .ok (g t)) t =
      ((if s.cur.tids.contains t.tid then (if t.guardOk then g t else t.retire s.cur) else t), none) := by
    intro t ht
    unfold laneOut
    by_cases h1 : s.cur.tids.contains t.tid = true
    · by_cases h2 : t.guardOk = true
      · simp [h1, h2, -List.contains_eq_mem]
      · simp [h1, h2, -List.contains_eq_mem]
    · simp [h1, -List.contains_eq_mem]
  rw [hb]
  simp only
  rw [List.map_congr_left key]
  simp only [List.filterMap_map, Function.comp_def, Option.map_none, List.filterMap_none, List.foldl_nil]
  unfold State.afterTurn
  apply updBlock_congr _ _ _ _ b hb
  simp [List.map_map, Function.comp_def]

/-- The state after a turn depends on the threads of the block alone. -/
theorem afterTurn_congr (s : State) (b : Block) (hb : s.issuing b) (f g : Thread → Thread) 
  (h : ∀ t ∈ b.threads, f t = g t) : s.afterTurn f = s.afterTurn g := by
  unfold State.afterTurn
  apply updBlock_congr _ _ _ _ b hb
  congr 1
  apply List.map_congr_left
  intro t ht; rw [h t ht]

/-- R131: the state after a branch. -/
theorem branch_eq (s : State) (b : Block) (hb : s.issuing b) (o) (c : Thread → Bool) :
  s.branch o c = .next (s.afterTurn (fun t => t.jump (if c t then s.cur.pc + BitVec.ofInt 64 (4 * o.toInt) else s.cur.next))) := by
  unfold State.branch; rw [lanesBy_turn _ _ b hb, off22]

/-- The threads of an issue whose guards pass. -/
theorem passing_mem (s : State) (b : Block) (hb : s.issuing b) (hn : b.Numbered) (hk : ∀ k ∈ s.cur.tids, k < b.threads.length) (u : Thread) :
   u ∈ s.passing ↔ u ∈ b.threads ∧ s.cur.tids.contains u.tid = true ∧ u.guardOk = true := by
  unfold State.passing State.thread?
  have hb' : s.blocks[s.cur.blk]? = some b := hb
  simp only [List.mem_filterMap, hb', Option.bind_some, Option.bind_map, List.contains_eq_mem, decide_eq_true_eq]
  constructor
  · rintro ⟨k, hk, h⟩
    simp only [Option.bind_eq_some_iff] at h
    obtain ⟨a, ha, hg⟩ := h
    simp only [Function.comp] at hg
    split at hg
    · cases hg
      have := hn k _ ha
      subst this
      exact ⟨List.mem_of_getElem? ha, hk, by assumption⟩
    · cases hg
  · rintro ⟨h1, h2, h3⟩
    obtain ⟨j, hj⟩ := List.getElem?_of_mem h1
    have := hn j u hj
    subst this
    refine ⟨_, h2, ?_⟩
    simp [hj, h3]

/-- R134: a call that needs no spill. -/
theorem call_eq {s : State} {b t} (h : Solo s b t) (k : Nat) (x : DWord) (hr : t.wb + k + max 3 (t.f - k) ≤ t.low + t.n) :
  s.progressed.callTo t k x = .moved (s.becomes t ((((({ t with wb := t.wb + k, f := max 3 (t.f - k) } : Thread).put 0 (s.cur.next.setWidth 32)).put 1
          (BitVec.ofNat 32 (s.cur.next.toNat / 2 ^ 32 % 2 ^ 24))).put 2 (BitVec.ofNat 32 (k * 256 + t.f))).jump x)) := by
  unfold State.callTo
  simp only [State.progressed_cur]
  rw [roomFor_none _ _ _ _ _ _ (solo_thread h) hr]
  simp only
  rw [becomes_of h]
  have e : (BitVec.ofNat 32 s.cur.next.toNat : Word) = s.cur.next.setWidth 32 := by apply BitVec.eq_of_toNat_eq; simp
  have e2 : fld s.cur.next.toNat 24 32 = s.cur.next.toNat / 2 ^ 32 % 2 ^ 24 := rfl
  rw [e, e2]

/-- A group of one thread is that thread's work. -/
theorem exec_fold {s : State} {b t} (h : Solo s b t) (f : State → Block → Thread → LaneRes) (r : LaneRes)
  (e : f s.progressed (b.progressAt s.clock) t = r) : s.foldLanes f = s.progressed.closeLane t.tid r := by
  rw [State.foldLanes_solo s f b t h, e]

/-- R58: the checks before a lane's work, when they pass. -/
theorem lc {s : State} {b t} (vs ss srcs) (f : Unit → LaneRes) (h : FieldsOk b t vs ss srcs) (c : Nat) :
   laneChecked (b.progressAt c) t vs ss srcs s f = f () := laneChecked_ok _ _ _ _ _ _ _ h.1 h.2

/-- The issue in hand stays. -/
theorem becomes_cur (s : State) (t u) : (s.becomes t u).cur = s.cur := rfl

/-- The issue in hand stays. -/
theorem undefine_cur (s : State) (i k n m) : (s.undefine i k n m).cur = s.cur := rfl

/-- R18, R22: no move is left where the window is resident. -/
theorem settle_none (s : State) (i k n b t) (h : s.thread? i k = some (b, t)) (h1 : t.low ≤ t.wb) (hn : t.wb + t.f ≤ t.low + t.n) :
   s.settle i k n = (s, none) := by
  cases n with
  | zero => rfl
  | succ n =>
    have hm : s.moveOne i k = none := by simp only [State.moveOne, h]; rw [if_neg (by omega), if_neg (by omega)]
    simp only [State.settle, hm]

/-- The thread after it became another. -/
theorem thr_becomes {s b t} (h : Solo s b t) (u : Thread) : (s.becomes t u).thread? s.cur.blk t.tid = some ((b.progressAt s.clock).updThread t.tid (fun _ => u), u) :=
  State.updThread_get _ _ _ _ _ _ (solo_thread h)

/-- R18: undefined registers leave the window as it is. -/
theorem undefine_thread (s : State) (i k n m : Nat) (b t) (h : s.thread? i k = some (b, t)) :
  ∃ b' t', (s.undefine i k n m).thread? i k = some (b', t') ∧ t'.low = t.low ∧ t'.wb = t.wb ∧ t'.f = t.f ∧ t'.n = t.n := by
  refine ⟨_, _, State.updThread_get _ _ _ _ _ _ h, rfl, rfl, rfl, rfl⟩

/-- R12: a thread number names one thread. -/
theorem tid_uniq {b : Block} (h : b.Numbered) {t u : Thread} (ht : b.threads[t.tid]? = some t) (hu : u ∈ b.threads) (e : u.tid = t.tid) : u = t := by
  obtain ⟨j, hj⟩ := List.getElem?_of_mem hu
  have := h j u hj
  subst this
  rw [e, ht] at hj
  exact (Option.some.inj hj).symm

/-- A change of one thread, as a change of all. -/
theorem modify_eq_map {l : List Thread} (k : Nat) (f : Thread → Thread) (h : ∀ (j : Nat) (t : Thread), l[j]? = some t → t.tid = j) :
   l.modify k f = l.map (fun t => if t.tid = k then f t else t) := by
  apply List.ext_getElem?
  intro j
  simp only [List.getElem?_modify, List.getElem?_map]
  cases hj : l[j]? with
  | none => simp
  | some t =>
    have := h j t hj
    simp only [Option.map_some, Option.map_eq_map]
    by_cases e : k = j
    · subst e; simp [this]
    · rw [if_neg e, if_neg (by omega)]

/-- A group of one thread over registers alone. -/
theorem afterEach_solo {s b t} (h : Solo s b t) (f : Block → Thread → Thread) :
   s.afterEach f = s.done t (f b t) := by
  unfold State.afterEach State.done State.becomes State.progressed State.updThread
  rw [State.updBlock_updBlock]
  apply updBlock_congr _ _ _ _ b h.block
  unfold Block.progressAt Block.updThread upd
  simp only
  congr 1
  rw [modify_eq_map _ _ h.numbered]
  apply List.map_congr_left
  intro u hu
  rw [h.alone]
  by_cases e : u.tid = t.tid
  · have := tid_uniq h.numbered h.thread hu e
    subst this
    simp [h.guard]
  · simp [e]

/-- The register checks of a group of one thread. -/
theorem regsOk_solo {s b t} (h : Solo s b t) {vs ss srcs} (hf : FieldsOk b t vs ss srcs) : s.regsOk b vs ss srcs := by
  intro u hu hr hg
  unfold State.runs at hr
  rw [h.alone] at hr
  have := tid_uniq h.numbered h.thread hu (by simpa using hr)
  subst this; exact hf

/-- A register operation of a group of one thread. -/
theorem alu_solo {s b t} (h : Solo s b t) {vs ss srcs} (hf : FieldsOk b t vs ss srcs) (f : Block → Thread → Thread) :
   s.alu vs ss srcs f = .next (s.done t (f b t)) := by
  rw [State.alu_ok s vs ss srcs f b h.block (regsOk_solo h hf), afterEach_solo h]

/-- Lane work of a group of one thread. -/
theorem lanes_solo {s b t} (h : Solo s b t) (f : Block → Thread → Except Trap Thread) (u : Thread) (e : f b t = .ok u) :
   s.lanes f = s.done t u := by
  have := State.lanesBy_ok s f (fun b' t' => if b' = b ∧ t' = t then u else t') b h.block (by
    intro v hv hr hg
    unfold State.runs at hr
    rw [h.alone] at hr
    have := tid_uniq h.numbered h.thread hv (by simpa using hr)
    subst this; simp [e])
  rw [this, afterEach_solo h]; simp

/-- The thread that issues alone, before it has made progress. -/
theorem thread_solo {s b t} (h : Solo s b t) : s.thread? s.cur.blk t.tid = some (b, t) := by
  have hb : s.blocks[s.cur.blk]? = some b := h.block
  simp only [State.thread?, hb, Option.bind_some, h.thread]; rfl

/-- R30: the level that a form needs. -/
theorem need_solo {s b t} (h : Solo s b t) (l : Level) (f) : s.needLevel l f = if t.level.ge l then f () else .next (s.trapAll (s.wordTrap .priv)) := by
  unfold State.needLevel
  rw [h.alone]
  simp only [List.head?_cons, Option.bind_some, thread_solo h]

/-- What the lanes of a block come to when one thread issues alone. -/
theorem solo_outs {s b t} (h : Solo s b t) (close : Thread → Thread) (f : Block → Thread → Except Trap Thread) (v : Thread) (hv : v ∈ b.threads) :
   laneOut s close b f v = if v.tid = t.tid then (match f b t with | .ok t' => (close t', none) | .error tr => (t, some tr)) else (v, none) := by
  unfold laneOut
  rw [h.alone]
  by_cases e : v.tid = t.tid
  · have := tid_uniq h.numbered h.thread hv e
    subst this
    simp [h.guard] <;> rfl
  · simp [e]

/-- A change of the thread that issues alone, as a change of all. -/
theorem map_solo {b : Block} {t : Thread} (ht : b.threads[t.tid]? = some t) (hn : b.Numbered) (u : Thread) :
    b.threads.map (fun v => if v.tid = t.tid then u else v) = upd b.threads t.tid (fun _ => u) := by
  unfold upd; rw [modify_eq_map _ _ hn]

/-- A lane that meets no condition. -/
theorem lanesBy_solo_ok {s b t} (h : Solo s b t) (close : Thread → Thread) (f : Block → Thread → Except Trap Thread) (u : Thread) (e : f b t = .ok u) :
   s.lanesBy close f = s.becomes t (close u) := by
  unfold State.lanesBy
  have hb : s.blocks[s.cur.blk]? = some b := h.block
  rw [hb]; simp only
  rw [List.map_congr_left (fun v hv => solo_outs h close f v hv), e]
  simp only [List.filterMap_map, List.map_map]
  rw [show ((fun o : Thread × Option Trap => o.2.map (fun tr => (o.1.tid, tr))) ∘ fun v : Thread => if v.tid = t.tid then (close u, none) else (v, none)) = fun _ => none by
    funext v; simp only [Function.comp]; split <;> rfl]
  simp only [List.filterMap_none, List.foldl_nil]
  rw [show ((fun x : Thread × Option Trap => x.1) ∘ fun v : Thread => if v.tid = t.tid then (close u, none) else (v, none)) = fun v => if v.tid = t.tid then close u else v by
    funext v; simp only [Function.comp]; split <;> rfl]
  rw [map_solo h.thread h.numbered]
  unfold State.becomes State.progressed State.updThread
  rw [State.updBlock_updBlock]
  apply updBlock_congr _ _ _ _ b h.block
  rfl

/-- The one trap of a group of one thread. -/
theorem filt_solo (t : Thread) (tr : Trap) (l : List Thread) (n : Nat) (hn : ∀ (k : Nat) (v : Thread), l[k]? = some v → v.tid = n + k) :
   l.filterMap (fun v => if v.tid = t.tid then some (t.tid, tr) else none) = if n ≤ t.tid ∧ t.tid < n + l.length then [(t.tid, tr)] else [] := by
  induction l generalizing n with
  | nil => simp
  | cons x r ih =>
    have h0 := hn 0 x (by simp)
    have := ih (n+1) (fun k v hk => by have := hn (k+1) v (by simpa using hk); omega)
    simp only [List.filterMap_cons]
    rw [this]
    by_cases e : x.tid = t.tid
    · simp only [e, if_true, List.length_cons]
      rw [if_neg (by omega), if_pos (by omega)]
    · simp only [e, if_false, List.length_cons]
      by_cases c : n + 1 ≤ t.tid ∧ t.tid < n + 1 + r.length
      · rw [if_pos c, if_pos (by omega)]
      · rw [if_neg c, if_neg (by omega)]

/-- A lane that meets a condition. -/
theorem lanesBy_solo_trap {s b t} (h : Solo s b t) (close : Thread → Thread) (f : Block → Thread → Except Trap Thread) (tr : Trap) (e : f b t = .error tr) :
   s.lanesBy close f = s.progressed.takeTrap t.tid tr := by
  unfold State.lanesBy
  have hb : s.blocks[s.cur.blk]? = some b := h.block
  rw [hb]; simp only
  rw [List.map_congr_left (fun v hv => solo_outs h close f v hv), e]
  simp only [List.filterMap_map, List.map_map]
  rw [show ((fun o : Thread × Option Trap => o.2.map (fun tr => (o.1.tid, tr))) ∘ fun v : Thread => if v.tid = t.tid then (t, some tr) else (v, none)) = fun v => if v.tid = t.tid then some (t.tid, tr) else none by
    funext v; simp only [Function.comp]; split <;> rfl]
  rw [filt_solo t tr b.threads 0 (by intro k v hk; have := h.numbered k v hk; omega)]
  have hlt : t.tid < b.threads.length := by
    by_contra hc
    have := h.thread
    rw [List.getElem?_eq_none (by omega)] at this; cases this
  rw [if_pos (by omega)]
  simp only [List.foldl_cons, List.foldl_nil]
  congr 1
  apply updBlock_congr _ _ _ _ b h.block
  rw [show ((fun x : Thread × Option Trap => x.1) ∘ fun v : Thread => if v.tid = t.tid then (t, some tr) else (v, none)) = fun v => if v.tid = t.tid then t else v by
    funext v; simp only [Function.comp]; split <;> rfl]
  unfold Block.progressAt
  congr 1
  conv_rhs => rw [← List.map_id b.threads]
  apply List.map_congr_left
  intro v hv
  by_cases e : v.tid = t.tid
  · have := tid_uniq h.numbered h.thread hv e
    subst this; simp
  · simp [e]

/-- The one thread whose guard passes. -/
theorem passing_solo {s b t} (h : Solo s b t) : s.passing = [t] := by
  unfold State.passing
  rw [h.alone]
  simp [thread_solo h, h.guard]

/-- The issue stays with its thread when its block changes elsewhere. -/
theorem solo_upd {s b t} (h : Solo s b t) (f : Block → Block) (ht : (f b).threads = b.threads) (n : Nat) : 
   Solo ({ s with uids := n }.updBlock s.cur.blk f) (f b) t where
  block := by
    have hb : ({s with uids := n} : State).blocks[s.cur.blk]? = some b := h.block
    exact State.updBlock_get _ _ f b hb
  thread := by rw [ht]; exact h.thread
  alone := h.alone
  guard := h.guard
  numbered := by unfold Block.Numbered; rw [ht]; exact h.numbered

end Sys2Proof.Machine
end

