-- ==== Sys2Proof/Tests/Slice0.lean ====
section
/-! SUPPORT. Tests of the model against the spec: words of every encoded instruction, words that are refused, single steps, and, for
the statements that have hypotheses, states and operands that meet them. -/

set_option Elab.async false

namespace Sys2Proof.Tests

open Sys2Proof Sys2Proof.Machine

theorem test_words_integer : ∀ p ∈ ([
    (0x08AC9641, .iadd 69 50 44 true), (0x08AC9642, .isub 69 50 44 true), (0x08AC9643, .imul 69 50 44 true),
    (0x08AC9644, .imulhi 69 50 44 true), (0x08AC9645, .imulhiu 69 50 44 true), (0x08AC9646, .imad 69 50 44 true),
    (0x08AC8007, .iabs 69 50), (0x08AC9648, .idiv 69 50 44 true), (0x08AC9649, .idivu 69 50 44 true), (0x08AC964A, .irem 69 50 44 true),
    (0x08AC964B, .iremu 69 50 44 true), (0x08AC964C, .imin 69 50 44 true), (0x08AC964D, .imax 69 50 44 true),
    (0x08AC964E, .iminu 69 50 44 true), (0x08AC964F, .imaxu 69 50 44 true), (0x08AC9650, .iadds 69 50 44 true),
    (0x08AC9651, .isubs 69 50 44 true), (0x08AC9652, .iaddus 69 50 44 true), (0x08AC9653, .isubus 69 50 44 true),
    (0x08AC9654, .iadd64 69 50 44 true), (0x08AC9655, .isub64 69 50 44 true), (0x08AC9656, .imulw 69 50 44 true),
    (0x08AC9657, .imulwu 69 50 44 true), (0x0ACC9658, .icmp 5 6 50 44 true), (0x0ACC9659, .icmp64 5 6 50 44 true),
    (0x08AC965C, .iaddsh1 69 50 44 true), (0x08AC965D, .iaddsh2 69 50 44 true), (0x08AC965E, .iaddsh3 69 50 44 true),
    (0x08AC965F, .iaddsh4 69 50 44 true), (0x08AC9663, .sel 69 50 44 true 3), (0x08AC8028, .mov 69 50), (0x08AC8029, .movri 69 50),
    (0x000C966A, .movwi 50 44 true), (0x08AC802B, .sext8 69 50), (0x08AC802C, .sext16 69 50)] : List (Word × Instr)), decodeWord p.1 = .ok p.2 := by decide +kernel

theorem test_words_immediate : ∀ p ∈ ([
    (0x18AC85A3, .iaddi 69 50 1443), (0x18AC8DA3, .imuli 69 50 1443), (0x18AC95A3, .andi 69 50 1443), (0x18AC9DA3, .ori 69 50 1443),
    (0x18ACA5A3, .xori 69 50 1443), (0x1ACCADA3, .icmpi 5 6 50 1443), (0x18ACB015, .shli 69 50 21), (0x18ACB115, .shri 69 50 21),
    (0x18ACB215, .sari 69 50 21), (0x18ACB315, .roli 69 50 21), (0x18ACB415, .rori 69 50 21), (0x18B63DA3, .movi 69 0x2c5a3)] : List (Word × Instr)), decodeWord p.1 = .ok p.2 := by decide +kernel

theorem test_words_bits : ∀ p ∈ ([
    (0x28AC9640, .and 69 50 44 true), (0x28AC9641, .or 69 50 44 true), (0x28AC9642, .xor 69 50 44 true),
    (0x28AC9643, .andn 69 50 44 true), (0x28AC9644, .orn 69 50 44 true), (0x28AC9645, .xnor 69 50 44 true), (0x28AC8006, .not 69 50),
    (0x28AC9648, .shl 69 50 44 true), (0x28AC9649, .shr 69 50 44 true), (0x28AC964A, .sar 69 50 44 true),
    (0x28AC964B, .rol 69 50 44 true), (0x28AC964C, .ror 69 50 44 true), (0x28AC964D, .shl64 69 50 44 true),
    (0x28AC964E, .shr64 69 50 44 true), (0x28AC964F, .sar64 69 50 44 true), (0x28AC8010, .clz 69 50), (0x28AC8011, .ctz 69 50),
    (0x28AC8012, .popc 69 50), (0x28AC8013, .brev 69 50), (0x28AC8014, .clz64 69 50), (0x28AC8015, .ctz64 69 50),
    (0x28AC8016, .popc64 69 50), (0x28AC8017, .brev64 69 50), (0x28AC9658, .bfx 69 50 44 true), (0x28AC9659, .bfxs 69 50 44 true),
    (0x28AC965A, .bfi 69 50 44 true), (0x28AC965C, .pdep 69 50 44 true), (0x28AC965D, .pext 69 50 44 true),
    (0x28AC965E, .pdep64 69 50 44 true), (0x28AC965F, .pext64 69 50 44 true), (0x28AC9660, .bperm 69 50 44 true),
    (0x28AC9661, .bmm8 69 50 44 true), (0x28AC9662, .bmm8t 69 50 44 true), (0x2B614328, .plop 11 3 5 6), (0x28A00029, .p2v 69),
    (0x200C802A, .v2p 50)] : List (Word × Instr)), decodeWord p.1 = .ok p.2 := by decide +kernel

theorem test_words_fp32 : ∀ p ∈ ([
    (0x38AC9678, .fadd 69 50 44 true true true 2), (0x38AC9679, .fmul 69 50 44 true true true 2),
    (0x38AC967A, .ffma 69 50 44 true true true 2), (0x38AC967B, .fsub 69 50 44 true true true 2)] : List (Word × Instr)), decodeWord p.1 = .ok p.2 := by decide +kernel

theorem test_words_fpMisc : ∀ p ∈ ([
    (0x48AC9640, .fmin 69 50 44 true), (0x48AC9641, .fmax 69 50 44 true), (0x48AC9642, .fminnm 69 50 44 true),
    (0x48AC9643, .fmaxnm 69 50 44 true), (0x4ACC9644, .fcmp 5 6 50 44 true), (0x48AC8005, .fabs 69 50), (0x48AC8006, .fneg 69 50),
    (0x48AC9647, .fcopysign 69 50 44 true), (0x48AC8108, .frint 69 50 2), (0x48AC8009, .fclass 69 50), (0x48AC8010, .frcp 69 50),
    (0x48AC8011, .frsq 69 50), (0x48AC8012, .fexp2 69 50), (0x48AC8013, .flog2 69 50), (0x48AC8014, .fsin 69 50),
    (0x48AC8015, .fcos 69 50), (0x48AC8118, .f2i 69 50 2), (0x48AC8119, .f2u 69 50 2), (0x48AC811A, .i2f 69 50 2),
    (0x48AC811B, .u2f 69 50 2), (0x48AC811C, .f2h 69 50 2), (0x48AC801D, .h2f 69 50), (0x48AC801E, .f2d 69 50),
    (0x48AC811F, .d2f 69 50 2), (0x48AC9662, .dadd 69 50 44 true 2), (0x48AC9666, .dmul 69 50 44 true 2),
    (0x48AC966A, .dfma 69 50 44 true 2), (0x48AC966E, .dsub 69 50 44 true 2), (0x48AC9670, .dmin 69 50 44 true),
    (0x48AC9671, .dmax 69 50 44 true), (0x48AC9672, .dminnm 69 50 44 true), (0x48AC9673, .dmaxnm 69 50 44 true),
    (0x4ACC9674, .dcmp 5 6 50 44 true), (0x48AC8135, .d2i 69 50 2), (0x48AC8036, .i2d 69 50), (0x48AC8037, .dabs 69 50)] : List (Word × Instr)), decodeWord p.1 = .ok p.2 := by decide +kernel

theorem test_words_packed : ∀ p ∈ ([
    (0x58AC9642, .hadd2 69 50 44 true 2), (0x58AC9646, .hmul2 69 50 44 true 2), (0x58AC964A, .hfma2 69 50 44 true 2),
    (0x58AC964E, .hsub2 69 50 44 true 2), (0x58AC9652, .badd2 69 50 44 true 2), (0x58AC9656, .bmul2 69 50 44 true 2),
    (0x58AC965A, .bfma2 69 50 44 true 2), (0x58AC965E, .bsub2 69 50 44 true 2), (0x58AC9660, .hmin2 69 50 44 true),
    (0x58AC9661, .hmax2 69 50 44 true), (0x58AC9662, .bmin2 69 50 44 true), (0x58AC9663, .bmax2 69 50 44 true),
    (0x5ACC9664, .hcmp2 5 6 50 44 true), (0x5ACC9665, .bcmp2 5 6 50 44 true), (0x58AC966A, .pkh2 69 50 44 true 2),
    (0x58AC966E, .pkb2 69 50 44 true 2), (0x58AC80B0, .upkh 69 50 true), (0x58AC80B1, .upkb 69 50 true),
    (0x58AC9672, .pke4m 69 50 44 true), (0x58AC9673, .pke5m 69 50 44 true), (0x58AC9674, .pkf4m 69 50 44 true),
    (0x58AC8135, .upke4 69 50 2), (0x58AC8136, .upke5 69 50 2), (0x58AC82B7, .upkf4 69 50 5), (0x58AC8138, .mxscale 69 50 2),
    (0x58AC9679, .idp4 69 50 44 true), (0x58AC967A, .idp4u 69 50 44 true)] : List (Word × Instr)), decodeWord p.1 = .ok p.2 := by decide +kernel

theorem test_words_memory : ∀ p ∈ ([
    (0x68ACAAA5, .ld 69 50 21 2 37), (0x68ACABA5, .st 69 50 21 2 37)] : List (Word × Instr)), decodeWord p.1 = .ok p.2 := by decide +kernel

theorem test_words_local : ∀ p ∈ ([
    (0x78AC9609, .atomSp 69 50 44 9), (0x78AC9614, .sld 69 50 44 4), (0x78AC961C, .sst 69 50 44 4), (0x78AC9624, .nld 69 50 44 4),
    (0x78AC962C, .nst 69 50 44 4), (0x78AC9639, .atomNb 69 50 44 9), (0x78AC8AC9, .atomRec 69 50 21 9), (0x78AC8AD9, .atom64 69 50 21 9),
    (0x78AC8AE0, .faddx 69 50 21), (0x78AC8AE1, .rcrd 69 50 21), (0x700C8AE2, .rcclr 50 21), (0x702C8AF0, .pref true 50 21),
    (0x700C8AF1, .cwb 50 21), (0x700C8AF2, .cinv 50 21), (0x78AC8AF4, .sample 69 50 21)] : List (Word × Instr)), decodeWord p.1 = .ok p.2 := by decide +kernel

theorem test_words_branch : ∀ p ∈ ([
    (0x8029C3A5, .bra 2737061), (0x83A9C3A5, .brt 6 2737061), (0x85A9C3A5, .brf 6 2737061), (0x87A9C3A5, .brany 6 2737061),
    (0x89A9C3A5, .brall 6 2737061)] : List (Word × Instr)), decodeWord p.1 = .ok p.2 := by decide +kernel

theorem test_words_flow : ∀ p ∈ ([
    (0x9599C3A5, .call 44 1688485), (0x90000000, .ret), (0x900C8001, .jmpi 50), (0x900C9602, .calli 50 44), (0x90000003, .land),
    (0x90001604, .frame 44), (0x90001605, .wbase 44), (0x90000006, .reform), (0x90000007, .exit), (0x90000008, .nop),
    (0x90162D09, .trap 11354)] : List (Word × Instr)), decodeWord p.1 = .ok p.2 := by decide +kernel

theorem test_words_cross : ∀ p ∈ ([
    (0xA8AC9600, .routePick 69 50 44), (0xA8AC9601, .routeRot 69 50 44), (0xA8AC9602, .routeShift 69 50 44),
    (0xA8AC9603, .routeFlip 69 50 44), (0xA0615604, .pollOr 3 5 44), (0xA0615605, .pollAnd 3 5 44), (0xA0615606, .pollSame 3 5 44),
    (0xA8A15607, .pgather 69 5 44), (0xA8AC9608, .reduxAdd 69 50 44), (0xA8AC9609, .reduxMin 69 50 44), (0xA8AC960A, .reduxMax 69 50 44),
    (0xA8AC960B, .reduxMinu 69 50 44), (0xA8AC960C, .reduxMaxu 69 50 44), (0xA8AC960D, .reduxAnd 69 50 44),
    (0xA8AC960E, .reduxOr 69 50 44), (0xA8AC960F, .reduxXor 69 50 44), (0xA8AC9610, .reduxFadd 69 50 44),
    (0xA8AC9611, .reduxFmin 69 50 44), (0xA8AC9612, .reduxFmax 69 50 44), (0xA8AC9613, .scanAdd 69 50 44),
    (0xA8AC9614, .scanFadd 69 50 44), (0xA00C9620, .barinit 50 44), (0xA8AC8021, .bararv 69 50), (0xA00C9622, .barwait 50 44),
    (0xA00C8023, .barsync 50), (0xA8AC8024, .nbararv 69 50), (0xA00C9625, .nbarwait 50 44), (0xA00C8026, .nbarsync 50),
    (0xA16C8028, .cinit 11 50), (0xA8A2C029, .msign 69 11), (0xA002D62A, .cwait 11 44), (0xA0000030, .fenceB), (0xA0000031, .fenceN),
    (0xA0000032, .fenceQ), (0xA0000033, .fenceT), (0xA0000034, .fenceS), (0xA0000035, .ofence), (0xA0000038, .commit),
    (0xA00005B9, .waitb 11), (0xA00C82BA, .waitseq 50 5), (0xA66C963B, .qwaitDone 51 50 44), (0xAE6C963B, .qwaitTake 51 50 44),
    (0xA00C803C, .nichewait 50)] : List (Word × Instr)), decodeWord p.1 = .ok p.2 := by decide +kernel

theorem test_words_tile : ∀ p ∈ ([
    (0xB8A19665, .tmovTr 69 6 44 37), (0xB8A99665, .tmovTc 69 6 44 37), (0xB8B19665, .tmovRt 69 6 44 37),
    (0xB8B99665, .tmovCt 69 6 44 37), (0xB8A4C000, .tstat 69 19), (0xB004C001, .twait 19)] : List (Word × Instr)), decodeWord p.1 = .ok p.2 := by decide +kernel

theorem test_words_engine : ∀ p ∈ ([
    (0xCABF56A0, .bload 42 63 21 21), (0xCABF56A1, .mma 42 63 21 21), (0xCABF56A2, .mmas 42 63 21 21), (0xCABF56A3, .tzero 42 63 21 21),
    (0xCABF56A4, .tdrain 42 63 21 21), (0xCABF56A5, .tfill 42 63 21 21), (0xCABF56A8, .xtrav 42 63 21 21),
    (0xCABF56A9, .xtravRes 42 63 21 21), (0xCABF56B0, .copy 42 63 21 21), (0xCABF56B1, .scatter 42 63 21 21),
    (0xCABF56B2, .restripe 42 63 21 21), (0xCABF56B3, .coll 42 63 21 21), (0xCABF56B8, .enc 42 63 21 21),
    (0xCABF56B9, .emit 42 63 21 21), (0xCABF56BA, .ndone 42 63 21 21), (0xCABF56BB, .tcbarm 42 63 21 21),
    (0xCABF56BC, .tcbret 42 63 21 21)] : List (Word × Instr)), decodeWord p.1 = .ok p.2 := by decide +kernel

theorem test_words_scalar : ∀ p ∈ ([
    (0xD8AC9600, .sadd 69 50 44), (0xD8AC9601, .ssub 69 50 44), (0xD8AC9602, .smul 69 50 44), (0xD8AC9603, .sand 69 50 44),
    (0xD8AC9604, .sor 69 50 44), (0xD8AC9605, .sxor 69 50 44), (0xD8AC9606, .sshl 69 50 44), (0xD8AC9607, .sshr 69 50 44),
    (0xD8AC9608, .ssar 69 50 44), (0xD8AC9609, .smin 69 50 44), (0xD8AC960A, .smax 69 50 44), (0xD8AC960B, .sminu 69 50 44),
    (0xD8AC960C, .smaxu 69 50 44), (0xDACC960D, .scmp 5 6 50 44), (0xD8AC800F, .smov 69 50), (0xD8ACA290, .saddi 69 50 69),
    (0xD8AC8A91, .sshli 69 50 21), (0xD8AC8A92, .sshri 69 50 21), (0xD8AC8A93, .ssari 69 50 21), (0xD8AC8018, .v2s 69 50),
    (0xD8AC8019, .s2v 69 50), (0xD8AC961A, .sld32 69 50 44), (0xD8AC961B, .sst32 69 50 44), (0xD8CC961C, .sadd64 70 50 44)] : List (Word × Instr)), decodeWord p.1 = .ok p.2 := by decide +kernel

theorem test_words_system : ∀ p ∈ ([
    (0xE8A08280, .srd 69 261), (0xE8A08281, .swr 69 261), (0xE0000002, .tret), (0xE00C8003, .tinv 50), (0xE0000004, .tinva),
    (0xE8AC9605, .pinv 69 50 44), (0xE8A01606, .pinva 69 44), (0xE8AC9607, .launch 69 50 44), (0xE8A00008, .ckpt 69),
    (0xE8AC9609, .keyset 69 50 44), (0xE00C800A, .keyerase 50), (0xE8AC960B, .ustat 69 50 44), (0xE8AC9640, .slnew 69 50 44),
    (0xE8AC8041, .sldel 69 50), (0xE8AC9642, .slassign 69 50 44), (0xE8AC9643, .slquiesce 69 50 44), (0xE8AC8044, .slresume 69 50),
    (0xE8AC9645, .slsplit 69 50 44), (0xE8AC8046, .slfuse 69 50), (0xE8AC9647, .slways 69 50 44), (0xE8AC9648, .slplace 69 50 44),
    (0xE8AC9649, .slquota 69 50 44), (0xE8AC804A, .slreset 69 50), (0xE8AC964B, .slstat 69 50 44)] : List (Word × Instr)), decodeWord p.1 = .ok p.2 := by decide +kernel

theorem test_words_prefix : ∀ p ∈ ([
    (0xF0A7D800, .rep 41 true true true 11), (0xF1D00000, .ifp 6 true), (0xF2800000, .limm 2), (0xF3800000, .swin 4)] : List (Word × Instr)), decodeWord p.1 = .ok p.2 := by decide +kernel

/-! ## Words that are refused, and why (R57) -/

/-- R38: a scalar pair at an odd number; at an even one the same instruction is well-formed. -/
theorem test_defect_oddPair : (Instr.iadd64 4 5 3 true).defect = some .oddPair ∧ decodeWord 0x008141D4 = .error (.defect .oddPair) ∧
    (Instr.iadd64 4 5 3 false).defect = none ∧ decodeWord 0x00814194 = .ok (.iadd64 4 5 3 false) := by decide +kernel
/-- R122: HCMP2 names an even predicate. -/
theorem test_defect_oddPredicate : (Instr.hcmp2 0 1 2 3 false).defect = some .oddPredicate ∧
    decodeWord 0x502081A4 = .error (.defect .oddPredicate) ∧ decodeWord 0x504081A4 = .ok (.hcmp2 0 2 2 3 false) := by decide +kernel
/-- R46: atomic codes 11 to 15; R50: LIMM target 3, SWIN 5. -/
theorem test_defect_fieldLimit : (Instr.atomSp 1 2 3 11).defect = some .fieldLimit ∧ decodeWord 0x7020818B = .error (.defect .fieldLimit) ∧
    (Instr.limm 3).defect = some .fieldLimit ∧ decodeWord 0xF2C00000 = .error (.defect .fieldLimit) ∧
    (Instr.swin 5).defect = some .fieldLimit ∧ decodeWord 0xF3A00000 = .error (.defect .fieldLimit) := by decide +kernel
/-- R47: a command is not its own predecessor, but 63 names none whatever its ID. -/
theorem test_defect_ownPredecessor : (Instr.mma 5 5 63 0).defect = some .ownPredecessor ∧
    decodeWord 0xC145FC01 = .error (.defect .ownPredecessor) ∧ (Instr.mma 63 63 63 0).defect = none ∧
    decodeWord 0xCFFFFC01 = .ok (.mma 63 63 63 0) := by decide +kernel
/-- R144: 0x007 is no special register; %n cannot be written. -/
theorem test_defect_register : (Instr.srd 1 7).defect = some .noSuchRegister ∧ decodeWord 0xE0200380 = .error (.defect .noSuchRegister) ∧
    (Instr.swr 1 4).defect = some .readOnlyRegister ∧ decodeWord 0xE0200201 = .error (.defect .readOnlyRegister) := by decide +kernel
/-- R49, R38, R41: an unassigned code, a field that must be zero, and a compare with d[3] set. -/
theorem test_refused_words : decodeWord 0x00000000 = .error .unassigned ∧ decodeWord 0x9000000A = .error .unassigned ∧
    decodeWord 0x20204086 = .error .nonzeroField ∧ decodeWord 0x01000018 = .error .nonzeroField ∧
    decodeWord 0x80400000 = .error .nonzeroField ∧ decodeWord 0xF4000000 = .error .unassigned := by decide +kernel
/-- R36: the host's first word of a row: bits counted from the least significant bit of the word. -/
theorem test_tableWord : decodeTableWord 32 0x10DFFFFB = some (.movi 6 (BitVec.ofInt 18 (-5))) ∧ decodeTableWord 32 0 = none := by decide +kernel

/-! ## One step of a program placed at reset -/

/-- The state after reset with the word placed where the next step fetches, the one thread there with `x` in v1 and `y` in v2. -/
def placed (w : Nat) (x y : Word) : State :=
  let s := State.reset.withFetchWord 32 w
  { s with blocks := s.blocks.map (fun b => { b with threads := b.threads.map (fun t => (t.put 1 x).put 2 y) }) }

/-- What `f` says of the one thread after a step from a placed state. -/
noncomputable def ran {α : Type} (w : Nat) (x y : Word) (f : Thread → α) : Option α :=
  match step (placed w x y) with
  | .next s => (s.blocks.head?.bind (fun b => b.threads.head?)).map f
  | _ => none

/-- What `f` says of the state after a step from a placed state. -/
noncomputable def came {α : Type} (w : Nat) (x y : Word) (f : State → α) : Option α :=
  match step (placed w x y) with
  | .next s => some (f s)
  | _ => none

/-- R90: IADD v3, v1, v2 wraps, and the thread goes on to the next word. -/
theorem test_iadd : ran 0x00604101 0xFFFFFFFF 2 (fun t => (t.get 3, t.pc)) = some (1, 0x10004) := by decide +kernel
/-- R90: ISUB v1, v1, v2, a source that is also the destination. -/
theorem test_isub : ran 0x00204102 1 2 (fun t => (t.get 1, t.get 2)) = some (0xFFFFFFFF, 2) := by decide +kernel
/-- R90: IMULHI takes the signed product, IMULHIU the unsigned one. -/
theorem test_imulhi : ran 0x00604104 0xFFFFFFFF 2 (fun t => t.get 3) = some 0xFFFFFFFF := by decide +kernel
theorem test_imulhiu : ran 0x00604105 0xFFFFFFFF 2 (fun t => t.get 3) = some 1 := by decide +kernel
/-- R90: a zero divisor gives all ones; the least number over −1 wraps. -/
theorem test_idiv_zero : ran 0x00604108 7 0 (fun t => t.get 3) = some 0xFFFFFFFF := by decide +kernel
theorem test_idiv_least : ran 0x00604108 0x80000000 0xFFFFFFFF (fun t => t.get 3) = some 0x80000000 := by decide +kernel
theorem test_irem_sign : ran 0x0060410A 0xFFFFFFF9 2 (fun t => t.get 3) = some 0xFFFFFFFF := by decide +kernel
/-- R90: IADDS clamps. -/
theorem test_iadds : ran 0x00604110 0x7FFFFFFF 1 (fun t => t.get 3) = some 0x7FFFFFFF := by decide +kernel
/-- R38, R90: IADD64 carries from one register of a pair to the next: (v1, v2) + (v1, v2) into (v3, v4). -/
theorem test_iadd64 : ran 0x00604094 0x80000000 1 (fun t => (t.get 3, t.get 4)) = some (0, 3) := by decide +kernel
/-- R41, R91: ICMP LT is signed, LTU unsigned (p2). -/
theorem test_icmp_signed : ran 0x04404118 0xFFFFFFFF 1 (fun t => t.preds) = some 4 := by decide +kernel
theorem test_icmp_unsigned : ran 0x0C404118 0xFFFFFFFF 1 (fun t => t.preds) = some 0 := by decide +kernel
/-- R96: MOVI v6, −5. -/
theorem test_movi : ran 0x10DFFFFB 0 0 (fun t => t.get 6) = some 0xFFFFFFFB := by decide +kernel
/-- R96, R98: arithmetic shifts copy the sign; shift amounts are taken modulo 32. -/
theorem test_sar : ran 0x2060410A 0x80000000 33 (fun t => t.get 3) = some 0xC0000000 := by decide +kernel
theorem test_shl : ran 0x20604108 3 33 (fun t => t.get 3) = some 6 := by decide +kernel
/-- R99: CLZ of 0 is 32. -/
theorem test_clz : ran 0x20604010 0 0 (fun t => t.get 3) = some 32 := by decide +kernel
/-- R111: 1.0 + 2.0 is 3.0; ∞ − ∞ is the canonical NaN (R71). -/
theorem test_fadd : ran 0x30604100 0x3F800000 0x40000000 (fun t => t.get 3) = some 0x40400000 := by decide +kernel
theorem test_fsub_inf : ran 0x30604103 0x7F800000 0x7F800000 (fun t => t.get 3) = some 0x7FC00000 := by decide +kernel
/-- R39: FMUL toward +∞ of 1 + 2^−23 by itself is 1 + 3 × 2^−23. -/
theorem test_fmul_up : ran 0x3060410D 0x3F800001 0x3F800001 (fun t => t.get 3) = some 0x3F800003 := by decide +kernel
/-- R76: F2I holds 3 × 10^9 within the range. -/
theorem test_f2i : ran 0x40604018 0x4F32D05E 0 (fun t => t.get 3) = some 0x7FFFFFFF := by decide +kernel
/-- R121: HADD2 adds each half by itself: (1.0, 2.0) + (1.0, 1.0). -/
theorem test_hadd2 : ran 0x50604100 0x40003C00 0x3C003C00 (fun t => t.get 3) = some 0x42004000 := by decide +kernel
/-- R131: BRA goes back by two words; R133: CALL 4, +2 moves the window up and leaves the link. -/
theorem test_bra : ran 0x803FFFFE 0 0 (fun t => t.pc) = some 0xFFF8 := by decide +kernel
theorem test_call : ran 0x90800002 0 0 (fun t => (t.pc, t.wb, t.f, t.get 0, t.get 1, t.get 2)) =
    some (0x10008, 4, 20, 0x10004, 0, 4 * 256 + 24) := by decide +kernel
/-- R136: FRAME 8. R138: NOP. R139: EXIT ends the thread. -/
theorem test_frame : ran 0x90000384 0 0 (fun t => (t.f, t.pc)) = some (8, 0x10004) := by decide +kernel
theorem test_nop : ran 0x90000008 5 6 (fun t => (t.regs.take 3, t.pc)) = some ([0, 5, 6], 0x10004) := by decide +kernel
theorem test_exit : ran 0x90000007 0 0 (fun t => t.exited) = some true := by decide +kernel
/-- R17, R32, R33: a register beyond the window: no table entry is enabled, so the thread stops. -/
theorem test_beyond_window : ran 0x03004101 0 0 (fun t => (t.stopped, t.get 1)) = some (true, 0) := by decide +kernel
/-- R57: the word of zeros is no instruction. -/
theorem test_zero_word : ran 0 0 0 (fun t => t.stopped) = some true := by decide +kernel
/-- R52: SWIN 2. R186: SMOV, and SADDI s3 ← s1 − 1. -/
theorem test_swin : ran 0xF3400000 0 0 (fun t => t.swb) = some 64 := by decide +kernel
theorem test_saddi : came 0xD0607F90 0 0 (fun s => s.blocks.map (fun b => b.sregs.getD 3 0)) = some [0xFFFFFFFF] := by decide +kernel
/-- R26, R144: SRD v3, %n; %level of the loader is H. -/
theorem test_srd_n : ran 0xE0600200 0 0 (fun t => t.get 3) = some 24 := by decide +kernel
theorem test_srd_level : ran 0xE0600300 0 0 (fun t => t.get 3) = some 2 := by decide +kernel
/-- R270: SST.32 v1 to v2 + 0 of the scratchpad stores the four bytes, the lowest first. -/
theorem test_sst : came 0x7020801A 0x11223344 8 (fun s => s.blocks.map (fun b => b.scratchBytes 8 4)) =
    some [[0x44, 0x33, 0x22, 0x11]] := by decide +kernel
/-- R194: CINIT with a zero count raises BOUND, with no enabled entry the thread stops. -/
theorem test_cinit_zero : ran 0xA0600028 0 0 (fun t => t.stopped) = some true := by decide +kernel

/-! ## States and operands that meet the hypotheses of the statements: helpers -/

/-- A thread at level H with 24 registers, numbered from 100. -/
def one : Thread :=
  { tid := 0, lane := 0, quad := 0, pc := 0x10000, regs := (List.range 24).map (fun i => BitVec.ofNat 32 (100 + i)), n := 24, f := 24, level := .h }

/-- A block of the hypervisor on the armature core whose one thread is `t`. -/
def home (t : Thread) : Block := { loaderBlock State.reset with threads := [t] }

/-- The machine with that block in issue; memory holds one instruction word, with a page mapped at 0. -/
def bench (b : Block) (w : Nat := 0) : State :=
  { State.reset.withFetchWord 32 w with
    blocks := [b], cur := { tids := [0], pc := 0x10000, next := 0x10004, word := 0x12345678 } }

theorem solo_of (s : State) (b : Block) (t : Thread) (hs : s.blocks[s.cur.blk]? = some b) (hb : b.threads = [t]) (h0 : t.tid = 0)
    (ha : s.cur.tids = [0]) (hg : t.guardOk = true) : Solo s b t :=
  { block := hs, thread := by rw [hb, h0]; rfl, alone := by rw [ha, h0], guard := hg
    numbered := by
      intro k u hk
      rw [hb] at hk
      match k, hk with
      | 0, hk => obtain rfl : t = u := by simpa using hk
                 exact h0 }

/-- The one thread of the bench issues alone, whatever it is. -/
theorem bench_solo (t : Thread) (h0 : t.tid = 0) (hg : t.guardOk = true) (w : Nat := 0) : Solo (bench (home t) w) (home t) t :=
  solo_of _ _ _ rfl rfl h0 rfl hg

theorem except_of {ε α : Type} (r : Except ε α) (p : α → Prop) [∀ x, Decidable (p x)]
    (h : (match r with | .ok x => decide (p x) | .error _ => false) = true) : ∃ x, r = .ok x ∧ p x := by
  cases r with
  | error e => cases h
  | ok x => exact ⟨x, rfl, of_decide_eq_true h⟩

theorem dev_of (r : Dev) (p : List Byte → State → Prop) [∀ x y, Decidable (p x y)]
    (h : (match r with | .ok x y => decide (p x y) | _ => false) = true) : ∃ x y, r = .ok x y ∧ p x y := by
  cases r with
  | ok x y => exact ⟨x, y, rfl, of_decide_eq_true h⟩
  | trap tr => cases h
  | wait w => cases h

theorem option_of {α : Type} (r : Option α) (p : α → Prop) [∀ x, Decidable (p x)]
    (h : (match r with | some x => decide (p x) | none => false) = true) : ∃ x, r = some x ∧ p x := by
  cases r with
  | none => cases h
  | some x => exact ⟨x, rfl, of_decide_eq_true h⟩

theorem dram_of {ε : Type} (r : Except ε Xlated) (p : Xlated → Prop) [∀ x, Decidable (p x)]
    (h : (match r with | .ok x => decide (p x) && (match x.place with | .dram _ _ _ => true | _ => false) | .error _ => false) = true) :
    ∃ x, r = .ok x ∧ x.InDram ∧ p x := by
  cases r with
  | error e => cases h
  | ok x =>
    obtain ⟨h1, h2⟩ := Bool.and_eq_true_iff.mp h
    refine ⟨x, rfl, ?_, of_decide_eq_true h1⟩
    cases hp : x.place with
    | line g => rw [hp] at h2; cases h2
    | dram a k g => exact ⟨a, k, g, hp⟩
    | chip a => rw [hp] at h2; cases h2
    | host a k => rw [hp] at h2; cases h2

theorem write_of {ε : Type} (r : (State × Bool) × Option ε) (i k : Nat) (t : Thread) (h : r.2.isNone = true)
    (h2 : (r.1.1.thread? i k).map (·.2) = some t) : ∃ s' n b', r = ((s', n), none) ∧ s'.thread? i k = some (b', t) := by
  obtain ⟨⟨s', n⟩, o⟩ := r
  cases o with
  | some x => cases h
  | none =>
    obtain ⟨⟨b', u⟩, h3, h4⟩ := Option.map_eq_some_iff.mp h2
    exact ⟨s', n, b', rfl, by rw [h3]; simpa using h4⟩

/-- Registers in order for every thread that executes, as a decidable fact about one thread. -/
theorem regsOk_of (t : Thread) (vs ss srcs : List Nat) (h1 : checkRegs (home t) t vs ss = none) (h2 : checkPoison t srcs = none) (w : Nat := 0) :
    (bench (home t) w).regsOk (home t) vs ss srcs := by
  intro u hu _ _
  obtain rfl : u = t := by simpa [home] using hu
  exact ⟨h1, h2⟩

theorem error_of {ε α : Type} (r : Except ε α) (p : ε → Prop) [∀ x, Decidable (p x)]
    (h : (match r with | .error x => decide (p x) | .ok _ => false) = true) : ∃ x, r = .error x ∧ p x := by
  cases r with
  | error x => exact ⟨x, rfl, of_decide_eq_true h⟩
  | ok x => cases h

theorem stop_of (r : State × Option Stop) (p : State → Trap → Prop) [∀ s tr, Decidable (p s tr)]
    (h : (match r.2 with | some (.trap tr) => decide (p r.1 tr) | _ => false) = true) : ∃ s' tr, r = (s', some (.trap tr)) ∧ p s' tr := by
  obtain ⟨s', o⟩ := r
  match o, h with
  | some (.trap tr), h => exact ⟨s', tr, rfl, of_decide_eq_true h⟩

theorem wait_of (r : State × Option Stop) (h : (match r.2 with | some (.wait _) => true | _ => false) = true) : ∃ s' w, r = (s', some (.wait w)) := by
  obtain ⟨s', o⟩ := r
  match o, h with
  | some (.wait w), _ => exact ⟨s', w, rfl⟩

theorem holds_of (r : Dev) (h : (match r with | .wait _ => true | _ => false) = true) : ∃ w, r = .wait w := by
  cases r with
  | wait w => exact ⟨w, rfl⟩
  | ok x y => cases h
  | trap tr => cases h

theorem traps_of (r : Dev) (h : (match r with | .trap _ => true | _ => false) = true) : ∃ tr, r = .trap tr := by
  cases r with
  | trap tr => exact ⟨tr, rfl⟩
  | ok x y => cases h
  | wait w => cases h

theorem ends_none {α β : Type} (r : α × Option β) (h : r.2.isNone = true) : ∃ s', r = (s', none) := by
  obtain ⟨s', o⟩ := r
  cases o with
  | none => exact ⟨s', rfl⟩
  | some x => cases h

theorem ends_some {α β : Type} (r : α × Option β) (h : r.2.isSome = true) : ∃ s' x, r = (s', some x) := by
  obtain ⟨s', o⟩ := r
  cases o with
  | none => cases h
  | some x => exact ⟨s', x, rfl⟩

/-- The state in which what a step sets going ends in steps of its own. -/
def deferring (s : State) : State := { s with later := true }

/-- The state with a logged store of the hypervisor's to a byte. -/
def logged (s : State) (va : Nat) (o : Nat := Config.ownerHv) (c : Nat := Config.armatureCore) : State :=
  { s with sideLog := [{ core := c, owner := o, slice := o, blk := 99, tids := [0], level := .h, stage2 := false, byVa := true, va := va, gpa := va, cells := [(va, 0)], seq := 1 }] }

/-! ### Encodings and register instructions -/

theorem witness_DecodeOfEncode : (Instr.iadd64 127 126 126 true).defect = none ∧ encode (.iadd64 127 126 126 true) = some 0x0FFFBF54 := by
  decide +kernel

theorem witness_EncodeOfDecode : decodeWord 0x0FFFBF54 = .ok (.iadd64 127 126 126 true) := by decide +kernel

/-- The highest registers that a thread may name: v23 of a window of 24, s127 of 128; pairs end there too. -/
theorem witness_registers : let s := bench (home one)
    s.issuing (home one) ∧
    s.regsOk (home one) (23 :: (s.vecA 23 1 ++ s.vecB 127 1 true)) (State.scaB 127 1 true) (23 :: (s.vecA 23 1 ++ s.vecB 127 1 true)) ∧
    s.regsOk (home one) ([22, 23] ++ (s.vecA 22 2 ++ s.vecB 126 2 true)) (State.scaB 126 2 true)
      ([22, 23] ++ (s.vecA 22 2 ++ s.vecB 126 2 true)) ∧
    s.regsOk (home one) ([22, 23] ++ (s.vecA 22 2 ++ s.vecB 22 2 false)) (State.scaB 22 2 false)
      ([22, 23] ++ (s.vecA 22 2 ++ s.vecB 22 2 false)) ∧
    s.regsOk (home one) (23 :: (upto 16 1 8 ++ s.vecB 23 1 false)) (State.scaB 23 1 false) (upto 16 1 8 ++ s.vecB 23 1 false) :=
  ⟨rfl, regsOk_of _ _ _ _ (by decide +kernel) (by decide +kernel), regsOk_of _ _ _ _ (by decide +kernel) (by decide +kernel),
    regsOk_of _ _ _ _ (by decide +kernel) (by decide +kernel), regsOk_of _ _ _ _ (by decide +kernel) (by decide +kernel)⟩

/-- A division whose result comes at once, and one whose result comes later. -/
theorem witness_IntegerArithmetic : let s := bench (home one)
    (s.later = false ∧ Solo (deferring s) (home one) one ∧ (deferring s).later = true ∧
      FieldsOk (home one) one (23 :: ((deferring s).vecA 22 1 ++ (deferring s).vecB 127 1 true)) (State.scaB 127 1 true)
        ((deferring s).vecA 22 1 ++ (deferring s).vecB 127 1 true)) ∧
    s.issuing (home one) ∧
    s.regsOk (home one) ([22, 23] ++ (s.vecA 22 2 ++ s.vecB 126 2 true)) (State.scaB 126 2 true) (s.vecA 22 2 ++ s.vecB 126 2 true) ∧
    (0 : Reg) = 0 ∧ false = false :=
  ⟨⟨rfl, solo_of _ _ _ rfl rfl rfl rfl rfl, rfl, ⟨by decide +kernel, by decide +kernel⟩⟩, rfl, regsOk_of _ _ _ _ (by decide +kernel) (by decide +kernel), rfl, rfl⟩

theorem witness_IntegerCompares : let s := bench (home one)
    s.issuing (home one) ∧ s.regsOk (home one) (s.vecA 22 2 ++ s.vecB 22 2 false) (State.scaB 22 2 false) (s.vecA 22 2 ++ s.vecB 22 2 false) :=
  ⟨rfl, regsOk_of _ _ _ _ (by decide +kernel) (by decide +kernel)⟩

theorem witness_LogicAndShifts : let s := bench (home one)
    s.issuing (home one) ∧
    s.regsOk (home one) ([22, 23] ++ (s.vecA 22 2 ++ s.vecB 127 1 true)) (State.scaB 127 1 true) (s.vecA 22 2 ++ s.vecB 127 1 true) ∧
    (0 : Reg) = 0 ∧ false = false :=
  ⟨rfl, regsOk_of _ _ _ _ (by decide +kernel) (by decide +kernel), rfl, rfl⟩

theorem witness_Immediates : let s := bench (home one)
    s.issuing (home one) ∧ s.regsOk (home one) [23, 23] [] [23] := ⟨rfl, regsOk_of _ _ _ _ (by decide +kernel) (by decide +kernel)⟩

/-- MOVRI and MOVWI: the highest register of the window in v1, and the first beyond it. -/
theorem witness_SelectMoveAndPredicates : let t := one.put 1 23; let u := one.put 1 24; let s := bench (home t)
    (s.issuing (home t) ∧ s.regsOk (home t) (23 :: (s.vecA 1 1 ++ s.vecB 127 1 true)) (State.scaB 127 1 true) (s.vecA 1 1 ++ s.vecB 127 1 true) ∧
      (s.opA t 1).toNat < t.f ∧ checkPoison t [(s.opA t 1).toNat] = none) ∧
    (Solo (bench (home u)) (home u) u ∧ (bench (home u)).regsOk (home u) (23 :: (bench (home u)).vecA 1 1) [] ((bench (home u)).vecA 1 1) ∧
      u.f ≤ ((bench (home u)).opA u 1).toNat) :=
  ⟨⟨rfl, regsOk_of _ _ _ _ (by decide +kernel) (by decide +kernel), by decide, by decide⟩,
    bench_solo _ rfl rfl, regsOk_of _ _ _ _ (by decide +kernel) (by decide +kernel), by decide⟩

theorem witness_BitOperations : let s := bench (home one)
    (s.issuing (home one) ∧ s.regsOk (home one) ([22, 23] ++ (s.vecA 22 2 ++ s.vecB 126 2 true)) (State.scaB 126 2 true)
      ([22, 23] ++ (s.vecA 22 2 ++ s.vecB 126 2 true))) ∧
    (0 < 2 ^ 0 ∧ 2 ^ 64 - 1 < 2 ^ 64 ∧ 2 ^ 64 - 1 ≠ 0) ∧ 2 ^ 32 - 1 < 2 ^ 32 ∧ (7 < 8 ∧ 0 < 8) ∧
    ((0 : Nat) < (fieldOf 0x101).1 ∧ (fieldOf 0x101).1 + (fieldOf 0x101).2 ≤ 2) ∧ (63 < 64 ∧ 7 < 64) :=
  ⟨⟨rfl, regsOk_of _ _ _ _ (by decide +kernel) (by decide +kernel)⟩, by decide, by decide, by decide, by decide +kernel, by decide⟩

theorem witness_RoundingAndAlgebra : 2 * (3 % 2 ^ 1) = 2 ^ 1 ∧
    (0x7F800000 < 2 ^ (fp32.top + 1) ∧ fp32.decode 0x7F800000 ≠ .nan) ∧ (0xFFFFFFFF < 2 ^ (fp32.top + 1) ∧ fp32.decode 0xFFFFFFFF = .nan) := by
  decide +kernel

theorem witness_SinglePrecision : let s := bench (home one)
    (s.issuing (home one) ∧ s.regsOk (home one) (23 :: (s.vecA 23 1 ++ s.vecB 23 1 false)) (State.scaB 23 1 false)
      (23 :: (s.vecA 23 1 ++ s.vecB 23 1 false))) ∧
    (0xFF800000 < 2 ^ 32 ∧ fp32.decode 0xFF800000 = .inf true) ∧ (0xFFFFFFFF < 2 ^ 32 ∧ fp32.decode 0xFFFFFFFF = .nan) ∧
    fp32.decode 0x7FC00000 = .nan ∧ (0x80000001 < 2 ^ 32 ∧ fp32.decode 0x80000001 = .fin true 1 (-149) ∧ 1 ≠ 0) :=
  ⟨⟨rfl, regsOk_of _ _ _ _ (by decide +kernel) (by decide +kernel)⟩, by decide +kernel, by decide +kernel, by decide +kernel, by decide +kernel⟩

/-- F2I and F2U at the ends of their ranges: inside, one above, one below. -/
theorem witness_Conversions : let s := bench (home one)
    (s.issuing (home one) ∧ s.regsOk (home one) ([22, 23] ++ s.vecA 22 2) [] (s.vecA 22 2)) ∧
    ((-2 : Int) ^ 31 ≤ -2147483648 ∧ (-2147483648 : Int) ≤ 0 ∧ (0 : Int) ≤ 4294967295 ∧ (4294967295 : Int) < 2 ^ 32) ∧
    ((-2147483648 : Int) ≤ roundInt 0 true 2147483648 0 ∧ roundInt 0 false 4294967295 0 ≤ 4294967295) ∧
    4294967295 < roundInt 0 false 4294967296 0 ∧ roundInt 0 true 2147483649 0 < -2147483648 ∧ roundInt 1 true 3 (-1) = -1 :=
  ⟨⟨rfl, regsOk_of _ _ _ _ (by decide +kernel) (by decide +kernel)⟩, by decide, by decide +kernel, by decide +kernel, by decide +kernel, by decide +kernel⟩

theorem witness_DoublePrecision : let s := bench (home one)
    s.issuing (home one) ∧ s.regsOk (home one) ([22, 23] ++ (s.vecA 22 2 ++ s.vecB 126 2 true)) (State.scaB 126 2 true)
      ([22, 23] ++ (s.vecA 22 2 ++ s.vecB 126 2 true)) := ⟨rfl, regsOk_of _ _ _ _ (by decide +kernel) (by decide +kernel)⟩

theorem witness_PackedPrecision : let s := bench (home one)
    s.issuing (home one) ∧ s.regsOk (home one) (23 :: (upto 16 1 8 ++ s.vecB 127 1 true)) (State.scaB 127 1 true) (upto 16 1 8 ++ s.vecB 127 1 true) :=
  ⟨rfl, regsOk_of _ _ _ _ (by decide +kernel) (by decide +kernel)⟩

/-- What a register shape leaves alone: a thread that executes, one whose guard fails, and registers and predicates at their bounds. -/
theorem witness_RegisterFrame : let s := bench (home one); let u : Thread := { one with pfx := { ifpv := true } }
    (Binary (.xor 23 23 127 true) 23 23 127 true (fun x y => x ^^^ y) ∧ s.issuing (home one) ∧ s.regsOk (home one) (23 :: (s.vecA 23 1 ++ s.vecB 127 1 true)) (State.scaB 127 1 true) (s.vecA 23 1 ++ s.vecB 127 1 true)) ∧
    ((home one).threads[0]? = some one ∧ s.runs one ∧ one.guardOk = true) ∧ ((home u).threads[0]? = some u ∧ (bench (home u)).runs u ∧ u.guardOk = false) ∧
    (one.n ≤ one.regs.length ∧ one.f ≤ one.n ∧ 23 < one.f ∧ 22 < one.f ∧ 22 ≠ 23) ∧ (7 < 8 ∧ 0 < 8 ∧ 0 ≠ 7) :=
  ⟨⟨does_of _ _ _ _ _ _ (fun _ => rfl) (fun _ _ _ => rfl), rfl, regsOk_of _ _ _ _ (by decide +kernel) (by decide +kernel)⟩,
    ⟨rfl, by unfold State.runs; decide, by decide⟩,
    ⟨rfl, by unfold State.runs; decide, by decide⟩, by decide, by decide⟩

/-! ### Prefix words, flow, traps -/

/-- Bytes put into device memory. -/
def stored (s : State) (a : Nat) (bytes : List Byte) : State := { s with dram := Cells.writeList s.dram a bytes }

/-- With a page of owner 0x7F mapped at 0 too. -/
def both (s : State) : State :=
  { s with tlb1 := ⟨Config.ownerFw, 0, 2 ^ 21, 0, 0x1F⟩ :: s.tlb1, tlb2 := ⟨Config.ownerFw, 0, 2 ^ 21, (2 ^ 22 + 3 * 2 ^ 11 + 254) * 2 ^ 96 + 0x1F⟩ :: s.tlb2 }

/-- A thread in the middle of a REP, at the last repeat but one; at the last. -/
theorem witness_PrefixesAndRepeats :
    let t (n : Nat) : Thread := { one with pfx := { repv := true, next := n, cnt := 63 } }
    ((t 62).pfx.repv = true ∧ (t 62).pfx.next < (t 62).pfx.cnt) ∧ ((t 63).pfx.cnt ≤ (t 63).pfx.next) ∧ one.pfx.repv = false ∧
    (bench (home one)).issuing (home one) ∧ (bench (home one)).regsOk (home one) [] [] [] :=
  ⟨by decide, by decide, rfl, rfl, regsOk_of _ _ _ _ (by decide +kernel) (by decide +kernel)⟩

theorem witness_BranchTargets : let s := bench (home one)
    s.issuing (home one) ∧ (home one).Numbered ∧ ∀ k ∈ s.cur.tids, k < (home one).threads.length :=
  ⟨rfl, (bench_solo one rfl rfl).numbered, by decide⟩

/-- A page of the hypervisor mapped at 2 MiB, with no second stage behind it. -/
def halfMapped (s : State) : State := { s with tlb1 := ⟨Config.ownerHv, 2 ^ 21, 2 ^ 21, 2 ^ 40, 0x1F⟩ :: s.tlb1 }

/-- A call that raises WB as far as the residency reaches; a LAND word at an indirect target; a target that is no word address, one
with bits above 55, one that is no LAND word, one on no page, and one on a page that the second stage does not have. -/
theorem witness_CallsAndJumps : let t := (one.put 1 0x10000).put 2 0; let s := bench (home t) 0x90000003
    let u := (one.put 1 0x10002).put 2 0; let v := (one.put 1 0x10000).put 2 0x01000000
    (Solo s (home t) t ∧ t.wb + 21 + max 3 (t.f - 21) ≤ t.low + t.n ∧ t.wb + 1 + max 3 (t.f - 1) = t.low + t.n) ∧
    (FieldsOk (home t) t [1, 2] [] [1, 2] ∧ (t.get64 1).toNat < 2 ^ 56 ∧ (t.get64 1).toNat % 4 = 0 ∧
      (∃ x : Word × State, s.progressed.fetchAt (home t) t.level (t.get64 1).toNat = .ok x ∧ x.1 = landWord) ∧
      t.wb + 21 + max 3 (t.f - 21) ≤ t.low + t.n) ∧
    (Solo (bench (home u)) (home u) u ∧ FieldsOk (home u) u [1, 2] [] [1, 2] ∧ (u.get64 1).toNat % 4 ≠ 0) ∧
    (Solo (bench (home v)) (home v) v ∧ FieldsOk (home v) v [1, 2] [] [1, 2] ∧ 2 ^ 56 ≤ (v.get64 1).toNat) ∧
    (Solo (bench (home t)) (home t) t ∧
      ∃ x : Word × State, (bench (home t)).progressed.fetchAt (home t) t.level (t.get64 1).toNat = .ok x ∧ x.1 ≠ landWord) ∧
    (let f := (one.put 1 0).put 2 0x100
     Solo (bench (home f)) (home f) f ∧ FieldsOk (home f) f [1, 2] [] [1, 2] ∧ ∃ e, (bench (home f)).progressed.fetchAt (home f) f.level (f.get64 1).toNat = .error e ∧
       (match e.1 with | .page _ => true | _ => false) = true) ∧
    (let f := (one.put 1 0x200000).put 2 0
     Solo (halfMapped (bench (home f))) (home f) f ∧ FieldsOk (home f) f [1, 2] [] [1, 2] ∧
       ∃ e, (halfMapped (bench (home f))).progressed.fetchAt (home f) f.level (f.get64 1).toNat = .error e ∧
       (match e.1 with | .stage2 _ _ => true | _ => false) = true) :=
  ⟨⟨bench_solo _ rfl rfl _, by decide +kernel, by decide +kernel⟩,
    ⟨⟨by decide +kernel, by decide +kernel⟩, by decide +kernel, by decide +kernel, except_of _ (fun (x : Word × State) => x.1 = landWord) (by decide +kernel), by decide +kernel⟩,
    ⟨bench_solo _ rfl rfl, ⟨by decide +kernel, by decide +kernel⟩, by decide +kernel⟩,
    ⟨bench_solo _ rfl rfl, ⟨by decide +kernel, by decide +kernel⟩, by decide +kernel⟩,
    ⟨bench_solo _ rfl rfl, except_of _ (fun (x : Word × State) => x.1 ≠ landWord) (by decide +kernel)⟩,
    ⟨bench_solo _ rfl rfl, ⟨by decide +kernel, by decide +kernel⟩,
      error_of _ (fun (e : MemFault × Nat) => (match e.1 with | .page _ => true | _ => false) = true) (by decide +kernel)⟩,
    solo_of _ _ _ rfl rfl rfl rfl rfl, ⟨by decide +kernel, by decide +kernel⟩,
      error_of _ (fun (e : MemFault × Nat) => (match e.1 with | .stage2 _ _ => true | _ => false) = true) (by decide +kernel)⟩

/-- A link with K = WB and F = 24; links that fail: K = 0, and K one above WB. -/
theorem witness_Returns : let link (x : Word) : Thread := (((({ one with wb := 4, f := 20 } : Thread)).put 0 0x10004).put 1 0).put 2 x
    let ok (t : Thread) : Prop := (t.get 1).toNat < 2 ^ 24 ∧ (t.get 2).toNat < 2 ^ 15 ∧ (t.get 0).toNat % 4 = 0 ∧
      (t.get 2).toNat / 256 % 128 ≠ 0 ∧ (t.get 2).toNat / 256 % 128 ≤ t.wb ∧ (t.get 2).toNat % 256 ≠ 0 ∧ (t.get 2).toNat % 256 ≤ min t.n 128
    (let t := link (4 * 256 + 24)
     Solo (bench (home t)) (home t) t ∧ FieldsOk (home t) t [0, 1, 2] [] [0, 1, 2] ∧ ok t ∧ t.low ≤ t.wb - 4 ∧ t.wb - 4 + 24 ≤ t.low + t.n) ∧
    (let t := link 24
     Solo (bench (home t)) (home t) t ∧ FieldsOk (home t) t [0, 1, 2] [] [0, 1, 2] ∧ ¬ok t) ∧
    (let t := link (5 * 256 + 24)
     Solo (bench (home t)) (home t) t ∧ ¬ok t) :=
  ⟨⟨bench_solo _ rfl rfl, ⟨by decide +kernel, by decide +kernel⟩, by decide +kernel, by decide +kernel, by decide +kernel⟩,
    ⟨bench_solo _ rfl rfl, ⟨by decide +kernel, by decide +kernel⟩, by decide +kernel⟩, bench_solo _ rfl rfl, by decide +kernel⟩

/-- FRAME of all 24 positions and of one more; WBASE below 0, up to the residency, and down to it. -/
theorem witness_WindowMoves : let t : Thread := { one with f := 23 }; let u : Thread := { one with f := 23, wb := 1 }
    (Solo (bench (home one)) (home one) one ∧ min one.n 128 < (24 : Reg).toNat + 1) ∧
    ((23 : Reg).toNat + 1 ≤ min one.n 128 ∧ one.wb + ((23 : Reg).toNat + 1) ≤ one.low + one.n) ∧
    (one.wb : Int) + (0x7F : Reg).toInt < 0 ∧
    (Solo (bench (home t)) (home t) t ∧ 0 < (1 : Reg).toInt ∧ t.wb + (1 : Reg).toNat + t.f ≤ t.low + t.n) ∧
    (Solo (bench (home u)) (home u) u ∧ (0x7F : Reg).toInt < 0 ∧ (u.low : Int) ≤ u.wb + (0x7F : Reg).toInt ∧
      (u.wb : Int) + (0x7F : Reg).toInt + u.f ≤ u.low + u.n) :=
  ⟨⟨bench_solo _ rfl rfl, by decide⟩, by decide, by decide, ⟨bench_solo _ rfl rfl, by decide⟩, bench_solo _ rfl rfl, by decide⟩

/-- Threads that end, with no rendezvous and with one that waits; a quad filed in an unused bin, in the bin of its key, in a full one whose last
quad, filed in the same clock, comes after it, and in none where all sixteen bins of its core are full. -/
theorem witness_EndAndReform : let s := bench (home one); let w : Thread := { one with wait := .rendezvous ⟨0x11, 3, 1, 0, 0, false, 0x10004, 0⟩ }
    let bin (l : List (Nat × Nat)) : Bin := ⟨Config.armatureCore, s.uids - 1, one.pc, .h, 0, l⟩
    let later (y : Nat × Nat) : Bool := y.2 == s.clock && (home one).laneGroupOf 0 < (home one).laneGroupOf y.1
    let key (x : Bin) : Bool := x.core == (home one).core && x.blk == (home one).uid && x.pc == one.pc && x.level == one.level && x.swb == one.swb &&
      (x.quads.length < 32 || x.quads.getLast?.any later)
    let full := List.replicate 31 (0, 0) ++ [(1, s.clock)]
    (s.issuing (home one) ∧ (home one).NoMeeting) ∧ ((bench (home w)).issuing (home w) ∧ ¬(home w).NoMeeting) ∧ s.blocks[0]? = some (home one) ∧
    (({ s with bins := [bin (full.take 31)] } : State).bins.findIdx? key = some 0 ∧ (full.take 31).length < 32) ∧
    (({ s with bins := [bin full] } : State).bins.findIdx? key = some 0 ∧ full.length = 32) ∧
    (s.bins.findIdx? key = none ∧ (s.bins.filter (fun x => x.core == (home one).core)).length < 16) ∧
    (let f : State := { s with bins := List.replicate 16 (bin (List.replicate 32 (0, 0))) }
     f.bins.findIdx? key = none ∧ 16 ≤ (f.bins.filter (fun x => x.core == (home one).core)).length) ∧
    ((∀ x ∈ [(7, 0), (1, 1), (3, 1)], x.2 ≤ 1) ∧
      List.Pairwise (fun x y : Nat × Nat => x.2 < y.2 ∨ x.2 = y.2 ∧ (home one).laneGroupOf x.1 ≤ (home one).laneGroupOf y.1) [(7, 0), (1, 1), (3, 1)] ∧
      Bin.insert (home one) 1 2 [(7, 0), (1, 1), (3, 1)] = [(7, 0), (1, 1), (2, 1), (3, 1)]) :=
  ⟨⟨rfl, by unfold Block.NoMeeting; decide +kernel⟩, ⟨rfl, by unfold Block.NoMeeting; decide +kernel⟩, rfl, by decide +kernel, by decide +kernel, by decide +kernel,
    by decide +kernel, by decide +kernel⟩

/-- A frame of a thread in the middle of a guarded REP, and of one with no prefix state; one with a pending IFP and LIMM. -/
theorem witness_TrapFrames : let t : Thread := { one with pfx := { repv := true, next := 63, cnt := 63, ifpv := true, gpred := 7, gsense := true } }
    (t.swb % 32 = 0 ∧ t.swb < 2 ^ 13 ∧ t.wb < 2 ^ 32 ∧ t.f < 256 ∧ t.pfx.repv = true ∧ t.pfx.next ≤ t.pfx.cnt ∧ t.pfx.cnt < 64 ∧
      t.pfx.ifpv = true ∧ t.pfx.gpred < 8) ∧ one.pfx = {} ∧
    (let u : Thread := { one with pfx := { ifpv := true, gpred := 7, gsense := true, limmv := true } }
     ∃ (p : Nat) (sense lit : Bool), p < 8 ∧ u.pfx = { ifpv := true, gpred := p, gsense := sense, limmv := lit }) :=
  ⟨by decide, rfl, 7, true, true, by decide, rfl⟩

/-- A thread of H with eight registers in its window, whose table at 0x20000 enables TRAP. -/
def trapping : Thread := { one with f := 8, tvbh := 0x20000, tsph := 0x30000 }

/-- The bench for it. -/
def trappingBench : State := stored (bench (home trapping)) 0x20070 (toBytes 8 (2 ^ 63 + 0x10000))

/-- A trap that comes later, one held by an outstanding write of its gang, and one taken at once, whose frame is in device memory. -/
theorem witness_TrapEntry : let s := trappingBench; let tr : Trap := { cause := .trap }
    let e : Entry := ⟨.trap, tr.extra, tr.addr, 0x10000, 0x12345678⟩
    let u : Thread := { trapping with pend := some e, wait := .none, waited := 0, freed := false, synced := trapping.synced }
    let v := (s.noteCause (home trapping) .h tr).updThread 0 0 (fun _ => u)
    let p := v.noteVector (home trapping) u .h tr.cause
    let owing : Block := { home trapping with returns := [{ tid := 0, width := 1, pos := 5, value := 7 }] }
    tr.cause ∉ [Cause.uncorrectable, .pageFault, .stage2Fault, .fetchFault] ∧
    (deferring s).thread? 0 0 = some (home trapping, trapping) ∧ (deferring s).later = true ∧
    ((bench owing).thread? 0 0 = some (owing, trapping) ∧ owing.boardFor (0 / 4) ≠ []) ∧
    s.thread? 0 0 = some (home trapping, trapping) ∧ s.later = false ∧ (home trapping).boardFor (0 / 4) = [] ∧
    Level.h = (if trapping.level.toNat < tr.cause.minLevel.toNat then tr.cause.minLevel else trapping.level) ∧
    v.vector (home trapping) u .h tr.cause = .handler 0x10000 ∧
    p.hostWaits (home trapping) 0 ((home trapping).storeReq .h) (trapping.tsp .h - 64).toNat = false ∧
    (∃ s' n b', p.writeVa ((home trapping).storeReq .h) false (trapping.tsp .h - 64).toNat (frameBytes e trapping) = ((s', n), none) ∧
      s'.thread? 0 0 = some (b', u)) ∧
    trapping.wb + trapping.f + min 16 trapping.n ≤ trapping.low + trapping.n :=
  ⟨by decide, rfl, rfl, ⟨rfl, by decide +kernel⟩, rfl, rfl, by decide +kernel, by decide, by decide +kernel, by decide +kernel,
    write_of _ _ _ _ (by decide +kernel) (by decide +kernel), by decide⟩

/-- Tables of zeros, and of entries with a reserved bit set or an odd address, send a cause up; a table outside the pages is a fault
itself: at S, at H and at F; one whose granule has a logged store waits. A thread stopped at F on the armature core, and on another. -/
theorem witness_FailedTrapEntries : let s := both (bench (home one)); let far : Thread := { one with tvbs := 2 ^ 40, tvbh := 2 ^ 40, tvbf := 2 ^ 40 }
    let e : Entry := ⟨.priv, 0, 0, 0, 0⟩; let z : Block := { home one with core := 3 }
    s.hostWaits (home one) 0 ((home one).loadReq .s) ((one.tvb .s).toNat + 8 * Cause.priv.code) = false ∧
    (∃ x, s.readVa ((home one).loadReq .s) false ((one.tvb .s).toNat + 8 * Cause.priv.code) 8 = .ok x ∧ (ofBytes x.1).testBit 63 = false) ∧
    (s.thread? 0 0 = some (home one, one) ∧ s.vector (home one) one .s e.cause = .disabled ∧ s.vector (home one) one .h e.cause = .disabled ∧
      s.vector (home one) one .f e.cause = .disabled) ∧
    ((logged s 0).thread? 0 0 = some (home one, one) ∧ (logged s 0).vector (home one) one .h e.cause = .held) ∧
    ((home one).core = Config.armatureCore ∧ (bench z).thread? 0 0 = some (z, one) ∧ z.core < Config.nCores ∧ (bench z).cmdLinks[z.core / 40]? = some {}) ∧
    (let z := both (bench (home far))
     z.thread? 0 0 = some (home far, far) ∧ z.vector (home far) far .s e.cause = .fault .pageFault ∧ z.vector (home far) far .h e.cause = .fault .pageFault ∧
      z.vector (home far) far .f e.cause = .fault .pageFault) :=
  ⟨by decide +kernel, except_of _ (fun (x : List Byte × State) => (ofBytes x.1).testBit 63 = false) (by decide +kernel), ⟨rfl, by decide +kernel, by decide +kernel, by decide +kernel⟩,
    ⟨rfl, by decide +kernel⟩, ⟨rfl, rfl, by decide, by decide +kernel⟩, rfl, by decide +kernel, by decide +kernel, by decide +kernel⟩

theorem witness_TrapInstruction : let t : Thread := { one with pend := some ⟨.pageFault, 4, 0x1000, 0x10000, 0⟩ }
    Solo (bench (home one)) (home one) one ∧
    (bench (home t)).threadAt 0 0 = some (0, home t, t) ∧ t.pend = some ⟨.pageFault, 4, 0x1000, 0x10000, 0⟩ ∧ t.stopped = false ∧ t.exited = false ∧
    (home t).boardFor (0 / 4) = [] ∧ ({ home t with returns := [{ tid := 0, width := 1, pos := 5, value := 7 }] } : Block).boardFor (0 / 4) ≠ [] :=
  ⟨bench_solo _ rfl rfl, rfl, rfl, rfl, rfl, by decide +kernel, by decide +kernel⟩

/-- A handler of H whose frame, 64 bytes at 0x30000, is that of a thread of U with WB 0 and F 8. -/
theorem witness_TrapReturn : let t : Thread := { one with wb := 8, f := 16, tsph := 0x30000 }
    let frame := frameBytes ⟨.trap, 0, 0, 0x10000, 0⟩ { one with level := .u, f := 8 }
    let s := stored (bench (home t)) 0x30000 frame
    let at4 (o : Nat) : Nat := ofBytes ((frame.drop o).take 4)
    (Solo s (home t) t ∧ t.level ≠ .u) ∧
    (∃ x s', s.progressed.devLoad ((home t).progressAt s.clock) t ((home t).loadReq t.level) false none (t.tsp t.level).toNat 64 = .ok x s' ∧
      x = frame ∧ (s'.thread? s.cur.blk t.tid).map (·.2) = some t ∧ s'.cur = s.cur) ∧
    (at4 16 / 2 ^ 22 % 4 ≤ t.level.toNat ∧ at4 32 % 256 ≠ 0 ∧ at4 32 % 256 ≤ min t.n 128 ∧ at4 24 / 2 ^ 16 % 256 ≤ 4 ∧
      Pfx.ofWord (at4 36) = some {} ∧ ofBytes (frame.take 8) % 4 = 0 ∧ ofBytes (frame.take 8) < 2 ^ 56 ∧ t.low ≤ at4 28 ∧
      at4 28 + at4 32 % 256 ≤ t.low + t.n ∧ at4 28 + at4 32 % 256 ≤ t.wb + t.f) :=
  ⟨⟨solo_of _ _ _ rfl rfl rfl rfl rfl, by decide⟩, dev_of _ (fun x s' => x = _ ∧ (s'.thread? _ _).map (·.2) = some _ ∧ s'.cur = _) (by decide +kernel), by decide +kernel⟩

theorem witness_PrivilegedForms : let at' (l : Level) : Thread := { one with level := l }
    (Solo (bench (home (at' .u))) (home (at' .u)) (at' .u) ∧ (at' .u).level = .u) ∧ (Solo (bench (home (at' .s))) (home (at' .s)) (at' .s) ∧ (at' .s).level = .s) ∧
    (Solo (bench (home (at' .h))) (home (at' .h)) (at' .h) ∧ (at' .h).level ≠ .f) ∧ ((0x105 : BitVec 14) = 0x104 ∨ (0x105 : BitVec 14) = 0x105) :=
  ⟨⟨bench_solo _ rfl rfl, rfl⟩, ⟨bench_solo _ rfl rfl, rfl⟩, ⟨bench_solo _ rfl rfl, by decide⟩, .inr rfl⟩

theorem witness_SpecialRegisters : let t : Thread := { one with level := .f }
    (Solo (bench (home one)) (home one) one ∧ FieldsOk (home one) one [23] [] [] ∧ FieldsOk (home one) one [22, 23] [] [] ∧ Level.h.toNat ≤ one.level.toNat) ∧
    (Solo (bench (home t)) (home t) t ∧ t.level ≠ .u ∧ FieldsOk (home t) t [22, 23] [] [22, 23] ∧ FieldsOk (home t) t [23] [] [23] ∧ t.level ≠ .s ∧ t.level = .f) :=
  ⟨⟨bench_solo _ rfl rfl, ⟨rfl, rfl⟩, ⟨rfl, rfl⟩, by decide⟩, bench_solo _ rfl rfl, by decide, ⟨rfl, rfl⟩, ⟨rfl, rfl⟩, by decide, rfl⟩

/-- A block whose thread is `t`, its spill area at 0x20000 with room for `d` positions, alone on the bench. -/
def spills (t : Thread) (d : Word) : Block := { home t with spillBase := [0x20000], spillDepth := [d] }

def spilling (t : Thread) (d : Word) : State := bench (spills t d)

/-- Windows of one position more than the residency, with an area of 64 positions and with none, and of two more where moves come in steps
of their own: a call, FRAME and WBASE; a window whose bottom falls one below it, whose tag is there and is not: WBASE and a return with
K = WB = 2. -/
theorem witness_WindowsThatMove :
    let up : Thread := { one with wb := 1, f := 23 }; let down : Thread := { one with low := 1, wb := 1, f := 23 }
    let back : Thread := ((({ one with low := 1, wb := 2, f := 22 } : Thread).put 0 0x10004).put 1 0).put 2 (2 * 256 + 24)
    let tagged (s : State) : State := stored s 0x20000 [0x14]
    let moved (s : State) (t : Thread) : State := s.becomes t (Thread.jump { t with wb := 0 } 0x10004)
    ((spilling one 64).thread? 0 0 = some (spills one 64, one) ∧ one.low + one.n < 25 ∧ (∃ s1, (spilling one 64).spillOne 0 0 = .ok s1 ∧ s1.clock = (spilling one 64).clock) ∧
      (∃ x, (spilling one 0).spillOne 0 0 = .error x ∧ (match x with | .trap _ => true | _ => false) = true) ∧
      (25 ≤ one.low + one.n + 1 ∧ ∃ s', (spilling one 64).makeRoom 0 0 25 1 = (s', none)) ∧
      (down.f ≤ down.n ∧ down.low ≤ 0 + 1 ∧ ∃ s', (moved (tagged (spilling down 64)) down).settle 0 0 1 = (s', none)) ∧
      (spilling one 64).later = false ∧ (deferring (spilling one 64)).later = true) ∧
    (∀ d, Solo (spilling one d) (spills one d) one ∧ Solo (spilling up d) (spills up d) up ∧ Solo (spilling down d) (spills down d) down ∧
      Solo (spilling back d) (spills back d) back ∧ Solo (deferring (spilling one d)) (spills one d) one) ∧
    ((∃ s', (spilling one 64).progressed.roomFor 0 0 25 = (s', none)) ∧ (∃ s' tr, (spilling one 0).progressed.roomFor 0 0 25 = (s', some (.trap tr))) ∧
      ∃ s' w, (deferring (spilling one 64)).progressed.roomFor 0 0 26 = (s', some (.wait w))) ∧
    (∀ size ∈ [24, 1 + up.f], (∃ s', (spilling up 64).progressed.roomFor 0 0 (up.wb + size) = (s', none)) ∧
      ∃ s' tr, (spilling up 0).progressed.roomFor 0 0 (up.wb + size) = (s', some (.trap tr))) ∧
    ((0 : Int) ≤ down.wb + (0x7F : Reg).toInt ∧ (∃ s', (moved (tagged (spilling down 64)) down).settle 0 0 (moveFuel down) = (s', none)) ∧
      ∃ s' x, (moved (spilling down 64) down).settle 0 0 (moveFuel down) = (s', some x)) ∧
    (FieldsOk (spills back 64) back [0, 1, 2] [] [0, 1, 2] ∧ (back.get 2).toNat / 256 % 128 = 2 ∧ (back.get 2).toNat % 256 = 24 ∧
      ∃ s', (moved (tagged (spilling back 64)) back).settle 0 0 (moveFuel back) = (s', none)) := by
  intro up down back tagged moved
  have trap (r : State × Option Stop) (h : (match r.2 with | some (.trap _) => true | _ => false) = true) : ∃ s' tr, r = (s', some (.trap tr)) := by
    obtain ⟨s', tr, e, _⟩ := stop_of r (fun _ _ => True) (by revert h; obtain ⟨s', o⟩ := r; rcases o with _ | ⟨_ | _⟩ <;> simp)
    exact ⟨s', tr, e⟩
  refine ⟨⟨rfl, by decide, except_of _ (fun (s1 : State) => s1.clock = (spilling one 64).clock) (by decide +kernel),
      error_of _ (fun (x : Stop) => (match x with | .trap _ => true | _ => false) = true) (by decide +kernel), ⟨by decide, ends_none _ (by decide +kernel)⟩,
      ⟨by decide, by decide, ends_none _ (by decide +kernel)⟩, rfl, rfl⟩, ?_,
    ⟨ends_none _ (by decide +kernel), trap _ (by decide +kernel), wait_of _ (by decide +kernel)⟩, ?_,
    ⟨by decide, ends_none _ (by decide +kernel), ends_some _ (by decide +kernel)⟩,
    ⟨⟨by decide +kernel, by decide +kernel⟩, by decide +kernel, by decide +kernel, ends_none _ (by decide +kernel)⟩⟩
  · exact fun d => ⟨solo_of _ _ _ rfl rfl rfl rfl rfl, solo_of _ _ _ rfl rfl rfl rfl rfl, solo_of _ _ _ rfl rfl rfl rfl rfl, solo_of _ _ _ rfl rfl rfl rfl rfl,
      solo_of _ _ _ rfl rfl rfl rfl rfl⟩
  · intro size hs
    simp only [List.mem_cons, List.not_mem_nil, or_false] at hs
    obtain rfl | rfl := hs
    · exact ⟨ends_none _ (by decide +kernel), trap _ (by decide +kernel)⟩
    · exact ⟨ends_none _ (by decide +kernel), trap _ (by decide +kernel)⟩

/-- A page of the hypervisor at 2 MiB in host memory. -/
def hosted (s : State) : State :=
  { s with tlb1 := ⟨Config.ownerHv, 2 ^ 21, 2 ^ 21, 2 ^ 21, 0x1F⟩ :: s.tlb1, tlb2 := ⟨Config.ownerHv, 2 ^ 21, 2 ^ 21, 0x5F⟩ :: s.tlb2 }

/-- A logged store at address 0 of the first thread of a block. -/
def owned (b : Block) (s : State) : State := { s with sideLog := (logged s 0).sideLog.map (fun e => { e with blk := b.uid }) }

/-- Entries from a page that is mapped, from one that is not, and where the frame or a spill has to wait, with a spill area and without; a
frame that cannot be read, one whose read waits, a frame of zeros, one whose PC is no word address, and one whose window has to be filled. -/
theorem witness_TrapMoves :
    let t : Thread := { one with tsph := 0x30000, tvbh := 0x40000 }
    let handled (s : State) : State := stored s (0x40000 + 8 * Cause.trap.code) (toBytes 8 (2 ^ 63 + 0x50000))
    let frame (pc : Nat) : List Byte := toBytes 8 pc ++ toBytes 24 0 ++ toBytes 32 24
    let e : Entry := ⟨.trap, 0, 0, 0x10000, 0⟩
    let w (s : State) (va : Nat) : (State × Bool) × Option (MemFault × Nat) := s.writeVa ((home t).storeReq .h) false va (frameBytes e t)
    let tret (s : State) (t : Thread) : Dev := s.progressed.devLoad ((spills t 64).progressAt s.clock) t ((spills t 64).loadReq .h) false none (t.tsp .h).toNat 64
    let read (s : State) (p : List Byte → State → Prop) : Prop := ∃ x s', tret s t = .ok x s' ∧ s'.cur = s.cur ∧ s'.later = s.later ∧ p x s'
    let far : Thread := { t with tsph := 2 ^ 40 }; let away : Thread := { t with tsph := 2 ^ 21 + 64 }
    (let s := hosted (owned (home away) (bench (home away)))
     s.thread? 0 0 = some (home away, away) ∧ s.hostWaits (home away) 0 ((home away).storeReq .h) (away.tsp .h - 64).toNat = true) ∧
    (let s := spilling t 64; s.hostWaits (spills t 64) 0 ((spills t 64).storeReq .h) (t.tsp .h - 64).toNat = false) ∧
    (let s := deferring (spilling t 64)
     s.later = true ∧ (∃ s1, s.roomFor 0 0 24 = (s1, none)) ∧ ∃ s1 v, s.roomFor 0 0 (0 + 24 + 16) = (s1, some (.wait v))) ∧
    (∀ d, ((spilling t d).thread? 0 0).isSome = true) ∧ (handled (spilling t 64)).vector (home t) t .h .trap = .handler 0x50000 ∧
    (w (handled (spilling t 64)) 0x2FFC0).2.isNone = true ∧
    (match (w (handled (spilling t 64)) (2 ^ 40)).2 with | some (.page _, _) => true | _ => false) = true ∧
    (match (w (logged (handled (spilling t 64)) 0x20000) 0x2FFC0).2 with | some (.held _, _) => true | _ => false) = true ∧
    (∃ s', (spilling t 64).makeRoom 0 0 (0 + 24 + 16) (moveFuel t) = (s', none)) ∧ (∃ s' x, (spilling t 0).makeRoom 0 0 (0 + 24 + 16) (moveFuel t) = (s', some x)) ∧
    (∃ s' v, (logged (spilling t 64) 0x20000).makeRoom 0 0 (0 + 24 + 16) (moveFuel t) = (s', some (.wait v))) ∧
    (Solo (spilling t 64) (spills t 64) t ∧ t.level ≠ .u ∧ Solo (spilling far 64) (spills far 64) far) ∧
    (∃ tr, tret (spilling far 64) far = .trap tr) ∧ (∃ v, tret (logged (spilling t 64) 0x30000) t = .wait v) ∧
    read (spilling t 64) (fun x _ => ofBytes ((x.drop 32).take 4) % 256 = 0) ∧
    read (stored (spilling t 64) 0x30000 (frame 0x10002)) (fun x _ => ofBytes ((x.drop 32).take 4) % 256 = 24 ∧ ofBytes (x.take 8) % 4 ≠ 0) ∧
    read (stored (spilling t 64) 0x30000 (frame 0x10004)) (fun x _ => ofBytes ((x.drop 32).take 4) % 256 = 24 ∧ ofBytes (x.take 8) = 0x10004 ∧
      Pfx.ofWord (ofBytes ((x.drop 36).take 4)) = some {}) := by
  intro t handled frame e w tret read far away
  refine ⟨⟨rfl, by decide +kernel⟩, by decide +kernel, ⟨rfl, ends_none _ (by decide +kernel), wait_of _ (by decide +kernel)⟩, fun d => rfl, by decide +kernel, by decide +kernel, by decide +kernel, by decide +kernel, ends_none _ (by decide +kernel), ends_some _ (by decide +kernel),
    wait_of _ (by decide +kernel), ⟨solo_of _ _ _ rfl rfl rfl rfl rfl, by decide, solo_of _ _ _ rfl rfl rfl rfl rfl⟩, traps_of _ (by decide +kernel),
    holds_of _ (by decide +kernel), ?_, ?_, ?_⟩
  · exact dev_of _ (fun (x : List Byte) (s' : State) => s'.cur = (spilling t 64).cur ∧ s'.later = false ∧ ofBytes ((x.drop 32).take 4) % 256 = 0) (by decide +kernel)
  · exact dev_of _ (fun (x : List Byte) (s' : State) => s'.cur = (spilling t 64).cur ∧ s'.later = false ∧ ofBytes ((x.drop 32).take 4) % 256 = 24 ∧ ofBytes (x.take 8) % 4 ≠ 0) (by decide +kernel)
  · exact dev_of _ (fun (x : List Byte) (s' : State) => s'.cur = (spilling t 64).cur ∧ s'.later = false ∧ ofBytes ((x.drop 32).take 4) % 256 = 24 ∧ ofBytes (x.take 8) = 0x10004 ∧
      Pfx.ofWord (ofBytes ((x.drop 36).take 4)) = some {}) (by decide +kernel)

/-! ### Between lanes, scalar registers, barriers, waits and tiles -/

/-- A block with scalar register i set. -/
def withS (b : Block) (i : Nat) (x : Word) : Block := { b with sregs := b.sregs.set i x }

/-- Two threads; s0 and s1 name both, and the issue runs both. -/
def pair : Block := withS { home one with threads := [one, { one with tid := 1, lane := 1, level := .h }] } 0 3

def pairBench : State := { bench pair with cur := { (bench pair).cur with tids := [0, 1] } }

theorem pair_meets : Meets pairBench pair 0 3 0 :=
  { block := rfl
    numbered := by
      intro k t h
      match k, h with
      | 0, h => exact (by simpa [pair, withS] using h : one = t) ▸ rfl
      | 1, h => exact (by simpa [pair, withS] using h : ({ one with tid := 1, lane := 1, level := .h } : Thread) = t) ▸ rfl
    idle := by unfold Block.NoMeeting; decide +kernel
    group := by decide +kernel
    named := by decide +kernel
    each := by decide +kernel }

theorem witness_CrossLaneResults : Meets pairBench pair 0 3 0 ∧ (∀ t ∈ pairBench.runners pair, FieldsOk pair t [23, 22] [0, 1] [23, 22]) ∧
    (∀ t ∈ pairBench.runners pair, FieldsOk pair t [22, 23] [0, 1] []) :=
  ⟨pair_meets, by unfold FieldsOk; decide +kernel, by unfold FieldsOk; decide +kernel⟩

/-- A command that has retired and that no wait covers: it wrote the first eight bytes of the scratchpad. -/
def written : Past := { uid := 900, kind := 2, seq := 1, wrote := [(1, (home one).uid, 0, 8)], tiles := [0] }

/-- SLD.32 and SST.32 at the last word of a scratchpad of 4,096 bytes, at the first address past it, at an odd one, at a live object, at a poisoned
word, and at a word that a retired command has left undefined. -/
theorem witness_ScalarUnit : let b (x : Word) : Block := { withS (home one) 2 x with live := [0], past := [written] }
    let free (x : Word) : Block := { b x with live := [] }
    let bad : Block := { b 4088 with scratchPoison := [(1023, true)] }
    let at' (x : Word) (k : Nat) : Nat := ((bench (b x)).sopA (b x) one 2).toNat + 4 * k
    (Solo (bench (b 4088)) (b 4088) one ∧ FieldsOk (b 4088) one [] (127 :: ((bench (b 4088)).scA 2 1 ++ (bench (b 4088)).scB 126 1)) [] ∧
      FieldsOk (b 4088) one ((bench (b 4088)).vecA 23 1) [127] ((bench (b 4088)).vecA 23 1) ∧ FieldsOk (b 4088) one [23] ((bench (b 4088)).scA 127 1) [] ∧
      (bench (b 4088)).litFor .a = none ∧ (bench (b 4088)).litFor .b = none ∧ FieldsOk (b 4088) one [] [126, 127, 2, 3, 4, 5] []) ∧
    (at' 4088 1 % 4 = 0 ∧ at' 4088 1 + 4 ≤ (b 4088).scratchSize ∧ (b 4088).Quiet one (b 4088) (at' 4088 1) 4 ∧
      (b 4088).liveIn (at' 4088 1) 4 = none ∧ (b 4088).Covered one (b 4088) (at' 4088 1) 4) ∧
    (at' 4092 1 % 4 = 0 ∧ (b 4092).scratchSize < at' 4092 1 + 4) ∧ at' 4089 1 % 4 ≠ 0 ∧
    (at' 12 0 % 4 = 0 ∧ at' 12 0 + 4 ≤ (b 12).scratchSize ∧ (b 12).liveIn (at' 12 0) 4 = some 0) ∧
    (Solo (bench bad) bad one ∧ bad.Settled one bad (at' 4088 1) 4 ∧ ∃ syn, bad.scratchSyndrome (at' 4088 1) 4 = some syn ∧ syn = syn) ∧
    (at' 4 0 % 4 = 0 ∧ ¬(free 4).Settled one (free 4) (at' 4 0) 4 ∧
      (∀ i < 4, (free 4).undefAt one (free 4) (at' 4 0 + i) = false → (free 4).scratchSyndrome (at' 4 0 + i) 1 = none) ∧
      ¬(free 4).Covered one (free 4) (at' 4 0) 4 ∧ (free 4).liveIn (at' 4 0) 4 = none) :=
  ⟨⟨solo_of _ _ _ rfl rfl rfl rfl rfl, ⟨by decide +kernel, by decide +kernel⟩, ⟨by decide +kernel, by decide +kernel⟩,
      ⟨by decide +kernel, by decide +kernel⟩, rfl, rfl, ⟨by decide +kernel, by decide +kernel⟩⟩,
    ⟨by decide +kernel, by decide +kernel, ⟨by unfold Block.Settled; decide +kernel, by decide +kernel⟩, by decide +kernel, by unfold Block.Covered; decide +kernel⟩,
    by decide +kernel, by decide +kernel, by decide +kernel,
    ⟨solo_of _ _ _ rfl rfl rfl rfl rfl, by unfold Block.Settled; decide +kernel, option_of _ (fun (x : Nat) => x = x) (by decide +kernel)⟩,
    ⟨by decide +kernel, by unfold Block.Settled; decide +kernel, by decide +kernel, by unfold Block.Covered; decide +kernel, by decide +kernel⟩⟩

/-- An object at the last granule of the scratchpad of a block of a neighbourhood of two. -/
def nbhd (x : Word) (o : Barrier) : Block :=
  (withS { home { one with wait := .none } with record := (loaderBlock State.reset).record + 2 ^ 128 + 2 * 2 ^ 136 } 2 x).putBarrier 4080 o

def nbhdBench (x : Word) (o : Barrier) : State := { bench (nbhd x o) with blocks := [nbhd x o, { nbhd x o with uid := 1, num := 1, threads := [] }] }

/-- The block's own object, live with one arrival missing or two, or not live; the same in the window, of the next block; a thread that waits at
it. -/
theorem witness_BarrierObjects : let o (n : Nat) : Barrier := { phase := 100, arrived := 1, expect := n, live := true, top := 0 }
    let dead : Barrier := { phase := 100, arrived := 1, expect := 2, live := false, top := 0 }
    (∀ q ∈ [o 2, o 3, dead], Solo (nbhdBench 4080 q) (nbhd 4080 q) one ∧ BarrierAt (nbhdBench 4080 q) (nbhd 4080 q) one false 2 0 (nbhd 4080 q) 4080 ∧
      BarrierAt (nbhdBench 4080 q).progressed ((nbhd 4080 q).progressAt 0) one false 2 0 ((nbhd 4080 q).progressAt 0) 4080 ∧
      FieldsOk (nbhd 4080 q) one [23] [2, 3] [] ∧ FieldsOk (nbhd 4080 q) one [] [2, 3, 4] [] ∧ (nbhdBench 4080 q).ownLogged (nbhd 4080 q).uid 0 = false) ∧
    (∀ q ∈ [o 2, o 3, dead], BarrierAt (nbhdBench (262144 + 4080) q).progressed ((nbhd (262144 + 4080) q).progressAt 0) one true 2 1
      { nbhd (262144 + 4080) q with uid := 1, num := 1, threads := [] } 4080) ∧
    (one.OffBarriers ∧ ((nbhd 4080 (o 2)).barrier 4080).live = true ∧ ((nbhd 4080 (o 2)).barrier 4080).phase = (one.get 0).toNat ∧
      ((nbhd 4080 (o 2)).barrier 4080).phase ≠ (one.get 1).toNat) ∧
    (((nbhd 4080 (o 2)).barrier 4080).arrived + 1) % 2 ^ 32 = ((nbhd 4080 (o 2)).barrier 4080).expect ∧
    (((nbhd 4080 (o 3)).barrier 4080).arrived + 1) % 2 ^ 32 ≠ ((nbhd 4080 (o 3)).barrier 4080).expect ∧ ((nbhd 4080 dead).barrier 4080).live = false ∧
    (nbhd 4080 (o 2)).scratchSyndrome 4080 16 = none ∧
    (let w : Block := { nbhd 4080 (o 2) with scratchPoison := [(1023, true)] }
     BarrierAt (bench w).progressed (w.progressAt 0) one false 2 0 (w.progressAt 0) 4080 ∧ (w.barrier 4080).live = true ∧
       (w.scratchSyndrome 4080 16).isSome = true ∧ FieldsOk w one [23, 0] [2, 3] [0] ∧ (bench w).ownLogged w.uid 0 = false) ∧
    (let u : Thread := { one with tid := 1, wait := .barrier false 4080 100 true }
     let w : Block := { nbhd 4080 (o 2) with threads := [one, u] }
     Solo (bench w) w one ∧ (bench w).blocks[0]? = some w ∧ u ∈ w.threads ∧ (bench w).barLoc 0 false 4080 = some (.scratch 0 4080) ∧
       BarrierAt (bench w).progressed (w.progressAt 0) one false 2 0 (w.progressAt 0) 4080 ∧
       u.wait = .barrier false 4080 100 true ∧ dead.live = false ∧ (o 2).phase % 2 ^ 32 = (100 : Word).toNat ∧ (o 2).live = true ∧
       ({ o 2 with phase := 101 } : Barrier).phase % 2 ^ 32 ≠ (100 : Word).toNat) := by
  refine ⟨?_, ?_, ⟨⟨rfl, rfl, nofun⟩, by decide +kernel⟩, by decide +kernel, by decide +kernel, by decide +kernel, by decide +kernel,
    ⟨{ own := fun _ => by decide +kernel, window := fun h => Bool.noConfusion h, home := by decide +kernel, aligned := rfl, inside := by decide +kernel },
      by decide +kernel, by decide +kernel, ⟨by decide +kernel, by decide +kernel⟩, by decide +kernel⟩, ?_⟩
  · intro q hq
    simp only [List.mem_cons, List.not_mem_nil, or_false] at hq
    rcases hq with rfl | rfl | rfl <;>
      exact ⟨solo_of _ _ _ rfl rfl rfl rfl rfl,
        { own := fun _ => by decide +kernel, window := fun h => Bool.noConfusion h, home := by decide +kernel, aligned := rfl, inside := by decide +kernel },
        { own := fun _ => by decide +kernel, window := fun h => Bool.noConfusion h, home := by decide +kernel, aligned := rfl, inside := by decide +kernel },
        ⟨by decide +kernel, by decide +kernel⟩, ⟨by decide +kernel, by decide +kernel⟩, by decide +kernel⟩
  · intro q hq
    simp only [List.mem_cons, List.not_mem_nil, or_false] at hq
    rcases hq with rfl | rfl | rfl <;>
      exact { own := fun h => Bool.noConfusion h, window := fun _ => by decide +kernel, home := by decide +kernel, aligned := rfl, inside := by decide +kernel }
  · refine ⟨⟨rfl, rfl, rfl, rfl, ?_⟩, rfl, .tail _ (.head _), by decide +kernel,
      { own := fun _ => by decide +kernel, window := fun h => Bool.noConfusion h, home := by decide +kernel, aligned := rfl, inside := by decide +kernel },
      rfl, rfl, by decide, rfl, by decide⟩
    intro k t h
    match k, h with
    | 0, h => exact (by simpa [nbhd, Block.putBarrier] using h : one = t) ▸ rfl
    | 1, h => exact (Option.some.inj h) ▸ rfl

/-- A thread whose wait at its object is over, at a BARWAIT and at a BARSYNC; one that a trap interrupted after its arrival. -/
theorem witness_ReleasedWaiters : let t : Thread := { one with wait := .barrier false 4080 100 true, freed := true }
    let y : Synced := ⟨0x10000, false, 4080, 100, .h, true⟩; let u : Thread := { one with synced := [y] }
    let b (t : Thread) : Block := withS (home t) 2 4080
    (Solo (bench (b t)) (b t) t ∧ t.wait = .barrier false 4080 100 true ∧ t.freed = true ∧ FieldsOk (b t) t [23] [2, 3] [23] ∧ FieldsOk (b t) t [] [2, 3] []) ∧
    (Solo (bench (b u)) (b u) u ∧ (∀ w addr token arrived, u.wait ≠ .barrier w addr token arrived) ∧
      u.arrivalAt false ((b u).sget64 u 2).toNat = some y ∧ y.freed = true ∧ FieldsOk (b u) u [] [2, 3] []) :=
  ⟨⟨solo_of _ _ _ rfl rfl rfl rfl rfl, rfl, rfl, ⟨by decide +kernel, by decide +kernel⟩, ⟨by decide +kernel, by decide +kernel⟩⟩,
    solo_of _ _ _ rfl rfl rfl rfl rfl, nofun, by decide +kernel, rfl, ⟨by decide +kernel, by decide +kernel⟩⟩

/-- An object at 0x20000 of device memory: as it stands one that is not live, one of EXPECT 2 with no arrival, one with a reserved bit set; and one
whose second half no page maps. -/
theorem witness_DeviceBarriers : let b (x : Word) : Block := withS (withS (withS (home one) 2 x) 3 0x80000000) 4 2
    let s (n : Nat) : State := stored (bench (b 0x20000)) 0x20000 (toBytes 16 n)
    let q := (b 0).rmwReq .h; let live := 2 ^ 127 + 100 * 2 ^ 64 + 2
    let off (s : State) : Prop := s.readHeld q 0x20000 16 = false ∧ s.barCheck (b 0x20000) one false (2 ^ 63 + 0x20000) = none
    let read (n : Nat) (p : List Byte → State → Prop) : Prop := ∃ x : List Byte × State, (s n).progressed.readVa q false 0x20000 16 = .ok x ∧ p x.1 x.2
    (Solo (s live) (b 0x20000) one ∧ one.OffBarriers ∧ ((b 0x20000).sget64 one 2).toNat = 2 ^ 63 + 0x20000 ∧ (s live).ownLogged (b 0).uid 0 = false ∧
      off (s live) ∧ off (s live).progressed) ∧
    (FieldsOk (b 0x20000) one [23, 0] [2, 3] [0] ∧ FieldsOk (b 0x20000) one [23] [2, 3] [] ∧ FieldsOk (b 0x20000) one [0] [2, 3] [0] ∧
      FieldsOk (b 0x20000) one [] [2, 3, 4] []) ∧
    (let o := Barrier.ofNat live (live.testBit 127)
     o.live = true ∧ ¬(o.top % 2 ^ 31 ≠ 0 ∨ o.expect = 0 ∨ 2 ^ 31 ≤ o.expect ∨ o.expect ≤ o.arrived) ∧ o.phase = (one.get 0).toNat ∧ o.phase ≠ (one.get 1).toNat) ∧
    read 0 (fun x _ => (ofBytes x).testBit 127 = false) ∧
    read (live + 2 ^ 96) (fun x _ => (ofBytes x).testBit 127 = true ∧ ofBytes x / 2 ^ 96 % 2 ^ 31 ≠ 0) ∧
    read live (fun x s1 => ofBytes x = live ∧ (s1.writeVa q false 0x20000 (toBytes 16 (live + 2 ^ 32))).2.isNone = true) ∧
    (∃ x : List Byte × State, (s live).readVa q false 0x20000 16 = .ok x ∧ ofBytes x.1 = live) ∧
    (let z : State := { bench (b 0x20000) with dramPoison := [(0x20000 / 32, false)] }
     (∃ e, z.progressed.readVa q false 0x20000 16 = .error e ∧ e = e) ∧ Solo z (b 0x20000) one ∧ z.readHeld q 0x20000 16 = false ∧ z.barCheck (b 0x20000) one false (2 ^ 63 + 0x20000) = none) := by
  intro b s q live off read
  exact ⟨⟨solo_of _ _ _ rfl rfl rfl rfl rfl, ⟨rfl, rfl, nofun⟩, by decide +kernel, by decide +kernel, by decide +kernel, by decide +kernel⟩,
    ⟨⟨by decide +kernel, by decide +kernel⟩, ⟨by decide +kernel, by decide +kernel⟩, ⟨by decide +kernel, by decide +kernel⟩, ⟨by decide +kernel, by decide +kernel⟩⟩,
    by decide +kernel, except_of _ (fun (x : List Byte × State) => (ofBytes x.1).testBit 127 = false) (by decide +kernel),
    except_of _ (fun (x : List Byte × State) => (ofBytes x.1).testBit 127 = true ∧ ofBytes x.1 / 2 ^ 96 % 2 ^ 31 ≠ 0) (by decide +kernel),
    except_of _ (fun (x : List Byte × State) => ofBytes x.1 = live ∧ (x.2.writeVa q false 0x20000 (toBytes 16 (live + 2 ^ 32))).2.isNone = true) (by decide +kernel),
    except_of _ (fun (x : List Byte × State) => ofBytes x.1 = live) (by decide +kernel),
    error_of _ (fun (e : MemFault × Nat) => e = e) (by decide +kernel), solo_of _ _ _ rfl rfl rfl rfl rfl, by decide +kernel, by decide +kernel⟩

/-- Addresses that each check of a barrier object refuses: of the window, of the block's own scratchpad, and of device memory. -/
theorem witness_BarrierFaults : let b (x y : Word) : Block := withS (withS (nbhd 0 ⟨false, 0, 0, 0, 0⟩) 2 x) 3 y
    let s (x y : Word) : State := bench (b x y)
    let q := (b 0 0).rmwReq .h
    let same (x y : Word) : Prop := let z := hosted (s x y); let addr := ((b x y).sget64 one 2).toNat
      z.progressed.readHeld q (addr % 2 ^ 56) 16 = false ∧ z.readHeld q (addr % 2 ^ 56) 16 = false ∧ z.barCheck (b x y) one false addr = z.progressed.barCheck (b x y) one false addr
    (∀ x y, Solo (s x y) (b x y) one) ∧ (s 0 0).ownLogged (b 0 0).uid one.tid = false ∧ one.OffBarriers ∧
    (FieldsOk (b 0 0) one [23, 0] [2] [0] ∧ FieldsOk (b 0 0) one [23, 0] [2, 3] [0] ∧ FieldsOk (b 0 0) one [] [2, 3, 4] []) ∧
    (let addr (x : Word) : Nat := ((b x 0).sget one 2).toNat
     addr 8 % 16 ≠ 0 ∧ (addr 524288 % 16 = 0 ∧ recNrows (b 0 0).record * recNcols (b 0 0).record ≤ addr 524288 / 262144) ∧
       (addr 4096 % 16 = 0 ∧ (b 0 0).scratchSize < addr 4096 % 262144 + 16) ∧
       (addr 262144 % 16 = 0 ∧ (s 262144 0).progressed.nbhdBlock 0 (addr 262144 / 262144) = none)) ∧
    (let addr (x y : Word) : Nat := ((b x y).sget64 one 2).toNat
     (addr 0 0x7FFFFFFF < 2 ^ 63 ∧ 2 ^ 18 ≤ addr 0 0x7FFFFFFF) ∧ (addr 262143 0 < 2 ^ 18 ∧ addr 262143 0 % 16 ≠ 0) ∧
       (addr 4096 0 < 2 ^ 18 ∧ addr 4096 0 % 16 = 0 ∧ (b 4096 0).scratchSize < addr 4096 0 + 16) ∧
       (2 ^ 63 + 2 ^ 56 ≤ addr 0 0x81000000) ∧ (2 ^ 63 ≤ addr 0x20008 0x80000000 ∧ addr 0x20008 0x80000000 < 2 ^ 63 + 2 ^ 56 ∧
         addr 0x20008 0x80000000 % 2 ^ 56 % 16 ≠ 0)) ∧
    (same 0 0x80FFFFFF ∧ same 0x20000 0x80000000 ∧ same (2 ^ 21) 0x80000000 ∧ same 0 0x81000000) ∧
    (∃ f, (hosted (s 0 0x80FFFFFF)).progressed.translate q (0x00FFFFFF * 2 ^ 32) 16 = .error f ∧ f = f) ∧
    (∃ x, (hosted (s (2 ^ 21) 0x80000000)).progressed.translate q (2 ^ 21) 16 = .ok x ∧ x.place.device = none) :=
  ⟨fun x y => solo_of _ _ _ rfl rfl rfl rfl rfl, by decide +kernel, ⟨rfl, rfl, nofun⟩,
    ⟨⟨by decide +kernel, by decide +kernel⟩, ⟨by decide +kernel, by decide +kernel⟩, ⟨by decide +kernel, by decide +kernel⟩⟩,
    by decide +kernel, by decide +kernel, ⟨by decide +kernel, by decide +kernel, by decide +kernel, by decide +kernel⟩, error_of _ (fun (f : MemFault) => f = f) (by decide +kernel),
    except_of _ (fun (x : Xlated) => x.place.device = none) (by decide +kernel)⟩

/-- CINIT of 0, 1, 1,024 and 1,025; CWAIT on the register's GEN and on another; a fence with and without an entry of its own, with host
writes and without, with a flushing read under way; a slice with TSCOPE. -/
theorem witness_ConvergenceAndFences : let b : Block := { withS (withS (withS (withS (home one) 2 1) 3 1024) 4 0) 5 1025 with cregs := List.replicate 16 100 }
    let s := bench b
    let e : LogEntry := { core := b.core, owner := b.owner, slice := b.owner, byVa := true, blk := b.uid, tids := [0], level := .h, stage2 := false, va := 0, gpa := 0, seq := 0 }
    let host : Thread := { one with posted := true }; let flush : Thread := { one with flushing := true }
    let low : Thread := { one with level := .u }; let tenant : Block := { home low with owner := 0 }
    let clamped : State := { bench tenant with slices := upd s.slices 0 (fun x => { x with record := x.record.set 1 1 }) }
    (Solo s b one ∧ FieldsOk b one [] [5] [] ∧ FieldsOk b one [23] [] [23] ∧ one.OffRegisters) ∧ (1 ≤ (b.sget one 2).toNat ∧ (b.sget one 3).toNat ≤ 1024) ∧ (b.sget one 4).toNat = 0 ∧
    1024 < (b.sget one 5).toNat ∧ (b.cregs.getD 15 0).toNat % 4096 = (one.get 0).toNat ∧ (b.cregs.getD 15 0).toNat % 4096 ≠ (one.get 1).toNat ∧
    (s.ownLogged b.uid one.tid = false ∧ one.flushing = false ∧ one.posted = false ∧ s.tscope (ownerAt b.owner one.level) = false ∧ s.later = false) ∧
    (Solo { s with sideLog := [e] } b one ∧ ({ s with sideLog := [e] } : State).ownLogged b.uid one.tid = true) ∧
    (Solo (bench (home host)) (home host) host ∧ host.posted = true ∧ host.flushing = false ∧ Solo (deferring (bench (home host))) (home host) host) ∧
    (Solo { bench (home host) with sideLog := [e] } (home host) host ∧ ({ bench (home host) with sideLog := [e] } : State).ownLogged (home host).uid host.tid = true) ∧
    (Solo (bench (home flush)) (home flush) flush ∧ flush.flushing = true) ∧
    (let w : Thread := { one with wait := .conv 15 100, freed := true }
     Solo (bench (home w)) (home w) w ∧ w.wait = .conv 15 100 ∧ w.freed = true ∧ FieldsOk (home w) w [0] [] [0]) ∧
    (recNrows b.record * recNcols b.record = 0 ∧ recNrows (nbhd 0 ⟨false, 0, 0, 0, 0⟩).record * recNcols (nbhd 0 ⟨false, 0, 0, 0, 0⟩).record = 2 ∧
      Solo (bench (nbhd 0 ⟨false, 0, 0, 0, 0⟩)) (nbhd 0 ⟨false, 0, 0, 0, 0⟩) one) ∧
    (Solo clamped tenant low ∧ clamped.ownLogged tenant.uid 0 = false ∧ clamped.tscope (ownerAt tenant.owner low.level) = true) :=
  ⟨⟨solo_of _ _ _ rfl rfl rfl rfl rfl, ⟨by decide +kernel, by decide +kernel⟩, ⟨by decide +kernel, by decide +kernel⟩, rfl, nofun⟩, by decide +kernel, by decide +kernel, by decide +kernel,
    by decide +kernel, by decide +kernel, by decide +kernel, ⟨solo_of _ _ _ rfl rfl rfl rfl rfl, by decide +kernel⟩,
    ⟨solo_of _ _ _ rfl rfl rfl rfl rfl, rfl, rfl, solo_of _ _ _ rfl rfl rfl rfl rfl⟩, ⟨solo_of _ _ _ rfl rfl rfl rfl rfl, by decide +kernel⟩,
    ⟨solo_of _ _ _ rfl rfl rfl rfl rfl, rfl⟩, ⟨solo_of _ _ _ rfl rfl rfl rfl rfl, rfl, rfl, ⟨by decide +kernel, by decide +kernel⟩⟩,
    ⟨by decide +kernel, by decide +kernel, solo_of _ _ _ rfl rfl rfl rfl rfl⟩, solo_of _ _ _ rfl rfl rfl rfl rfl, by decide +kernel, by decide +kernel⟩

/-- A command of the block's window, at work. -/
def command (op : Nat) (pb : List Word) : Cmd := { uid := 900, id := 9, op5 := op, seq := 1, preds := [none, none], pb := pb, recs := [], level := .h, running := true }

/-- No open batch; one; and one behind fourteen and fifteen that are outstanding. A sequence number reached, and one ahead; a thread with a
retired command that no wait of its own covers. -/
theorem witness_BatchesAndSequences : let b : Block := { withS (withS (home one) 2 5) 3 6 with window := [command 3 (List.replicate 8 0)], csn := [5, 5, 5, 5, 5, 5] }
    let t (n : Nat) : Thread := { one with openB := [900], closedB := List.replicate n [900] }
    let at' (n : Nat) : Block := { b with threads := [t n] }
    (Solo (bench b) (withS b 0 0) one ∧ one.openB = [] ∧ (b.outstanding one).length ≤ 0) ∧
    (Solo (bench (at' 14)) (at' 14) (t 14) ∧ (t 14).openB ≠ [] ∧ ((at' 14).outstanding (t 14)).length = 14) ∧
    (Solo (bench (at' 15)) (at' 15) (t 15) ∧ (t 15).openB ≠ [] ∧ 15 ≤ ((at' 15).outstanding (t 15)).length) ∧
    (FieldsOk b one [] [127] [] ∧ (BitVec.ofNat 32 (b.csn.getD 5 0) - b.sget one 2).toNat < 2 ^ 31 ∧
      2 ^ 31 ≤ (BitVec.ofNat 32 (b.csn.getD 5 0) - b.sget one 3).toNat ∧ b.csn.getD 5 0 < 2 ^ 32) ∧
    (let u : Thread := { one with unwaited := [900] }; let c : Block := { home u with past := [written] }
     Solo (bench c) c u ∧ c.spUncovered u c 7 = true) :=
  ⟨⟨solo_of _ _ _ (by decide +kernel) rfl rfl rfl rfl, rfl, by decide +kernel⟩, ⟨solo_of _ _ _ rfl rfl rfl rfl rfl, by decide +kernel, by decide +kernel⟩,
    ⟨solo_of _ _ _ rfl rfl rfl rfl rfl, by decide +kernel, by decide +kernel⟩, ⟨⟨by decide +kernel, by decide +kernel⟩, by decide +kernel, by decide +kernel, by decide +kernel⟩,
    solo_of _ _ _ rfl rfl rfl rfl rfl, by decide +kernel⟩

/-- A full tile moved at its last row and column and beyond; declared tiles full, empty, filling and draining, and one not declared. -/
theorem witness_TileMoves : let b : Block := { withS (withS (withS (home one) 2 63) 3 255) 4 64 with
      ttab := upd (upd (upd (loaderBlock State.reset).ttab 0 (fun e => { e with state := 2 })) 1 (fun e => { e with state := 1 })) 2 (fun e => { e with state := 3 }) }
    Solo (bench b) b one ∧ ((b.tile 0).decl = true ∧ (b.tile 0).state = 2 ∧ FieldsOk b one [23] [] []) ∧ ((b.tile 7).decl = true ∧ (b.tile 7).state = 0) ∧
    ((b.tile 1).decl = true ∧ (b.tile 1).state = 1) ∧ ((b.tile 2).decl = true ∧ (b.tile 2).state = 3) ∧ (b.tile 23).decl = false ∧
    (FieldsOk b one [20, 21, 22, 23] [4] [] ∧ FieldsOk b one [23] [3] []) ∧ ((b.sget one 2).toNat + 0) % 2 ^ 32 = 63 ∧ ((b.sget one 3).toNat + 0) % 2 ^ 32 = 255 ∧
    64 ≤ ((b.sget one 4).toNat + 0) % 2 ^ 32 ∧ (∀ i < 4, b.accSyndrome 0 63 (64 * i + 0) = none) ∧ b.accSyndrome 0 0 255 = none ∧
    checkPoison one [20, 21, 22, 23] = none ∧ b.ownWriter one 0 = false ∧
    (let u : Thread := { one with openB := [900] }; let c : Block := { b with threads := [u], window := [{ command 9 (List.replicate 8 0) with tiles := [0] }] }
     Solo (bench c) c u ∧ c.ownWriter u 0 = true) :=
  ⟨solo_of _ _ _ rfl rfl rfl rfl rfl, ⟨by decide +kernel, by decide +kernel, rfl, rfl⟩, by decide +kernel, by decide +kernel, by decide +kernel, by decide +kernel,
    ⟨⟨by decide +kernel, by decide +kernel⟩, ⟨by decide +kernel, by decide +kernel⟩⟩, by decide +kernel, by decide +kernel, by decide +kernel, by decide +kernel, by decide +kernel, by decide +kernel, by decide +kernel,
    solo_of _ _ _ rfl rfl rfl rfl rfl, by decide +kernel⟩

/-! ### Memory -/

/-- The bench with slice 0 running on quadrant 0, its pages mapped at 0, its queue descriptors at 0x50000: queue 0 can be enqueued to and
queue 1 has HOST, each of 16 entries from 0x60000, with a grant of every right. -/
def sliceBench (b : Block) : State :=
  let desc (host : Nat) : Nat := 1 + 7 * 2 ^ 17 + 2 ^ 327 + host * 2 ^ 326 + 4 * 2 ^ 328 + 0x60000 * 2 ^ 448
  let s := stored (bench b) 0x50000 (toBytes 64 (desc 0) ++ toBytes 64 (desc 1))
  { s with
    slices := upd s.slices 0 (fun x => { x with state := .running, hard := 1, ready := true, record := ((x.record.set 0 (2 ^ 16)).set 4 0x50000).set 11 (2 ^ 32 + 1), place := x.place.set 0 1 })
    keySlots := upd s.keySlots 5 (fun _ => { state := .live, owner := 0, key := some 0 })
    ports := upd s.ports 0 (fun p => { p with numVfs := 1, vfEnable := true })
    tlb1 := ⟨0, 0, 2 ^ 21, 0, 0x3F⟩ :: s.tlb1
    tlb2 := ⟨0, 0, 2 ^ 21, (2 ^ 22 + 3 * 2 ^ 11 + 5) * 2 ^ 96 + 0x1F⟩ :: s.tlb2 }

/-- A block of slice 0 with one thread. -/
def tenant (t : Thread) : Block := { home t with owner := 0, core := 0 }

/-- An access of four bytes at the last word of a scratchpad, at an odd address, past the end, and at a live object; the same in the window
of the next block; bytes that a retired command has left undefined, poisoned ones, and both in one access; results that come at once and later. -/
theorem witness_LocalMemory : let o : Barrier := { live := true, phase := 0, arrived := 0, expect := 1, top := 0 }
    let b (x : Word) : Block := { nbhd 0 o with threads := [one.put 1 x], past := [written], scratchPoison := [(2, true)] }
    let next : Block := { nbhd 0 o with uid := 1, num := 1, threads := [] }
    let s (x : Word) : State := { nbhdBench 0 o with blocks := [b x, next] }
    ((s 0).later = false ∧ (deferring (s 0)).later = true) ∧
    (Solo (s 4076) (b 4076) (one.put 1 4076) ∧ FieldsOk (b 4076) (one.put 1 4076) (dataRegs 23 4 ++ [1]) [] (dataRegs 23 4 ++ [1]) ∧
      FieldsOk (b 4076) (one.put 1 4076) (atomRegs 22 1 9 ++ [1]) [] (atomRegs 22 1 9 ++ [1])) ∧
    (LocalAt (s 4076).progressed ((b 4076).progressAt 0) false 4076 4 0 ((b 4076).progressAt 0) 4076 ∧
      (b 4076).Quiet (one.put 1 4076) (b 4076) 4076 4 ∧ (b 4076).liveIn 4076 4 = none ∧ (b 4076).Covered (one.put 1 4076) (b 4076) 4076 4) ∧
    (LocalAt (s 4092).progressed ((b 4092).progressAt 0) false 4092 4 0 ((b 4092).progressAt 0) 4092 ∧ (b 4092).liveIn 4092 4 = some 255) ∧
    (LocalAt (s 266224).progressed ((b 266224).progressAt 0) true 266224 4 1 next 4080 ∧ next.liveIn 4080 4 = some 255) ∧
    (LocalAt (s 4).progressed ((b 4).progressAt 0) false 4 4 0 ((b 4).progressAt 0) 4 ∧ ¬(b 4).Settled (one.put 1 4) (b 4) 4 4 ∧
      (∀ i < 4, (b 4).undefAt (one.put 1 4) (b 4) (4 + i) = false → (b 4).scratchSyndrome (4 + i) 1 = none) ∧
      ¬(b 4).Covered (one.put 1 4) (b 4) 4 4 ∧ (b 4).liveIn 4 4 = none) ∧
    (LocalAt (s 8).progressed ((b 8).progressAt 0) false 8 4 0 ((b 8).progressAt 0) 8 ∧ (b 8).Settled (one.put 1 8) (b 8) 8 4 ∧
      ((b 8).scratchSyndrome 8 4).isSome = true) ∧
    (LocalAt (s 0).progressed ((b 0).progressAt 0) false 0 16 0 ((b 0).progressAt 0) 0 ∧ ¬(b 0).Settled (one.put 1 0) (b 0) 0 16 ∧
      (b 0).undefAt (one.put 1 0) (b 0) (0 + 8) = false ∧ ((b 0).scratchSyndrome (0 + 8) 1).isSome = true ∧
      ∀ i < 8, (b 0).undefAt (one.put 1 0) (b 0) (0 + i) = true ∨ (b 0).scratchSyndrome (0 + i) 1 = none) ∧
    (((one.put 1 4078).get 1).toNat % 4 ≠ 0 ∧ ((one.put 1 4096).get 1).toNat % 4 = 0 ∧ (b 4096).scratchSize < 4096 + 4) ∧
    recNrows (b 0).record * recNcols (b 0).record ≤ 524288 / 262144 ∧ (10 : BitVec 4).toNat ≤ 10 ∧ (s 0).blocks[0]? = some (b 0) ∧
    (1 ≠ 0 ∧ (s 0).blocks[1]? = some next) := by
  intro o b next s
  refine ⟨⟨rfl, rfl⟩, ⟨solo_of _ _ _ rfl rfl rfl rfl rfl, ⟨by decide +kernel, by decide +kernel⟩, ⟨by decide +kernel, by decide +kernel⟩⟩,
    ⟨{ own := fun _ => by decide +kernel, window := fun h => Bool.noConfusion h, home := by decide +kernel, aligned := rfl },
      ⟨by unfold Block.Settled; decide +kernel, by decide +kernel⟩, by decide +kernel, by unfold Block.Covered; decide +kernel⟩,
    ⟨{ own := fun _ => by decide +kernel, window := fun h => Bool.noConfusion h, home := by decide +kernel, aligned := rfl }, by decide +kernel⟩,
    ⟨{ own := fun h => Bool.noConfusion h, window := fun _ => by decide +kernel, home := by decide +kernel, aligned := rfl }, by decide +kernel⟩,
    ⟨{ own := fun _ => by decide +kernel, window := fun h => Bool.noConfusion h, home := by decide +kernel, aligned := rfl },
      by unfold Block.Settled; decide +kernel, by decide +kernel, by unfold Block.Covered; decide +kernel, by decide +kernel⟩,
    ⟨{ own := fun _ => by decide +kernel, window := fun h => Bool.noConfusion h, home := by decide +kernel, aligned := rfl },
      by unfold Block.Settled; decide +kernel, by decide +kernel⟩,
    ⟨{ own := fun _ => by decide +kernel, window := fun h => Bool.noConfusion h, home := by decide +kernel, aligned := rfl },
      by unfold Block.Settled; decide +kernel, by decide +kernel, by decide +kernel, by decide +kernel⟩,
    by decide +kernel, by decide +kernel, by decide +kernel, by decide +kernel, by decide +kernel⟩

/-- A record of 4 elements of 64 bytes from 0x20000, read and written; `e` adds to it. -/
def rec4 (e : Nat) : Nat := 0x20000 + 2 ^ 62 + 2 ^ 63 + 4 * 2 ^ 64 + 64 * 2 ^ 96 + 64 * 2 ^ 112 + e

/-- A block whose record k is r. -/
def withRec (b : Block) (k r : Nat) : Block := (List.range 4).foldl (fun b j => withS b (4 * k + j) (BitVec.ofNat 32 (r / 2 ^ (32 * j)))) b

/-- Each way a record's rules end, at the last element and the one after it. -/
theorem witness_BufferRecords_addresses :
    let good (r : Nat) : Prop := r / 2 ^ 56 % 2 ^ 4 = 0 ∧ r / 2 ^ 124 % 2 ^ 4 ≤ 3 ∧ r / 2 ^ 112 % 2 ^ 12 ≠ 0
    let inside (r i off w : Nat) : Prop := i < r / 2 ^ 64 % 2 ^ 32 ∧ off + w ≤ r / 2 ^ 112 % 2 ^ 12 ∧ r % 2 ^ 56 + i * 64 + off + w ≤ 2 ^ 56
    good (rec4 0) ∧ inside (rec4 0) 3 60 4 ∧ ¬inside (rec4 0) 3 61 4 ∧ ¬inside (rec4 0) 4 0 4 ∧ (0x20000 + 3 * 64 + 58) % 4 ≠ 0 ∧ inside (rec4 0) 3 58 4 ∧
    ¬good (rec4 (2 ^ 56)) ∧ good (rec4 (3 * 2 ^ 124)) ∧ ¬good (rec4 (4 * 2 ^ 124)) ∧ (rec4 0).testBit 63 = true ∧ (rec4 0 - 2 ^ 63).testBit 63 = false ∧
    (rec4 (2 ^ 60)).testBit 60 = true ∧ (rec4 (2 ^ 61)).testBit 61 = true := by decide +kernel

/-- A record of 4 elements of 64 bytes from another address. -/
def recAt (base : Nat) : Nat := rec4 0 - 0x20000 + base

/-- A page of the hypervisor at 2 MiB in the on-chip map. -/
def chipped (s : State) : State :=
  { s with tlb1 := ⟨Config.ownerHv, 2 ^ 21, 2 ^ 21, 2 ^ 21, 0x1F⟩ :: s.tlb1, tlb2 := ⟨Config.ownerHv, 2 ^ 21, 2 ^ 21, 2 ^ 127 + 0x1F⟩ :: s.tlb2 }

/-- Accesses to the last element of a record: loads and stores that complete, one out of bounds, stores that a granule with a logged store
holds, one to host memory behind a logged store of the thread's own, one of a byte to the on-chip map, stores on no page and on a page that the
second stage does not have, as the first stage finds or as it is walked, with room in the side log and with none, stores of bytes that
a retired command has left undefined, and read-modify-writes. -/
theorem witness_BufferRecords : let b := withRec (home (one.put 1 3)) 31 (rec4 0); let t := one.put 1 3; let s := bench b
    let va := 0x20000 + 3 * 64; let S := s.progressed
    let p : Block := { b with past := [{ written with wrote := [(0, Config.ownerHv, 0x20000, 256)] }] }; let P := (bench p).progressed
    let full (s : State) : State := { s with sideLog := (List.replicate 64 (logged s 0).sideLog).flatten }
    let open' (s : State) (b : Block) (q : Req) (n : Nat) : List Bool := (List.range n).map (fun i => s.devUncovered b t q (va + i))
    let e (b : Block) (stage2 byVa : Bool) (va gpa : Nat) : LogEntry := { core := b.core, owner := (b.storeReq .h).owner, slice := b.owner, blk := b.uid, tids := [0], level := .h, stage2 := stage2, byVa := byVa, va := va, gpa := gpa, cells := cellsAt (va + 64) (t.dataBytes 22 8), addend := none, rmw := false, seq := 0 }
    (Solo s b t ∧ b.recOf t 31 = rec4 0 ∧ FieldsOk b t (dataRegs 22 8 ++ [1]) [124, 125, 126, 127] (dataRegs 22 8 ++ [1]) ∧
      FieldsOk b t (atomRegs 20 2 9 ++ [1]) [124, 125, 126, 127] (atomRegs 20 2 9 ++ [1]) ∧ FieldsOk b t [23, 1] [124, 125, 126, 127] [23, 1] ∧ Solo (bench p) p t) ∧
    (bufAddr (rec4 0) 31 3 0 8 true false = .ok (some va) ∧ bufAddr (rec4 0) 31 3 (15 * 8) 8 true false = .ok none ∧
      bufAddr (rec4 0) 31 3 0 64 true true = .ok (some va) ∧ (∃ tr, bufAddr (rec4 (2 ^ 61)) 31 4 0 8 true false = .error tr) ∧
      bufAddr (rec4 0) 31 3 (15 * 8) 8 false true = .ok none ∧ (∃ tr, bufAddr (rec4 (2 ^ 60)) 31 4 0 8 false true = .error tr) ∧
      bufAddr (rec4 0) 31 3 0 8 false true = .ok (some va) ∧ bufAddr (rec4 0) 31 3 0 8 true true = .ok (some va) ∧ bufAddr (rec4 0) 31 3 0 64 false true = .ok (some va)) ∧
    (∃ x s', S.devLoad (b.progressAt s.clock) t (b.loadReq t.level) false none va 8 = .ok x s' ∧ s'.cur = s.cur) ∧
    (∃ x s', S.devLoad (b.progressAt s.clock) t (b.loadReq t.level) true none va 64 = .ok x s' ∧ s'.cur = s.cur) ∧
    (∀ c ∈ [b, p], ∃ x s', (bench c).progressed.devLoad (c.progressAt s.clock) t (c.rmwReq t.level) true none va 8 = .ok x s' ∧
      (open' (bench c).progressed (c.progressAt s.clock) (c.rmwReq t.level) 8).contains true = !c.past.isEmpty ∧
      (let z := s'.spoilDevice s'.cur.blk (c.rmwReq t.level) va 8
       match s'.translate (c.rmwReq t.level) va with
        | .ok y => ((if c.past.isEmpty then z else z.drew).rmwCells (c.rmwReq t.level) y va (cellsAt va (toBytes 8 0)) true).toOption.isSome
        | .error _ => false) = true) ∧
    (∃ x, S.translate (b.storeReq t.level) va 8 = .ok x ∧ x.InDram ∧ S.granuleHeld Config.ownerHv va x.gpa = false ∧ x.place.inHost = false ∧
      (open' S b (b.storeReq t.level) 8).contains true = false ∧
      ((S.atAccess t (b.storeReq .h) x va 8).writeCells (b.storeReq t.level) false x va (cellsAt va (t.dataBytes 22 8)) false).toOption.isSome = true) ∧
    (∃ x, P.translate (p.storeReq t.level) va 8 = .ok x ∧ x.InDram ∧ P.drew.translate (p.storeReq t.level) va 8 = .ok x ∧ P.drew.granuleHeld Config.ownerHv va x.gpa = false ∧
      (open' P p (p.storeReq t.level) 8).contains true = true ∧
      ((P.drew.atAccess t (p.storeReq .h) x va 8).writeCells (p.storeReq t.level) false x va (cellsAt va (toBytes 8 0)) false).toOption.isSome = true) ∧
    (∃ x, (logged s va).progressed.translate (b.storeReq t.level) va 8 = .ok x ∧ x.InDram ∧ (logged s va).progressed.granuleHeld Config.ownerHv va x.gpa = true) ∧
    (let z := hosted (owned b s)
     bufAddr (recAt (2 ^ 21)) 31 3 0 8 false true = .ok (some (2 ^ 21 + 3 * 64)) ∧ z.ownLogged b.uid t.tid = true ∧
       ∃ x, z.progressed.translate (b.storeReq t.level) (2 ^ 21 + 3 * 64) 8 = .ok x ∧ x.place.inHost = true ∧
         z.progressed.granuleHeld Config.ownerHv (2 ^ 21 + 3 * 64) x.gpa = false) ∧
    (bufAddr (recAt (2 ^ 21)) 31 3 0 1 false true = .ok (some (2 ^ 21 + 3 * 64)) ∧
     ∃ x, (chipped S).translate (b.storeReq t.level) (2 ^ 21 + 3 * 64) 1 = .ok x ∧ x.place.inHost = false ∧ (chipped S).granuleHeld Config.ownerHv (2 ^ 21 + 3 * 64) x.gpa = false ∧
       (((chipped S).atAccess t (b.storeReq .h) x (2 ^ 21 + 3 * 64) 1).writeCells (b.storeReq t.level) false x (2 ^ 21 + 3 * 64)
         (cellsAt (2 ^ 21 + 3 * 64) (t.dataBytes 22 1)) false).toOption.isSome = false) ∧
    ((bufAddr (recAt (2 ^ 40)) 31 3 0 8 false true = .ok (some (2 ^ 40 + 3 * 64)) ∧
      (∃ f, S.translate (b.storeReq t.level) (2 ^ 40 + 3 * 64) 8 = .error f ∧ (match f with | .page _ => true | _ => false) = true) ∧
      (S.logOf b.core).length < 64 ∧ ¬((full S).logOf b.core).length < 64 ∧
      ((S.noteWalks (b.storeReq .h) (2 ^ 40 + 3 * 64)).enterLog (e b false true (2 ^ 40 + 128) 0) false).isSome = true) ∧
      (∃ f, (halfMapped S).translate (b.storeReq t.level) (2 ^ 21 + 3 * 64) 8 = .error f ∧ (match f with | .stage2 _ _ => true | _ => false) = true) ∧
      (∃ y, (halfMapped S).translate1 (b.storeReq t.level).owner (2 ^ 21 + 3 * 64) = .ok y ∧ y = y) ∧
      (((halfMapped S).noteWalks (b.storeReq .h) (2 ^ 21 + 3 * 64)).enterLog (e b true false (2 ^ 21 + 128) (2 ^ 40 + 128)) false).isSome = true) ∧
    (let z : State := { S with tlb1 := [], tlb2 := [], hvRoot1 := 1 }
     (∃ f, z.translate (b.storeReq t.level) va 8 = .error f ∧ (match f with | .stage2 _ _ => true | _ => false) = true) ∧
      (∃ f, z.translate1 (b.storeReq t.level).owner va = .error f ∧ f = f) ∧
      ((z.noteWalks (b.storeReq .h) va).enterLog (e b true true (va - 64) 0) false).isSome = true) ∧
    (∃ x, S.translate { b.rmwReq t.level with code := 3 } va 64 = .ok x ∧ x.InDram ∧ S.granuleHeld Config.ownerHv va x.gpa = false ∧
      (∀ j < 64, (S.atAccess t (b.rmwReq .h) x va 64).devPending b t (b.rmwReq .h) (va + j) = false) ∧
      (let sum := (S.atAccess t (b.rmwReq .h) x va 64).addCell b (b.rmwReq .h) x va [(0, va, [], cellTerm 0)] (cellTerm 0)
       (sum.2.rmwCells (b.rmwReq t.level) x va (cellsAt va sum.1) true).toOption.isSome) = true) ∧
    (∃ x, S.translate { b.storeReq t.level with code := 3 } va 64 = .ok x ∧ x.InDram ∧ S.granuleHeld Config.ownerHv va x.gpa = false ∧
      (open' S b (b.storeReq t.level) 64).contains true = false ∧
      ((S.atAccess t (b.storeReq .h) x va 64).rmwCells (b.storeReq t.level) x va (cellsAt va (List.replicate 64 0)) false).toOption.isSome = true) := by
  intro b t s va S p P full open' e
  refine ⟨⟨solo_of _ _ _ rfl rfl rfl rfl rfl, by decide +kernel, ⟨by decide +kernel, by decide +kernel⟩, ⟨by decide +kernel, by decide +kernel⟩,
    ⟨by decide +kernel, by decide +kernel⟩, solo_of _ _ _ rfl rfl rfl rfl rfl⟩,
    ⟨by decide +kernel, by decide +kernel, by decide +kernel, ⟨_, rfl⟩, by decide +kernel, ⟨_, rfl⟩, by decide +kernel, by decide +kernel, by decide +kernel⟩,
    dev_of _ (fun _ s' => s'.cur = _) (by decide +kernel), dev_of _ (fun _ s' => s'.cur = _) (by decide +kernel), ?_,
    dram_of _ (fun x => S.granuleHeld Config.ownerHv va x.gpa = false ∧ x.place.inHost = false ∧ (open' S b (b.storeReq t.level) 8).contains true = false ∧
      ((S.atAccess t (b.storeReq .h) x va 8).writeCells (b.storeReq t.level) false x va (cellsAt va (t.dataBytes 22 8)) false).toOption.isSome = true) (by decide +kernel),
    dram_of _ (fun x => P.drew.translate (p.storeReq t.level) va 8 = .ok x ∧ P.drew.granuleHeld Config.ownerHv va x.gpa = false ∧
      (open' P p (p.storeReq t.level) 8).contains true = true ∧
      ((P.drew.atAccess t (p.storeReq .h) x va 8).writeCells (p.storeReq t.level) false x va (cellsAt va (toBytes 8 0)) false).toOption.isSome = true) (by decide +kernel),
    dram_of _ (fun x => (logged s va).progressed.granuleHeld Config.ownerHv va x.gpa = true) (by decide +kernel),
    ⟨by decide +kernel, by decide +kernel, except_of _ (fun (x : Xlated) => x.place.inHost = true ∧
      (hosted (owned b s)).progressed.granuleHeld Config.ownerHv (2 ^ 21 + 3 * 64) x.gpa = false) (by decide +kernel)⟩,
    ⟨by decide +kernel, except_of _ (fun (x : Xlated) => x.place.inHost = false ∧ (chipped S).granuleHeld Config.ownerHv (2 ^ 21 + 3 * 64) x.gpa = false ∧
       (((chipped S).atAccess t (b.storeReq .h) x (2 ^ 21 + 3 * 64) 1).writeCells (b.storeReq t.level) false x (2 ^ 21 + 3 * 64)
         (cellsAt (2 ^ 21 + 3 * 64) (t.dataBytes 22 1)) false).toOption.isSome = false) (by decide +kernel)⟩,
    ⟨⟨by decide +kernel, error_of _ (fun (f : MemFault) => (match f with | .page _ => true | _ => false) = true) (by decide +kernel),
        by decide +kernel, by decide +kernel, by decide +kernel⟩,
      error_of _ (fun (f : MemFault) => (match f with | .stage2 _ _ => true | _ => false) = true) (by decide +kernel),
      except_of _ (fun y => y = y) (by decide +kernel), by decide +kernel⟩,
    ⟨error_of _ (fun (f : MemFault) => (match f with | .stage2 _ _ => true | _ => false) = true) (by decide +kernel),
      error_of _ (fun f => f = f) (by decide +kernel), by decide +kernel⟩,
    dram_of _ (fun x => S.granuleHeld Config.ownerHv va x.gpa = false ∧
      (∀ j < 64, (S.atAccess t (b.rmwReq .h) x va 64).devPending b t (b.rmwReq .h) (va + j) = false) ∧
      (let sum := (S.atAccess t (b.rmwReq .h) x va 64).addCell b (b.rmwReq .h) x va [(0, va, [], cellTerm 0)] (cellTerm 0)
       (sum.2.rmwCells (b.rmwReq t.level) x va (cellsAt va sum.1) true).toOption.isSome) = true) (by decide +kernel),
    dram_of _ (fun x => S.granuleHeld Config.ownerHv va x.gpa = false ∧ (open' S b (b.storeReq t.level) 64).contains true = false ∧
      ((S.atAccess t (b.storeReq .h) x va 64).rmwCells (b.storeReq t.level) x va (cellsAt va (List.replicate 64 0)) false).toOption.isSome = true) (by decide +kernel)⟩
  intro c hc
  have rmw (c : Block) (h : (match (bench c).progressed.devLoad (c.progressAt s.clock) t (c.rmwReq t.level) true none va 8 with
      | .ok x s' => decide ((open' (bench c).progressed (c.progressAt s.clock) (c.rmwReq t.level) 8).contains true = !c.past.isEmpty ∧
        (let z := s'.spoilDevice s'.cur.blk (c.rmwReq t.level) va 8
         match s'.translate (c.rmwReq t.level) va with
          | .ok y => ((if c.past.isEmpty then z else z.drew).rmwCells (c.rmwReq t.level) y va (cellsAt va (toBytes 8 0)) true).toOption.isSome
          | .error _ => false) = true)
      | _ => false) = true) := dev_of _ (fun _ s' => (open' (bench c).progressed (c.progressAt s.clock) (c.rmwReq t.level) 8).contains true = !c.past.isEmpty ∧
        (let z := s'.spoilDevice s'.cur.blk (c.rmwReq t.level) va 8
         match s'.translate (c.rmwReq t.level) va with
          | .ok y => ((if c.past.isEmpty then z else z.drew).rmwCells (c.rmwReq t.level) y va (cellsAt va (toBytes 8 0)) true).toOption.isSome
          | .error _ => false) = true) h
  simp only [List.mem_cons, List.not_mem_nil, or_false] at hc
  obtain rfl | rfl := hc
  · exact rmw _ (by decide +kernel)
  · exact rmw _ (by decide +kernel)

/-- PREF, CWB and CINV with and without their rights, of a line in device memory, in a granule that is held, in host memory, on no page, and
from a die that no port joins to the line's home; SAMPLE of an RGBA8 texel at a coordinate, and at one that is no number. -/
theorem witness_CachesAndSampler : let t := one.put 1 0; let b := withRec (withRec (home t) 30 (rec4 0)) 31 0; let s := bench b
    let u := (one.put 1 0x7FC00000).put 2 0
    let b' := withRec (withRec (home u) 30 (rec4 0)) 31 0
    let far : Block := { b with core := 200 }
    let cut : State := { bench far with diePorts := (bench far).diePorts.map (fun d => { d with up := false }) }
    let host : State := { s with
      tlb1 := ⟨Config.ownerHv, 2 ^ 21, 2 ^ 21, 2 ^ 21, 0x1F⟩ :: s.tlb1, tlb2 := ⟨Config.ownerHv, 2 ^ 21, 2 ^ 21, 0x5F⟩ :: s.tlb2 }
    let S := s.progressed; let C := cut.progressed
    (Solo s b t ∧ FieldsOk b t [1] [120, 121, 122, 123] [1] ∧ FieldsOk b t [20, 21, 22, 23, 1, 2] [120, 121, 122, 123, 124, 125, 126, 127] [1, 2]) ∧
    (bufOk (b.recOf t 30) = true ∧ bufAddr (b.recOf t 30) 30 0 0 1 false false = .ok (some 0x20000) ∧ (b.recOf t 30).testBit 63 = true ∧ (b.recOf t 30).testBit 62 = true) ∧
    ((rec4 0 - 2 ^ 63).testBit 63 = false ∧ bufOk (rec4 0 - 2 ^ 63) = true ∧ (rec4 0 - 2 ^ 62).testBit 62 = false ∧ bufOk (rec4 0 - 2 ^ 62) = true) ∧
    (∃ x, S.translate (b.prefetchReq t.level) 0x20000 128 = .ok x ∧ x.InDram ∧ S.homeReach (b.prefetchReq t.level) x.gpa = true ∧
      S.cached (b.prefetchReq t.level).owner x.gpa = false) ∧
    (Solo cut far t ∧ ∃ x, C.translate (far.prefetchReq t.level) 0x20000 128 = .ok x ∧ x.InDram ∧ C.homeReach (far.prefetchReq t.level) x.gpa = false) ∧
    (bufAddr (recAt (2 ^ 40)) 30 0 0 1 false false = .ok (some (2 ^ 40)) ∧ (∃ f, S.translate (b.prefetchReq t.level) (2 ^ 40) 128 = .error f ∧ f = f) ∧
      ∃ f, S.translate (b.writeBackReq t.level) (2 ^ 40) = .error f ∧ f = f) ∧
    (∃ x, S.translate (b.writeBackReq t.level) 0x20000 = .ok x ∧ x.InDram ∧ x.place.device.isSome = true ∧
      S.granuleHeld (b.writeBackReq t.level).owner 0x20000 x.gpa = false ∧ S.homeReach (b.writeBackReq t.level) x.gpa = true) ∧
    (∃ x, C.translate (far.writeBackReq t.level) 0x20000 = .ok x ∧ x.InDram ∧ x.place.device.isSome = true ∧
      C.granuleHeld (far.writeBackReq t.level).owner 0x20000 x.gpa = false ∧ C.homeReach (far.writeBackReq t.level) x.gpa = false) ∧
    (∃ x, (logged s 0x20000).progressed.translate (b.writeBackReq t.level) 0x20000 = .ok x ∧ x.InDram ∧
      (logged s 0x20000).progressed.granuleHeld (b.writeBackReq t.level).owner 0x20000 x.gpa = true) ∧
    (bufAddr (recAt (2 ^ 21)) 30 0 0 1 false false = .ok (some (2 ^ 21)) ∧
      ∃ x, host.progressed.translate (b.writeBackReq t.level) (2 ^ 21) = .ok x ∧ x.place.device = none ∧
        host.progressed.granuleHeld (b.writeBackReq t.level).owner (2 ^ 21) x.gpa = false) ∧
    (b.recOf t 31 = 0 ∧ texelBytes 0 ≤ bufEsize (b.recOf t 30)) ∧
    (fp32.decode (t.get 1).toNat = .fin false 0 (-149) ∧ ∃ n m e, fp32.decode (t.get 2).toNat = .fin n m e ∧
      ∃ x, S.readTaps (b.progressAt s.clock) t (b.recOf t 30) 30 0 (taps (0 / 2 ^ 10 % 4 == 1) (false, 0, -149) (n, m, e) 1 1) = .ok x ∧ x.2.cur = s.cur) ∧
    (Solo (bench b') b' u ∧ ∀ n m e, fp32.decode (u.get 1).toNat ≠ .fin n m e) := by
  intro t b s u b' far cut host S C
  refine ⟨⟨solo_of _ _ _ rfl rfl rfl rfl rfl, ⟨by decide +kernel, by decide +kernel⟩, ⟨by decide +kernel, by decide +kernel⟩⟩, by decide +kernel, by decide +kernel,
    dram_of _ (fun x => S.homeReach (b.prefetchReq t.level) x.gpa = true ∧ S.cached (b.prefetchReq t.level).owner x.gpa = false) (by decide +kernel),
    ⟨solo_of _ _ _ rfl rfl rfl rfl rfl, dram_of _ (fun x => C.homeReach (far.prefetchReq t.level) x.gpa = false) (by decide +kernel)⟩,
    ⟨by decide +kernel, error_of _ (fun (f : MemFault) => f = f) (by decide +kernel), error_of _ (fun (f : MemFault) => f = f) (by decide +kernel)⟩,
    dram_of _ (fun x => x.place.device.isSome = true ∧ S.granuleHeld (b.writeBackReq t.level).owner 0x20000 x.gpa = false ∧
      S.homeReach (b.writeBackReq t.level) x.gpa = true) (by decide +kernel),
    dram_of _ (fun x => x.place.device.isSome = true ∧ C.granuleHeld (far.writeBackReq t.level).owner 0x20000 x.gpa = false ∧
      C.homeReach (far.writeBackReq t.level) x.gpa = false) (by decide +kernel),
    dram_of _ (fun x => (logged s 0x20000).progressed.granuleHeld (b.writeBackReq t.level).owner 0x20000 x.gpa = true) (by decide +kernel),
    ⟨by decide +kernel, except_of _ (fun (x : Xlated) => x.place.device = none ∧
      host.progressed.granuleHeld (b.writeBackReq t.level).owner (2 ^ 21) x.gpa = false) (by decide +kernel)⟩, by decide +kernel,
    ⟨by decide +kernel, false, 102, -149, by decide +kernel,
      except_of _ (fun (x : List (List Sys2Proof.Machine.Num × Nat) × State) => x.2.cur = _) (by decide +kernel)⟩, solo_of _ _ _ rfl rfl rfl rfl rfl, ?_⟩
  intro n m e h
  rw [show fp32.decode ((((one.put 1 0x7FC00000).put 2 0)).get 1).toNat = .nan by decide +kernel] at h
  cases h

/-! ### Engines -/

theorem eng_of {α : Type} (r : Eng α) (p : α → State → Prop) [∀ x y, Decidable (p x y)]
    (h : (match r with | .ok x y => decide (p x y) | _ => false) = true) : ∃ x y, r = .ok x y ∧ p x y := by
  cases r with
  | ok x y => exact ⟨x, y, rfl, of_decide_eq_true h⟩
  | fail a b c d => cases h
  | wait => cases h

/-- The work was done. -/
def engDone {α : Type} : Eng α → Bool
  | .ok _ _ => true
  | _ => false

/-- The access waits. -/
def engWaits {α : Type} : Eng α → Bool
  | .wait => true
  | _ => false

/-- The bytes were written and met no live object. -/
def engClear : Eng (Option Nat) → Bool
  | .ok none _ => true
  | _ => false

theorem clear_of (r : Eng (Option Nat)) (h : engClear r = true) : ∃ v, r = .ok none v := by
  cases r with
  | fail a b c d => cases h
  | wait => cases h
  | ok hit v => cases hit with
    | some n => cases h
    | none => exact ⟨v, rfl⟩

/-- Two draws later. -/
def fresher (s : State) : State := { s with fresh := s.fresh + 1 + 1 }

/-- The bench's block with commands in its window. -/
def busy (cs : List Cmd) : Block := { home one with window := cs }

/-- Block k = 15 of scalar registers: TDRAIN of a scratchpad tile that is not declared is a tile fault; any other group with no tile is
not, with its ID free and with its ID taken. -/
theorem witness_CommandIssue : let b := withS (home one) 120 (BitVec.ofNat 32 (2 ^ 23)); let c := busy [command 3 (List.replicate 8 0)]
    let pb (b : Block) : List Word := (List.range 8).map (fun n => b.sget one (8 * 15 + n))
    (Solo (bench b) b one ∧ FieldsOk b one [] (upto 120 1 8) [] ∧ (b.tileFault 4 (pb b)).isSome = true) ∧
    (Solo (bench c) c one ∧ c.tileFault 0x1B (pb c) = none ∧ (c.command 9).isSome = true ∧ c.command 63 = none ∧ c.declares 0x1B (pb c) = none) ∧
    (let d := withS (withS (home one) 120 (BitVec.ofNat 32 (2 ^ 31))) 122 4096
     d.tileFault 5 (pb d) = none ∧ d.declares 5 (pb d) = some (0, 4096)) ∧
    (let at' (x : Nat) : Except (MemFault × Nat) (List Byte × State) := (bench b).readVa (b.loadReq .h) false x 32
     (∃ x, at' 0x20000 = .ok x ∧ x = x) ∧ ∃ e, at' (2 ^ 40) = .error e ∧ e = e) :=
  ⟨⟨solo_of _ _ _ rfl rfl rfl rfl rfl, ⟨by decide +kernel, by decide +kernel⟩, by decide +kernel⟩,
    ⟨solo_of _ _ _ rfl rfl rfl rfl rfl, by decide +kernel, by decide +kernel, by decide +kernel, by decide +kernel⟩, by decide +kernel,
    except_of _ (fun (x : List Byte × State) => x = x) (by decide +kernel), error_of _ (fun (e : MemFault × Nat) => e = e) (by decide +kernel)⟩

/-- A command that waits to start, good and bad, with its tile released, and of each kind that is done at its start, TCBARM with its record's
granule held too; one that works; a product behind another; a lease at its limit; work that is over,
with no status record, with one in the scratchpad's last granule, and with one on a live object. -/
theorem witness_CommandLives :
    let z := List.replicate 8 (0 : Word); let idle (op : Nat) (pb : List Word) : Cmd := { command op pb with running := false }
    let over' (w : Word) : Cmd := { command 0x1B (z.set 7 w) with fin := some 0 }
    let s (c : Cmd) : State := bench (busy [c])
    ((s (command 3 z)).cmdAt 0 9 = some (0, busy [command 3 z], command 3 z) ∧ (s (command 3 z)).mayStart (busy [command 3 z]) (command 3 z) = false) ∧
    (let c := idle 0x1A (z.set 7 0x7FFF)
     (s c).cmdAt 0 9 = some (0, busy [c], c) ∧ (s c).mayStart (busy [c]) c = true ∧ (busy [c]).ctlOk c = false ∧ tileRefs c.op5 c.pb = []) ∧
    (∀ c ∈ [idle 3 z, idle 0x1B (z.set 1 0xFFFFFF)], (s c).cmdAt 0 9 = some (0, busy [c], c) ∧ (s c).mayStart (busy [c]) c = true ∧
      (busy [c]).released c = false ∧ (busy [c]).ctlOk c = true ∧ (∀ n < 7, 2 ≤ n → pbw c.pb n = 0) ∧ pbw c.pb 1 < 2 ^ 24 ∧ pbw c.pb 0 = 0) ∧
    (let c := idle 3 (z.set 0 (BitVec.ofNat 32 (2 ^ 31)))
     (s c).cmdAt 0 9 = some (0, busy [c], c) ∧ (s c).mayStart (busy [c]) c = true ∧ (busy [c]).released c = true) ∧
    (let c := idle 0x1B (z.set 0 0x20000); let x := (s c).starting 0 c 0
     (∃ st s1, x.tcbArm Config.ownerHv .h 0x20000 = .ok st s1 ∧ st = st) ∧ engWaits ((logged x 0x20000).tcbArm Config.ownerHv .h 0x20000) = true) ∧
    (let c := idle 0x1A (z.set 0 (BitVec.ofNat 32 (2 ^ 23 + 2 * 2 ^ 24))); let b : Block := { busy [c] with batch := some ⟨1, 2, 3⟩ }
     (bench b).cmdAt 0 9 = some (0, b, c) ∧ (bench b).mayStart b c = true ∧ b.released c = false ∧ b.ctlOk c = true ∧ fld (pbw c.pb 0) 22 0 = 0 ∧
       bit (pbw c.pb 0) 23 = true ∧ bit (pbw c.pb 0) 22 = false ∧ fld (pbw c.pb 0) 8 24 = 2) ∧
    (let c := idle 0x1A (z.set 0 (BitVec.ofNat 32 (2 ^ 22 + 2 * 2 ^ 24)))
     let n : Niche := { launch := (busy []).launch, owner := Config.ownerHv, node := 2, buffer := 0x30000, capacity := 4, count := 4, timer := 100, consumer := 0x40000 }
     let s : State := { s c with niches := [n] }
     s.cmdAt 0 9 = some (0, busy [c], c) ∧ s.mayStart (busy [c]) c = true ∧ (busy [c]).released c = false ∧ (busy [c]).ctlOk c = true ∧ fld (pbw c.pb 0) 22 0 = 0 ∧
       bit (pbw c.pb 0) 23 = false ∧ bit (pbw c.pb 0) 22 = true ∧ s.niche? (busy [c]).launch (fld (pbw c.pb 0) 8 24) = some n) ∧
    (let w := z.set 0 (BitVec.ofNat 32 (2 ^ 21)); let c := command 1 w; let d : Cmd := { command 1 w with uid := 899, id := 8 }
     let b : Block := { busy [d, c] with owner := 0, core := 0, record := (home one).record + 2 ^ 160 }
     let s : State := (bench b).updSlice 0 (fun x => { x with record := x.record.set 13 6 })
     s.cmdAt 0 9 = some (0, b, c) ∧ c.running = true ∧ c.fin = none ∧ c.helper = none ∧ bit (pbw c.pb 0) 21 = true ∧ bit (pbw c.pb 0) 31 = false ∧
      s.engineTaken b.core c.uid = true ∧ 1 ≠ b.core ∧ s.helps b.owner b.core 1 = true ∧ s.helperFree 1 c.uid = true ∧
      s.tokensHeld b.owner + 3 ≤ s.sliceWord b.owner 13 ∧ s.poolHeld + 3 ≤ s.pool) ∧
    (let s := State.reset.updSlice 0 (fun x => { x with record := x.record.set 15 (BitVec.ofNat 64 (5 * 2 ^ 24)), leaseUsed := 5 })
     s.leaseOf 0 = some (5, 0, 0) ∧ 5 ≤ (s.slice 0).leaseUsed) ∧
    ((s (over' 0)).cmdAt 0 9 = some (0, busy [over' 0], over' 0) ∧ (s (over' 0x40FF)).cmdAt 0 9 = some (0, busy [over' 0x40FF], over' 0x40FF) ∧
      (busy [over' 0]).halted = none ∧ (over' 0).fin = some 0 ∧ (over' 0).spoilt = [] ∧ tileRefs (over' 0).op5 (over' 0).pb = [] ∧ (over' 0).helper = none) ∧
    (bit (pbw (over' 0).pb 7) 14 = false ∧ bit (pbw (over' 0x40FF).pb 7) 14 = true ∧ 16 * fld (pbw (over' 0x40FF).pb 7) 14 0 + 16 ≤ (busy []).scratchSize ∧
      (busy []).live.contains 255 = false ∧ (over' 0x40FF).running = true ∧ (over' 0x40FF).op5 ≠ 4 ∧ ({ busy [] with live := [255] } : Block).live.contains 255 = true) := by
  refine ⟨?_, ?_, ?_, ?_, ⟨eng_of _ (fun (st : Nat) (_ : State) => st = st) ?_, ?_⟩, ?_, ?_, ?_, ?_, ?_, ?_⟩ <;> decide +kernel

/-- A working command of each kind the statement names. -/
theorem witness_EngineWork : let z := List.replicate 8 (0 : Word)
    let works (c : Cmd) (f : Block → Block) : Prop := Working (bench (f (busy [c]))) 0 9 0 (f (busy [c])) c
    ((bench (busy [])).blocks[0]? = some (busy []) ∧ 128 + 128 ≤ 256) ∧
    (works (command 3 z) id ∧ bit (pbw (command 3 z).pb 0) 31 = false) ∧
    (works (command 5 z) id ∧ fld (pbw z 0) 2 25 = 0) ∧
    (let c := command 5 (z.set 0 (BitVec.ofNat 32 (2 ^ 25 + 2 ^ 24)))
     works c id ∧ fld (pbw c.pb 0) 2 25 = 1 ∧ bit (pbw c.pb 0) 31 = false ∧ c.area 0 (bit (pbw c.pb 0) 24) (fld (pbw c.pb 0) 5 19) = some (.scratch 0 0) ∧
      ∃ x s1, ((bench (busy [c])).opened c).areaRead (c.req (busy [c]) false) (.scratch 0 0) 0 512 = .ok x s1 ∧ True) ∧
    (let c := command 5 (z.set 0 (BitVec.ofNat 32 (2 * 2 ^ 25))); works c id ∧ fld (pbw c.pb 0) 2 25 = 2) ∧
    (let t : Trav := { ovrCnt := 1 }; let c : Cmd := { command 8 z with trav := some t, recs := [(0, 0x20000)] }
     let n : Niche := { launch := 0, owner := Config.ownerHv, node := 0, buffer := 0x30000, capacity := 4, count := 4, timer := 100, consumer := 0x40000 }
     let s : State := { bench (busy [c]) with niches := [n] }
     works c id ∧ s.niche? 0 c.node = some n ∧ n.full = false ∧ s.caliperTaken (busy [c]) c = false ∧
      ∃ x s1, (s.opened c).engRead (c.req (busy [c]) false) 2 (bufBase c.ovr + 0) 16 = .ok x s1 ∧ engDone (s1.nichePut (c.req (busy [c]) true) 2 n x) = true) ∧
    (let c := command 0x12 z
     let m : Moving := { owner := 0, gpa := 0, size := 4096, entryAddr := 0, old := 0, new := 0, cursor := 31, cmd := 900 }
     let s : State := { bench (busy [c]) with moving := [m] }
     s.cmdOf 0 9 = some (busy [c], c) ∧ s.moving.find? (fun m => m.cmd == c.uid) = some m ∧ m.size / 128 ≤ m.cursor + 1 ∧ ({ m with cursor := 30 } : Moving).cursor + 1 < m.size / 128) := by
  have w (c : Cmd) (f : Block → Block) (h1 : (f (busy [c])).uid = 0) (h2 : (f (busy [c])).window = [c]) (h3 : c.id = 9) (h4 : c.running = true) (h5 : c.fin = none)
      (h6 : (f (busy [c])).halted = none) : Working (bench (f (busy [c]))) 0 9 0 (f (busy [c])) c :=
    { here := by simp [State.cmdAt, State.placeOfUid, bench, List.findIdx?_cons, h1, Block.command, h2, h3], running := h4, undone := h5, going := h6 }
  refine ⟨⟨rfl, by decide⟩, ?_, ?_, ?_, ?_, ?_, ?_⟩
  · exact ⟨w _ _ rfl rfl rfl rfl rfl rfl, by decide +kernel⟩
  · exact ⟨w _ _ rfl rfl rfl rfl rfl rfl, by decide +kernel⟩
  · exact ⟨w _ _ rfl rfl rfl rfl rfl rfl, by decide +kernel, by decide +kernel, by decide +kernel, eng_of _ (fun _ _ => True) (by decide +kernel)⟩
  · exact ⟨w _ _ rfl rfl rfl rfl rfl rfl, by decide +kernel⟩
  · exact ⟨w _ _ rfl rfl rfl rfl rfl rfl, by decide +kernel, by decide +kernel, by decide +kernel,
      eng_of _ (fun (x : List Byte) (s1 : State) => engDone (s1.nichePut _ 2 _ x) = true) (by decide +kernel)⟩
  · decide +kernel

/-- A COLL of one member, with another still to come, and with two that disagree. -/
def coll (uid rank : Nat) (op perDev : Nat) : Cmd :=
  { command 0x13 [BitVec.ofNat 32 (op * 2 ^ 28 + 2 ^ 15), 0, 0, 1, BitVec.ofNat 32 (rank * 2 ^ 16), 0, 0, 0] with
    uid := uid, group := 2 ^ 192 + 7 * 2 ^ 160 + perDev * 2 ^ 128 + perDev * 2 ^ 96, recs := [(0, 0x20000), (1, 0x30000)] }

/-- The session block of 64 × 64 pictures at 0x20000, its work area at 0x40000. -/
def sessionBytes : List Byte := toBytes 64 (8 * 2 ^ 152 + 64 * 2 ^ 160 + 64 * 2 ^ 176 + 2 ^ 192 + 0x40000 * 2 ^ 256)

def enc (op : Nat) : Cmd := { command 0x18 [BitVec.ofNat 32 op, 0x20000, 0, 0, 0, 0, 0, 0] with recs := [(0, 0x60000 + 64 * 2 ^ 96)] }

def encBench (op : Nat) : State := stored (bench (busy [enc op])) 0x20000 sessionBytes

/-- How many bytes the codec gives for a picture is its own affair, so a FRAME is shown up to what it reads; of the 24,576 bytes of the
smallest work area the first are shown to be writable. -/
theorem witness_CollectivesAndCoding :
    (let c := coll 900 0 0 2; let s := bench (busy [c])
     s.cmdOf 0 9 = some (busy [c], c) ∧ c.joined = true ∧ (collParams c.pb).op = 0 ∧ (s.collMembers (busy [c]) c).length < (groupOf c.group).perDev) ∧
    (let c := coll 900 0 0 2; let d : Cmd := { coll 901 1 4 2 with id := 8 }; let s := bench (busy [c, d])
     s.cmdOf 0 9 = some (busy [c, d], c) ∧ (groupOf c.group).perDev ≤ (s.collMembers (busy [c, d]) c).length ∧
      ¬∀ x ∈ s.collMembers (busy [c, d]) c, (collParams x.2.pb).op = 0) ∧
    (let c := coll 900 0 0 1; let s := bench (busy [c])
     (s.cmdOf 0 9 = some (busy [c], c) ∧ c.joined = true ∧ (groupOf c.group).devices = 1 ∧ (groupOf c.group).members = 1 ∧ (groupOf c.group).perDev = 1 ∧
      s.collMembers (busy [c]) c = [(busy [c], c)] ∧ (collParams c.pb).rank = 0 ∧ c.src = none ∧ (collParams c.pb).writes 1 ≠ 0) ∧
     ∃ x r1 v0, ({ s with view := some c.view } : State).engRead (c.req (busy [c]) false) 0 (bufBase (SMap.getD c.recs 0 0) + 0) 4 = .ok x r1 ∧
       ((fresher (r1.closed s c)).opened c).engWrite (c.req (busy [c]) true) 0 (bufBase (SMap.getD c.recs 1 0) + 0)
         ((collResult (collParams c.pb) 1 [elemsOf 4 x 1]).flatMap (toBytes 4)) = .ok none v0) ∧
    (∀ op < 3, (encBench op).cmdOf 0 9 = some (busy [enc op], enc op) ∧ (enc op).op5 = 0x18 ∧ (encBench op).encBehind (busy [enc op]) (enc op) = false ∧ (enc op).encOp = op) ∧
    (∃ x s1, ((encBench 0).opened (enc 0)).engRead ((enc 0).req (busy [enc 0]) false) 0 (enc 0).session 64 = .ok x s1 ∧ sessionOk (ofBytes x) = true ∧
      engDone (s1.engWrite ((enc 0).req (busy [enc 0]) true) 0 (Session.ofNat (ofBytes x)).work [1, 2, 3, 4]) = true) ∧
    (∃ x s1, ((encBench 1).opened (enc 1)).engRead ((enc 1).req (busy [enc 1]) false) 0 (enc 1).session 64 = .ok x s1 ∧
      engDone (s1.engRead ((enc 1).req (busy [enc 1]) false) 0 (bufBase (enc 1).picture) (64 * bufStride (enc 1).picture * 3 / 2)) = true) := by
  refine ⟨?_, ?_, ?_, ?_, ?_, ?_⟩
  · decide +kernel
  · decide +kernel
  · refine ⟨by decide +kernel, ?_⟩
    obtain ⟨x, r1, h1, h2⟩ := eng_of (State.engRead { bench (busy [coll 900 0 0 1]) with view := some 0 } ((coll 900 0 0 1).req (busy [coll 900 0 0 1]) false) 0 (0x20000 + 0) 4)
      (fun (x : List Byte) (r1 : State) => engClear (((fresher (r1.closed (bench (busy [coll 900 0 0 1])) (coll 900 0 0 1))).opened (coll 900 0 0 1)).engWrite
        ((coll 900 0 0 1).req (busy [coll 900 0 0 1]) true) 0 (0x30000 + 0) ((collResult (collParams (coll 900 0 0 1).pb) 1 [elemsOf 4 x 1]).flatMap (toBytes 4))) = true)
      (by decide +kernel)
    obtain ⟨v0, h3⟩ := clear_of _ h2
    exact ⟨x, r1, v0, h1, h3⟩
  · decide +kernel
  · exact eng_of _ (fun (x : List Byte) (s1 : State) => sessionOk (ofBytes x) = true ∧ engDone (s1.engWrite _ 0 (Session.ofNat (ofBytes x)).work [1, 2, 3, 4]) = true) (by decide +kernel)
  · exact eng_of _ (fun (x : List Byte) (s1 : State) => engDone (s1.engRead _ _ _ _) = true) (by decide +kernel)

/-! ### Queues, graphs, keys and slices -/

/-- A handle to queue q with every right. -/
def handleOf (q : Nat) : DWord := BitVec.ofNat 64 (q + 7 * 2 ^ 49)

/-- The queue as the controller holds it. -/
def queueAt (head tail done : Word) (q : Nat := 0) : Queue := { sl := 0, q := q, head := head, tail := tail, done := done }

def queued (s : State) (x : Queue) : State := { s with queues := [x] }

/-- With a logged store of slice 0 to the queue's ring. -/
def ringHeld (s : State) : State := { s with sideLog := (logged s 0x60000 0 0).sideLog.map (fun e => { e with byVa := false }) }

/-- LAUNCH to a queue that has room, one that is full, one of the host's, with a refused handle and bad addresses; the QWAITs that end at
once, wait and are refused; a ring whose granule has a logged store. -/
theorem witness_QueueInstructions : let t := ((one.put64 2 0x10100).put64 4 (handleOf 0)).put 6 3840; let b := withS (withS (tenant t) 0 0) 1 0x000E0000
    let s := sliceBench b; let P := s.progressed
    (Solo s b t ∧ FieldsOk b t (23 :: ([2, 3] ++ [4, 5])) [] ([2, 3] ++ [4, 5]) ∧ FieldsOk b t [23, 6] [0, 1] [6]) ∧
    ((t.get64 2).toNat < 2 ^ 56 ∧ (t.get64 2).toNat % 256 = 0 ∧ P.handle b.owner 0 0 = none ∧ 2 ^ 56 ≤ ((t.put64 2 (2 ^ 56)).get64 2).toNat ∧ (0x10101 : Nat) % 256 ≠ 0) ∧
    (∃ x, P.handle b.owner (t.get64 4).toNat 0 = some x ∧ x.1 = 0 ∧ descHost x.2 = false ∧
      (P.queueOf b.owner 0 x.2).tail = (P.queueOf b.owner 0 x.2).head ∧
      2 ^ descLog x.2 ≤ (((queued P (queueAt 0 16 0)).queueOf b.owner 0 x.2).tail - ((queued P (queueAt 0 16 0)).queueOf b.owner 0 x.2).head).toNat ∧
      (P.devWrite b.owner (entryAddr x.2 0) (List.replicate 256 0)).isSome = true ∧
      P.gpaHeld b.owner (entryAddr x.2 0) 256 = false ∧ (ringHeld P).gpaHeld b.owner (entryAddr x.2 0) 256 = true ∧
      ((ringHeld P).devWrite b.owner (entryAddr x.2 0) (List.replicate 256 0)).isSome = true ∧
      2 ^ 31 ≤ ((P.queueOf b.owner 0 x.2).done - (t.get 6)).toNat ∧
      (((queued P (queueAt 0 0 3840)).queueOf b.owner 0 x.2).done - (t.get 6)).toNat < 2 ^ 31 ∧
      ((queued P (queueAt 0 1 0)).queueOf b.owner 0 x.2).tail ≠ ((queued P (queueAt 0 1 0)).queueOf b.owner 0 x.2).head) ∧
    (∃ x, P.handle b.owner (handleOf 1).toNat 0 = some x ∧ descHost x.2 = true) ∧
    (∃ x s', P.devLoad (b.progressAt s.clock) t (b.loadReq t.level) false none (t.get64 2).toNat 256 = .ok x s' ∧ x.length = 256) ∧
    (∃ x, P.handle b.owner (b.sget64 t 0).toNat 2 = some x ∧ (P.handle b.owner (b.sget64 t 0).toNat 1).isSome = true) ∧
    (∃ x, P.devRead b.owner 0x60000 256 = .ok x ∧ x.length = 256) := by
  intro t b s P
  refine ⟨⟨solo_of _ _ _ rfl rfl rfl rfl rfl, ⟨by decide +kernel, by decide +kernel⟩, ⟨by decide +kernel, by decide +kernel⟩⟩, by decide +kernel,
    option_of (P.handle b.owner (t.get64 4).toNat 0) (fun (x : Nat × Nat) => x.1 = 0 ∧ descHost x.2 = false ∧
      (P.queueOf b.owner 0 x.2).tail = (P.queueOf b.owner 0 x.2).head ∧
      2 ^ descLog x.2 ≤ (((queued P (queueAt 0 16 0)).queueOf b.owner 0 x.2).tail - ((queued P (queueAt 0 16 0)).queueOf b.owner 0 x.2).head).toNat ∧
      (P.devWrite b.owner (entryAddr x.2 0) (List.replicate 256 0)).isSome = true ∧
      P.gpaHeld b.owner (entryAddr x.2 0) 256 = false ∧ (ringHeld P).gpaHeld b.owner (entryAddr x.2 0) 256 = true ∧
      ((ringHeld P).devWrite b.owner (entryAddr x.2 0) (List.replicate 256 0)).isSome = true ∧
      2 ^ 31 ≤ ((P.queueOf b.owner 0 x.2).done - (t.get 6)).toNat ∧
      (((queued P (queueAt 0 0 3840)).queueOf b.owner 0 x.2).done - (t.get 6)).toNat < 2 ^ 31 ∧
      ((queued P (queueAt 0 1 0)).queueOf b.owner 0 x.2).tail ≠ ((queued P (queueAt 0 1 0)).queueOf b.owner 0 x.2).head) (by decide +kernel),
    option_of (P.handle b.owner (handleOf 1).toNat 0) (fun (x : Nat × Nat) => descHost x.2 = true) (by decide +kernel),
    dev_of _ (fun (x : List Byte) _ => x.length = 256) (by decide +kernel),
    option_of (P.handle b.owner (b.sget64 t 0).toNat 2) (fun _ => (P.handle b.owner (b.sget64 t 0).toNat 1).isSome = true) (by decide +kernel),
    except_of _ (fun (x : List Byte) => x.length = 256) (by decide +kernel)⟩

/-- TAKE into the last 256 bytes of the scratchpad, where a retired command has left some of them undefined, at an odd address, beyond the
end, and onto a live object. -/
theorem witness_QueueInstructions_take : let t := one.put 6 3840; let b := tenant t; let s := sliceBench b
    (t.get 6).toNat % 16 = 0 ∧ (t.get 6).toNat + 256 ≤ b.scratchSize ∧ b.liveIn (t.get 6).toNat 256 = none ∧
    (b.progressAt s.clock).Covered t (b.progressAt s.clock) (t.get 6).toNat 256 ∧ b.Covered t (b.progressAt s.clock) (t.get 6).toNat 256 ∧
    (s.progressed.noteDev b.owner 0x60000 256).blocks[0]? = some (b.progressAt s.clock) ∧
    (let c : Block := { b with past := [{ written with wrote := [(1, b.uid, 4000, 8)] }] }
     Solo (sliceBench c) c t ∧ ¬c.Covered t (c.progressAt s.clock) (t.get 6).toNat 256) ∧
    ({ b with live := [255] } : Block).liveIn (t.get 6).toNat 256 = some 255 ∧ (3841 : Nat) % 16 ≠ 0 ∧ ((3856 : Nat) % 16 = 0 ∧ b.scratchSize < 3856 + 256) :=
  ⟨by decide +kernel, by decide +kernel, by decide +kernel, by unfold Block.Covered; decide +kernel, by unfold Block.Covered; decide +kernel, by decide +kernel,
    ⟨solo_of _ _ _ rfl rfl rfl rfl rfl, by unfold Block.Covered; decide +kernel⟩, by decide +kernel, by decide, by decide +kernel⟩

/-- A block of a tenant whose launch has a node table at 0x20000, and memory in which node 1 of the table is valid. -/
def nodeBlock : Block := withS (withS { tenant one with record := (tenant one).record + 0x20000 * 2 ^ 1408 } 2 1) 3 256

def nodeBench : State :=
  stored (sliceBench nodeBlock) 0x20020 (toBytes 32 (1 + 2 ^ 48 + 4 * 2 ^ 64 + 0x40000 * 2 ^ 128 + 0x30000 * 2 ^ 192))

/-- The read of an entry of the table. -/
def nodeRead (n : Nat) : Dev := nodeBench.progressed.devLoad (nodeBlock.progressAt nodeBench.clock) one (nodeBlock.loadReq one.level) false none (0x20000 + 32 * n) 32

/-- The read of the consumer record after it, and an empty niche. -/
def consumerRead (s1 : State) : Bool :=
  match s1.devLoad (nodeBlock.progressAt nodeBench.clock) one (nodeBlock.loadReq one.level) false none 0x40000 256 with
  | .ok y s2 => recBlocks (ofBytes y) ≤ 1 && s2.nicheEmpty nodeBlock.launch 1
  | _ => false

/-- NICHEWAIT of a node beyond the table, of one that is not valid, and of one whose niche is empty and is not; CKPT with and without an area. -/
theorem witness_NicheWaitAndCheckpoint :
    let n : Niche := { launch := 0, owner := 0, node := 1, buffer := 0x30000, capacity := 4, count := 1, timer := 0, consumer := 0x40000, pending := [(0, 0)] }
    let l : Launch := { uid := 0, owner := 0, q := 0, seq := 0, record := nodeBlock.record, nblocks := 1, unplaced := [] }
    (Solo nodeBench nodeBlock one ∧ FieldsOk nodeBlock one [] [2] [] ∧ FieldsOk nodeBlock one [23] [] []) ∧
    (recNodetab nodeBlock.record ≠ 0 ∧ (nodeBlock.sget one 2).toNat < 256 ∧ 256 ≤ (nodeBlock.sget one 3).toNat) ∧
    (∃ x s1, nodeRead 1 = .ok x s1 ∧ (NodeEntry.ofNat (ofBytes x)).valid = true ∧ (NodeEntry.ofNat (ofBytes x)).ok = true ∧ consumerRead s1 = true) ∧
    ({ nodeBench with niches := [n] } : State).nicheEmpty nodeBlock.launch 1 = false ∧
    (∃ x s1, nodeRead 2 = .ok x s1 ∧ (NodeEntry.ofNat (ofBytes x)).valid = false) ∧
    (nodeBlock.owner < Config.nSlices ∧ nodeBench.later = false ∧ (deferring nodeBench).later = true ∧ nodeBench.sliceWord nodeBlock.owner 8 = 0 ∧
      (nodeBench.updSlice 0 (fun x => { x with record := x.record.set 8 0x70000 })).sliceWord nodeBlock.owner 8 ≠ 0 ∧
      ({ nodeBench with launches := [l] } : State).launches.find? (fun l => l.uid == nodeBlock.launch) = some l) :=
  ⟨⟨solo_of _ _ _ rfl rfl rfl rfl rfl, ⟨by decide +kernel, by decide +kernel⟩, ⟨by decide +kernel, by decide +kernel⟩⟩, by decide +kernel,
    dev_of _ (fun x s1 => (NodeEntry.ofNat (ofBytes x)).valid = true ∧ (NodeEntry.ofNat (ofBytes x)).ok = true ∧ consumerRead s1 = true) (by decide +kernel),
    by decide +kernel, dev_of _ (fun x _ => (NodeEntry.ofNat (ofBytes x)).valid = false) (by decide +kernel), by decide +kernel⟩

/-- A task control block of 64 bytes with a state and a count of predecessors. -/
def tcbBytes (st pred : Nat) : List Byte := toBytes 64 (pred * 2 ^ 64 + st * 2 ^ 96)

/-- A notify to the host's queue; a niche whose timer has run; task control blocks in each state, one whose read must wait, and one with a
successor that can be counted down and one that cannot yet; a launch that is done, with a task control block and without. -/
theorem witness_GraphEvents : let s := sliceBench (tenant one)
    let n : Niche := { launch := 0, owner := 0, node := 1, buffer := 0x30000, capacity := 4, count := 2, timer := 5, consumer := 0x40000, pending := [(0, 0)] }
    let l : Launch := { uid := 9, owner := 0, q := 1, seq := 0, record := 0, nblocks := 1, unplaced := [], admitted := true }
    let at' (st pred : Nat) : State := stored s 0x20000 (tcbBytes st pred)
    let reads (st pred : Nat) : Prop := ∃ x s', (at' st pred).tcbRead 0 .s 0x20000 = .ok x s' ∧ tcbState x = st ∧ tcbPred x = pred
    (s.boundSlice 0 1 = some 0 ∧ (s.slice 0).ready = true ∧ (s.slice 0).resetting = false ∧ ∃ d, s.queueDesc 0 1 = some d ∧ descEn d = true ∧ descBad d = false ∧ descHost d = true ∧
      (16 - (s.queueOf 0 1 d).head).toNat ≤ 2 ^ descLog d) ∧
    (({ s with clock := 5, niches := [n] } : State).niche? 0 1 = some n ∧ n.pending = (0, 0) :: [] ∧ n.timer ≠ 0 ∧ 0 + n.timer ≤ 5) ∧
    (∀ op < 4, let r : TcbRetry := { owner := 0, addr := 0x20000, op := op }
     ({ s with tcbRetries := [r] } : State).tcbRetries.find? (fun x => x.owner == r.owner && x.addr == r.addr) = some r) ∧
    engWaits ((logged s 0x20000 0).tcbRead 0 .s 0x20000) = true ∧
    (({ at' 2 0 with view := none } : State).tcbRetire 0 .s 0x20000 7).isSome = true ∧ ((logged s 0x20000 0).tcbRetire 0 .s 0x20000 7).isNone = true ∧
    (∃ x s', (({ stored s 0x30000 (toBytes 8 0x20000) with view := none } : State).engRead (Req.load 0 .s) 0 (0x30000 + 8 * 0) 8 = .ok x s' ∧ ofBytes x = 0x20000)) ∧
    ((at' 1 2).tcbDecrement 0 .s 0x20000).isSome = true ∧ ((logged s 0x20000 0).tcbDecrement 0 .s 0x20000).isNone = true ∧
    (recTcb ({ l with record := 0x20000 * 2 ^ 1472 } : Launch).record ≠ 0) ∧
    reads 2 0 ∧ reads 0 3 ∧ reads 0 0 ∧ reads 1 1 ∧ reads 1 2 ∧
    (({ s with launches := [l] } : State).launches.find? (fun x => x.uid == l.uid) = some l ∧ ({ s with launches := [l] } : State).launchDone l = true ∧ l.q < 64 ∧
      l.batch = none ∧ recTcb l.record = 0 ∧ recDeadline l.record = 0 ∧ (s.queueDesc l.owner l.q).any descEn = true) := by
  intro s n l at' reads
  exact ⟨⟨by decide +kernel, by decide +kernel, by decide +kernel, option_of (s.queueDesc 0 1) (fun (d : Nat) => descEn d = true ∧ descBad d = false ∧ descHost d = true ∧
      (16 - (s.queueOf 0 1 d).head).toNat ≤ 2 ^ descLog d) (by decide +kernel)⟩,
    ⟨by decide +kernel, rfl, by decide, by decide⟩, by decide +kernel, by decide +kernel, by decide +kernel, by decide +kernel,
    eng_of _ (fun (x : List Byte) _ => ofBytes x = 0x20000) (by decide +kernel), by decide +kernel, by decide +kernel, by decide +kernel,
    eng_of _ (fun (x : Nat) _ => tcbState x = 2 ∧ tcbPred x = 0) (by decide +kernel), eng_of _ (fun (x : Nat) _ => tcbState x = 0 ∧ tcbPred x = 3) (by decide +kernel), eng_of _ (fun (x : Nat) _ => tcbState x = 0 ∧ tcbPred x = 0) (by decide +kernel), eng_of _ (fun (x : Nat) _ => tcbState x = 1 ∧ tcbPred x = 1) (by decide +kernel), eng_of _ (fun (x : Nat) _ => tcbState x = 1 ∧ tcbPred x = 2) (by decide +kernel), by decide +kernel⟩

/-- A key object of plain material for owner 0. -/
def keyBytes (version : Nat) : List Byte := [0, 0, 0, BitVec.ofNat 8 version] ++ List.replicate 2044 0

/-- The object's 2,048 bytes can be read; that its fields are in range is shown of the bytes that were put there. -/
theorem witness_InvalidationsAndKeys :
    let t := ((((one.put64 1 0x20000).put 3 253).put 4 47).put64 5 0x20040).put64 7 (2 ^ 56)
    let s := stored (sliceBench (home t)) 0x20000 (keyBytes 1); let P := s.progressed; let q := (home t).loadReq t.level
    (Solo (deferring s) (home t) t ∧ (deferring s).later = true) ∧ (s.later = false ∧ Solo s (home t) t ∧ t.level.ge .s = true ∧ t.level.ge .h = true ∧ FieldsOk (home t) t [1, 2] [] [1, 2] ∧ FieldsOk (home t) t [23, 1, 2, 4] [] [1, 2, 4] ∧
      FieldsOk (home t) t [23, 5, 6, 1, 2] [] [5, 6, 1, 2] ∧ FieldsOk (home t) t [23, 3, 1, 2] [] [3, 1, 2]) ∧
    ((t.get64 1).toNat < 2 ^ 56 ∧ 2 ^ 56 ≤ (t.get64 7).toNat ∧ (t.get 4).toNat ≤ 47 ∧ 47 < ((t.put 4 48).get 4).toNat ∧ (t.get 3).toNat % 256 < 254 ∧
      254 ≤ ((t.put 3 254).get 3).toNat % 256) ∧
    (∃ x s', P.devLoad ((home t).progressAt s.clock) t q false none (t.get64 1).toNat 2048 = .ok x s' ∧ (s'.keySlots[253]?).map (fun k => k.state) = some .empty) ∧
    ((KeyObject.of (keyBytes 1)).kind = 0 ∧ s.keyFieldsBad (KeyObject.of (keyBytes 1)) = false ∧ s.keyFieldsBad (KeyObject.of (keyBytes 2)) = true) ∧
    ((s.keySlots[254]?).isSome = true ∧ (s.keySlots[5]?).map (fun k => (k.state, k.owner)) = some (.live, 0)) ∧
    (∀ x ∈ [(t.get64 5).toNat, (t.get64 5).toNat + 4096, (t.get64 5).toNat + 8191], P.hostWaits ((home t).progressAt s.clock) 0 ((home t).storeReq .h) x = false) ∧
    (let k : KeySlot := { state := .live, owner := 0, expiries := [5, 0], nshare := 1, digests := [some [], none] }; k.due 5 = true ∧ k.due 4 = false) ∧
    ((t.get64 5).toNat < 2 ^ 56 ∧ (t.get64 5).toNat % 64 = 0 ∧ ∃ x s', P.devLoad ((home t).progressAt s.clock) t q false none (t.get64 1).toNat 32 = .ok x s' ∧ x.length = 32) := by
  refine ⟨⟨solo_of _ _ _ rfl rfl rfl rfl rfl, rfl⟩, ⟨rfl, solo_of _ _ _ rfl rfl rfl rfl rfl, by decide, by decide, ⟨by decide +kernel, by decide +kernel⟩, ⟨by decide +kernel, by decide +kernel⟩,
      ⟨by decide +kernel, by decide +kernel⟩, ⟨by decide +kernel, by decide +kernel⟩⟩, by decide +kernel,
    dev_of _ (fun _ (s' : State) => (s'.keySlots[253]?).map (fun k => k.state) = some .empty) (by decide +kernel), by decide +kernel, by decide +kernel,
    by decide +kernel, by decide +kernel, by decide +kernel, by decide +kernel, dev_of _ (fun (x : List Byte) _ => x.length = 32) (by decide +kernel)⟩

/-! ### Slice requests -/

/-- The armature's block, with slices 0 and 1 as given. -/
def armature (t : Thread) (x y : Slice → Slice) : State := ((sliceBench (home t)).updSlice 0 x).updSlice 1 y

theorem armature_asks (t : Thread) (x y : Slice → Slice) (h0 : t.tid = 0) (hg : t.guardOk = true) (hl : t.level.ge .h = true) : Asks (armature t x y) (home t) t :=
  { solo := solo_of _ _ _ rfl rfl h0 rfl hg, core := rfl, level := hl, idle := rfl }

/-- The 32 words of a slice record for slice 1. -/
def recordWords : List Nat := [1 + 2 * 2 ^ 16, 0x1000, 0, 0, 0, 4, 0, 0, 0, 0, 4, 0, 0, 0, 63, 0] ++ List.replicate 16 0

/-- A request off the armature core, one to a slice in a protocol, and each request that is answered at once, at the ends of its ranges. -/
theorem witness_SliceRequests :
    let t (a : Word) (y : DWord) : Thread := (one.put 1 a).put64 3 y
    let s (t : Thread) (q : SliceState) : State := armature t (fun x => { x with state := q }) id
    (Solo (sliceBench (tenant one)) (tenant one) one ∧ (tenant one).core ≠ Config.armatureCore) ∧
    (Solo (s (t 0 0) .inProtocol) (home (t 0 0)) (t 0 0) ∧ (home (t 0 0)).core = Config.armatureCore ∧ (s (t 0 0) .inProtocol).request = none ∧
      ((s (t 0 0) .inProtocol).slice 0).state = .inProtocol) ∧
    (∀ a y q, Asks (s (t a y) q) (home (t a y)) (t a y) ∧ FieldsOk (home (t a y)) (t a y) [23, 1, 3, 4] [] [1, 3, 4] ∧ FieldsOk (home (t a y)) (t a y) [23, 1, 2, 3, 4] [] [1, 2, 3, 4]) ∧
    (let u := t 1 0x20000; let z := stored (s u .running) 0x20000 (recordWords.flatMap (toBytes 8))
     ((z.slice 1).state = .free ∧ ∃ x, z.progressed.readVa (Req.load Config.ownerHv u.level) false 0x20000 256 = .ok x ∧
      (∀ i < 32, recordWordOk i (numAt x.1 (8 * i) 8) = true) ∧ fld (numAt x.1 0 8) 6 0 = 1 ∧
      z.progressed.claimsHeld 1 (fun i => ((List.range 32).map (fun i => numAt x.1 (8 * i) 8)).getD i 0) = false ∧ fld (numAt x.1 120 8) 40 24 = 0)) ∧
    (let z := s (t 0 0) .running; (z.slice 0).state ≠ .free ∧ 63 * 256 < 2 ^ 14 ∧ fld (63 * 256) 2 6 = 0 ∧ 2 ^ 36 - 1 < 2 ^ 36) ∧
    (fld 63 5 8 = 0 ∧ fld 319 5 8 = 1 ∧ fld 319 6 0 = 63 ∧ ringOk 16 = true ∧ ringOk 17 = false) ∧
    (let z := s (t 0 0) .quiesced; fld (13 * 256) 5 8 = 13 ∧ recordWordOk 13 4096 = true ∧ quiescedWord 13 = false ∧ quiescedWord 3 = true ∧ recordWordOk 3 0 = true ∧
      (z.slice 0).state = .quiesced ∧ z.progressed.claimsHeld 0 (fun j => if j = 13 then 4096 else z.progressed.sliceWord 0 j) = false) ∧
    (let z := s (t 256 0x20000) .running; (z.progressed.writeVa (Req.store Config.ownerHv .h) false 0x20000 (z.progressed.statusBlock 0)).2.isNone = true) ∧
    (let z := armature (t 0 0) (fun x => { x with state := .quiesced, hard := 0 }) id; (z.slice 0).state = .quiesced ∧ z.quadsOfSlice 0 = [] ∧ z.casts = []) ∧
    (let z := s (t 0 0) .quiesced; z.quadsOfSlice 0 ≠ [] ∧ 11 ∈ z.cacheSet 0 ∧ 383 ∈ z.cacheSet Config.ownerHv ∧ fld 64 2 6 = 1 ∧ bitsOf 32 1 ≠ [] ∧
      ∀ q ∈ bitsOf 32 1, q ∈ z.quadsOfSlice 0) ∧
    (let z : State := { armature one (fun x => { x with resetting := true }) id with request := some ((home one).uid, 0) }
     Solo z (home one) one ∧ FieldsOk (home one) one [23, 1] [] [1] ∧ (z.slice 0).resetting = true) ∧
    (2 ^ 25 - 1 < 2 ^ 25 ∧ (2 ^ 31 + 2 ^ 16 - 1) / 2 ^ 16 = 2 ^ 15 ∧ (s (t 0 0) .running).later = false ∧ ({ s (t 0 0) .running with later := true } : State).later = true) := by
  refine ⟨⟨solo_of _ _ _ rfl rfl rfl rfl rfl, by decide +kernel⟩, ⟨solo_of _ _ _ rfl rfl rfl rfl rfl, by decide +kernel⟩,
    fun a y q => ⟨armature_asks _ _ _ rfl rfl rfl, ⟨rfl, rfl⟩, ⟨rfl, rfl⟩⟩, ⟨by decide +kernel, ?_⟩, by decide +kernel, by decide +kernel, by decide +kernel, by decide +kernel,
    by decide +kernel, by decide +kernel, ⟨solo_of _ _ _ rfl rfl rfl rfl rfl, ⟨rfl, rfl⟩, by decide +kernel⟩, by decide +kernel⟩
  exact except_of _ (fun (x : List Byte × State) => (∀ i < 32, recordWordOk i (numAt x.1 (8 * i) 8) = true) ∧ fld (numAt x.1 0 8) 6 0 = 1 ∧
      State.claimsHeld _ 1 (fun i => ((List.range 32).map (fun i => numAt x.1 (8 * i) 8)).getD i 0) = false ∧ fld (numAt x.1 120 8) 40 24 = 0) (by decide +kernel)

/-- Requests beside another thread's: to a slice that is in no protocol, while a partition protocol names another slice and while none is under
way; to one that is being reset, and to one that a partition protocol names. A lease of quadrant 1 from slice 1, and none. -/
theorem witness_SliceRequests_others :
    let s (x y : Slice → Slice) : State := { armature one x y with request := some (900, 0) }
    let w := 2 ^ 24 + 2 ^ 16 + 1
    let lent : State := (armature one (fun x => { x with hard := 1 }) (fun x => { x with state := .running, hard := 2, record := x.record.set 14 63 })).progressed
    (∀ x y, Solo (s x y) (home one) one ∧ (s x y).request ≠ some ((home one).uid, one.tid) ∧ (s x y).request ≠ none) ∧
    (FieldsOk (home one) one [23, 1] [] [1] ∧ FieldsOk (home one) one [23, 1, 2, 3, 4] [] [1, 2, 3, 4] ∧ FieldsOk (home one) one [23, 1, 3] [] [1, 3] ∧
      FieldsOk (home one) one [23, 1, 3, 4] [] [1, 3, 4] ∧ (home one).core = Config.armatureCore ∧ one.level.ge .h = true) ∧
    ((s id id).inPartition = false ∧ ((s id id).slice 0).state ≠ .inProtocol ∧ ((s id id).slice 0).state ≠ .free ∧ 0 < Config.nSlices) ∧
    (s id (fun x => { x with state := .inProtocol })).inPartition = true ∧
    (let z := s (fun x => { x with state := .inProtocol, resetting := true }) id; (z.slice 0).state = .inProtocol ∧ (z.slice 0).resetting = true) ∧
    (let z := s (fun x => { x with state := .inProtocol }) id; (z.slice 0).state = .inProtocol ∧ (z.slice 0).resetting = false) ∧
    (recordWordOk 15 w = true ∧ fld (15 * 256) 5 8 = 15 ∧ (∀ z ∈ lent.leaseChecks 0 (lent.worldOf 0) w, z.1 = false) ∧ lent.leaseChecks 0 (lent.worldOf 0) w ≠ [] ∧
      lent.claimsHeld 0 (fun j => if j = 15 then w else lent.sliceWord 0 j) = false ∧ fld w 40 24 ≠ 0 ∧ lent.leaseChecks 0 (lent.worldOf 0) 0 = []) :=
  ⟨fun _ _ => ⟨solo_of _ _ _ rfl rfl rfl rfl rfl, by show some ((900 : Nat), (0 : Nat)) ≠ _; decide +kernel, by show some ((900 : Nat), (0 : Nat)) ≠ none; decide⟩, ⟨⟨rfl, rfl⟩, ⟨rfl, rfl⟩, ⟨rfl, rfl⟩, ⟨rfl, rfl⟩, rfl, rfl⟩,
    by decide +kernel, by decide +kernel, by decide +kernel, by decide +kernel, by decide +kernel⟩

/-- A free quadrant passes to slice 0, quadrant 0 to none, quadrant 1 from slice 1 to slice 0; slice 0 quiesced with no block of its
own, and with one that cannot be cast. -/
theorem witness_SlicePartition :
    let t (a : Word) (y : Word) : Thread := ((one.put 1 a).put 2 0).put 3 y
    let s (t : Thread) : State := armature t id (fun x => { x with state := .quiesced, hard := 2 })
    let P (t : Thread) : State := (s t).progressed
    let there (o : Nat) : Prop := o < Config.nSlices ∧ (((s (t 0 0)).slice o).state = .quiesced ∨ ((s (t 0 0)).slice o).state = .running)
    (Asks (s (t 0 4)) (home (t 0 4)) (t 0 4) ∧ FieldsOk (home (t 0 4)) (t 0 4) [23, 1, 3] [] [1, 3] ∧ FieldsOk (home (t 0 4)) (t 0 4) [23, 1, 2, 3, 4] [] [1, 2, 3, 4] ∧
      there 0 ∧ there 1) ∧
    (bitsOf 32 4 = [2] ∧ bit (s (t 0 4)).removed 2 = false ∧ (s (t 0 4)).holders 2 = [] ∧ ((s (t 0 4)).slice 0).shares = [] ∧
      (P (t 0 4)).worldBad ((P (t 0 4)).worldOf 0) [2] (fun s => [2].foldl (fun s q => s.joinHard 0 q) s) = false ∧
      (((P (t 0 4)).updSlice 0 (fun z => { z with prior := z.state, state := .inProtocol })).castAll 3 [0]).drained [0] = true) ∧
    (let a : Word := 63 * 256 + 1; let z := s (t a 2)
     fld a.toNat 2 6 = 0 ∧ fld a.toNat 6 8 = 63 ∧ (∀ q ∈ bitsOf 32 2, q ∈ z.quadsOfSlice 1) ∧ (z.slice 1).state = .quiesced ∧ (z.slice 1).shares = [] ∧
      (P (t a 2)).worldBad 0 [] (fun s => s.passQuads 1 63 [1]) = false) ∧
    (let z := s (t 256 0)
     fld 256 6 8 = 1 ∧ fld 256 2 6 = 0 ∧ (z.slice 1).state = .quiesced ∧ z.casts = [] ∧ (∀ q < 64, (z.progressed.queueDesc 1 q).all (fun d => !descEn d) = true) ∧
      (z.slice 1).shares = [] ∧ (z.slice 0).shares = [] ∧ z.worldOf 1 = z.worldOf 0 ∧
      z.progressed.worldBad (z.progressed.worldOf 0) (z.progressed.quadsOfSlice 1) (fun s => s.passQuads 1 0 [1]) = false) ∧
    ((t 0 0).get 2 = 0 ∧ ((s (t 0 0)).slice 0).state = .running ∧ (((P (t 0 0)).updSlice 0 (fun y => { y with quiescing := true })).castAll 3 [0]).drained [0] = true ∧
      (({ P (t 0 0) with blocks := (P (t 0 0)).blocks ++ [tenant one] } : State).castAll 3 [0]).drained [0] = false) := by
  refine ⟨⟨armature_asks _ _ _ rfl rfl rfl, ⟨rfl, rfl⟩, ⟨rfl, rfl⟩, by decide +kernel, by decide +kernel⟩, ?_, ?_, ?_, ?_⟩
  · decide +kernel
  · decide +kernel
  · decide +kernel
  · decide +kernel

/-! ### Between instructions, dispatch, the host's side and the module -/

/-- A window one position beyond the residency: with an area of 64 positions, with one that cannot be written, with one that a logged store
of its own covers, and with none left; a window one position below it, whose tag is there, is not, and has to wait. Values of every class,
with 0 and 3 as the lanes. -/
theorem witness_SpillsAndFills :
    let up : Thread := { one with wb := 1 }; let down : Thread := { one with low := 1, f := 23 }
    let at' (s : State) (t : Thread) (d : Word) : Prop := s.threadAt 0 0 = some (0, spills t d, t) ∧ s.runnable 0 (spills t d) t = true
    let hollow (s : State) : State := { s with tlb1 := [], tlb2 := [] }
    let faults (r : Except Stop State) (c : Cause) : Prop := ∃ x, r = .error x ∧ (match x with | .trap tr => tr.cause == c | _ => false) = true
    let waits (r : Except Stop State) : Prop := ∃ x, r = .error x ∧ (match x with | .wait _ => true | _ => false) = true
    (at' (spilling up 64) up 64 ∧ at' (hollow (spilling up 64)) up 64 ∧ at' (spilling up 0) up 0 ∧ at' (logged (spilling up 64) 0x20000) up 64 ∧
      up.low ≤ up.wb ∧ up.low + up.n < up.wb + up.f) ∧
    (∃ s', (spilling up 64).spillOne 0 0 = .ok s' ∧ (s'.thread? 0 0).map (fun x => x.2.low) = some 1) ∧
    faults ((hollow (spilling up 64)).spillOne 0 0) .pageFault ∧ waits ((logged (spilling up 64) 0x20000).spillOne 0 0) ∧
    (0 : Word).toNat ≤ up.low ∧
    (at' (spilling down 64) down 64 ∧ at' (stored (spilling down 64) 0x20000 [0x14]) down 64 ∧ at' (logged (spilling down 64) 0x20000) down 64 ∧ down.wb < down.low) ∧
    (∃ s', (stored (spilling down 64) 0x20000 [0x14]).fillOne 0 0 = .ok s' ∧ (s'.thread? 0 0).map (fun x => x.2.low) = some 0) ∧
    faults ((spilling down 64).fillOne 0 0) .spillCorrupt ∧ waits ((logged (spilling down 64) 0x20000).fillOne 0 0) ∧
    (let vals : List (Nat × Nat) := [(0, 2 ^ 32 - 1), (3, 0)]
     (vals.map (·.1)).Pairwise (· < ·) ∧ ∀ v ∈ vals, v.1 < 4 ∧ v.2 < 2 ^ 32) := by
  refine ⟨⟨⟨rfl, ?_⟩, ⟨rfl, ?_⟩, ⟨rfl, ?_⟩, ⟨rfl, ?_⟩, ?_, ?_⟩, ?_, error_of _ _ ?_, error_of _ _ ?_, by decide, ⟨⟨rfl, ?_⟩, ⟨rfl, ?_⟩, ⟨rfl, ?_⟩, ?_⟩, ?_, error_of _ _ ?_,
    error_of _ _ ?_, by decide⟩
  case refine_7 => exact except_of _ (fun (s' : State) => (s'.thread? 0 0).map (fun x => x.2.low) = some 1) (by decide +kernel)
  case refine_14 => exact except_of _ (fun (s' : State) => (s'.thread? 0 0).map (fun x => x.2.low) = some 0) (by decide +kernel)
  all_goals decide +kernel

/-- A pending return of a load and of a division; a thread whose flushing read is not yet acknowledged, one without, and none; a core whose
active set has room, is full with a gang that has stood its time, and is full without; a bin whose first quad has stood its time and one
whose block has nothing else to run. -/
theorem witness_ThreadEvents :
    let r : Return := { tid := 0, width := 8, pos := 23, value := 2 ^ 64 - 1 }
    let s := bench { home one with returns := [r, { r with divide := true }] }
    let f : Thread := { one with flushing := true }
    let gangs (n clk : Nat) (l : Option Nat) : State := { bench { home one with
      gangs := List.replicate n { quads := [0], active := true, last := l } ++ [{ quads := [0] }] } with clock := clk }
    let full (x : State) : Prop := 8 ≤ ((x.gangsOf Config.armatureCore).filter (fun x => x.2.2.active)).length
    let stood (x : State) : Option (Nat × Nat × Gang) :=
      ((x.gangsOf Config.armatureCore).filter (fun x => x.2.2.active)).find? (fun y => y.2.2.since + 64 ≤ x.clock && y.2.2.last.isSome)
    let bin : Bin := { core := Config.armatureCore, blk := 0, pc := 0x10000, level := .h, swb := 0, quads := [(0, 0)] }
    let binned (t : Thread) (clk : Nat) : State := { bench (home t) with bins := [bin], clock := clk }
    (s.placeOfUid 0 = some 0 ∧ (s.blocks[0]?).map (fun b => (b.returns.find? (fun r => r.tid == 0 && r.divide == false),
      b.returns.find? (fun r => r.tid == 0 && r.divide == true))) = some (some r, some { r with divide := true })) ∧
    (s.threadAt 9 0 = none ∧ (bench (home one)).threadAt 0 0 = some (0, home one, one) ∧ one.flushing = false ∧
      (bench (home f)).threadAt 0 0 = some (0, home f, f) ∧ f.flushing = true) ∧
    (∀ x ∈ [gangs 7 0 none, gangs 8 64 (some 0), gangs 8 63 (some 0)],
      (x.longest Gang.since ((x.readyOf Config.armatureCore).filter (fun x => !x.2.2.active))).isSome = true) ∧
    (¬full (gangs 7 0 none) ∧ full (gangs 8 64 (some 0)) ∧ (stood (gangs 8 64 (some 0))).isSome = true ∧ full (gangs 8 63 (some 0)) ∧ stood (gangs 8 63 (some 0)) = none) ∧
    (∀ x ∈ [binned one 256, binned { one with exited := true } 0],
      (x.bins.zipIdx.filter (fun x => x.1.core == Config.armatureCore))[0]? = some (bin, 0) ∧ x.bins[0]? = some bin ∧ x.placeOfUid bin.blk = some 0 ∧
      (x.blocks[0]?).map (·.halted) = some none) ∧
    (bin.quads.head? = some (0, 0) ∧ 0 + 256 ≤ (binned one 256).clock ∧
      ∀ q ∈ List.range (quadsOf 1), (binned { one with exited := true } 0).quadRunnable 0 (home { one with exited := true }) q = []) := by
  refine ⟨by decide +kernel, ⟨rfl, rfl, rfl, rfl, rfl⟩, by decide +kernel, by decide +kernel, by decide +kernel, by decide +kernel⟩

/-- Errors in a register, in a scratchpad word, in an accumulator pair, in L1, in a sector of L2 and its tag, and in the last sector of a
line of DRAM. -/
theorem witness_StorageErrors :
    let s := sliceBench { tenant one with core := 2047 }
    let base := 2047 * 2 ^ 21
    let l2key := 2 ^ 47 + 5 * 4 + 3
    let x : State := { s with l2 := [(l2key, { bytes := List.replicate 32 0, home := 5, way := 15 })], ways := SMap.set s.ways (5 * 128) (2 ^ 15) }
    let y : State := { s with latent := [(3, 1)], dramKey := [(3, 9)], keySlots := upd s.keySlots 5 (fun _ => { state := .live, owner := 0, key := some 9 }) }
    (s.chipCell (base / 4 * 4) = .reg 0 0 0 ∧ s.chipCell ((base + 0x80FFF) / 4 * 4) = .scratch 0 0xFFC ∧
      s.chipCell ((base + 0x17FFFF) / 4 * 4) = .acc 0 7 63 255 ∧ (s.blocks[0]?).isSome = true) ∧
    (s.blocks.find? (fun b => b.core == (2 ^ 32 - 1) / 2 ^ 21)).isSome = true ∧
    (SMap.get x.l2 l2key = some { bytes := List.replicate 32 0, home := 5, way := 15 }) ∧
    ((x.inSet 5 5).find? (fun c => c.2.way == (5 * 2 ^ 14 + 5 * 16 + 15) % 16)).isSome = true ∧ (5 * 2 ^ 14 + 5 * 16 + 15) / 2 ^ 14 = 5 ∧ (5 * 2 ^ 14 + 5 * 16 + 15) / 16 % 1024 = 5 ∧
    (2 ≤ SMap.getD y.latent (127 / 32) 0 + 1 ∧ SMap.getD s.latent (127 / 32) 0 + 1 < 2 ∧ (SMap.get y.latent 3).isSome = true ∧
      (∀ m < 4, m ≠ 3 → SMap.get y.latent (0 / 128 * 4 + m) = none) ∧ (y.dramOwner (32 * 3)).isSome = true) := by
  refine ⟨by decide +kernel, by decide +kernel, by decide +kernel, by decide +kernel, by decide +kernel, by decide +kernel, by decide +kernel⟩

/-- A core whose log was not yet due a retry and one where it is; an entry whose line an older one of another core waits for. -/
theorem witness_ThreadEvents_log :
    let e (core stamp va : Nat) : LogEntry :=
      { core := core, owner := Config.ownerHv, slice := 127, blk := 0, tids := [0], level := .h, stage2 := false, byVa := true, va := va, gpa := 0, seq := 0, cells := [(va, 7)], stamp := stamp }
    let log (va clk : Nat) : State := { bench (home one) with sideLog := [e 3 0 va], clock := clk }
    let tried (s : State) : State := { s with logTried := SMap.set s.logTried 3 s.clock }
    let two : State := { bench (home one) with sideLog := [e 3 7 127, e 2 6 120] }
    (¬SMap.getD (log 127 4095).logTried 3 0 + 4096 ≤ (log 127 4095).clock ∧ SMap.getD (log 127 4096).logTried 3 0 + 4096 ≤ (log 127 4096).clock ∧
      SMap.getD (tried (log 127 4096)).logTried 3 0 = 4096) ∧
    (bench (home one)).sideLog.find? (fun e => e.core == 3) = none ∧ (log 127 4096).sideLog.find? (fun e => e.core == 3) = some (e 3 0 127) ∧
    ((tried (log 127 4096)).retryEntry (e 3 0 127)).isSome = true ∧ (tried (log (2 ^ 40) 4096)).retryEntry (e 3 0 (2 ^ 40)) = none ∧
    ((two.translate (e 3 7 127).req (e 3 7 127).span.1 (e 3 7 127).span.2).toOption.map (fun x => (e 2 6 120).granule 127 x.gpa) = some true ∧
      e 2 6 120 ∈ two.sideLog ∧ (e 2 6 120).core ≠ (e 3 7 127).core ∧ (e 2 6 120).owner = (e 3 7 127).owner ∧ (e 2 6 120).stamp < (e 3 7 127).stamp) := by
  refine ⟨by decide +kernel, by decide +kernel, by decide +kernel, by decide +kernel, by decide +kernel, by decide +kernel⟩

/-- A word of a core on which nothing runs, of a scalar register file's place and of an accumulator pair; a load on its way to core 2047, with
a twin on the board of its gang; a host port. -/
theorem witness_StorageErrors_flight :
    let s := sliceBench { tenant one with core := 2047 }
    let r : Return := { tid := 0, width := 8, pos := 23, value := 2 ^ 64 - 1 }
    let f := sliceBench { tenant one with core := 2047, returns := [{ r with divide := true }, r], gangs := [{ quads := [0], active := true, board := [{ r with divide := true }, r] }] }
    (s.chipCell 0x20000 = .idle ∧ chipStruct 0x20000 ≠ 2 ∧ s.chipCell 0x100004 = .idle ∧ chipStruct 0x100004 = 2) ∧
    (f.blocks.findIdx? (fun b => b.core == 2047 && b.returns.any (fun r => !r.divide)) = some 0 ∧
      (f.blocks[0]?).map (fun b => b.returns.find? (fun r => !r.divide)) = some (some r)) ∧
    1 < s.ports.length := by
  refine ⟨by decide +kernel, by decide +kernel, by decide +kernel⟩

/-- A block of a neighbourhood of two that has ended, while its mate runs and after it has; and one that runs a batch. -/
theorem witness_Preemption_retire :
    let ended (k : Nat) : Block := { tenant { one with exited := true } with uid := k, num := k, record := (tenant one).record + 2 * 2 ^ 128 + 2 ^ 136 }
    let pair (m : Block) : State := let s := sliceBench (ended 0); { s with blocks := [ended 0, m] }
    let running : Block := { ended 1 with threads := [one] }
    let mates (s : State) (x : Block) : List Block := (s.blocks ++ s.casts.map (·.blk)).filter (fun y => nbhdSize x.record != 0 && y.launch == x.launch &&
      y.num / nbhdSize x.record == x.num / nbhdSize x.record)
    let spent (y : Block) : Bool := y.threads.all (·.exited) && y.window.isEmpty
    nbhdSize (ended 0).record = 2 ∧ (ended 0).halted = none ∧ ((mates (pair running) (ended 0)).map spent = [true, false]) ∧
      ((mates (pair (ended 1)) (ended 0)).map spent = [true, true]) := by
  refine ⟨by decide +kernel, by decide +kernel, by decide +kernel, by decide +kernel⟩

/-- Links through which no command waits; a payload that fills its flit; the last link, a rekey due by its count. -/
theorem witness_ModuleAndLinks_flits :
    let l : Link := { up := true, sealedFlits := 2 ^ 36, held := [(0, [])] }
    let s : State := { sliceBench (tenant one) with links := State.reset.links.set 15 l }
    (∀ x ∈ s.allCmds, x.2.src = none ∨ x.2.port ≠ 15) ∧ s.links[15]? = some l ∧ 2 ^ 36 ≤ l.sealedFlits ∧ (List.replicate 224 (0 : Byte)).length ≤ 224 := by
  decide +kernel

/-- Slice 0 with a save area of n bytes at 0x20000, and its one block without scratchpad as given. -/
def saving (n : Nat) (f : Block → Block) : State :=
  let s := sliceBench (f { tenant one with record := (tenant one).record - 4096 * 2 ^ 96 })
  { s with slices := upd s.slices 0 (fun x => { x with record := (x.record.set 6 0x20000).set 7 n }) }

/-- The first block of `saving`, halted, and its cast. -/
def cast (bytes : List Byte) : Cast :=
  { blk := { tenant one with record := (tenant one).record - 4096 * 2 ^ 96, halted := some 0 }, kind := 0, time := 0, addr := 0x20000, bytes := bytes }

/-- A block of slice 0 named; halted, without room for its cast and with room to the byte; a cast whose area holds zeros, and one of a launch
another block of which still halts; a block that has ended; one that has stood for HANGLIMIT; a notice for quadrant 0, and its time come. (A cast that can be read back is too long for the kernel to check
here: its CRC runs over all its bytes.) -/
theorem witness_Preemption :
    let s := saving 0x10000 id; let h (n : Nat) : State := saving n (fun b => { b with halted := some 0 })
    let b : Block := { tenant one with record := (tenant one).record - 4096 * 2 ^ 96, halted := some 0 }
    let image := (h 0).castImage (b.leaving (h 0).clock) 0 b.haltTime 0 []
    (((s.blocks.filter (fun b => [0].contains b.uid)).map (·.owner)).eraseDups = [0]) ∧
    ((h 0).blocks.find? (fun x => x.uid == 0) = some b ∧ b.halted = some 0 ∧ (h 0).logOfBlock b.uid = [] ∧
      firstFit [] image.length 64 (h 0 |>.sliceWord 0 7) = none ∧ firstFit [] image.length 64 image.length = some 0 ∧
      ((h image.length).writeMarked b.owner (0x20000 + 0) image).isSome = true) ∧
    (let x : State := { s with casts := [cast []] }
     x.casts.find? (fun c => c.blk.uid == 0 && c.valid) = some (cast []) ∧ x.dispatches 0 = true ∧ x.castBlock (cast []) = none ∧ x.castsWith (cast []) = [cast []] ∧
      x.stillHalting (cast []) = false ∧ (x.restoreUnit (cast []) (some 0)).isSome = true) ∧
    (let c := { cast [] with blk := { (cast []).blk with uid := 1 } }; let x : State := { h 0 with casts := [c] }
     x.casts.find? (fun c => c.blk.uid == 1 && c.valid) = some c ∧ x.stillHalting c = true ∧ (x.restoreUnit c (some 0)).isNone = true) ∧
    (let x := saving 0 (fun b => { b with threads := [{ one with exited := true }] })
     (x.blocks.find? (fun y => y.uid == 0)).map (fun b => (b.threads.all (·.exited), b.window.isEmpty, b.halted)) = some (true, true, none)) ∧
    (let x : State := { s with clock := 2 ^ fld (s.sliceWord 0 1) 5 8 }
     (x.blocks.find? (fun y => y.uid == 0)).map (fun b => (b.halted, b.owner, b.progress)) = some (none, 0, 0) ∧ 0 + 2 ^ fld (x.sliceWord 0 1) 5 8 ≤ x.clock) ∧
    (s.dispatches 0 = true ∧ ∀ q ∈ bitsOf 32 1, q ∈ s.quadsOfSlice 0) ∧
    (let x := s.updSlice 0 (fun x => { x with notices := [⟨1, s.devTime + 1, []⟩, ⟨1, s.devTime, [0]⟩] })
     (x.slice 0).notices.find? (fun n => n.time ≤ x.devTime) = some ⟨1, x.devTime, [0]⟩) := by
  refine ⟨by decide +kernel, ?_, ?_, by decide +kernel, by decide +kernel, by decide +kernel, by decide +kernel, by decide +kernel⟩
  · refine ⟨?_, ?_, ?_, ?_, ?_, ?_⟩ <;> decide +kernel
  · refine ⟨?_, ?_, ?_, ?_, ?_, ?_⟩ <;> decide +kernel

/-- A head whose record is valid and one whose record is zeros; a decision's turn; a quadrant whose quantum is over, with a function that
has work. -/
theorem witness_Dispatch :
    let rcd := (tenant one).record + 2 ^ 144
    let z := queued (stored (sliceBench (tenant one)) 0x50000 (toBytes 64 (2 ^ 327 + 2 ^ 325 + 4 * 2 ^ 328 + 0x60000 * 2 ^ 448))) (queueAt 0 1 0)
    let s := stored z 0x60000 (toBytes 256 rcd)
    let put (s : State) (h : Head) : State × Launch :=
      let s1 := s.updSlice 0 (fun x => { x with admissions := x.admissions + 1 })
      let x := s1.queueOf 0 h.q h.desc
      let r := h.rcd.getD 0
      let l : Launch := { uid := s1.uids, owner := 0, q := h.q, seq := x.head.toNat, record := r, nblocks := recBlocks r, unplaced := List.range (recBlocks r)
                          enqueuedAt := h.since, admitted := true, admittedAt := s.clock, lastPlaced := s.clock }
      ({ s1.putQueue { x with head := x.head + 1, times := x.times.drop 1 } with uids := s1.uids + 1, launches := s1.launches ++ [l] }, l)
    (s.dispatches 0 = true ∧ (s.readyLaunches 0).length < 8 ∧ s.keyHeld 0 = false) ∧
    (∃ h, chooseHead ((s.slice 0).admissions % 16 == 15) (s.heads 0) = some h ∧ h.q < 64 ∧ (put s h).1.refusal (put s h).2 h.rcd.isSome false = none) ∧
    (∃ h, chooseHead ((z.slice 0).admissions % 16 == 15) (z.heads 0) = some h ∧ h.q < 64 ∧ (put z h).1.refusal (put z h).2 h.rcd.isSome false = some 1) ∧
    (let x : State := { (z.updSlice 0 (fun x => { x with shares := [(1, 1)] })) with qlog := [(1, 12)], clock := 2 ^ 12 }
     SMap.get x.qlog 1 = some 12 ∧ SMap.getD x.quantumAt 1 0 + 2 ^ 12 ≤ x.clock ∧ x.nextSharer 1 = some (0, 1) ∧
      ((List.range Config.nSlices).map (x.quantaOf 1)).foldl (· + ·) 0 < 64) := by
  intro rcd z s put
  refine ⟨by decide +kernel, ?_, ?_, by decide +kernel⟩
  · exact option_of _ (fun (h : Head) => h.q < 64 ∧ (put s h).1.refusal (put s h).2 h.rcd.isSome false = none) (by decide +kernel)
  · exact option_of _ (fun (h : Head) => h.q < 64 ∧ (put z h).1.refusal (put z h).2 h.rcd.isSome false = some 1) (by decide +kernel)

/-- A module in service with VF 1 of port 0 bound: an access in range, at the last byte, to a VF that is not there, to a slice that is not
ready, to one in the midst of a reset, and through a die port that is down; CQTAIL within its ring of 16 and beyond; a slice in PROTOCOL. A module that answers: an image for the slot that booted and for the
other; a mailbox at rest and at work; restarts in recovery, with every slice FREE and with one that is not; a notify of a record of
zeros and of one that may run. -/
theorem witness_HostSide :
    let s := sliceBench (tenant one)
    let ring (k : Nat) (s : State) : State := { s with ports := upd s.ports 0 (fun p => { p with cqEn := true, cqLog2n := k, cqRing := 0x60000 }) }
    let boot (s : State) (f : Boot → Boot) : State := { s with boot := f s.boot }
    ((s.ports[0]?).isSome = true ∧ s.inService = true ∧ s.answering = true) ∧
    (s.boundSlice 0 1 = some 0 ∧ (s.slice 0).ready = true ∧ s.boundSlice 0 2 = none ∧ (0x50000 : Nat) + 4 ≤ 2 ^ 36 ∧ (s.devWrite 0 0x50000 [1, 2, 3, 4]).isSome = true ∧
      ∃ b, s.devRead 0 0x50000 4 = .ok b ∧ b.length = 4) ∧
    ((s.slice 0).resetting = false ∧ (∀ x ∈ pieces 0x50000 4, s.portReach 0 x.1 0 = true) ∧
      (let x : State := { s.updSlice 0 (fun z => { z with record := z.record.set 0 (2 ^ 16 + 2 ^ 8) }) with
         ports := upd s.ports 1 (fun p => { p with numVfs := 1, vfEnable := true }), diePorts := s.diePorts.map (fun d => { d with up := false }) }
       x.boundSlice 1 1 = some 0 ∧ x.inService = true ∧ (x.slice 0).ready = true ∧ (x.slice 0).resetting = false ∧
         ∃ a ∈ pieces 0x50000 4, x.portReach 0 a.1 1 = false) ∧
      (s.resettingSlice 0 1 = none ∧ 0 < s.slices.length ∧ s.later = false ∧ ({ s with later := true } : State).later = true)) ∧
    (let x := s.updSlice 0 (fun x => { x with ready := false }); x.boundSlice 0 1 = some 0 ∧ (x.slice 0).ready = false) ∧
    (let x := s.updSlice 0 (fun x => { x with resetting := true, prior := .running, state := .inProtocol })
     x.boundSlice 0 1 = some 0 ∧ (x.slice 0).resetting = true ∧ x.resettingSlice 0 1 = some 0) ∧
    (let x := ring 4 s; (x.ports[0]?).map (fun p => (p.cqEn, p.cqLog2n, p.cqHead, p.mbStat)) = some (true, 4, 0, 0) ∧ x.boot.recovery = false ∧
      ((16 : Word) - 0).toNat ≤ 2 ^ 4 ∧ 2 ^ 4 < ((17 : Word) - 0).toNat) ∧
    (let x := s.updSlice 0 (fun x => { x with state := .inProtocol }); x.boundSlice 0 1 = some 0 ∧ (x.slice 0).state = .inProtocol ∧ (s.slice 0).state ≠ .inProtocol) ∧
    (s.boot.recovery = false ∧ s.boot.booted = 1 ∧ s.boot.booted ≠ 2 ∧ (s.ports[0]?).map (fun p => (p.mbAddr, p.mbLen, p.mbStat)) = some (0, 0, 0) ∧
      (boot s (fun b => { b with recovery := true })).answering = true) ∧
    ((∃ x ∈ s.slices, x.state ≠ .free) ∧ ∀ x ∈ State.reset.slices, x.state = .free) ∧
    (let x : State := { s with ports := upd s.ports 0 (fun p => { p with mbStat := 1, mbCmd := 2 }) }; (x.ports[0]?).map (fun p => p.mbStat) = some 1 ∧ x.answering = true) ∧
    (let x : State := { ring 4 s with controls := [0] }; let y := stored x 0x60000 (toBytes 256 ((tenant one).record + 2 ^ 144))
     (∀ b ∈ x.blocks, b.core ≠ Config.armatureCore) ∧ x.runningControl = none ∧ x.nextControl = some 0 ∧
      (∃ b, x.devRead Config.ownerHv 0x60000 256 = .ok b ∧ controlOk (ofBytes b) = false) ∧
      ∃ b, y.devRead Config.ownerHv 0x60000 256 = .ok b ∧ controlOk (ofBytes b) = true) := by
  intro s ring boot
  refine ⟨by decide +kernel, ?_, by decide +kernel, by decide +kernel, by decide +kernel, by decide +kernel, by decide +kernel, by decide +kernel, by decide +kernel, by decide +kernel, ?_⟩
  · exact ⟨by decide +kernel, by decide +kernel, by decide +kernel, by decide +kernel, by decide +kernel,
      except_of _ (fun (b : List Byte) => b.length = 4) (by decide +kernel)⟩
  · exact ⟨by decide +kernel, by decide +kernel, by decide +kernel, except_of _ (fun (b : List Byte) => controlOk (ofBytes b) = false) (by decide +kernel),
      except_of _ (fun (b : List Byte) => controlOk (ofBytes b) = true) (by decide +kernel)⟩

/-- A module with its supply and without; a slot with an image and two; a link at the last clock of its old generation, past it, with a
tag that has failed once, with a rekey due; a die-to-die port at its fifteenth failure and at its sixteenth. -/
theorem witness_ModuleAndLinks :
    let s := State.reset
    let v (a b : Option Nat) : State := { s with boot := { s.boot with slotA := a, slotB := b } }
    let port (n : Nat) : State := { s with diePorts := s.diePorts.set 0 ⟨true, n⟩ }
    let l : Link := { oldGen := some (255, 9), tagFail := some 65535, rxSeq := 65535, rekeyDue := true }
    let link (clk : Nat) : State := { s with links := s.links.set 15 l, clock := clk }
    (s.boot.powered = true ∧ s.inService = true ∧ bit s.removed 31 = false ∧ ({ s with boot := { s.boot with powered := false } } : State).boot.powered = false) ∧
    ((v none none).boot.slotA = none ∧ (v none none).boot.slotB = none ∧ (v (some 0) none).boot.slotA = some 0 ∧ (v (some 0) none).boot.rollback ≤ 0 ∧
      (v (some 0) (some 1)).boot.slotB = some 1) ∧
    (((port 14).diePorts[0]?).map (fun d => (d.up, d.replays)) = some (true, 14) ∧ ((port 15).diePorts[0]?).map (fun d => (d.up, d.replays)) = some (true, 15)) ∧
    ((link 8).links[15]? = some l ∧ (link 9).links[15]? = some l ∧ l.up = true ∧ l.rxGen = 0 ∧ l.rxSeq = 65535 ∧ l.tagFail = some 65535 ∧ l.rekeyDue = true ∧
      (link 8).clock < 9 ∧ 9 ≤ (link 9).clock ∧ (s.links[0]?).map (fun l => (l.up, l.tagFail)) = some (true, none)) := by
  refine ⟨by decide +kernel, by decide +kernel, by decide +kernel, by decide +kernel⟩

/-! ### Steps and what they keep -/

/-- The state in which a gang is chosen. -/
def choosing (s : State) : State := s.regangAll.coresInUse.foldl State.swapActive s.regangAll

/-- The state in which the words of a gang's issue are fetched, its block and the first thread that the issue runs. -/
def issueState (s1 : State) (x : Nat × Nat × Gang) : Option (State × Block × Thread) :=
  (s1.blocks[x.1]?).bind (fun b =>
    match s1.settleAll x.1 (s1.activeTids x.1 b x.2.2) with
    | (s2, k :: _) =>
      let s3 := (s2.ageQuads x.1 x.2.2 (s1.activeTids x.1 b x.2.2)).updBlock x.1 (fun b => { b with gangs := upd b.gangs x.2.1 (fun g => { g with last := some s2.clock }) })
      (s3.thread? x.1 k).map (fun y => (s3, b, y.2))
    | _ => none)

/-- The word at an address in it. -/
def wordAt (y : State × Block × Thread) (a : Nat) : Option Word :=
  match y.1.fetchAt y.2.1 y.2.2.level a with
  | .ok z => some z.1
  | .error _ => none

/-- The prefix state of that thread, and the word at its PC. -/
def issueOf (s1 : State) (x : Nat × Nat × Gang) : Option (Pfx × Word) :=
  (issueState s1 x).bind (fun y => (wordAt y y.2.2.pc.toNat).map (fun w => (y.2.2.pfx, w)))

/-- The issue of decoder 0, and the issue of decoder 1. -/
def firstIssue (s : State) : Option (Pfx × Word) :=
  let s0 := choosing s
  if s0.decoder1.isSome then none else s0.nextGang.bind (fun x => issueOf { s0 with decoder1 := s0.forDecoder1 x.1 x.2.2 } x)

def secondIssue (s : State) : Option (Pfx × Word) :=
  let s0 := choosing s
  s0.decoder1.bind (fun y => (({ s0 with decoder1 := none } : State).besideGang y.1 y.2).bind (issueOf { s0 with decoder1 := none }))

/-- An agent that has the turn takes some step, where there is one to take. -/
theorem agentStep_some (s : State) (h : 0 < s.agenda.length) : ∃ i, s.agentStep = some i :=
  ⟨_, List.getElem?_eq_getElem (Nat.mod_lt _ h)⟩

theorem agentStep_none (s : State) (h : s.agenda = []) : s.agentStep = none := by simp [State.agentStep, h]

/-- An input, a module without power, an agent's turn with and without something to do, no thread, a decoder 1 with no gang beside, the first
step of a word that is loaded, by decoder 0 and by decoder 1, and of one in the midst of a REP of which a repeat is left. -/
theorem witness_StepRunsDecoded :
    let s := State.reset.withFetchWord 32 0x00814194
    let p : Pfx := { repv := true, next := 63, cnt := 64 }
    let rep : State := s.updThread 0 0 (fun t => { t with pfx := p })
    let beside (s : State) : State := { s with decoder1 := some (Config.armatureCore, []) }
    (∀ x ∈ [s, rep, beside s, State.reset, beside State.reset], x.inputs = [] ∧ x.boot.stopped = false ∧ x.boot.powered = true ∧ x.agents = false) ∧
    (({ s with inputs := [.powerUp] } : State).inputs = .powerUp :: []) ∧
    (({ s with boot := { s.boot with powered := false } } : State).boot.powered = false) ∧
    s.decoder1 = none ∧ (∃ i, ({ s with agents := true, latent := [(3, 1)] } : State).agentStep = some i) ∧
    ({ State.reset with agents := true } : State).agentStep = none ∧ (choosing State.reset).decoder1 = none ∧ (choosing State.reset).nextGang = none ∧
    (choosing (beside State.reset)).decoder1 = some (Config.armatureCore, []) ∧
    ({ choosing (beside State.reset) with decoder1 := none } : State).besideGang Config.armatureCore [] = none ∧
    firstIssue s = some ({}, 0x00814194) ∧ secondIssue (beside s) = some ({}, 0x00814194) ∧ decodeWord 0x00814194 = .ok (.iadd64 4 5 3 false) ∧
    firstIssue rep = some (p, 0x00814194) ∧ stepOffender 0x00814194 p = none ∧
    Group.checkResumed { grp := 0x10000, pc := 0x10000, word := 0x00814194 } p = .ok (.iadd64 4 5 3 false) ∧
    decodeWord (stepWord 0x00814194 p.sd p.sa p.sb p.next p.stride.toInt) = .ok (.iadd64 4 5 3 false) := by
  refine ⟨by decide +kernel, rfl, rfl, rfl, agentStep_some _ (by decide +kernel), agentStep_none _ (by decide +kernel), ?_⟩
  refine ⟨?_, ?_, ?_, ?_, ?_, ?_, ?_, ?_, ?_, ?_, ?_⟩ <;> decide +kernel

/-- A group of three prefix words, a literal and an instruction word; the same in its second repeat, with a pending guard; with a guard pending alone, without a literal. -/
theorem witness_StepRunsDecoded_prefixes :
    let ws : List Word := [0xF0061000, 0xF1200000, 0xF2000000, 0x80000000, 0x00814014]
    let s := stored (State.reset.withFetchWord 32 0) 0x10000 (ws.flatMap (fun w => toBytes 4 w.toNat))
    let words (s : State) (at' : Nat) (n : Nat) : Option (List (Option Word)) :=
      (choosing s).nextGang.bind (fun x => (issueState { choosing s with decoder1 := (choosing s).forDecoder1 x.1 x.2.2 } x).map (fun y =>
        (List.range n).map (fun k => wordAt y (at' + 4 * k))))
    let p : Pfx := { repv := true, next := 1, cnt := 1, sd := true, stride := 2, ifpv := true, gpred := 1, limmv := true }
    let q : Pfx := { ifpv := true, gpred := 1, gsense := true }
    let at' (p : Pfx) : State := s.updThread 0 0 (fun t => { t with pc := 0x10010, pfx := p })
    (choosing s).decoder1 = none ∧ firstIssue s = some ({}, 0xF0061000) ∧ words s 0x10000 5 = some (ws.map some) ∧
    decodeWord 0xF0061000 = .ok (.rep 1 true false false 2) ∧ decodeWord 0xF1200000 = .ok (.ifp 1 false) ∧ decodeWord 0xF2000000 = .ok (.limm 0) ∧
    decodeWord 0x00814014 = .ok (.iadd64 4 5 0 false) ∧
    prefixDefect (.iadd64 4 5 0 false) 0x00814014 (some (repSteps 0xF0061000)) (some (limmTargetOf 0xF2000000)) = none ∧
    firstIssue (at' p) = some (p, 0x00814014) ∧ words (at' p) 0x10008 2 = some [some 0xF2000000, some 0x80000000] ∧
    Group.checkResumed { grp := 0x10010, pc := 0x10010, word := 0x00814014, limm := some (0x10008, 0xF2000000), lit := 0x80000000 } p = .ok (.iadd64 4 5 0 false) ∧
    firstIssue (at' q) = some (q, 0x00814014) ∧
    Group.checkResumed { grp := 0x10010, pc := 0x10010, word := 0x00814014 } q = .ok (.iadd64 4 5 0 false) ∧
    stepOffender 0x00814014 p = none ∧ decodeWord (stepWord 0x00814014 p.sd p.sa p.sb p.next p.stride.toInt) = .ok (.iadd64 6 5 0 false) := by
  intro ws s words p q at'
  refine ⟨?_, ?_, ?_, ?_, ?_, ?_, ?_, ?_, ?_, ?_, ?_, ?_, ?_, ?_, ?_⟩ <;> decide +kernel

/-- The state at reset takes a step: time passes. -/
theorem reset_steps : ∃ s', step { State.reset with agents := true } = .next s' := by
  have h : runStep { State.reset with agents := true } = .next { State.reset with agents := true } := by
    simp only [runStep, runAgent, agentStep_none { State.reset with agents := true } (by decide +kernel)]
    rfl
  exact ⟨_, by rw [step, h]; rfl⟩

/-- A state in canonical form that takes a step. -/
theorem witness_MemoryFormKept : Memory.wf State.reset.dram ∧ ∃ s', step { State.reset with agents := true } = .next s' :=
  ⟨by decide, reset_steps⟩

theorem witness_CountersNeverFall : ∃ s', step { State.reset with agents := true } = .next s' := reset_steps

theorem next_of (o : Outcome) (h : (match o with | .next _ => true | _ => false) = true) : ∃ s', o = .next s' := by
  cases o with
  | next s' => exact ⟨s', rfl⟩
  | fault x => cases h
  | refused x => cases h

/-- The key slots as they are at reset, and an instruction that asks for slot 254. -/
theorem witness_FirmwareKeysStand : let s := sliceBench (home ((one.put 1 254).put 0 254))
    (encode (.keyerase 1)).isSome = true ∧ s.slices.length = 48 ∧ s.keySlots.length = 256 ∧
    (s.keySlots[254]?).map (fun k => k.owner) = some Config.ownerFw ∧ (s.keySlots[255]?).map (fun k => k.owner) = some Config.ownerHv ∧
    ∃ s', exec (.keyerase 1) s = .next s' := by
  refine ⟨by decide +kernel, by decide +kernel, by decide +kernel, by decide +kernel, by decide +kernel, next_of _ (by decide +kernel)⟩

/-- A slot with a key for the owner, another owner's, one without a key; the last sector below 2^36. -/
theorem witness_SectorsReadBack : let s := sliceBench (tenant one)
    (List.replicate 32 (0 : Byte)).length = 32 ∧ s.keyFor 0 5 = some 0 ∧ s.keyFor 1 5 = none ∧ s.keyFor 0 6 = none ∧ (2 ^ 36 - 1) / 32 * 32 + 32 = 2 ^ 36 := by
  decide +kernel

end Sys2Proof.Tests
end

section
/-! SUPPORT. What `exec` runs for the instructions of the sequential machine: one equation per instruction. -/

namespace Sys2Proof.Machine

theorem exec_call (v : Reg) (i : BitVec 21) (s : State) : exec (.call v i) s = execCall v i s := rfl
theorem exec_calli (a v : Reg) (s : State) : exec (.calli a v) s = execCalli a v s := rfl
theorem exec_ret (s : State) : exec .ret s = execRet s := rfl
theorem exec_frame (i : Reg) (s : State) : exec (.frame i) s = execFrame i s := rfl
theorem exec_wbase (i : Reg) (s : State) : exec (.wbase i) s = execWbase i s := rfl
theorem exec_trap (i : BitVec 14) (s : State) : exec (.trap i) s = execTrap i s := rfl
theorem exec_trapEntry (b k : Nat) (s : State) : exec (.trapEntry b k) s = execTrapEntry b k s := rfl
theorem exec_spill (b k : Nat) (s : State) : exec (.spill b k) s = execSpill b k s := rfl
theorem exec_fill (b k : Nat) (s : State) : exec (.fill b k) s = execFill b k s := rfl
theorem exec_srd (d : Reg) (n : BitVec 14) (s : State) : exec (.srd d n) s = execSrd d n s := rfl
theorem exec_swr (d : Reg) (n : BitVec 14) (s : State) : exec (.swr d n) s = execSwr d n s := rfl
theorem exec_tret (s : State) : exec .tret s = execTret s := rfl
theorem exec_tinv (a : Reg) (s : State) : exec (.tinv a) s = execTinv a s := rfl
theorem exec_tinva (s : State) : exec .tinva s = execTinva s := rfl
theorem exec_pinv (d a v : Reg) (s : State) : exec (.pinv d a v) s = execPinv d a v s := rfl
theorem exec_pinva (d v : Reg) (s : State) : exec (.pinva d v) s = execPinva d v s := rfl
theorem exec_keyset (d a v : Reg) (s : State) : exec (.keyset d a v) s = execKeyset d a v s := rfl
theorem exec_keyerase (a : Reg) (s : State) : exec (.keyerase a) s = execKeyerase a s := rfl
theorem exec_ustat (d a v : Reg) (s : State) : exec (.ustat d a v) s = execUstat d a v s := rfl
theorem exec_slnew (d a v : Reg) (s : State) : exec (.slnew d a v) s = execSlnew d a v s := rfl
theorem exec_sldel (d a : Reg) (s : State) : exec (.sldel d a) s = execSldel d a s := rfl
theorem exec_slassign (d a v : Reg) (s : State) : exec (.slassign d a v) s = execSlassign d a v s := rfl
theorem exec_slquiesce (d a v : Reg) (s : State) : exec (.slquiesce d a v) s = execSlquiesce d a v s := rfl
theorem exec_slresume (d a : Reg) (s : State) : exec (.slresume d a) s = execSlresume d a s := rfl
theorem exec_slsplit (d a v : Reg) (s : State) : exec (.slsplit d a v) s = execSlsplit d a v s := rfl
theorem exec_slfuse (d a : Reg) (s : State) : exec (.slfuse d a) s = execSlfuse d a s := rfl
theorem exec_slways (d a v : Reg) (s : State) : exec (.slways d a v) s = execSlways d a v s := rfl
theorem exec_slplace (d a v : Reg) (s : State) : exec (.slplace d a v) s = execSlplace d a v s := rfl
theorem exec_slquota (d a v : Reg) (s : State) : exec (.slquota d a v) s = execSlquota d a v s := rfl
theorem exec_slreset (d a : Reg) (s : State) : exec (.slreset d a) s = execSlreset d a s := rfl
theorem exec_slstat (d a v : Reg) (s : State) : exec (.slstat d a v) s = execSlstat d a v s := rfl
theorem exec_ld (d a : Reg) (k : BitVec 5) (w : BitVec 2) (o : BitVec 6) (s : State) : exec (.ld d a k w o) s = execLd d a k w o s := rfl
theorem exec_st (d a : Reg) (k : BitVec 5) (w : BitVec 2) (o : BitVec 6) (s : State) : exec (.st d a k w o) s = execSt d a k w o s := rfl
theorem exec_rcrd (d a : Reg) (k : BitVec 5) (s : State) : exec (.rcrd d a k) s = execRcrd d a k s := rfl
theorem exec_faddx (d a : Reg) (k : BitVec 5) (s : State) : exec (.faddx d a k) s = execFaddx d a k s := rfl
theorem exec_rcclr (a : Reg) (k : BitVec 5) (s : State) : exec (.rcclr a k) s = execRcclr a k s := rfl
theorem exec_atomRec (d a : Reg) (k : BitVec 5) (q : BitVec 4) (s : State) : exec (.atomRec d a k q) s = s.recordAtom d a k 1 q.toNat := rfl
theorem exec_atom64 (d a : Reg) (k : BitVec 5) (q : BitVec 4) (s : State) : exec (.atom64 d a k q) s = s.recordAtom d a k 2 q.toNat := rfl

end Sys2Proof.Machine
end

section
/-! SUPPORT. Levels: a form below the level that it needs is refused (R30). -/

namespace Sys2Proof.Machine

/-- R30: below its level a form raises PRIV in the thread that issues alone, and does nothing else. -/
theorem exec_refused {s b t} (h : Solo s b t) {i : Instr} {l : Level} {f : Unit → Outcome} (e : exec i s = s.needLevel l f)
    (hl : t.level.ge l = false) : exec i s = .next (s.takeTrap t.tid (s.wordTrap .priv)) := by
  rw [e, need_solo h, hl]
  simp [State.trapAll, h.alone]

/-- R407, R413: a slice request below level H is refused as every system form is, on the armature core and off it. -/
theorem slRequest_refused {s b t} (h : Solo s b t) {d : Reg} {regs : List Nat} {named : Thread → List Nat} {waits : Bool}
    {f : State → Thread → Bool → Answer} {i : Instr} (e : exec i s = s.slRequest d regs named waits f) (hl : t.level.ge .h = false) :
    exec i s = .next (s.takeTrap t.tid (s.wordTrap .priv)) := by
  cases ha : ((s.blocks[s.cur.blk]?).map (fun b => b.core == Config.armatureCore)).getD false with
  | false => rw [e, State.slRequest, ha]; simp [State.trapAll, h.alone]
  | true => exact exec_refused h (e.trans (by rw [State.slRequest, ha]; exact if_neg (by decide))) hl

/-- Settles O28: each form needs a level, or is a slice request, which needs H; and the thread's level is below that. -/
theorem privilegedForms : Obligations.PrivilegedForms := by
  intro s b t d a v n h
  have slice {i regs named waits f} (hh : t.level.ge .h = false) (e : exec i s = s.slRequest d regs named waits f) := slRequest_refused h e hh
  refine ⟨fun hu => ?_, fun hus => ?_, fun hf => ?_⟩
  · have hs : t.level.ge .s = false := by rw [hu]; rfl
    refine ⟨exec_refused h (exec_tret s) hs, exec_refused h (exec_tinv a s) hs, exec_refused h (exec_tinva s) hs,
      exec_refused h (exec_ustat d a v s) hs, exec_refused h (exec_swr d n s) ?_, ?_⟩
    · rw [hu]; unfold srLevel; split <;> rfl
    · rintro (rfl | rfl) <;> exact exec_refused h (exec_srd d _ s) hs
  · have hh : t.level.ge .h = false := by rcases hus with e | e <;> rw [e] <;> rfl
    refine ⟨exec_refused h (exec_pinv d a v s) hh, exec_refused h (exec_pinva d v s) hh, exec_refused h (exec_keyset d a v s) hh,
      exec_refused h (exec_keyerase a s) hh, slice hh (exec_slnew d a v s), slice hh (exec_sldel d a s), slice hh (exec_slassign d a v s),
      slice hh (exec_slquiesce d a v s), slice hh (exec_slresume d a s), slice hh (exec_slsplit d a v s), slice hh (exec_slfuse d a s),
      slice hh (exec_slways d a v s), slice hh (exec_slplace d a v s), slice hh (exec_slquota d a v s), slice hh (exec_slreset d a s),
      slice hh (exec_slstat d a v s), ?_⟩
    rintro (rfl | rfl) <;> exact ⟨exec_refused h (exec_srd d _ s) hh, exec_refused h (exec_swr d _ s) hh⟩
  · have hl : t.level.ge .f = false := by revert hf; cases t.level <;> simp [Level.ge, Level.toNat]
    rintro (rfl | rfl) <;> exact ⟨exec_refused h (exec_srd d _ s) hl, exec_refused h (exec_swr d _ s) hl⟩

end Sys2Proof.Machine
end

section
/-! SUPPORT. Special registers (R26, R144, R145): what SRD reads and SWR writes, for a thread that issues alone. -/

namespace Sys2Proof.Machine

/-- A change that leaves a block as it is. -/
theorem State.updBlock_same (s : State) (i : Nat) : s.updBlock i (fun b => b) = s := by
  simp only [State.updBlock, upd]
  rw [show (fun b : Block => b) = id from rfl, List.modify_id]

/-- R5: the low bits of a number. -/
theorem fld_low (v w : Nat) : fld v w 0 = v % 2 ^ w := by simp [fld]

/-- R30: a form whose level the thread has runs. -/
theorem needLevel_ok {s b t} (h : Solo s b t) {l : Level} (f : Unit → Outcome) (hl : l.toNat ≤ t.level.toNat) : s.needLevel l f = f () := by
  rw [need_solo h, if_pos (by simpa [Level.ge] using hl)]

/-- R144: SRD of a register of one word. -/
theorem srd_narrow {s b t} (h : Solo s b t) {d : Reg} {n : BitVec 14} (hf : FieldsOk b t [d.toNat] [] []) (hw : srWide n.toNat = false)
    (hl : srLevel n.toNat = .u) : exec (.srd d n) s = .next (s.done t (t.put d.toNat (BitVec.ofNat 32 (s.srValue b t n.toNat)))) := by
  rw [exec_srd, execSrd, needLevel_ok h _ (by rw [hl]; exact Nat.zero_le _)]
  simp only [hw]
  exact alu_solo h hf _

/-- R144: SRD of a register of two words. -/
theorem srd_wide {s b t} (h : Solo s b t) {d : Reg} {n : BitVec 14} (hf : FieldsOk b t [d.toNat, d.toNat + 1] [] []) (hw : srWide n.toNat = true)
    (hl : (srLevel n.toNat).toNat ≤ t.level.toNat) :
    exec (.srd d n) s = .next (s.done t (t.put64 d.toNat (BitVec.ofNat 64 (s.srValue b t n.toNat)))) := by
  rw [exec_srd, execSrd, needLevel_ok h _ hl]
  simp only [hw]
  exact alu_solo h hf _

/-- R144, R145: SWR by one thread writes its own register, or its quad's, where it may and its fields are in order. -/
theorem swr_solo {s b t} (h : Solo s b t) {d : Reg} {n : BitVec 14} (v : Nat)
    (hf : FieldsOk b t (upto d.toNat 1 (if srWide n.toNat then 2 else 1)) [] (upto d.toNat 1 (if srWide n.toNat then 2 else 1)))
    (hl : (Level.max .s (srLevel n.toNat)).toNat ≤ t.level.toNat)
    (hv : v = if srWide n.toNat then (t.get64 d.toNat).toNat else (t.get d.toNat).toNat) :
    exec (.swr d n) s = .next ((s.done t (t.putSr n.toNat v)).updBlock s.cur.blk (fun c => c.putSr (t.tid / 4) n.toNat v)) := by
  subst hv
  obtain ⟨hregs, hpoison⟩ := hf
  rw [exec_swr, execSwr, needLevel_ok h _ hl]
  have hb : s.blocks[s.cur.blk]? = some b := h.block
  dsimp only
  rw [lanes_solo h _ (t.putSr n.toNat _) (by simp only [hregs, hpoison]; rfl)]
  simp [hb, passing_solo h, hregs, hpoison, List.eraseDups_cons]

/-- R145: SWR of a trap register writes the thread's own register alone. -/
theorem swr_trap {s b t} (h : Solo s b t) {d : Reg} {n : BitVec 14} (hf : FieldsOk b t [d.toNat, d.toNat + 1] [] [d.toNat, d.toNat + 1])
    (hn : 0x100 ≤ n.toNat ∧ n.toNat ≤ 0x105) (hl : (Level.max .s (srLevel n.toNat)).toNat ≤ t.level.toNat) :
    exec (.swr d n) s = .next (s.done t (t.putSr n.toNat (t.get64 d.toNat).toNat)) := by
  have hw : srWide n.toNat = true := by simp [srWide, hn]
  rw [swr_solo h (t.get64 d.toNat).toNat (by simpa [hw, upto] using hf) hl (by simp [hw])]
  have hid : (fun c : Block => c.putSr (t.tid / 4) n.toNat (t.get64 d.toNat).toNat) = fun c => c := by
    funext c
    unfold Block.putSr
    split
    · omega
    · omega
    · rfl
  rw [hid, State.updBlock_same]

/-- R26, R144: the special registers of one word, and what each reads. -/
theorem srValue_words (s : State) (b : Block) (t : Thread) :
    ∀ p ∈ ([(0x001, BitVec.ofNat 32 t.wb), (0x002, BitVec.ofNat 32 t.f), (0x003, BitVec.ofNat 32 t.low), (0x004, BitVec.ofNat 32 t.n),
      (0x005, BitVec.ofNat 32 t.swb), (0x006, BitVec.ofNat 32 t.level.toNat),
      (0x011, b.spillDepth.getD (t.tid / 4) 0), (0x020, BitVec.ofNat 32 t.lane), (0x021, BitVec.ofNat 32 t.tid),
      (0x028, BitVec.ofNat 32 (levelIndex b.record t.tid b.num 0)), (0x029, BitVec.ofNat 32 (levelIndex b.record t.tid b.num 1)),
      (0x02A, BitVec.ofNat 32 (levelIndex b.record t.tid b.num 2)), (0x02B, BitVec.ofNat 32 (levelIndex b.record t.tid b.num 3)),
      (0x02C, BitVec.ofNat 32 (levelIndex b.record t.tid b.num 4)), (0x02D, BitVec.ofNat 32 (levelIndex b.record t.tid b.num 5)),
      (0x02E, BitVec.ofNat 32 (levelIndex b.record t.tid b.num 6)), (0x02F, BitVec.ofNat 32 (levelIndex b.record t.tid b.num 7)),
      (0x030, BitVec.ofNat 32 b.core)] : List (BitVec 14 × Word)),
    srWide p.1.toNat = false ∧ srLevel p.1.toNat = .u ∧ BitVec.ofNat 32 (s.srValue b t p.1.toNat) = p.2 := by
  simp [State.srValue, srWide, srLevel]

/-- R26, R144: the special registers of two words, the level that each needs, and what each reads. -/
theorem srValue_pairs (s : State) (b : Block) (t : Thread) :
    ∀ p ∈ ([(0x000, .u, s.cur.pc), (0x010, .u, b.spillBase.getD (t.tid / 4) 0), (0x040, .u, BitVec.ofNat 64 s.devTime),
      (0x100, .s, t.tvbs), (0x101, .s, t.tsps), (0x102, .h, t.tvbh), (0x103, .h, t.tsph), (0x104, .f, t.tvbf), (0x105, .f, t.tspf)] :
      List (BitVec 14 × Level × DWord)),
    srWide p.1.toNat = true ∧ srLevel p.1.toNat = p.2.1 ∧ BitVec.ofNat 64 (s.srValue b t p.1.toNat) = p.2.2 := by
  simp [State.srValue, srWide, srLevel]

/-- Settles O29: SRD reads the value that its number names, and SWR writes the masked pair or word there. -/
theorem specialRegisters : Obligations.SpecialRegisters := by
  refine ⟨fun s b t d h => ⟨fun n x hf hm => ?_, fun n l x hf hm hl => ?_⟩, fun s b t d h hu => ⟨fun hf => ?_, fun hf => ?_⟩⟩
  · obtain ⟨hw, hu, hx⟩ := srValue_words s b t (n, x) hm
    rw [srd_narrow h hf hw hu, hx]
  · obtain ⟨hw, hn, hx⟩ := srValue_pairs s b t (n, l, x) hm
    rw [srd_wide h hf hw (by rw [hn]; exact hl), hx]
  · have hs : Level.s.toNat ≤ t.level.toNat := by revert hu; cases t.level <;> simp [Level.toNat]
    rw [← fld_low]
    refine ⟨swr_trap (n := 0x100) h hf (by decide) hs, swr_trap (n := 0x101) h hf (by decide) hs, fun hns => ?_, fun hlf => ?_, ?_⟩
    · have hh : Level.h.toNat ≤ t.level.toNat := by revert hu hns; cases t.level <;> simp [Level.toNat]
      exact ⟨swr_trap (n := 0x102) h hf (by decide) hh, swr_trap (n := 0x103) h hf (by decide) hh⟩
    · have hh : Level.f.toNat ≤ t.level.toNat := by rw [hlf]
      exact ⟨swr_trap (n := 0x104) h hf (by decide) hh, swr_trap (n := 0x105) h hf (by decide) hh⟩
    · exact swr_solo (n := 0x010) h _ hf hs rfl
  · have hs : Level.s.toNat ≤ t.level.toNat := by revert hu; cases t.level <;> simp [Level.toNat]
    rw [← fld_low]
    exact swr_solo (n := 0x011) h _ hf hs rfl

end Sys2Proof.Machine
end

section
/-! SUPPORT. What a register instruction leaves alone (R12, R85 to R88). -/

namespace Sys2Proof.Machine

/-- R12: nothing of a thread but its place in the program changes when it goes on. -/
theorem sameSystem_retire (t : Thread) (c : Issue) : SameSystem t (t.retire c) := by
  simp [SameSystem]

/-- What two changes both leave alone is left alone. -/
theorem SameSystem.trans {t u v : Thread} (h : SameSystem t u) (g : SameSystem u v) : SameSystem t v := by
  unfold SameSystem at *
  simp only [g, h, and_self]

/-- R12: an issue over registers leaves every other block as it is. -/
theorem afterEach_other (s : State) (f : Block → Thread → Thread) (j : Nat) (h : j ≠ s.cur.blk) :
    (s.afterEach f).blocks[j]? = s.blocks[j]? := upd_get_other _ _ _ _ h.symm

/-- A list of which one element changed, seen through what the change keeps. -/
theorem map_upd_of_kept {α β : Type} (l : List α) (i : Nat) (f : α → α) (g : α → β) (h : ∀ x, g (f x) = g x) : (upd l i f).map g = l.map g := by
  apply List.ext_getElem?
  intro j
  by_cases hj : i = j
  · subst hj; cases hx : l[i]? <;> simp [upd, hx, h]
  · simp [upd, hj]

/-- R12: an issue over registers leaves all memory as it is. -/
theorem sameMemory_afterEach (s : State) (f : Block → Thread → Thread) : SameMemory s (s.afterEach f) :=
  ⟨rfl, rfl, rfl, rfl, rfl, rfl, rfl, rfl, map_upd_of_kept _ _ _ _ (fun _ => rfl)⟩

/-- The threads of the block in issue after one over registers. -/
theorem afterEach_threads (s : State) (f : Block → Thread → Thread) (b : Block) (hb : s.issuing b) :
    (s.afterEach f).blocks[s.cur.blk]? = some { b with
      threads := b.threads.map (fun t =>
        if s.cur.tids.contains t.tid then (if t.guardOk then (f b t).retire s.cur else t.retire s.cur) else t)
      progress := s.clock } := State.updBlock_get _ _ _ _ hb

/-- R16: two fields of a window name two slots. -/
theorem slotOf_inj {t : Thread} {d r : Nat} (hd : d < t.n) (hr : r < t.n) (h : t.slotOf r = t.slotOf d) : r = d := by
  have e : t.wb + r ≡ t.wb + d [MOD t.n] := h
  have := Nat.ModEq.add_left_cancel' t.wb e
  rwa [Nat.ModEq, Nat.mod_eq_of_lt hr, Nat.mod_eq_of_lt hd] at this

/-- R16: a register after a write. -/
theorem get_put (t : Thread) (d r : Nat) (x : Word) : (t.put d x).get r = (t.regs.set (t.slotOf d) x).getD (t.slotOf r) 0 := rfl

/-- R16: the register just written. -/
theorem get_put_same (t : Thread) (d : Nat) (x : Word) (h : t.slotOf d < t.regs.length) : (t.put d x).get d = x := by
  simp [get_put, h]

/-- R16: a register of another slot. -/
theorem get_put_other (t : Thread) (d r : Nat) (x : Word) (h : t.slotOf r ≠ t.slotOf d) : (t.put d x).get r = t.get r := by
  rw [get_put, Thread.get]
  simp [h.symm]

/-- R25: a predicate after a write. -/
theorem pred_putPred (t : Thread) (p q : Nat) (v : Bool) (hp : p < 8) (hq : q < 8) : (t.putPred p v).pred q = if q = p then v else t.pred q := by
  simp only [Thread.pred, Thread.putPred]
  cases v <;> by_cases e : q = p <;> simp [e, hp, hq]

/-- R12: what an issue over registers does to each thread of its block, and what it leaves. -/
theorem afterEach_thread (s : State) (f : Block → Thread → Thread) (b : Block) (t : Thread) :
    let u := if s.cur.tids.contains t.tid then (if t.guardOk then (f b t).retire s.cur else t.retire s.cur) else t
    (¬ s.runs t → u = t) ∧
    (s.runs t → t.guardOk = false → SameSystem t u ∧ u.regs = t.regs ∧ u.preds = t.preds) ∧
    (s.runs t → t.guardOk = true → u.regs = (f b t).regs ∧ u.preds = (f b t).preds ∧ (SameSystem t (f b t) → SameSystem t u)) := by
  refine ⟨fun hr => if_neg hr, fun hr hg => ?_, fun hr hg => ?_⟩
  · rw [if_pos (show s.cur.tids.contains t.tid = true from hr), if_neg (by simp [hg])]
    exact ⟨sameSystem_retire _ _, by simp, by simp⟩
  · rw [if_pos (show s.cur.tids.contains t.tid = true from hr), if_pos hg]
    exact ⟨by simp, by simp, fun hf => hf.trans (sameSystem_retire _ _)⟩

/-- Settles O60: the state after such an issue is the one before with the threads of its block mapped; and writes by slot and by bit. -/
theorem registerFrame : Obligations.RegisterFrame := by
  refine ⟨fun i vs ss srcs f hdoes s b hb hok => ?_, fun t d x => ⟨?_, rfl, fun hn hf hd => ⟨?_, fun r hr hne => ?_⟩⟩,
    fun t p v hp => ⟨?_, rfl, ?_, fun q hq hne => ?_⟩⟩
  · refine ⟨_, hdoes s b hb hok, sameMemory_afterEach _ _, rfl, rfl, rfl, rfl, rfl, rfl, fun j hj => afterEach_other _ _ _ hj,
      _, afterEach_threads _ _ _ hb, rfl, rfl, rfl, fun k t hk => ?_⟩
    obtain ⟨hidle, hguarded, hran⟩ := afterEach_thread s (f s) b t
    simp only [List.getElem?_map, hk, Option.map_some, Option.some.injEq, exists_eq_left']
    exact ⟨hidle, hguarded, hran⟩
  · simp [SameSystem]
  · exact get_put_same t d x (by have := Nat.mod_lt (t.wb + d) (show 0 < t.n by omega); unfold Thread.slotOf; omega)
  · exact get_put_other t d r x (fun e => hne (slotOf_inj (by omega) (by omega) e))
  · simp [SameSystem]
  · rw [pred_putPred _ _ _ _ hp hp, if_pos rfl]
  · rw [pred_putPred _ _ _ _ hp hq, if_neg hne]

end Sys2Proof.Machine
end

section
/-! SUPPORT. TRAP, and traps whose entry had not committed (R34, R140, R167). -/

namespace Sys2Proof.Machine

/-- A thread found in a block: the block stands at its place, the thread in it. -/
theorem thread?_eq_some {s : State} {i k : Nat} {b : Block} {t : Thread} :
    s.thread? i k = some (b, t) ↔ s.blocks[i]? = some b ∧ b.threads[k]? = some t := by
  unfold State.thread?
  cases hb : s.blocks[i]? with
  | none => simp
  | some c =>
    simp only [Option.bind_some, Option.map_eq_some_iff, Prod.mk.injEq, Option.some.injEq]
    constructor
    · rintro ⟨u, hu, rfl, rfl⟩; exact ⟨rfl, hu⟩
    · rintro ⟨rfl, hu⟩; exact ⟨t, hu, rfl, rfl⟩

/-- A thread found by its block's name stands where it is found. -/
theorem thread?_of_threadAt {s : State} {b k i : Nat} {blk : Block} {t : Thread} (h : s.threadAt b k = some (i, blk, t)) :
    s.thread? i k = some (blk, t) := by
  unfold State.threadAt at h
  simp only [Option.bind_eq_some_iff, Option.map_eq_some_iff, Prod.mk.injEq] at h
  obtain ⟨j, -, ⟨c, u⟩, hx, rfl, rfl, rfl⟩ := h
  exact hx

/-- R140: TRAP of a thread that issues alone. -/
theorem trap_solo {s b t} (h : Solo s b t) (i : BitVec 14) :
    exec (.trap i) s = .next ((s.becomes t { t with pfx := {} }).takeTrapAt s.cur.blk t.tid { cause := .trap, extra := i.setWidth 64 } s.cur.next s.cur.word) := by
  rw [exec_trap, execTrap, exec_fold h _ _ rfl]
  simp only [State.progressed_cur]
  rw [becomes_of h]
  rfl

/-- R35, R167: TRAP_ENTRY of a pending trap. -/
theorem trapEntry_pending {s : State} {b k i : Nat} {blk : Block} {t : Thread} {e : Entry} (h : s.threadAt b k = some (i, blk, t))
    (hp : t.pend = some e) (hs : t.stopped = false) (hx : t.exited = false) :
    exec (.trapEntry b k) s =
      .next (if blk.boardFor (k / 4) = [] then s.enterAt i k e e.cause 8 (targetLevel t.level e.cause) else s) := by
  obtain ⟨hb, -⟩ := thread?_eq_some.1 (thread?_of_threadAt h)
  rw [exec_trapEntry, execTrapEntry, h]
  by_cases hq : blk.boardFor (k / 4) = [] <;> simp [hp, hs, hx, hb, hq]

/-- Settles O25: TRAP takes its trap with no REP or guard pending, at the next group; TRAP_ENTRY waits for the gang's register writes. -/
theorem trapInstruction : Obligations.TrapInstruction := by
  refine ⟨fun s b t i h => trap_solo h i, fun s b k i blk t e h hp hs hx => ?_⟩
  rw [trapEntry_pending h hp hs hx]
  exact ⟨fun hq => by rw [if_neg hq], fun hq => by rw [if_pos hq]; rfl⟩

end Sys2Proof.Machine
end

section
/-! SUPPORT. The trap frame, field by field, and what a return from it restores (R34, R146). -/

namespace Sys2Proof.Machine

@[simp] theorem toBytes_length (n x : Nat) : (toBytes n x).length = n := by
  induction n generalizing x with
  | zero => rfl
  | succ n ih => simp [toBytes, ih]

/-- R6: the number of the bytes of a number. -/
@[simp] theorem ofBytes_toBytes (n x : Nat) : ofBytes (toBytes n x) = x % 256 ^ n := by
  induction n generalizing x with
  | zero => simp [toBytes, ofBytes, Nat.mod_one]
  | succ n ih =>
    rw [toBytes, ofBytes, ih, BitVec.toNat_ofNat, pow_succ' 256 n, Nat.mod_mul]

/-- A field that stands at the head of a string of bytes. -/
theorem numAt_head (n x : Nat) (rest : List Byte) : numAt (toBytes n x ++ rest) 0 n = x % 256 ^ n := by
  simp [numAt]

/-- The last field of a string of bytes. -/
theorem numAt_last (n x : Nat) : numAt (toBytes n x) 0 n = x % 256 ^ n := by simpa using numAt_head n x []

/-- A field behind another one. -/
theorem numAt_behind (n x o m : Nat) (rest : List Byte) (h : n ≤ o) : numAt (toBytes n x ++ rest) o m = numAt rest (o - n) m := by
  rw [numAt, List.drop_append, List.drop_of_length_le (by simpa using h), toBytes_length]
  rfl

theorem Cause.code_lt (c : Cause) : c.code < 256 := by cases c <;> decide

theorem Level.toNat_lt (l : Level) : l.toNat < 4 := by cases l <;> decide

theorem frameBytes_length (e : Entry) (t : Thread) : (frameBytes e t).length = 64 := by simp [frameBytes]

/-- R34: the fields of a trap frame. -/
theorem frameBytes_fields (e : Entry) (t : Thread) :
    numAt (frameBytes e t) 0 8 = e.pc.toNat ∧ numAt (frameBytes e t) 8 8 = e.addr.toNat ∧
    numAt (frameBytes e t) 16 4 = e.cause.code * 2 ^ 24 + t.level.toNat * 2 ^ 22 ∧ numAt (frameBytes e t) 20 4 = e.word.toNat ∧
    numAt (frameBytes e t) 24 4 = (t.preds.toNat * 2 ^ 24 + t.swb / 32 * 2 ^ 16) % 2 ^ 32 ∧ numAt (frameBytes e t) 28 4 = t.wb % 2 ^ 32 ∧
    numAt (frameBytes e t) 32 4 = (t.low * 256 + t.f) % 2 ^ 32 ∧ numAt (frameBytes e t) 36 4 = t.pfx.encode % 2 ^ 32 ∧
    numAt (frameBytes e t) 40 8 = e.extra.toNat ∧ numAt (frameBytes e t) 48 16 = 0 := by
  have hc := e.cause.code_lt
  have hl := t.level.toNat_lt
  have hw := e.word.isLt
  have hpc := e.pc.isLt
  have ha := e.addr.isLt
  have hx := e.extra.isLt
  simp [frameBytes, List.append_assoc, numAt_behind, numAt_head, numAt_last]
  omega

/-- A state of pending REP, IFP and LIMM words that can come about: each part that is not pending is clear (R50, R54 to R56). -/
structure Pfx.Sound (p : Pfx) : Prop where
  pending : p.repv = true ∨ p.ifpv = true
  count : p.next ≤ p.cnt ∧ p.cnt < 64
  guard : p.gpred < 8
  noRep : p.repv = false → p.next = 0 ∧ p.cnt = 0 ∧ p.sd = false ∧ p.sa = false ∧ p.sb = false ∧ p.stride = 0
  noGuard : p.ifpv = false → p.gpred = 0 ∧ p.gsense = false

/-- R56: the frame word of such a state, as one sum. -/
theorem Pfx.encode_eq {p : Pfx} (h : p.Sound) : p.encode =
    p.repv.toNat * 2 ^ 31 + p.next * 2 ^ 25 + p.cnt * 2 ^ 19 + p.sd.toNat * 2 ^ 18 + p.sa.toNat * 2 ^ 17 + p.sb.toNat * 2 ^ 16 +
      p.stride.toNat * 2 ^ 12 + p.ifpv.toNat * 2 ^ 11 + p.gpred * 2 ^ 8 + p.gsense.toNat * 2 ^ 7 + p.limmv.toNat * 2 ^ 6 := by
  obtain ⟨hp, ⟨hn, hc⟩, hg, hr, hi⟩ := h
  have flag (b : Bool) (k : Nat) : (if b then 2 ^ k else 0) = b.toNat * 2 ^ k := by cases b <;> simp
  simp only [Pfx.encode, flag, if_pos hp, Nat.mod_eq_of_lt hg, Nat.mod_eq_of_lt hc, Nat.mod_eq_of_lt (Nat.lt_of_le_of_lt hn hc)]
  rcases Bool.eq_false_or_eq_true p.repv with hrep | hrep <;> rcases Bool.eq_false_or_eq_true p.ifpv with hifp | hifp
  · simp only [hrep, hifp, if_pos, Bool.toNat_true]; ring
  · simp [hrep, hifp, hi hifp]
  · simp [hrep, hifp, hr hrep]
  · simp [hrep, hifp] at hp

/-- R5: a bit of a number whose value is known. -/
theorem bit_of_eq {w lo : Nat} {b : Bool} (h : w / 2 ^ lo % 2 = b.toNat) : bit w lo = b := by
  simp only [bit, fld, pow_one, h]
  cases b <;> rfl

/-- R56: the frame word names the state that it was made from. -/
theorem Pfx.ofWord_encode {p : Pfx} (h : p.Sound) : Pfx.ofWord (p.encode % 2 ^ 32) = some p := by
  have hr := p.repv.toNat_le
  have hd := p.sd.toNat_le
  have ha := p.sa.toNat_le
  have hb := p.sb.toNat_le
  have hi := p.ifpv.toNat_le
  have hs := p.gsense.toNat_le
  have hl := p.limmv.toNat_le
  have ht : p.stride.toNat < 16 := p.stride.isLt
  obtain ⟨hn, hc⟩ := h.count
  have hg := h.guard
  rw [Pfx.encode_eq h]
  generalize hw : _ % 2 ^ 32 = w
  have e : (⟨bit w 31, fld w 6 25, fld w 6 19, bit w 18, bit w 17, bit w 16, BitVec.ofNat 4 (fld w 4 12), bit w 11, fld w 3 8, bit w 7, bit w 6⟩ : Pfx)
      = p := by
    obtain ⟨rv, nx, ct, sd, sa, sb, st, iv, gp, gs, lv⟩ := p
    simp only at *
    congr
    · exact bit_of_eq (by omega)
    · rw [fld]; omega
    · rw [fld]; omega
    · exact bit_of_eq (by omega)
    · exact bit_of_eq (by omega)
    · exact bit_of_eq (by omega)
    · apply BitVec.eq_of_toNat_eq; rw [BitVec.toNat_ofNat, fld]; omega
    · exact bit_of_eq (by omega)
    · rw [fld]; omega
    · exact bit_of_eq (by omega)
    · exact bit_of_eq (by omega)
  have hlow : fld w 6 0 = 0 := by rw [fld]; omega
  rw [Pfx.ofWord, e, hlow]
  refine if_neg ?_
  rintro (hx | hx | ⟨-, hx⟩)
  · exact hx rfl
  · exact absurd hn (by omega)
  · exact hx h.pending

/-- R34, R146: the thread that a frame describes is the one that it was made for, as far as the frame saves it. -/
theorem ofFrame_frameBytes (e : Entry) (t u : Thread) (hs : t.swb % 32 = 0 ∧ t.swb < 2 ^ 13) (hw : t.wb < 2 ^ 32) (hf : t.f < 256)
    (hp : t.pfx = {} ∨ t.pfx.Sound) :
    let r := u.ofFrame (frameBytes e t)
    r.level = t.level ∧ r.pc = e.pc ∧ r.preds = t.preds ∧ r.swb = t.swb ∧ r.wb = t.wb ∧ r.f = t.f ∧ r.pfx = t.pfx := by
  obtain ⟨hpc, -, hlevel, -, hpreds, hwb, hlow, hpfx, -⟩ := frameBytes_fields e t
  have hpl := t.preds.isLt
  have hll := t.level.toNat_lt
  simp only [Thread.ofFrame, hpc, hlevel, hpreds, hwb, hlow, hpfx, fld]
  refine ⟨?_, by simp, ?_, by omega, Nat.mod_eq_of_lt hw, by omega, ?_⟩
  · rw [show (e.cause.code * 2 ^ 24 + t.level.toNat * 2 ^ 22) / 2 ^ 22 % 2 ^ 2 = t.level.toNat by omega]
    cases t.level <;> rfl
  · apply BitVec.eq_of_toNat_eq
    rw [BitVec.toNat_ofNat]
    omega
  · rcases hp with hp | hp
    · rw [hp]; rfl
    · rw [Pfx.ofWord_encode hp, Option.getD_some]

/-- Settles O22: each field stands where R34 puts it; and a pending state that can come about is read back from its word. -/
theorem trapFrames : Obligations.TrapFrames := by
  refine ⟨fun e t => ⟨frameBytes_length e t, frameBytes_fields e t⟩, fun e t u hs hs' hw hf hp => ?_⟩
  refine ofFrame_frameBytes e t u ⟨hs, hs'⟩ hw hf ?_
  rcases hp with hp | ⟨hrep, hn, hc, hg⟩ | ⟨p, sense, lit, hlt, hp⟩
  · exact .inl hp
  · refine .inr ⟨.inl hrep, ⟨hn, hc⟩, ?_, by simp [hrep], ?_⟩
    · rcases hg with ⟨-, hg⟩ | ⟨-, hg, -⟩ <;> omega
    · rcases hg with ⟨hi, -⟩ | ⟨-, hg⟩
      · simp [hi]
      · exact fun _ => hg
  · exact .inr (by rw [hp]; exact ⟨.inr rfl, ⟨Nat.le_refl _, by norm_num⟩, hlt, by simp, by simp⟩)

end Sys2Proof.Machine
end

section
/-! SUPPORT. What reading memory, and what it counts, leaves alone: the blocks, the issue in hand, and what the step leaves
to later ones (R228, R423, R448). -/

namespace Sys2Proof.Machine

/-- A fold whose every step keeps a part keeps it. -/
theorem foldl_keeps {σ α γ : Type} (g : σ → γ) (f : σ → α → σ) (h : ∀ s x, g (f s x) = g s) (l : List α) (s : σ) : g (l.foldl f s) = g s := by
  induction l generalizing s with
  | nil => rfl
  | cons x l ih => rw [List.foldl_cons, ih, h]

/-- What an issue rests on beside memory: the blocks, the issue itself, and whether what it sets going may end later. -/
def State.held (s : State) : List Block × Issue × Bool := (s.blocks, s.cur, s.later)

/-- What is held, part by part. -/
theorem held_iff {s s' : State} : s'.held = s.held ↔ s'.blocks = s.blocks ∧ s'.cur = s.cur ∧ s'.later = s.later := by
  simp only [State.held, Prod.mk.injEq]

@[simp] theorem State.count_held (s : State) (o : Nat) (f : Counters → Counters) : (s.count o f).held = s.held := rfl

@[simp] theorem State.moved_held (s : State) (owner h n : Nat) : (s.moved owner h n).held = s.held := by
  unfold State.moved; split <;> rfl

@[simp] theorem State.correctRead_held (s : State) (owner h : Nat) : (s.correctRead owner h).held = s.held := by
  unfold State.correctRead; split <;> rfl

@[simp] theorem State.putDramSector_held (s : State) (owner slot h : Nat) (bytes : List Byte) (poison : Option Bool) :
    (s.putDramSector owner slot h bytes poison).held = s.held := by
  unfold State.putDramSector
  split
  · rfl
  · rw [State.moved_held]; rfl

@[simp] theorem State.noteWalk2_held (s : State) (owner gpa : Nat) : (s.noteWalk2 owner gpa).held = s.held := by
  unfold State.noteWalk2
  dsimp only
  split
  · rfl
  · exact foldl_keeps State.held _ (by simp) _ _

@[simp] theorem State.noteSector_held (s : State) (owner gpa h : Nat) : (s.noteSector owner gpa h).held = s.held := by
  unfold State.noteSector
  split
  · rfl
  split
  · simp
  · rfl

@[simp] theorem State.routeSector_held (s : State) (owner gpa slot h : Nat) (bytes : List Byte) (poison : Option Bool) :
    (s.routeSector owner gpa slot h bytes poison).held = s.held := by
  unfold State.routeSector
  split
  · simp
  · rfl

@[simp] theorem State.flushSector_held (s : State) (key : Nat) : (s.flushSector key).held = s.held := by
  unfold State.flushSector
  split
  · rfl
  · dsimp only
    split
    · rfl
    · split
      · rfl
      · split
        · rw [State.routeSector_held]; rfl
        · rfl

@[simp] theorem State.fillSector_held (s : State) (t : Tlb2) (gpa : Nat) (bytes : List Byte) (poison : Option Bool) (dirty : Bool) :
    (s.fillSector t gpa bytes poison dirty).held = s.held := by
  unfold State.fillSector
  split
  · rfl
  · split
    · rfl
    · exact foldl_keeps State.held _ (by simp) _ _

@[simp] theorem State.fetchSector_held (s : State) (t : Tlb2) (gpa h slot : Nat) : (s.fetchSector t gpa h slot).held = s.held := by
  unfold State.fetchSector; split <;> simp

@[simp] theorem State.takeSector_held (s : State) (t : Tlb2) (gpa h slot : Nat) : (s.takeSector t gpa h slot).held = s.held := by
  unfold State.takeSector; split <;> simp

@[simp] theorem State.putSector_held (s : State) (t : Tlb2) (gpa h slot : Nat) (cells : List (Nat × Byte)) (rmw : Bool) :
    (s.putSector t gpa h slot cells rmw).held = s.held := by
  unfold State.putSector
  dsimp only
  split <;> simp only [State.fillSector_held, State.routeSector_held] <;> split <;> simp

@[simp] theorem State.noteGpa_held (s : State) (owner gpa : Nat) : (s.noteGpa owner gpa).held = s.held := by
  unfold State.noteGpa
  dsimp only
  split
  · simp
  · split <;> simp

@[simp] theorem State.noteWalk1_held (s : State) (owner va : Nat) : (s.noteWalk1 owner va).held = s.held := by
  unfold State.noteWalk1
  dsimp only
  split
  · rfl
  · exact foldl_keeps State.held _ (by simp) _ _

@[simp] theorem State.noteWalks_held (s : State) (q : Req) (va : Nat) : (s.noteWalks q va).held = s.held := by
  unfold State.noteWalks
  dsimp only
  split
  · simp
  · split <;> simp

@[simp] theorem State.notePoison_held (s : State) (q : Req) (va : Nat) : (s.notePoison q va).held = s.held := by
  unfold State.notePoison
  dsimp only
  split
  · next x _ =>
    have hwalks := State.noteWalks_held s q va
    cases x.place with
    | dram h slot ahome => dsimp only; split; exacts [hwalks, by rw [State.takeSector_held, hwalks]]
    | line ahome => dsimp only; split <;> exact hwalks
    | chip a => dsimp only; split <;> exact hwalks
    | host p a => dsimp only; split <;> exact hwalks
  · simp

@[simp] theorem State.noteXl_held (s : State) (x : Xlated) : (s.noteXl x).held = s.held := by
  unfold State.noteXl
  dsimp only
  change State.held (ite _ _ _) = _
  split <;> simp

@[simp] theorem State.noteCause_held (s : State) (b : Block) (l : Level) (tr : Trap) : (s.noteCause b l tr).held = s.held := by
  unfold State.noteCause
  split
  · unfold State.noteUncorrectable
    split <;> simp
  all_goals simp

/-- A thread is where it was while what is held stands. -/
theorem thread?_of_held {s s' : State} (h : s'.held = s.held) (i k : Nat) : s'.thread? i k = s.thread? i k := by
  simp only [State.thread?, (held_iff.1 h).1]

end Sys2Proof.Machine
end

section
/-! SUPPORT. What accesses by address leave of the windows of threads: all of them, also where they reach registers through the on-chip
map (R226, R227). -/

namespace Sys2Proof.Machine

/-- R16, R18: where the window of a thread stands, and the thread in its program. -/
def Thread.window (t : Thread) : Nat × Nat × Nat × Nat × DWord := (t.low, t.n, t.wb, t.f, t.pc)

/-- The windows of all threads. -/
def State.windows (s : State) : List (List (Nat × Nat × Nat × Nat × DWord)) := s.blocks.map (fun b => b.threads.map Thread.window)

theorem windows_of_held {s s' : State} (h : s'.held = s.held) : s'.windows = s.windows := by simp only [State.windows, (held_iff.1 h).1]

theorem windows_updBlock (s : State) (i : Nat) (f : Block → Block) (h : ∀ b, (f b).threads.map Thread.window = b.threads.map Thread.window) :
    (s.updBlock i f).windows = s.windows := map_upd_of_kept _ _ _ _ h

theorem windows_updThread (s : State) (i k : Nat) (f : Thread → Thread) (h : ∀ t, (f t).window = t.window) :
    (s.updThread i k f).windows = s.windows := windows_updBlock _ _ _ (fun _ => map_upd_of_kept _ _ _ _ h)

/-- A thread still stands, with its window, while the windows stand. -/
theorem thread?_of_windows {s s' : State} (h : s'.windows = s.windows) {i k : Nat} {b : Block} {t : Thread} (ht : s.thread? i k = some (b, t)) :
    ∃ b' t', s'.thread? i k = some (b', t') ∧ t'.window = t.window := by
  obtain ⟨hb, hk⟩ := thread?_eq_some.1 ht
  have e : (s'.windows[i]?).bind (fun ws => ws[k]?) = some t.window := by rw [h]; simp [State.windows, hb, hk]
  simp only [State.windows, List.getElem?_map, Option.bind_eq_some_iff, Option.map_eq_some_iff] at e
  obtain ⟨_, ⟨b', hb', rfl⟩, hw⟩ := e
  simp only [List.getElem?_map, Option.map_eq_some_iff] at hw
  obtain ⟨t', ht', hw⟩ := hw
  exact ⟨b', t', thread?_eq_some.2 ⟨hb', ht'⟩, hw⟩

/-- A fold that stops at the first failure, and whose every step keeps a part, keeps it. -/
theorem foldl_except_keeps {ε σ α γ : Type} (g : σ → γ) (f : Except ε σ → α → Except ε σ) (herr : ∀ e x, f (.error e) x = .error e)
    (hok : ∀ s x s', f (.ok s) x = .ok s' → g s' = g s) (l : List α) (s s' : σ) (h : l.foldl f (.ok s) = .ok s') : g s' = g s := by
  induction l generalizing s with
  | nil => cases h; rfl
  | cons x l ih =>
    rw [List.foldl_cons] at h
    cases hx : f (.ok s) x with
    | ok s1 => rw [hx] at h; rw [ih s1 h, hok s x s1 hx]
    | error e =>
      have : ∀ l : List α, l.foldl f (.error e) = .error e := fun l => by induction l with
        | nil => rfl
        | cons y l ih => rw [List.foldl_cons, herr, ih]
      rw [hx, this] at h; cases h

/-- R141: a piece read leaves what is held. -/
theorem readPiece_held {s : State} {q : Req} {engine : Bool} {va n : Nat} {r : List Byte × State} (h : s.readPiece q engine va n = .ok r) :
    r.2.held = s.held := by
  unfold State.readPiece at h
  split at h
  · cases h
  split at h
  · cases h
  next x _ =>
  dsimp only at h
  split at h
  · cases h
  split at h
  · split at h <;> cases h
    simp
  · split at h <;> cases h
    simp
  · split at h <;> cases h
    exact State.noteXl_held s x
  · split at h
    · cases h
    split at h
    · cases h
    rw [← State.noteXl_held s x]
    refine foldl_except_keeps (fun r : List Byte × State => r.2.held) _ (fun _ _ => rfl) ?_ _ _ _ h
    intro p y p' hp
    dsimp only at hp
    split at hp <;> cases hp
    rfl

/-- R141: bytes read leave what is held. -/
theorem readVa_held {s : State} {q : Req} {engine : Bool} {va n : Nat} {r : List Byte × State} (h : s.readVa q engine va n = .ok r) :
    r.2.held = s.held := by
  refine foldl_except_keeps (fun r : List Byte × State => r.2.held) _ (fun _ _ => rfl) ?_ _ _ _ h
  intro p y p' hp
  dsimp only at hp
  split at hp
  · cases hp
  · next hr => cases hp; exact (readPiece_held hr :)

/-- R19, R229: bytes read back in order to pack them leave what is held. -/
theorem readBack_held {s : State} {q : Req} {va n : Nat} {r : List Byte × State} (h : s.readBack q va n = .ok r) : r.2.held = s.held := by
  unfold State.readBack at h
  split at h
  · split at h <;> cases h
    simp
  · exact readVa_held h

theorem noteStale_windows (s : State) (space key : Nat) (olds : List (Nat × Byte)) : (s.noteStale space key olds).windows = s.windows := rfl

/-- R261, R227: words noted before they are written leave the windows. -/
theorem noteChip_windows (s : State) (owner : Nat) (words : List Nat) : (s.noteChip owner words).windows = s.windows := by
  refine foldl_keeps State.windows _ (fun s w => ?_) _ _
  split
  · exact noteStale_windows _ _ _ _
  · rfl

/-- R227: a word written through the on-chip map, also to a register, leaves the windows. -/
theorem chipWrite_windows {s : State} {owner a : Nat} {v : Word} {r : State × Bool} (h : s.chipWrite owner a v = some r) :
    r.1.windows = s.windows := by
  unfold State.chipWrite at h
  split at h
  · cases h
  split at h
  · cases h
  · cases h; rfl
  · cases h; exact windows_updThread _ _ _ _ (fun _ => rfl)
  · split at h
    · cases h
    split at h <;> cases h
    · rfl
    · exact windows_updBlock _ _ _ (fun _ => rfl)
  · cases h; exact windows_updBlock _ _ _ (fun _ => rfl)

/-- R229: pairs cleared of poison leave the windows. -/
theorem clearChipPairs_windows (s : State) (words : List Nat) : (s.clearChipPairs words).windows = s.windows := by
  refine foldl_keeps State.windows _ (fun s w => ?_) _ _
  split
  · split
    · exact windows_updBlock _ _ _ (fun _ => rfl)
    · split <;> rfl
    · rfl
  · rfl

/-- R229: cells written at their place leave the windows. -/
theorem writeCells_windows {s : State} {q : Req} {engine : Bool} {x : Xlated} {va : Nat} {cells : List (Nat × Byte)} {rmw : Bool}
    {stamp : Option Nat} {r : State × Bool} (h : s.writeCells q engine x va cells rmw stamp = .ok r) : r.1.windows = s.windows := by
  have sectors (h slot : Nat) (gcells : List (Nat × Byte)) (s : State) : ((sectorsOf gcells).foldl (fun s k =>
      s.putSector x.t2 (32 * k) (h / 128 * 128 + (32 * k) % 128) slot (gcells.filter (fun c => c.1 / 32 == k)) rmw) s).windows = s.windows :=
    foldl_keeps State.windows _ (fun s k => windows_of_held (by simp)) _ _
  unfold State.writeCells at h
  dsimp only at h
  split at h
  · cases h; rfl
  split at h
  · cases h
    rw [sectors]; split_ifs
    · rfl
    · split <;> rfl
  · cases h
    rw [sectors]; split_ifs
    · rfl
    · split <;> rfl
  · split at h <;> cases h <;> rfl
  · split at h
    · cases h
    split at h
    · cases h; rfl
    split at h
    · cases h
    next s1 cl hf =>
    cases h
    rw [clearChipPairs_windows]
    refine (foldl_except_keeps (fun r : State × Bool => r.1.windows) _ (fun _ _ => rfl) ?_ _ _ _ hf).trans ?_
    · intro p w p' hp
      dsimp only at hp
      split at hp <;> cases hp
      next hw => exact (chipWrite_windows hw :)
    · dsimp only
      split
      · rfl
      · exact noteChip_windows _ _ _

/-- R260: bytes written by address leave the windows, whether all of them could be written or not. -/
theorem writeVa_windows (s : State) (q : Req) (engine : Bool) (va : Nat) (bytes : List Byte) :
    (s.writeVa q engine va bytes).1.1.windows = s.windows := by
  refine foldl_keeps (fun r : (State × Bool) × Option (MemFault × Nat) => r.1.1.windows) _ (fun r p => ?_) _ _
  split
  · rfl
  split
  · rfl
  split
  · rfl
  split
  · rfl
  · next hw => exact (writeCells_windows hw).trans (windows_of_held (by simp))

theorem windows_of_writeVa {s s' : State} {q : Req} {engine : Bool} {va : Nat} {bytes : List Byte} {cl : Bool} {r : Option (MemFault × Nat)}
    (h : s.writeVa q engine va bytes = ((s', cl), r)) : s'.windows = s.windows := by
  have := writeVa_windows s q engine va bytes
  rwa [h] at this

theorem poisonVa_windows (s : State) (q : Req) (va : Nat) : (s.poisonVa q va).windows = s.windows := by
  unfold State.poisonVa
  split
  · split <;> rfl
  · rfl

theorem postsAt_windows (s : State) (i k : Nat) (q : Req) (va : Nat) : (s.postsAt i k q va).windows = s.windows := by
  unfold State.postsAt
  split
  · exact windows_updThread _ _ _ _ (fun _ => rfl)
  · rfl

end Sys2Proof.Machine
end

section
/-! SUPPORT. What moves of a window change of it: a spill raises LOW by one, a fill lowers it by one, and nothing else of the window
changes (R18 to R22). -/

namespace Sys2Proof.Machine

/-- The window of a thread, field by field. -/
theorem window_eq {t : Thread} {low n wb f : Nat} {pc : DWord} (h : t.window = (low, n, wb, f, pc)) :
    t.low = low ∧ t.n = n ∧ t.wb = wb ∧ t.f = f ∧ t.pc = pc := by
  simpa only [Thread.window, Prod.mk.injEq] using h

/-- R136: positions that become undefined leave the windows. -/
theorem undefine_windows (s : State) (i k start n : Nat) : (s.undefine i k start n).windows = s.windows :=
  windows_updThread _ _ _ _ (fun _ => rfl)

/-- A thread whose window changed after steps that leave it. -/
theorem thread?_updThread_window {s s' : State} (h : s'.windows = s.windows) {i k : Nat} {b : Block} {t : Thread} (ht : s.thread? i k = some (b, t))
    (f : Thread → Thread) {g : Nat × Nat × Nat × Nat × DWord → Nat × Nat × Nat × Nat × DWord} (hf : ∀ t, (f t).window = g t.window) :
    ∃ b' t', (s'.updThread i k f).thread? i k = some (b', t') ∧ t'.window = g t.window := by
  obtain ⟨b', t', ht', hw⟩ := thread?_of_windows h ht
  exact ⟨_, _, State.updThread_get _ _ _ _ _ _ ht', by rw [hf, hw]⟩

/-- R19: after a spill LOW is one higher, and nothing else of the window has changed. -/
theorem spillOne_window {s s' : State} {i k : Nat} {b : Block} {t : Thread} (ht : s.thread? i k = some (b, t)) (h : s.spillOne i k = .ok s') :
    ∃ b' t', s'.thread? i k = some (b', t') ∧ t'.window = (t.low + 1, t.n, t.wb, t.f, t.pc) := by
  unfold State.spillOne at h
  rw [ht] at h
  dsimp only at h
  split at h
  · cases h
  split at h
  · cases h
  split at h
  · cases h
  next s1 h1 =>
  split at h
  · cases h
  next s2 h2 =>
  split at h
  · cases h
  next s3 _ h3 =>
  split at h
  · cases h
  next s4 _ h4 =>
  cases h
  have w1 := windows_of_held (readBack_held h1)
  have w2 := windows_of_held (readBack_held h2)
  have w3 := windows_of_writeVa h3
  have w4 := windows_of_writeVa h4
  refine thread?_updThread_window ?_ ht _ (g := fun w => (w.1 + 1, w.2)) (fun _ => rfl)
  rw [postsAt_windows, postsAt_windows]
  refine Eq.trans ?_ (w4.trans (w3.trans (w2.trans w1)))
  split
  · exact poisonVa_windows _ _ _
  · rfl

/-- R21: after a fill LOW is one lower, and nothing else of the window has changed. -/
theorem fillOne_window {s s' : State} {i k : Nat} {b : Block} {t : Thread} (ht : s.thread? i k = some (b, t)) (h : s.fillOne i k = .ok s') :
    ∃ b' t', s'.thread? i k = some (b', t') ∧ t'.window = (t.low - 1, t.n, t.wb, t.f, t.pc) := by
  unfold State.fillOne at h
  rw [ht] at h
  dsimp only at h
  split at h
  · cases h
  split at h
  · cases h
  next s1 h1 =>
  split at h
  · cases h
  split at h
  · cases h
  next s2 h2 =>
  split at h
  · cases h
  next s3 _ h3 =>
  cases h
  have w1 := windows_of_held (readVa_held h1)
  have w2 := windows_of_held (readVa_held h2)
  have w3 := windows_of_writeVa h3
  refine thread?_updThread_window ?_ ht _ (g := fun w => (t.low - 1, w.2)) (fun _ => rfl)
  rw [postsAt_windows]
  exact w3.trans (w2.trans w1)

/-- R22: a move that a commit left over: a fill lowers LOW by one, a spill raises it by one; none is left where the window is resident. -/
theorem moveOne_eq {s : State} {i k : Nat} {b : Block} {t : Thread} (ht : s.thread? i k = some (b, t)) : s.moveOne i k =
    if t.wb < t.low then some ((s.fillOne i k).mapError (fun x => x.atPosition (t.low - 1)))
    else if t.low + t.n < t.wb + t.f then
      some (((s.spillOne i k).map (fun s' => s'.undefine i k (t.low + t.n) 1)).mapError (fun x => x.atPosition t.low))
    else none := by
  simp only [State.moveOne, ht]
  split
  · cases s.fillOne i k <;> rfl
  split
  · cases s.spillOne i k <;> rfl
  · rfl

/-- R18: one spill of several that make room. -/
theorem makeRoom_succ {s : State} {i k top n : Nat} {b : Block} {t : Thread} (ht : s.thread? i k = some (b, t)) (h : t.low + t.n < top) :
    s.makeRoom i k top (n + 1) = match s.spillOne i k with
      | .error x => (s, some x)
      | .ok s' => s'.makeRoom i k top n := by
  simp only [State.makeRoom, ht]
  refine (if_neg (by omega)).trans ?_
  cases s.spillOne i k <;> rfl

/-- R18: spills that end without a stop raise LOW as far as room is wanted, and no further. -/
theorem makeRoom_window {i k top : Nat} (n : Nat) {s s' : State} {b : Block} {t : Thread} (ht : s.thread? i k = some (b, t))
    (hn : top ≤ t.low + t.n + n) (h : s.makeRoom i k top n = (s', none)) :
    ∃ b' t', s'.thread? i k = some (b', t') ∧ t'.window = (max t.low (top - t.n), t.n, t.wb, t.f, t.pc) := by
  induction n generalizing s b t with
  | zero =>
    rw [makeRoom_none _ _ _ _ _ _ _ ht (by omega)] at h
    cases h
    exact ⟨b, t, ht, by rw [max_eq_left (by omega)]; rfl⟩
  | succ n ih =>
    by_cases hfit : top ≤ t.low + t.n
    · rw [makeRoom_none _ _ _ _ _ _ _ ht hfit] at h
      cases h
      exact ⟨b, t, ht, by rw [max_eq_left (by omega)]; rfl⟩
    · rw [makeRoom_succ ht (by omega)] at h
      cases hs : s.spillOne i k with
      | error x => rw [hs] at h; cases h
      | ok s1 =>
        rw [hs] at h
        obtain ⟨b1, t1, ht1, hw⟩ := spillOne_window ht hs
        obtain ⟨hlow, hN, hwb, hf, hpc⟩ := window_eq hw
        obtain ⟨b', t', ht', hw'⟩ := ih ht1 (by omega) h
        refine ⟨b', t', ht', hw'.trans ?_⟩
        rw [hlow, hN, hwb, hf, hpc, show max (t.low + 1) (top - t.n) = max t.low (top - t.n) by omega]

/-- R18, R22: moves that end without a stop leave the window resident, and nothing of it changed but LOW. -/
theorem settle_window {i k : Nat} (n : Nat) {s s' : State} {b : Block} {t : Thread} (ht : s.thread? i k = some (b, t)) (hf : t.f ≤ t.n)
    (hlow : t.low ≤ t.wb + n) (htop : t.wb + t.f ≤ t.low + t.n + n) (h : s.settle i k n = (s', none)) :
    ∃ b' t', s'.thread? i k = some (b', t') ∧ t'.low ≤ t'.wb ∧ t'.wb + t'.f ≤ t'.low + t'.n ∧ t'.n = t.n ∧ t'.wb = t.wb ∧ t'.f = t.f ∧
      t'.pc = t.pc := by
  induction n generalizing s b t with
  | zero =>
    cases h
    exact ⟨b, t, ht, by omega, by omega, rfl, rfl, rfl, rfl⟩
  | succ n ih =>
    rw [State.settle, moveOne_eq ht] at h
    by_cases hfill : t.wb < t.low
    · rw [if_pos hfill] at h
      cases hs : s.fillOne i k with
      | error x => rw [hs] at h; cases h
      | ok s1 =>
        rw [hs] at h
        obtain ⟨b1, t1, ht1, hw⟩ := fillOne_window ht hs
        obtain ⟨hlow1, hN, hwb, hf1, hpc⟩ := window_eq hw
        obtain ⟨b', t', ht', h1, h2, h3, h4, h5, h6⟩ := ih ht1 (by omega) (by omega) (by omega) h
        exact ⟨b', t', ht', h1, h2, h3.trans hN, h4.trans hwb, h5.trans hf1, h6.trans hpc⟩
    · rw [if_neg hfill] at h
      by_cases hspill : t.low + t.n < t.wb + t.f
      · rw [if_pos hspill] at h
        cases hs : s.spillOne i k with
        | error x => rw [hs] at h; cases h
        | ok s1 =>
          rw [hs] at h
          obtain ⟨b1, t1, ht1, hw⟩ := spillOne_window ht hs
          obtain ⟨b2, t2, ht2, hw2⟩ := thread?_of_windows (undefine_windows s1 i k (t.low + t.n) 1) ht1
          obtain ⟨hlow1, hN, hwb, hf1, hpc⟩ := window_eq (hw2.trans hw)
          obtain ⟨b', t', ht', h1, h2, h3, h4, h5, h6⟩ := ih ht2 (by omega) (by omega) (by omega) h
          exact ⟨b', t', ht', h1, h2, h3.trans hN, h4.trans hwb, h5.trans hf1, h6.trans hpc⟩
      · rw [if_neg hspill] at h
        cases h
        exact ⟨b, t, ht, by omega, by omega, rfl, rfl, rfl, rfl⟩

/-- R18, log entry 95: where all spills come in the one step, room is what they make. -/
theorem roomFor_atOnce {s : State} {i k top : Nat} {b : Block} {t : Thread} (ht : s.thread? i k = some (b, t)) (hl : s.later = false) :
    s.roomFor i k top = s.makeRoom i k top (t.low + top) := by
  simp only [State.roomFor, ht, hl, Bool.false_eq_true, if_false]
  rcases hm : s.makeRoom i k top (t.low + top) with ⟨s', _ | x⟩
  · obtain ⟨b', t', ht', hw⟩ := makeRoom_window _ ht (by omega) hm
    obtain ⟨hlow, hN, -⟩ := window_eq hw
    simp only [ht', Option.any_some]
    rw [if_neg (by rw [decide_eq_true_eq]; omega)]
  · rfl

/-- R18, log entry 95: where spills come one in each step, the first leaves the rest to come. -/
theorem roomFor_stepwise {s : State} {i k top : Nat} {b : Block} {t : Thread} (ht : s.thread? i k = some (b, t)) (hl : s.later = true)
    (h : t.low + t.n < top) : s.roomFor i k top = match s.spillOne i k with
      | .error x => (s, some x)
      | .ok s1 => (s1, if t.low + 1 + t.n < top then some (.wait .none) else none) := by
  simp only [State.roomFor, ht, hl, if_true]
  rw [makeRoom_succ ht h]
  cases hs : s.spillOne i k with
  | error x => rfl
  | ok s1 =>
    obtain ⟨b1, t1, ht1, hw⟩ := spillOne_window ht hs
    obtain ⟨hlow, hN, -⟩ := window_eq hw
    simp [State.makeRoom, ht1, hlow, hN]

end Sys2Proof.Machine
end

section
/-! SUPPORT. Calls, returns and window moves of a thread that issues alone, where the window has to spill or fill (R134 to R136). -/

namespace Sys2Proof.Machine

/-- R18, R22: what a lane does once there is room for its window, or what keeps it from that. -/
def State.inRoom (k : Nat) (g : State → LaneRes) : State × Option Stop → LaneRes
  | (s', some x) => s'.stopLane k x
  | (s', none) => g s'

/-- R134: a call goes on in the room that it makes. -/
theorem callTo_eq (s : State) (t : Thread) (k : Nat) (x : DWord) : s.callTo t k x =
    State.inRoom t.tid (fun s' => .moved (s'.updThread s.cur.blk t.tid (fun u =>
      (((({ u with wb := t.wb + k, f := max 3 (t.f - k) } : Thread).put 0 (s.cur.next.setWidth 32)).put 1
        (BitVec.ofNat 32 (s.cur.next.toNat / 2 ^ 32 % 2 ^ 24))).put 2 (BitVec.ofNat 32 (k * 256 + t.f))).jump x)))
      (s.roomFor s.cur.blk t.tid (t.wb + (k + max 3 (t.f - k)))) := by
  rw [State.callTo, ← Nat.add_assoc, ← BitVec.ofNat_toNat]
  rcases s.roomFor s.cur.blk t.tid (t.wb + k + max 3 (t.f - k)) with ⟨s', _ | x⟩ <;> rfl

/-- R18, R22: the three ends of an instruction that first makes room: it goes on, it meets a condition, or its thread waits. -/
theorem room_ends {s : State} {i : Instr} {k : Nat} {g : State → LaneRes} {r : State × Option Stop} {f : State → State}
    (e : exec i s = .next (s.progressed.closeLane k (State.inRoom k g r))) (hf : ∀ s', s.progressed.closeLane k (g s') = f s') :
    (∀ s', r = (s', none) → exec i s = .next (f s')) ∧ (∀ s' tr, r = (s', some (.trap tr)) → exec i s = .next (s'.takeTrap k tr)) ∧
    (∀ s' w, r = (s', some (.wait w)) → exec i s = .next (s'.updThread s'.cur.blk k (fun u => u.hold s'.cur w))) :=
  ⟨fun s' h => by rw [e, h, State.inRoom, hf], fun s' tr h => by rw [e, h]; rfl, fun s' w h => by rw [e, h]; rfl⟩

/-- R22: the three ends of an instruction whose window moves after its commit: the moves come later, they end, or something stops them. -/
theorem settle_ends {s s1 : State} {i : Instr} {k fuel : Nat} (e : exec i s = .next (s1.settleAfter k fuel)) (hl : s1.later = s.later)
    (hc : s1.cur = s.cur) :
    (s.later = true → exec i s = .next s1) ∧
    (s.later = false →
      (∀ s', s1.settle s.cur.blk k fuel = (s', none) → exec i s = .next s') ∧
      (∀ s' x, s1.settle s.cur.blk k fuel = (s', some x) → exec i s = .next (s'.stopBefore s.cur.blk k x))) := by
  rw [e, State.settleAfter, hl, hc]
  refine ⟨fun h => by rw [if_pos h], fun h => ⟨fun s' hs => ?_, fun s' x hs => ?_⟩⟩ <;> rw [if_neg (by simp [h]), hs]

/-- R43, R134: CALL. -/
theorem call_solo {s b t} (h : Solo s b t) (v : Reg) (i : BitVec 21) : exec (.call v i) s = .next (s.progressed.closeLane t.tid
    (s.progressed.callTo t v.toNat (s.cur.pc + BitVec.ofInt 64 (4 * i.toInt)))) := by
  rw [exec_call, execCall, exec_fold h _ _ rfl, off21]
  rfl

/-- R137: an executable LAND word is a target. -/
theorem landCheck_ok {s s' : State} {b : Block} {t : Thread} {x : DWord} (hx : x.toNat < 2 ^ 56) (h4 : x.toNat % 4 = 0)
    (hf : s.fetchAt b t.level x.toNat = .ok (landWord, s')) : s.landCheck b t x = none := by
  rw [State.landCheck, if_neg (by omega), hf]
  exact if_pos rfl

/-- R134, R137: CALLI of a LAND word. -/
theorem calli_solo {s b t} (h : Solo s b t) {a v : Reg} {s' : State} (hf : FieldsOk b t [a.toNat, a.toNat + 1] [] [a.toNat, a.toNat + 1])
    (hx : (t.get64 a.toNat).toNat < 2 ^ 56) (h4 : (t.get64 a.toNat).toNat % 4 = 0)
    (hl : s.progressed.fetchAt b t.level (t.get64 a.toNat).toNat = .ok (landWord, s')) :
    exec (.calli a v) s = .next (s.progressed.closeLane t.tid (s.progressed.callTo t v.toNat (t.get64 a.toNat))) := by
  rw [exec_calli, execCalli, exec_fold h _ _ rfl, lc _ _ _ _ (show FieldsOk b t (upto a.toNat 1 2) [] (upto a.toNat 1 2) from hf)]
  rw [landCheck_ok (b := b.progressAt s.clock) hx h4 hl]

/-- R136: FRAME of a size that the thread may have. -/
theorem frame_solo {s b t} (h : Solo s b t) (i : Reg) (hi : i.toNat + 1 ≤ min t.n 128) : exec (.frame i) s = .next (s.progressed.closeLane t.tid
    (State.inRoom t.tid (fun s' => .done ((if t.f < i.toNat + 1 then s'.undefine s.cur.blk t.tid (t.wb + t.f) (i.toNat + 1 - t.f) else s').updThread
      s.cur.blk t.tid (fun u => { u with f := i.toNat + 1 }))) (s.progressed.roomFor s.cur.blk t.tid (t.wb + (i.toNat + 1))))) := by
  rw [exec_frame, execFrame, exec_fold h _ _ (if_neg (by omega))]
  rcases hr : s.progressed.roomFor s.cur.blk t.tid (t.wb + (i.toNat + 1)) with ⟨s', _ | x⟩ <;> simp only [State.progressed_cur, hr] <;> rfl

/-- R136: WBASE upwards, or by nothing. -/
theorem wbase_solo_up {s b t} (h : Solo s b t) (i : Reg) (hi : 0 ≤ i.toInt) : exec (.wbase i) s = .next (s.progressed.closeLane t.tid
    (State.inRoom t.tid (fun s' => .done ((if i.toNat = 0 then s' else s'.undefine s.cur.blk t.tid (t.wb + t.f) i.toNat).updThread s.cur.blk t.tid
      (fun u => { u with wb := t.wb + i.toNat }))) (s.progressed.roomFor s.cur.blk t.tid (t.wb + (i.toNat + t.f))))) := by
  have hn : i.toInt = i.toNat := by rw [BitVec.toInt_eq_toNat_cond] at hi ⊢; split at hi <;> omega
  rw [exec_wbase, execWbase, exec_fold h _ _ ((if_neg (by omega)).trans (if_pos hi)), hn, ← Nat.cast_add, Int.toNat_natCast, Nat.add_assoc]
  rcases hr : s.progressed.roomFor s.cur.blk t.tid (t.wb + (i.toNat + t.f)) with ⟨s', _ | x⟩ <;> simp only [State.progressed_cur, hr] <;> rfl

/-- R136: WBASE downwards. -/
theorem wbase_solo_down {s b t} (h : Solo s b t) (i : Reg) (hi : i.toInt < 0) (hw : 0 ≤ (t.wb : Int) + i.toInt) : exec (.wbase i) s =
    .next ((s.becomes t (Thread.jump { t with wb := ((t.wb : Int) + i.toInt).toNat } s.cur.next)).settleAfter t.tid (moveFuel t)) := by
  rw [exec_wbase, execWbase, exec_fold h _ _ ((if_neg (by omega)).trans (if_neg (by omega)))]
  simp only [State.progressed_cur, becomes_of h]
  rfl

/-- R22: positions that come into the window of the thread that has just become `u`: those whose slots hold nothing still to be spilled. -/
theorem updThread_undefineIn {s : State} {i k : Nat} {b : Block} {t : Thread} (ht : s.thread? i k = some (b, t)) (u : Thread) (start n : Nat) :
    (s.updThread i k (fun _ => u)).undefineIn i k start n = (s.updThread i k (fun _ => u)).undefine i k start (min n (u.low + u.n - start)) := by
  simp only [State.undefineIn, State.updThread_get _ _ _ (fun _ => u) _ _ ht]

/-- R135: RET through a link that passes its checks and names k, f and an address. -/
theorem ret_solo {s b t} (h : Solo s b t) (hf : FieldsOk b t [0, 1, 2] [] [0, 1, 2]) (hl : linkOk t = true) {k f : Nat} {pc : DWord}
    (hk : fld (t.get 2).toNat 7 8 = k) (hfc : fld (t.get 2).toNat 8 0 = f) (hpc : linkPc t = pc) :
    let s1 := s.becomes t (Thread.jump { t with wb := t.wb - k, f := f } pc)
    exec .ret s = .next ((if t.wb + t.f < t.wb - k + f then
        s1.undefine s.cur.blk t.tid (t.wb + t.f) (min (t.wb - k + f - (t.wb + t.f)) (t.low + t.n - (t.wb + t.f))) else s1).settleAfter t.tid (moveFuel t)) := by
  intro s1
  have hs1 : s.progressed.updThread s.cur.blk t.tid (fun u => ({ u with wb := t.wb - k, f := f } : Thread).jump pc) = s1 := becomes_of h _
  have hund : s1.undefineIn s.cur.blk t.tid (t.wb + t.f) (t.wb - k + f - (t.wb + t.f)) =
      s1.undefine s.cur.blk t.tid (t.wb + t.f) (min (t.wb - k + f - (t.wb + t.f)) (t.low + t.n - (t.wb + t.f))) :=
    updThread_undefineIn (solo_thread h) _ _ _
  rw [exec_ret, execRet, exec_fold h _ _ ((lc _ _ _ _ hf _).trans (if_neg (by simp [hl]))), hk, hfc, hpc, ← hund, ← hs1]
  rfl

/-- R135: the fields of a link that passes its checks. -/
theorem linkOk_iff (t : Thread) : linkOk t = true ↔
    (t.get 1).toNat < 2 ^ 24 ∧ (t.get 2).toNat < 2 ^ 15 ∧ (t.get 0).toNat % 4 = 0 ∧ fld (t.get 2).toNat 7 8 ≠ 0 ∧
      fld (t.get 2).toNat 7 8 ≤ t.wb ∧ fld (t.get 2).toNat 8 0 ≠ 0 ∧ fld (t.get 2).toNat 8 0 ≤ min t.n 128 := by
  have h1 := (t.get 1).isLt
  have h2 := (t.get 2).isLt
  have e1 : fld (t.get 1).toNat 8 24 = 0 ↔ (t.get 1).toNat < 2 ^ 24 := by rw [fld]; omega
  have e2 : fld (t.get 2).toNat 17 15 = 0 ↔ (t.get 2).toNat < 2 ^ 15 := by rw [fld]; omega
  have e0 : fld (t.get 0).toNat 2 0 = (t.get 0).toNat % 4 := fld_low _ _
  simp only [linkOk, Bool.and_eq_true, beq_iff_eq, bne_iff_ne, ne_eq, decide_eq_true_eq, e1, e2, e0, and_assoc]

/-- Settles O20: spills raise LOW one by one until the window fits and moves end with it resident; and each instruction that needs room
goes on in the room that it makes, or is stopped where a spill is. -/
theorem windowsThatMove : Obligations.WindowsThatMove := by
  refine ⟨fun s s' i k top n b t ht => ⟨fun hfit => ?_, fun hn hm => ?_, fun hf hlow htop hs => settle_window n ht hf hlow htop hs,
    fun hl => roomFor_atOnce ht hl, fun hl hfit => ?_⟩, fun s b t h => ?_⟩
  · rw [makeRoom_succ ht hfit]
    exact ⟨fun x hx => by rw [hx], fun s1 hs => by rw [hs]⟩
  · obtain ⟨b', t', ht', hw⟩ := makeRoom_window n ht hn hm
    exact ⟨b', t', ht', window_eq hw⟩
  · rw [roomFor_stepwise ht hl hfit]
    exact ⟨fun x hx => by rw [hx], fun s1 hs => by rw [hs]⟩
  · refine ⟨fun v i => room_ends ((call_solo h v i).trans (by rw [callTo_eq]; rfl)) (fun _ => rfl),
      fun a v s' hf hx h4 hl => room_ends ((calli_solo h hf hx h4 hl).trans (by rw [callTo_eq]; rfl)) (fun _ => rfl),
      fun i hi => room_ends (frame_solo h i hi) (fun _ => rfl),
      fun i => ⟨fun hi => room_ends (wbase_solo_up h i hi) (fun _ => rfl), fun hi hw => settle_ends (wbase_solo_down h i hi hw) rfl rfl⟩,
      fun hf => ?_⟩
    intro l0 l1 l2 k f pc h1 h2 h0 hk hkw hf0 hfn s1
    have hlink : linkOk t = true := (linkOk_iff t).2 ⟨h1, h2, h0, hk, hkw, by rw [fld_low]; exact hf0, by rw [fld_low]; exact hfn⟩
    have hret := ret_solo h hf hlink (k := k) (f := f) (pc := pc) rfl (fld_low _ _) (by rw [linkPc, fld_low])
    refine settle_ends hret ?_ ?_ <;> split <;> rfl

end Sys2Proof.Machine
end

section
/-! SUPPORT. Trap entry, case by case: what the vector table, the frame and the room for the handler's window come to (R31 to R35). -/

namespace Sys2Proof.Machine

/-- R35: a condition met while a trap of cause `orig` enters at level l: DOUBLE_TRAP at the level above, or a stop at level F. -/
def State.doubleTrap (s : State) (i k : Nat) (e : Entry) (orig : Cause) (n : Nat) (l : Level) (met : Cause) : State :=
  match l.above with
  | none => s.stopThread i k
  | some l' => s.enterAt i k { e with cause := .doubleTrap, extra := BitVec.ofNat 64 (orig.code + 256 * met.code) } orig n l'

/-- R32 step 3: thread k, as it stood `t`, begins its handler at level l. -/
def State.beginHandler (s : State) (i k : Nat) (t : Thread) (l : Level) (pc : DWord) : State :=
  (s.updThread i k (fun u => { (u.setTsp l (t.tsp l - 64)) with
    level := l, swb := 0, wb := u.wb + u.f, f := min 16 t.n, preds := 0, pfx := {}, pc := pc, wait := .none, pend := none })
    ).undefine i k (t.wb + t.f) (min 16 t.n)

section
variable {s : State} {i k : Nat} {b : Block} {t : Thread} (ht : s.thread? i k = some (b, t))
include ht

/-- R250: the entry's read waits. -/
theorem enterAt_held {e : Entry} {orig : Cause} {n : Nat} {l : Level} (hv : s.vector b t l e.cause = .held) :
    s.enterAt i k e orig (n + 1) l = s.noteVector b t l e.cause := by
  simp only [State.enterAt, ht, hv]

/-- R32: a table entry that is not enabled sends the cause to the level above, or stops the thread. -/
theorem enterAt_disabled {e : Entry} {orig : Cause} {n : Nat} {l : Level} (hv : s.vector b t l e.cause = .disabled) :
    s.enterAt i k e orig (n + 1) l = match l.above with
      | none => (s.noteVector b t l e.cause).stopThread i k
      | some l' => (s.noteVector b t l e.cause).enterAt i k e orig n l' := by
  simp only [State.enterAt, ht, hv] <;> rfl

/-- R33, R35: the read of the table fails. -/
theorem enterAt_fault {e : Entry} {orig : Cause} {n : Nat} {l : Level} {c : Cause} (hv : s.vector b t l e.cause = .fault c) :
    s.enterAt i k e orig (n + 1) l = (s.noteVector b t l e.cause).doubleTrap i k e orig n l c := by
  simp only [State.enterAt, ht, hv] <;> rfl

section
variable {e : Entry} {orig : Cause} {n : Nat} {l : Level} {pc : DWord} (hv : s.vector b t l e.cause = .handler pc)
include hv

/-- R264: the frame's host write waits. -/
theorem enterAt_frameWaits (hw : (s.noteVector b t l e.cause).hostWaits b k (b.storeReq l) (t.tsp l - 64).toNat = true) :
    s.enterAt i k e orig (n + 1) l = s.noteVector b t l e.cause := by
  simp only [State.enterAt, ht, hv]
  exact if_pos hw

variable (hw : (s.noteVector b t l e.cause).hostWaits b k (b.storeReq l) (t.tsp l - 64).toNat = false) {s1 : State} {cl : Bool}
include hw

/-- R250: the frame's write waits behind the side log. -/
theorem enterAt_frameHeld {m va : Nat}
    (hf : (s.noteVector b t l e.cause).writeVa (b.storeReq l) false (t.tsp l - 64).toNat (frameBytes e t) = ((s1, cl), some (.held m, va))) :
    s.enterAt i k e orig (n + 1) l = s.noteVector b t l e.cause := by
  simp only [State.enterAt, ht, hv, hw, hf] <;> rfl

/-- R33, R35: the frame cannot be written. -/
theorem enterAt_frameFault {f : MemFault} {va : Nat} (hm : ∀ m, f ≠ .held m)
    (hf : (s.noteVector b t l e.cause).writeVa (b.storeReq l) false (t.tsp l - 64).toNat (frameBytes e t) = ((s1, cl), some (f, va))) :
    s.enterAt i k e orig (n + 1) l = s1.doubleTrap i k e orig n l (f.trap (b.storeReq l) va).cause := by
  simp only [State.enterAt, ht, hv, hw, hf]
  cases f with
  | held m => exact absurd rfl (hm m)
  | page np => rfl
  | stage2 g np => rfl
  | poison w => rfl

/-- R18, R32: with the frame written, the entry waits for the room of the handler's window. -/
theorem enterAt_framed
    (hf : (s.noteVector b t l e.cause).writeVa (b.storeReq l) false (t.tsp l - 64).toNat (frameBytes e t) = ((s1, cl), none)) :
    s.enterAt i k e orig (n + 1) l =
      match (s1.postsAt i k (b.storeReq l) (t.tsp l - 64).toNat).handlerRoom i k (t.wb + t.f + min 16 t.n) t with
      | (s', some (.trap tr)) => s'.doubleTrap i k e orig n l tr.cause
      | (s', some (.wait _)) => s'
      | (s', none) => s'.beginHandler i k t l pc := by
  simp only [State.enterAt, ht, hv, hw, hf] <;> rfl

end
end

end Sys2Proof.Machine
end

section
/-! SUPPORT. Traps taken, and entries that fail (R31 to R35, R167, R454). -/

namespace Sys2Proof.Machine

/-- R32: an entry of the vector table that was read. -/
theorem vector_of_read {s s' : State} {b : Block} {t : Thread} {l : Level} {c : Cause} {bytes : List Byte}
    (hw : s.hostWaits b t.tid (b.loadReq l) ((t.tvb l).toNat + 8 * c.code) = false)
    (hr : s.readVa (b.loadReq l) false ((t.tvb l).toNat + 8 * c.code) 8 = .ok (bytes, s')) :
    s.noteVector b t l c = s' ∧ s.vector b t l c =
      if !bit (ofBytes bytes) 63 || fld (ofBytes bytes) 7 56 != 0 || fld (ofBytes bytes) 2 0 != 0 then .disabled
      else .handler (BitVec.ofNat 64 (fld (ofBytes bytes) 56 0)) := by
  constructor
  · simp only [State.noteVector, hw, hr]; rfl
  · simp only [State.vector, hw, hr]; rfl

/-- R250: a read of the vector table that waits counts nothing yet. -/
theorem noteVector_held {s : State} {b : Block} {t : Thread} {l : Level} {c : Cause} (hv : s.vector b t l c = .held) :
    s.noteVector b t l c = s := by
  unfold State.vector at hv
  dsimp only at hv
  unfold State.noteVector
  split
  · rfl
  next hw =>
  rw [if_neg hw] at hv
  split at hv
  · rfl
  · cases hv
  · split at hv <;> cases hv

/-- R5: a bit, as Lean's own. -/
theorem bit_eq_testBit (w lo : Nat) : bit w lo = w.testBit lo := by
  rw [bit, fld, Nat.testBit_eq_decide_div_mod_eq, pow_one]
  rfl

/-- R454: a message takes a permit or waits for one, and is in the link after those that were. -/
theorem CmdLink.send_keeps (l : CmdLink) (m : Message) :
    ((l.send m).sent ++ (l.send m).waiting).length = (l.sent ++ l.waiting).length + 1 ∧ m ∈ (l.send m).sent ++ (l.send m).waiting := by
  unfold CmdLink.send
  split
  · exact ⟨by simp; omega, by simp⟩
  · exact ⟨by simp; omega, by simp⟩

/-- The element of a list changed, named by what it becomes. -/
theorem upd_eq_set {α : Type} {l : List α} {n : Nat} {x : α} (f : α → α) (h : l[n]? = some x) : upd l n f = l.set n (f x) := by
  apply List.ext_getElem?
  intro j
  by_cases hj : n = j
  · subst hj
    rw [upd_get_same _ _ _ _ h, List.getElem?_set_self (List.getElem?_eq_some_iff.1 h).1]
  · rw [upd_get_other _ _ _ _ hj, List.getElem?_set_ne hj]

section
variable {s : State} {i k : Nat} {b : Block} {t : Thread} (ht : s.thread? i k = some (b, t))
include ht

/-- R32, R454: a thread stops at level F, and its quadrant's controller tells the armature core. -/
theorem stopThread_eq : s.stopThread i k = (s.updThread i k (fun _ => { t with stopped := true, wait := .none, pend := none })).armatureMessage b.core
    (toBytes 64 (b.uid % 2 ^ 64 + k * 2 ^ 64)) := by
  rw [← updThread_const s i k (fun t => { t with stopped := true, wait := .none, pend := none }) b t ht]
  simp only [State.stopThread, ht]

/-- R32: a thread of the armature core stops without a report. -/
theorem stopThread_armature (hc : b.core = Config.armatureCore) :
    s.stopThread i k = s.updThread i k (fun _ => { t with stopped := true, wait := .none, pend := none }) := by
  rw [stopThread_eq ht, hc]
  exact if_neg (by decide)

/-- R454: what a report of a stopped thread is, and where it stands. -/
theorem stopThread_reported {link : CmdLink} (hc : b.core < Config.nCores) (hl : s.cmdLinks[b.core / 40]? = some link) :
    ∃ (m : Message) (link' : CmdLink), m.response = false ∧ m.toArmature = true ∧ m.data.length = 64 ∧
      s.stopThread i k = { s.updThread i k (fun _ => { t with stopped := true, wait := .none, pend := none }) with
        cmdLinks := s.cmdLinks.set (b.core / 40) link' } ∧
      (link'.sent ++ link'.waiting).length = (link.sent ++ link.waiting).length + 1 ∧ m ∈ link'.sent ++ link'.waiting := by
  refine ⟨_, link.send ⟨false, true, toBytes 64 (ofBytes (toBytes 64 (b.uid % 2 ^ 64 + k * 2 ^ 64)))⟩, rfl, rfl, toBytes_length _ _, ?_,
    CmdLink.send_keeps _ _⟩
  rw [stopThread_eq ht, State.armatureMessage, if_pos hc, State.updCmdLink, State.updThread_cmdLinks, quadOfCore, upd_eq_set _ hl]

end

/-- Settles O24: a read entry of the table is a handler or disabled; and the failed entry goes to the level above, or stops the thread. -/
theorem failedTrapEntries : Obligations.FailedTrapEntries := by
  refine ⟨⟨fun s s' b t l c bytes hw hr => ?_, fun s i k b t e n ht => ?_, fun s i k b t ht => ?_⟩, fun s i k b t e c n ht => ?_⟩
  · obtain ⟨hnote, hvec⟩ := vector_of_read hw hr
    refine ⟨hnote, ?_⟩
    rw [hvec, ← bit_eq_testBit, show ofBytes bytes / 2 ^ 56 % 2 ^ 7 = fld (ofBytes bytes) 7 56 from rfl,
      show ofBytes bytes % 4 = fld (ofBytes bytes) 2 0 by simp [fld_low]]
    simp only [ite_eq_left_iff, reduceCtorEq, imp_false, not_not, Bool.or_eq_true, Bool.not_eq_true', bne_iff_ne, or_assoc]
  · exact ⟨fun hv => enterAt_disabled ht hv, fun hv => enterAt_disabled ht hv, fun hv => enterAt_disabled ht hv, fun l hv => by
      rw [enterAt_held ht hv, noteVector_held hv]⟩
  · exact ⟨stopThread_armature ht, fun link hc hl => stopThread_reported ht hc hl⟩
  · exact ⟨fun hv => enterAt_fault ht hv, fun hv => enterAt_fault ht hv, fun hv => enterAt_fault ht hv⟩

end Sys2Proof.Machine
end

section
/-! SUPPORT. A trap taken where its handler is enabled (R31 to R35, R167, R198, R264). -/

namespace Sys2Proof.Machine

/-- R35, R198: a thread that has met a condition whose entry is still to come. -/
def Thread.struck (t : Thread) (e : Entry) : Thread :=
  { t with pend := some e, wait := .none, waited := 0, freed := false, synced := t.arrivals e.pc }

section
variable {s : State} {i k : Nat} {b : Block} {t : Thread} (ht : s.thread? i k = some (b, t))
include ht

/-- R35: the state once a condition is met. -/
theorem pending_eq (e : Entry) : s.pending i k e = s.updThread i k (fun _ => t.struck e) := updThread_const _ _ _ _ _ _ ht

/-- R31, R230: what a condition leaves behind leaves the thread where it is. -/
theorem noteCause_thread? (l : Level) (tr : Trap) : (s.noteCause b l tr).thread? i k = some (b, t) := by
  rw [thread?_of_held (State.noteCause_held s b l tr), ht]

/-- R32, R167: a trap enters at once, or, `later` or behind register writes of its gang, in a step of its own. -/
theorem takeTrapAt_eq (tr : Trap) (pc : DWord) (word : Word) : s.takeTrapAt i k tr pc word =
    let e : Entry := ⟨tr.cause, tr.extra, tr.addr, pc, word⟩
    let p := (s.noteCause b t.level tr).updThread i k (fun _ => t.struck e)
    if s.later = true ∨ b.boardFor (k / 4) ≠ [] then p else p.enterAt i k e tr.cause 8 (targetLevel t.level tr.cause) := by
  simp only [State.takeTrapAt, ht]
  rw [pending_eq (noteCause_thread? ht _ _)]
  simp only [Bool.or_eq_true, Bool.not_eq_true', List.isEmpty_eq_false_iff, (held_iff.1 (State.noteCause_held s b t.level tr)).2.2, ne_eq]

/-- R18: a window that fits needs no spill to become a handler's. -/
theorem handlerRoom_none {top : Nat} {u : Thread} (h : top ≤ t.low + t.n) : s.handlerRoom i k top u = (s, none) := by
  unfold State.handlerRoom
  split
  · exact roomFor_none _ _ _ _ _ _ ht h
  · exact makeRoom_none _ _ _ _ _ _ _ ht h

end

/-- R31: the conditions that leave nothing behind beside their trap. -/
theorem noteCause_none (s : State) (b : Block) (l : Level) (tr : Trap)
    (h : tr.cause ∉ [Cause.uncorrectable, .pageFault, .stage2Fault, .fetchFault]) : s.noteCause b l tr = s := by
  unfold State.noteCause
  split <;> simp_all

/-- Settles O23: the trap is taken, its thread struck; it waits for its entry, or enters the handler that the table names. -/
theorem trapEntry : Obligations.TrapEntry := by
  refine ⟨noteCause_none, fun s s' i k b b' t w tr pc handler word n l ht hl => ?_⟩
  intro e kept u p
  have hkept : u = t.struck e := rfl
  have htake := takeTrapAt_eq ht tr pc word
  refine ⟨fun hq => by rw [htake]; exact if_pos hq, ?_⟩
  intro hlater hboard hv v sp hw hf s1 hs1 hlow hn hwb hfw hfit
  have hp : p.thread? i k = some (b.updThread k (fun _ => u), u) := State.updThread_get _ _ _ _ _ _ (noteCause_thread? ht _ _)
  rw [htake]
  refine (if_neg (by simp [hlater, hboard])).trans ?_
  rw [show targetLevel t.level tr.cause = l from hl.symm]
  refine (enterAt_framed (b := b.updThread k (fun _ => u)) (e := e) hp hv hw hf).trans ?_
  rw [show (s'.postsAt i k ((b.updThread k (fun _ => u)).storeReq l) (u.tsp l - 64).toNat) = s1 from rfl]
  rw [handlerRoom_none hs1 (by rw [hlow, hn]; exact hfit)]
  rfl

end Sys2Proof.Machine
end

section
/-! SUPPORT. Trap entries that spill or fail, and every end of TRET (R22, R33, R35, R146, R250). -/

namespace Sys2Proof.Machine

/-- R6: a string of bytes names a number of its own length. -/
theorem ofBytes_lt (bs : List Byte) : ofBytes bs < 256 ^ bs.length := by
  induction bs with
  | nil => exact Nat.one_pos
  | cons x xs ih =>
    have hx := x.isLt
    rw [ofBytes, List.length_cons, pow_succ']
    omega

theorem numAt_lt (bs : List Byte) (o n : Nat) : numAt bs o n < 256 ^ n :=
  (ofBytes_lt _).trans_le (Nat.pow_le_pow_right (by norm_num) (List.length_take_le _ _))

/-- R35: a condition met at a level that takes traps: at F a stop, and DOUBLE_TRAP one level up elsewhere. -/
theorem doubleTrap_eq (s : State) (i k : Nat) (e : Entry) (orig : Cause) (n : Nat) {l : Level} (hl : l ≠ .u) (met : Cause) :
    s.doubleTrap i k e orig n l met = if l = .f then s.stopThread i k else
      s.enterAt i k { e with cause := .doubleTrap, extra := BitVec.ofNat 64 (orig.code + 256 * met.code) } orig n (if l = .s then .h else .f) := by
  cases l with
  | u => exact absurd rfl hl
  | s => rfl
  | h => rfl
  | f => rfl

/-- R146 step 2: the fields of a frame that some thread at level T can have saved. -/
def wholeFrame (t : Thread) (frame : List Byte) : Prop :=
  numAt frame 16 4 / 2 ^ 22 % 4 ≤ t.level.toNat ∧ numAt frame 32 4 % 256 ≠ 0 ∧ numAt frame 32 4 % 256 ≤ min t.n 128 ∧
    numAt frame 24 4 / 2 ^ 16 % 256 ≤ 4 ∧ Pfx.ofWord (numAt frame 36 4) ≠ none

/-- R146 step 2: the model's check of a frame's fields. -/
theorem brokenFrame_iff (t : Thread) (frame : List Byte) :
    ((t.level.toNat < fld (numAt frame 16 4) 2 22 || fld (numAt frame 32 4) 8 0 == 0 || min t.n 128 < fld (numAt frame 32 4) 8 0 ||
      4 < fld (numAt frame 24 4) 8 16 || (Pfx.ofWord (numAt frame 36 4)).isNone) = true) ↔ ¬wholeFrame t frame := by
  have hlevel : fld (numAt frame 16 4) 2 22 = numAt frame 16 4 / 2 ^ 22 % 4 := by simp only [fld, Nat.reducePow]
  have hf : fld (numAt frame 32 4) 8 0 = numAt frame 32 4 % 256 := fld_low _ _
  have hswb : fld (numAt frame 24 4) 8 16 = numAt frame 24 4 / 2 ^ 16 % 256 := by simp only [fld, Nat.reducePow]
  rw [hlevel, hf, hswb]
  simp only [wholeFrame, not_and_or, not_le, ne_eq, not_not, Bool.or_eq_true, decide_eq_true_eq, beq_iff_eq, Option.isNone_iff_eq_none, or_assoc]

section
variable {s : State} {t : Thread} {frame : List Byte}

theorem frameFault_broken (h : ¬wholeFrame t frame) : frameFault s t frame = some (s.wordTrap .illegalOp) :=
  if_pos ((brokenFrame_iff t frame).2 h)

theorem frameFault_whole (h : wholeFrame t frame) : frameFault s t frame =
    if numAt frame 0 8 % 4 ≠ 0 ∨ 2 ^ 56 ≤ numAt frame 0 8 then some { cause := .jumpFault, addr := BitVec.ofNat 64 (numAt frame 0 8) } else none := by
  have hpc := numAt_lt frame 0 8
  have htop : fld (numAt frame 0 8) 8 56 ≠ 0 ↔ 2 ^ 56 ≤ numAt frame 0 8 := by rw [fld]; omega
  have hlow : fld (numAt frame 0 8) 2 0 = numAt frame 0 8 % 4 := fld_low _ _
  refine (if_neg fun hb => (brokenFrame_iff t frame).1 hb h).trans ?_
  simp only [htop, hlow]

/-- R146 step 3: the thread of a frame, in its fields. -/
theorem ofFrame_eq {p : Pfx} {pc f w : Nat} (hp : Pfx.ofWord (numAt frame 36 4) = some p) (hpc : numAt frame 0 8 = pc) (hf : numAt frame 32 4 % 256 = f)
    (hw : numAt frame 24 4 = w) : t.ofFrame frame = { (t.setTsp t.level (t.tsp t.level + 64)) with
      level := Level.ofBits (numAt frame 16 4 / 2 ^ 22), pc := BitVec.ofNat 64 pc, preds := BitVec.ofNat 8 (w / 2 ^ 24),
      swb := 32 * (w / 2 ^ 16 % 256), wb := numAt frame 28 4, f := f, pfx := p, wait := .none, waited := 0 } := by
  have hlevel : Level.ofBits (fld (numAt frame 16 4) 2 22) = Level.ofBits (numAt frame 16 4 / 2 ^ 22) := by
    simp only [Level.ofBits, fld, Nat.reducePow, Nat.mod_mod]
  have hpreds : BitVec.ofNat 8 (fld (numAt frame 24 4) 8 24) = BitVec.ofNat 8 (w / 2 ^ 24) := by
    apply BitVec.eq_of_toNat_eq
    simp only [fld, hw, BitVec.toNat_ofNat, Nat.mod_mod]
  have hff : fld (numAt frame 32 4) 8 0 = f := (fld_low _ _).trans hf
  have hswb : fld (numAt frame 24 4) 8 16 = w / 2 ^ 16 % 256 := by rw [hw]; simp only [fld, Nat.reducePow]
  simp only [Thread.ofFrame, hlevel, hpreds, hff, hswb, hp, hpc, Option.getD_some]

theorem setTsp_low (u : Thread) (l : Level) (x : DWord) : (u.setTsp l x).low = u.low ∧ (u.setTsp l x).n = u.n := by cases l <;> exact ⟨rfl, rfl⟩

end

/-- R146: what TRET is, as what the read of the frame comes to. -/
def State.tretLane (s : State) (t : Thread) : Dev → LaneRes
  | .wait w => .wait w
  | .trap tr => .trap s tr
  | .ok frame s' =>
    match frameFault s' t frame with
    | some tr => .trap s' tr
    | none => .moved (State.settleAfter (
        if t.wb + t.f < (t.ofFrame frame).wb + (t.ofFrame frame).f then
          (s'.updThread s'.cur.blk t.tid (fun _ => t.ofFrame frame)).undefineIn s'.cur.blk t.tid (t.wb + t.f)
            ((t.ofFrame frame).wb + (t.ofFrame frame).f - (t.wb + t.f))
        else s'.updThread s'.cur.blk t.tid (fun _ => t.ofFrame frame)) t.tid (moveFuel (t.ofFrame frame)))

theorem tret_solo {s b t} (h : Solo s b t) (hl : t.level ≠ .u) : exec .tret s = .next (s.progressed.closeLane t.tid (s.progressed.tretLane t
    (s.progressed.devLoad (b.progressAt s.clock) t (b.loadReq t.level) false none (t.tsp t.level).toNat 64))) := by
  have hs : Level.s.toNat ≤ t.level.toNat := by cases hu : t.level <;> simp_all [Level.toNat]
  rw [exec_tret, execTret, needLevel_ok h _ hs]
  refine congrArg _ (exec_fold h _ _ ?_)
  rw [show (b.progressAt s.clock).loadReq t.level = b.loadReq t.level from rfl]
  rcases s.progressed.devLoad (b.progressAt s.clock) t (b.loadReq t.level) false none (t.tsp t.level).toNat 64 with ⟨frame, s'⟩ | tr | w
  · cases hf : frameFault s' t frame <;> simp only [State.tretLane, hf] <;> rfl
  · rfl
  · rfl

/-- Settles O27: an entry ends as its frame's write and its window's room end; TRET ends as the read of the frame, its checks and the moves of
the window that it restores. -/
theorem trapMoves : Obligations.TrapMoves := by
  refine ⟨fun s s1 i k n b t e handler cl l ht hl hv => ?_, fun s b t h hl => ?_⟩
  · intro q sp v w framed top room double
    have hdouble (s' : State) (c : Cause) : double s' c = s'.doubleTrap i k e e.cause n l c := (doubleTrap_eq s' i k e e.cause n hl c).symm
    have hroom : framed.handlerRoom i k top t = room := rfl
    refine ⟨enterAt_frameWaits ht hv, fun hw => ⟨fun f va hf hm => ?_, fun m va hf => enterAt_frameHeld ht hv hw hf⟩, fun hw hf => ?_⟩
    · rw [hdouble]
      exact enterAt_frameFault ht hv hw hm hf
    · have hend := enterAt_framed (orig := e.cause) (n := n) ht hv hw hf
      rw [show (s1.postsAt i k (b.storeReq l) (t.tsp l - 64).toNat).handlerRoom i k (t.wb + t.f + min 16 t.n) t = room from hroom] at hend
      refine ⟨fun s2 tr hr => ?_, fun s2 x hr => ?_, fun s2 hr => ?_⟩ <;> rw [hend, hr]
      rw [hdouble]
      rfl
  · have htret := tret_solo h hl
    intro r
    refine ⟨fun tr hr => ?_, fun w hr => ?_, fun frame s' hr hcur hlater => ?_⟩
    · rw [htret, show s.progressed.devLoad _ _ _ _ _ _ _ = _ from hr]
      rfl
    · rw [htret, show s.progressed.devLoad _ _ _ _ _ _ _ = _ from hr]
      exact congrArg _ (becomes_of h _)
    · rw [show s.progressed.devLoad _ _ _ _ _ _ _ = _ from hr] at htret
      intro at4 pc f whole
      refine ⟨fun hb => ?_, fun hw hpc => ?_, fun p b' t' hw h4 h56 hp ht' => ?_⟩
      · rw [htret, State.tretLane, frameFault_broken (show ¬wholeFrame t frame from hb), State.wordTrap, hcur]
        rfl
      · have hfault : frameFault s' t frame = some { cause := .jumpFault, addr := BitVec.ofNat 64 pc } := (frameFault_whole hw).trans (if_pos hpc)
        rw [htret, State.tretLane, hfault]
        rfl
      · have hfault : frameFault s' t frame = none := (frameFault_whole hw).trans (if_neg fun hx => hx.elim (· h4) (Nat.not_le.2 h56))
        intro u top s1 s2
        have hu : t.ofFrame frame = u := ofFrame_eq hp rfl rfl rfl
        obtain ⟨hlow, hn⟩ := setTsp_low t t.level (t.tsp t.level + 64)
        have hund : s1.undefineIn s.cur.blk t.tid top (u.wb + u.f - top) =
            s1.undefine s.cur.blk t.tid top (min (u.wb + u.f - top) (t.low + t.n - top)) := by
          rw [updThread_undefineIn ht', ← hlow, ← hn]
        refine settle_ends (htret.trans ?_) (s1 := s2) ?_ ?_
        · rw [State.tretLane, hfault, hu, hcur, hund]
          rfl
        · rw [← hlater]; dsimp only [s2]; split <;> rfl
        · rw [← hcur]; dsimp only [s2]; split <;> rfl

end Sys2Proof.Machine
end

section
/-! SUPPORT. The classes in which the spill engine packs the values of a quad's lanes (R20). -/

namespace Sys2Proof.Machine

/-- R20: the fields of n bits of the lanes given, each at its lane's place. -/
def laneFields (n : Nat) (vals : List (Nat × Nat)) : Nat := vals.foldl (fun w v => w + v.2 % 2 ^ n * 2 ^ (n * v.1)) 0

theorem laneFields_cons (n : Nat) (v : Nat × Nat) (vals : List (Nat × Nat)) :
    laneFields n (v :: vals) = v.2 % 2 ^ n * 2 ^ (n * v.1) + laneFields n vals := by
  have shift (l : List (Nat × Nat)) (w : Nat) : l.foldl (fun w v => w + v.2 % 2 ^ n * 2 ^ (n * v.1)) w = w + laneFields n l := by
    induction l generalizing w with
    | nil => rfl
    | cons x xs ih => rw [laneFields, List.foldl_cons, List.foldl_cons, ih, ih, Nat.zero_add, Nat.add_assoc]
  rw [laneFields, List.foldl_cons, shift, Nat.zero_add]

/-- Fields of lanes from k up begin at lane k's place. -/
theorem laneFields_dvd {n k : Nat} {vals : List (Nat × Nat)} (h : ∀ v ∈ vals, k ≤ v.1) : 2 ^ (n * k) ∣ laneFields n vals := by
  induction vals with
  | nil => exact dvd_zero _
  | cons x xs ih =>
    rw [laneFields_cons]
    have hx : n * k ≤ n * x.1 := Nat.mul_le_mul_left _ (h x List.mem_cons_self)
    exact ((pow_dvd_pow 2 hx).mul_left _).add (ih fun v hv => h v (List.mem_cons_of_mem _ hv))

/-- The first field of ascending lanes, and what lies above it. -/
theorem laneFields_above {n : Nat} {x : Nat × Nat} {xs : List (Nat × Nat)} (h : ∀ v ∈ xs, x.1 < v.1) :
    ∃ c, laneFields n xs = 2 ^ (n * x.1) * (2 ^ n * c) := by
  obtain ⟨c, hc⟩ := laneFields_dvd (n := n) h
  exact ⟨c, by rw [hc, Nat.mul_succ, pow_add, Nat.mul_assoc]⟩

/-- R20: a lane's field is read back. -/
theorem fld_laneFields {n : Nat} {vals : List (Nat × Nat)} (h : (vals.map (·.1)).Pairwise (· < ·)) {v : Nat × Nat} (hv : v ∈ vals) :
    fld (laneFields n vals) n (n * v.1) = v.2 % 2 ^ n := by
  induction vals with
  | nil => cases hv
  | cons x xs ih =>
    rw [List.map_cons, List.pairwise_cons] at h
    obtain ⟨hx, hxs⟩ := h
    have hx' : ∀ w ∈ xs, x.1 < w.1 := fun w hw => hx _ (List.mem_map_of_mem hw)
    obtain ⟨c, hc⟩ := laneFields_above (n := n) hx'
    have hlt : x.2 % 2 ^ n < 2 ^ n := Nat.mod_lt _ (Nat.two_pow_pos n)
    have hsum : laneFields n (x :: xs) = 2 ^ (n * x.1) * (x.2 % 2 ^ n + 2 ^ n * c) := by rw [laneFields_cons, hc, Nat.mul_comm, Nat.mul_add]
    rcases List.mem_cons.1 hv with rfl | hv
    · rw [fld, hsum, Nat.mul_div_cancel_left _ (Nat.two_pow_pos _), Nat.add_mul_mod_self_left, Nat.mod_mod]
    · rw [← ih hxs hv, fld, fld, hsum, hc]
      obtain ⟨m, hm⟩ := Nat.exists_eq_add_of_lt (hx' v hv)
      have hplace : 2 ^ (n * v.1) = 2 ^ (n * x.1) * (2 ^ n * 2 ^ (n * m)) := by rw [hm, ← pow_add, ← pow_add]; ring_nf
      rw [hplace, Nat.mul_div_mul_left _ _ (Nat.two_pow_pos _), Nat.mul_div_mul_left _ _ (Nat.two_pow_pos _), ← Nat.div_div_eq_div_mul,
        Nat.add_mul_div_left _ _ (Nat.two_pow_pos n), Nat.div_eq_of_lt hlt, Nat.zero_add, Nat.mul_div_mul_left _ _ (Nat.two_pow_pos n)]

/-- R20: the fields of lanes below m fill no more than m places. -/
theorem laneFields_lt {n m : Nat} {vals : List (Nat × Nat)} (h : (vals.map (·.1)).Pairwise (· < ·)) (hm : ∀ v ∈ vals, v.1 < m) :
    laneFields n vals < 2 ^ (n * m) := by
  induction vals with
  | nil => exact Nat.two_pow_pos _
  | cons x xs ih =>
    rw [List.map_cons, List.pairwise_cons] at h
    obtain ⟨hx, hxs⟩ := h
    obtain ⟨c, hc⟩ := laneFields_above (n := n) (x := x) fun w hw => hx _ (List.mem_map_of_mem hw)
    obtain ⟨j, hj⟩ := Nat.exists_eq_add_of_lt (hm x List.mem_cons_self)
    have hlt : x.2 % 2 ^ n < 2 ^ n := Nat.mod_lt _ (Nat.two_pow_pos n)
    have hplace : 2 ^ (n * m) = 2 ^ (n * x.1) * (2 ^ n * 2 ^ (n * j)) := by rw [hj, ← pow_add, ← pow_add]; ring_nf
    have hxs' := ih hxs fun v hv => hm v (List.mem_cons_of_mem _ hv)
    rw [hc, hplace] at hxs'
    have hc' : c < 2 ^ (n * j) := Nat.lt_of_mul_lt_mul_left (Nat.lt_of_mul_lt_mul_left hxs')
    rw [laneFields_cons, hc, hplace, Nat.mul_comm, ← Nat.mul_add]
    refine Nat.mul_lt_mul_of_pos_left ?_ (Nat.two_pow_pos _)
    calc x.2 % 2 ^ n + 2 ^ n * c < 2 ^ n * (c + 1) := by rw [Nat.mul_succ]; omega
      _ ≤ 2 ^ n * 2 ^ (n * j) := Nat.mul_le_mul_left _ hc'

/-- R20: a value that its low n bits extend to comes back from them. -/
theorem sextI_of_narrow {n x : Nat} (h : narrowFits n x = true) : (sextI (x % 2 ^ n) n % 2 ^ 32).toNat = x := by
  rw [narrowFits, beq_iff_eq, sextI] at h
  rw [sextI, Nat.mod_mod, h]

/-- R20: a class that gives the lanes' values back, in four words. -/
structure PackOk (vals : List (Nat × Nat)) (p : Nat × Nat × List Nat) : Prop where
  words : p.2.2.length = 4
  word : ∀ w ∈ p.2.2, w < 2 ^ 32
  back : ∀ v ∈ vals, unpackLane p.1 p.2.1 p.2.2 v.1 = v.2

theorem PackOk.uniform {vals : List (Nat × Nat)} {x : Nat} (hx : x < 2 ^ 32) (h : ∀ v ∈ vals, v.2 = x) : PackOk vals (1, 0, [x, 0, 0, 0]) :=
  ⟨rfl, by simpa using hx, fun v hv => (h v hv).symm⟩

/-- R20: b and d of the Affine class are words that give each lane's value. -/
theorem affineOf_some {vals : List (Nat × Nat)} {b d : Nat} (h : affineOf vals = some (b, d)) :
    b < 2 ^ 32 ∧ d < 2 ^ 32 ∧ ∀ v ∈ vals, (b + v.1 * d) % 2 ^ 32 = v.2 := by
  unfold affineOf at h
  split at h
  next i x k y rest =>
    obtain ⟨d', hd', hsome⟩ := List.exists_of_findSome?_eq_some h
    have hlt : d' < 2 ^ 32 := by
      have hdelta := Nat.mod_lt (y + 2 ^ 32 - x) (Nat.two_pow_pos 32)
      split at hd'
      · rw [List.mem_singleton.1 hd']; exact hdelta
      · split at hd'
        · rw [List.mem_singleton.1 hd']; exact Nat.mod_lt _ (Nat.two_pow_pos 32)
        · split at hd'
          · cases hd'
          · simp only [List.mem_cons, List.not_mem_nil, or_false] at hd'
            omega
    dsimp only at hsome
    split at hsome
    next hall =>
      cases hsome
      exact ⟨Nat.mod_lt _ (Nat.two_pow_pos 32), hlt, fun v hv => eq_of_beq (List.all_eq_true.1 hall v hv)⟩
    · cases hsome
  · cases h

theorem PackOk.affine {vals : List (Nat × Nat)} {b d : Nat} (h : affineOf vals = some (b, d)) : PackOk vals (2, 0, [b, d, 0, 0]) := by
  obtain ⟨hb, hd, hback⟩ := affineOf_some h
  exact ⟨rfl, by simpa using And.intro hb hd, hback⟩

section
variable {vals : List (Nat × Nat)} (hp : (vals.map (·.1)).Pairwise (· < ·)) (hv : ∀ v ∈ vals, v.1 < 4 ∧ v.2 < 2 ^ 32)
include hp hv

theorem PackOk.narrow8 (h : ∀ v ∈ vals, narrowFits 8 v.2 = true) : PackOk vals (3, 0, [laneFields 8 vals, 0, 0, 0]) := by
  refine ⟨rfl, by simpa using laneFields_lt (n := 8) (m := 4) hp fun v h => (hv v h).1, fun v hm => ?_⟩
  show (sextI (fld (laneFields 8 vals) 8 (8 * v.1)) 8 % 2 ^ 32).toNat = v.2
  rw [fld_laneFields hp hm]
  exact sextI_of_narrow (h v hm)

/-- R20: the values of lanes 2k and 2k + 1, by the halfword they take. -/
def halfLanes (vals : List (Nat × Nat)) (k : Nat) : List (Nat × Nat) := (vals.filter (fun v => v.1 / 2 == k)).map (fun v => (v.1 % 2, v.2))

omit hv in
theorem halfLanes_ascend (k : Nat) : ((halfLanes vals k).map (·.1)).Pairwise (· < ·) := by
  rw [halfLanes, List.map_map, List.pairwise_map, List.pairwise_filter]
  rw [List.pairwise_map] at hp
  refine hp.imp fun hlt ha hb => ?_
  have ha' := eq_of_beq ha
  have hb' := eq_of_beq hb
  simp only [Function.comp_apply]
  omega

theorem PackOk.narrow16 (h : ∀ v ∈ vals, narrowFits 16 v.2 = true) :
    PackOk vals (3, 1, [laneFields 16 (halfLanes vals 0), laneFields 16 (halfLanes vals 1), 0, 0]) := by
  have hlt (k : Nat) : laneFields 16 (halfLanes vals k) < 2 ^ 32 := by
    refine laneFields_lt (n := 16) (m := 2) (halfLanes_ascend hp k) fun v hm => ?_
    obtain ⟨u, -, rfl⟩ := List.mem_map.1 hm
    exact Nat.mod_lt _ (by norm_num)
  refine ⟨rfl, by simpa using And.intro (hlt 0) (hlt 1), fun v hm => ?_⟩
  have hmem : (v.1 % 2, v.2) ∈ halfLanes vals (v.1 / 2) := 
    List.mem_map_of_mem (f := fun v => (v.1 % 2, v.2)) (List.mem_filter.2 ⟨hm, beq_self_eq_true (v.1 / 2)⟩)
  have hword : [laneFields 16 (halfLanes vals 0), laneFields 16 (halfLanes vals 1), 0, 0].getD (v.1 / 2) 0 = laneFields 16 (halfLanes vals (v.1 / 2)) := by
    have hq : v.1 / 2 = 0 ∨ v.1 / 2 = 1 := by have := (hv v hm).1; omega
    rcases hq with hq | hq <;> rw [hq] <;> rfl
  show (sextI (fld (List.getD _ (v.1 / 2) 0) 16 (16 * (v.1 % 2))) 16 % 2 ^ 32).toNat = v.2
  rw [hword, fld_laneFields (halfLanes_ascend hp _) hmem]
  exact sextI_of_narrow (h v hm)

/-- R20: the Full class, a word a lane. -/
theorem PackOk.full : PackOk vals (0, 0, (List.range 4).map (fun j => ((vals.find? (fun v => v.1 == j)).map (·.2)).getD 0)) := by
  refine ⟨rfl, fun w hw => ?_, fun v hm => ?_⟩
  · obtain ⟨j, -, rfl⟩ := List.mem_map.1 hw
    cases hf : vals.find? (fun v => v.1 == j) with
    | none => exact Nat.two_pow_pos 32
    | some u => exact (hv u (List.mem_of_find?_eq_some hf)).2
  · have hfind : vals.find? (fun u => u.1 == v.1) = some v := by
      obtain ⟨u, hu⟩ := Option.isSome_iff_exists.1 ((List.find?_isSome (p := fun u => u.1 == v.1)).2 ⟨v, hm, beq_self_eq_true v.1⟩)
      have hlane : u.1 = v.1 := eq_of_beq (List.find?_some (p := fun u : Nat × Nat => u.1 == v.1) hu)
      rw [hu, List.inj_on_of_nodup_map (hp.imp Nat.ne_of_lt) (List.mem_of_find?_eq_some hu) hm hlane]
    show List.getD _ v.1 0 = v.2
    rw [List.getD_eq_getElem?_getD, List.getElem?_map, List.getElem?_range (hv v hm).1, Option.map_some, Option.getD_some, hfind]
    rfl

/-- R20: whatever class the spill engine takes gives each lane's value back. -/
theorem packLanes_ok : PackOk vals (packLanes vals) := by
  have hhalf (k : Nat) : (vals.filter (fun v => v.1 / 2 == k)).foldl (fun w v => w + v.2 % 65536 * 2 ^ (16 * (v.1 % 2))) 0 =
      laneFields 16 (halfLanes vals k) := by
    rw [halfLanes, laneFields, List.foldl_map]
    rfl
  unfold packLanes
  dsimp only
  split
  next hall =>
    refine .uniform ?_ fun v h => eq_of_beq (List.all_eq_true.1 hall v h)
    cases vals with
    | nil => exact Nat.two_pow_pos 32
    | cons x xs => exact (hv x List.mem_cons_self).2
  · split
    next b d hab => exact .affine hab
    · split
      next hall => exact .narrow8 hp hv (List.all_eq_true.1 hall)
      · split
        next hall => rw [hhalf, hhalf]; exact .narrow16 hp hv (List.all_eq_true.1 hall)
        · exact .full hp hv

end

section
variable {s : State} {i k : Nat} {b : Block} {t : Thread} (ht : s.thread? i k = some (b, t))
include ht

/-- R22, R32: what a move of a thread meets, with the position as extra word where its condition has one. -/
theorem stopBefore_atPosition (x : Stop) (pos : Nat) : s.stopBefore i k (x.atPosition pos) =
    match x with
    | .trap tr => (s.targetWord b t).2.takeTrapAt i k
        (if tr.cause = .pageFault ∨ tr.cause = .spillCorrupt then { tr with extra := BitVec.ofNat 64 pos } else tr) t.pc (s.targetWord b t).1
    | .wait v => (s.targetWord b t).2.updThread i k (fun u => { u with wait := v, waitWord := (s.targetWord b t).1, waited := 0 }) := by
  cases x <;> simp only [State.stopBefore, ht, Stop.atPosition]

/-- R19: no position is spilled where it would reach below the spill area's depth. -/
theorem spillOne_overflow (h : (b.spillDepth.getD (k / 4) 0).toNat ≤ t.low) :
    s.spillOne i k = .error (.trap { cause := .stackOverflow, extra := BitVec.ofNat 64 t.low }) := by
  simp only [State.spillOne, ht]
  exact if_pos h

end

/-- Settles O49: each move is the thread's own, raised or made at its PC; and the classes give their values back. -/
theorem spillsAndFills : Obligations.SpillsAndFills := by
  refine ⟨fun s b k i blk t hat hrun => ?_, fun vals hp hv => ?_⟩
  · have ht := thread?_of_threadAt hat
    intro w s1 raised
    have hraised (x : Stop) (pos : Nat) : s.stopBefore i k (x.atPosition pos) = raised x pos :=
      (stopBefore_atPosition ht x pos).trans (by cases x <;> rfl)
    have hmove := moveOne_eq ht
    refine ⟨fun hlow htop => ?_, fun hlow => ?_⟩
    · rw [if_neg (by omega), if_pos htop] at hmove
      have hexec : exec (.spill b k) s = .next (s.moveStep i k) := by simp only [exec_spill, execSpill, hat, hrun, hlow, decide_true, Bool.and_self, if_true]
      have hfails (x : Stop) (hx : s.spillOne i k = .error x) : exec (.spill b k) s = .next (raised x t.low) := by
        rw [hexec, State.moveStep, hmove, hx, ← hraised]
        rfl
      refine ⟨fun s' hs => ?_, hfails, fun hd => hfails _ (spillOne_overflow ht hd)⟩
      rw [hexec, State.moveStep, hmove, hs]
      rfl
    · rw [if_pos hlow] at hmove
      have hexec : exec (.fill b k) s = .next (s.moveStep i k) := by simp only [exec_fill, execFill, hat, hrun, hlow, decide_true, Bool.and_self, if_true]
      refine ⟨fun s' hs => ?_, fun x hx => ?_⟩
      · rw [hexec, State.moveStep, hmove, hs]
        rfl
      · rw [hexec, State.moveStep, hmove, hx, ← hraised]
        rfl
  · obtain ⟨hl, hw, hb⟩ := packLanes_ok hp hv
    exact ⟨hl, hw, hb⟩

end Sys2Proof.Machine
end

section
/-! SUPPORT. Buffer records: the address of an access and the checks before it (R27 to R29), and undefined bytes (R10). -/

namespace Sys2Proof.Machine

/-- R29: the swizzles of a record. -/
theorem swizzle_eq (o mode : Nat) : swizzle o mode =
    if mode = 1 then Nat.xor o (o / 2 ^ 7 % 2 ^ 5 * 4) else if mode = 2 then Nat.xor o (o / 2 ^ 7 % 2 ^ 4 * 8)
    else if mode = 3 then Nat.xor o (o / 2 ^ 7 % 2 ^ 3 * 16) else o := by
  unfold swizzle
  split
  · rfl
  · rfl
  · rfl
  next h1 h2 h3 => rw [if_neg h1, if_neg h2, if_neg h3]

/-- R28: the rules of a record's form. -/
theorem bufOk_iff (r : Nat) : bufOk r = true ↔ r / 2 ^ 56 % 2 ^ 4 = 0 ∧ r / 2 ^ 124 % 2 ^ 4 ≤ 3 ∧ r / 2 ^ 112 % 2 ^ 12 ≠ 0 := by
  rw [bufOk, Bool.and_eq_true, Bool.and_eq_true, beq_iff_eq, decide_eq_true_iff, bne_iff_ne, and_assoc]
  rfl

/-- R28: a record that denies a read or a write. -/
theorem denied_iff (r : Nat) (reads writes : Bool) : (reads && !bit r 63 || writes && !bit r 62) = true ↔
    ¬((reads = true → r.testBit 63 = true) ∧ (writes = true → r.testBit 62 = true)) := by
  rw [bit_eq_testBit, bit_eq_testBit]
  cases reads <;> cases writes <;> simp [or_iff_not_imp_left]

/-- R28: a record whose accesses out of bounds trap. -/
theorem boundTraps_iff (r : Nat) (reads writes : Bool) : (writes && bit r 60 || !writes && reads && bit r 61) = true ↔
    (writes = true ∧ r.testBit 60 = true ∨ writes = false ∧ reads = true ∧ r.testBit 61 = true) := by
  rw [bit_eq_testBit, bit_eq_testBit]
  cases reads <;> cases writes <;> simp

/-- R28: the checks of an access, over the address that it names. -/
theorem bufAddr_eq {r k i off w a : Nat} {reads writes : Bool} (ha : bufBase r + swizzle (i * bufStride r + off) (fld r 4 124) = a) :
    bufAddr r k i off w reads writes =
    if bufOk r = false then .error (.ofRecord .badRecord k)
    else if ¬((reads = true → r.testBit 63 = true) ∧ (writes = true → r.testBit 62 = true)) then .error (.ofRecord .permDenied k)
    else if i < bufCount r ∧ off + w ≤ bufEsize r ∧ a + w ≤ 2 ^ 56 then if a % w ≠ 0 then .error (.misalign w a) else .ok (some a)
    else if writes = true ∧ r.testBit 60 = true ∨ writes = false ∧ reads = true ∧ r.testBit 61 = true then
      .error { cause := .bound, extra := BitVec.ofNat 64 i, addr := BitVec.ofNat 64 (a % 2 ^ 64) }
    else .ok none := by
  subst ha
  exact if_congr (by rw [Bool.not_eq_true']) rfl (if_congr (denied_iff r reads writes) rfl
    (if_congr Iff.rfl rfl (if_congr (boundTraps_iff r reads writes) rfl rfl)))

/-- R28: an address in bounds ends below 2^56. -/
theorem bufAddr_some {r k i off w a : Nat} {reads writes : Bool} (h : bufAddr r k i off w reads writes = .ok (some a)) : a + w ≤ 2 ^ 56 := by
  rw [bufAddr_eq rfl] at h
  split at h
  · cases h
  · split at h
    · cases h
    · split at h
      next hin =>
        split at h
        · cases h
        · cases h
          exact hin.2.2
      · split at h <;> cases h

section
variable {s : State} {f : Nat → Bool} {bytes : List Byte}

/-- R10: nothing is drawn where no byte is undefined. -/
theorem freeWhere_none (h : ∀ i < bytes.length, f i = false) : s.freeWhere f bytes = (bytes, s) := by
  refine if_neg ?_
  rw [List.any_eq_true]
  rintro ⟨i, hi, hf⟩
  exact absurd hf (by rw [h i (List.mem_range.1 hi)]; exact Bool.false_ne_true)

/-- R10: one draw gives every undefined byte. -/
theorem freeWhere_some (h : ∃ i < bytes.length, f i = true) : s.freeWhere f bytes = (s.drawn f bytes, s.drew) := by
  obtain ⟨i, hi, hf⟩ := h
  exact if_pos (List.any_eq_true.2 ⟨i, List.mem_range.2 hi, hf⟩)

theorem drawn_length : (s.drawn f bytes).length = bytes.length := by simp [State.drawn]

end

theorem dataBytes_length (t : Thread) (d w : Nat) (hw : w ≤ 4 ∨ w % 4 = 0) : (t.dataBytes d w).length = w := by
  unfold Thread.dataBytes
  split
  · exact toBytes_length _ _
  · simp only [List.length_flatMap, toBytes_length, List.map_const', List.sum_replicate, List.length_range, smul_eq_mul]
    omega

theorem atomBytes_length (t : Thread) (d q old : Nat) (wide : Bool) :
    (atomBytes t d (if wide then 2 else 1) q old).length = 4 * (if wide then 2 else 1) := by
  cases wide <;> exact toBytes_length _ _

theorem dramBytes_length_le (s : State) (owner gpa h slot n : Nat) : (s.dramBytes owner gpa h slot n).1.length ≤ n := List.length_take_le _ _

end Sys2Proof.Machine
end

section
/-! SUPPORT. A store, an FADDX or an RCCLR of a thread that issues alone (R141, R143, R248, R250, R277). -/

namespace Sys2Proof.Machine

/-- The requests of one line fall into one group. -/
theorem lineGroups_one (unit : Nat) (l : StoreReq) : lineGroups unit [l] = [[l]] := by
  simp [lineGroups, List.eraseDups_cons]

/-- R248: what the end of a line's requests is to the one thread k that made them. -/
def State.endLine (k : Nat) (q : Req) (va : Nat) : State × LineOut → State
  | (s, .done) => s.retireLane k
  | (s, .fault f base) => s.takeTrap k (f.laneTrap q base va)
  | (s, .wait w) => s.updThread s.cur.blk k (fun t => t.hold s.cur w)

section
variable {s : State} {b : Block} {t : Thread} (h : Solo s b t) {q : Block → Level → Req} {rmw add : Bool} {unit : Nat} {lane : Block → Thread → StoreLane}
include h

/-- R28: a lane out of bounds, without a trap, stores nothing. -/
theorem storeIssue_skip (hl : lane b t = .skip) : s.storeIssue q rmw add unit lane = .next (s.done t t) := by
  rw [State.done, ← becomes_of h (fun u => u.retire s.cur)]
  simp [State.storeIssue, show s.blocks[s.cur.blk]? = some b from h.block, passing_solo h, h.alone, hl, lineGroups, State.logFull] <;> rfl

/-- R28, R58: a lane that its checks stop. -/
theorem storeIssue_trap {tr : Trap} (hl : lane b t = .trap tr) : s.storeIssue q rmw add unit lane = .next (s.progressed.takeTrap t.tid tr) := by
  simp [State.storeIssue, show s.blocks[s.cur.blk]? = some b from h.block, passing_solo h, h.alone, hl, lineGroups, State.logFull] <;> rfl

/-- R248, R250: a lane that stores: it waits while its core's side log is full and its request fails, and else its request ends it. -/
theorem storeIssue_store {va : Nat} {bytes : List Byte} {term : CellTerms} (hl : lane b t = .store va bytes term) :
    s.storeIssue q rmw add unit lane =
      if s.progressed.logFull b (q b t.level) rmw add [[(t.tid, va, bytes, term)]] = true then
        .next (s.progressed.updThread s.cur.blk t.tid (fun u => u.hold s.cur (.load (lineBase [(t.tid, va, bytes, term)]) 1 true)))
      else .next (State.endLine t.tid (q b t.level) va (s.progressed.storeLine b (q b t.level) rmw add [(t.tid, va, bytes, term)])) := by
  have hwait : s.lanesBy id (fun _ u => .ok (u.hold s.cur (.load (lineBase [(t.tid, va, bytes, term)]) 1 true))) =
      s.progressed.updThread s.cur.blk t.tid (fun u => u.hold s.cur (.load (lineBase [(t.tid, va, bytes, term)]) 1 true)) := by
    rw [becomes_of h]
    exact lanesBy_solo_ok h id _ _ rfl
  simp only [State.storeIssue, show s.blocks[s.cur.blk]? = some b from h.block, passing_solo h, List.map_cons, List.map_nil, hl,
    List.filterMap_cons, List.filterMap_nil, List.head?_cons, Option.map_some, Option.getD_some, lineGroups_one, hwait]
  refine if_congr Iff.rfl rfl (congrArg _ ?_)
  simp only [h.alone, List.foldl_cons, List.foldl_nil, List.find?_cons, beq_self_eq_true, List.nil_append, List.map_cons, List.map_nil]
  rw [show s.updBlock s.cur.blk (fun b => { b with progress := s.clock }) = s.progressed from rfl]
  rcases s.progressed.storeLine b (q b t.level) rmw add [(t.tid, va, bytes, term)] with ⟨s', _ | ⟨f, base⟩ | w⟩ <;> rfl
end

/-- The address of one request. -/
theorem lineBase_one {k va : Nat} {bytes : List Byte} {term : CellTerms} (hva : va ≤ 2 ^ 56) : lineBase [(k, va, bytes, term)] = va :=
  min_eq_right (hva.trans (by norm_num))

/-- R232, R277: the translation that one request needs. -/
theorem lineXl_one (s : State) (q : Req) (rmw add : Bool) {k va : Nat} {bytes : List Byte} {term : CellTerms} (hva : va ≤ 2 ^ 56) :
    s.lineXl q rmw add [(k, va, bytes, term)] = s.translate (if rmw then { q with code := 3 } else q) va (if add then 64 else bytes.length) := by
  have hmax (m : Nat) : max 0 (va + m) - va = m := by omega
  rw [State.lineXl, lineBase_one hva]
  exact congrArg _ (hmax _)

/-- R248: a request whose translation fails no stage. -/
theorem logFull_ok {s : State} {b : Block} {q : Req} {rmw add : Bool} {k va : Nat} {bytes : List Byte} {term : CellTerms} (hva : va ≤ 2 ^ 56) {x : Xlated}
    (hx : s.translate (if rmw then { q with code := 3 } else q) va (if add then 64 else bytes.length) = .ok x) :
    s.logFull b q rmw add [[(k, va, bytes, term)]] = false := by
  simp [State.logFull, State.lineFails, lineXl_one s q rmw add hva, hx]

/-- R250: a request whose translation fails a stage waits for room in the side log. -/
theorem logFull_fails {s : State} {b : Block} {q : Req} {rmw add : Bool} {k va : Nat} {bytes : List Byte} {term : CellTerms} (hva : va ≤ 2 ^ 56)
    {f : MemFault} (hf : (∃ np, f = .page np) ∨ ∃ g np, f = .stage2 g np)
    (hx : s.translate (if rmw then { q with code := 3 } else q) va (if add then 64 else bytes.length) = .error f) :
    s.logFull b q rmw add [[(k, va, bytes, term)]] = decide (64 ≤ (s.logOf b.core).length) := by
  rcases hf with ⟨np, rfl⟩ | ⟨g, np, rfl⟩ <;> simp [State.logFull, State.lineFails, lineXl_one s q rmw add hva, hx]

/-- R248, R277: what one request of thread t does where it translates and nothing keeps it from its line. -/
def State.writeLine (s : State) (b : Block) (t : Thread) (q : Req) (rmw add : Bool) (x : Xlated) (va : Nat) (out : List Byte) (term : CellTerms) :
    Except MemFault State :=
  if add then
    let sum := (s.atAccess t q x va 64).addCell b q x va [(t.tid, va, out, term)] term
    sum.2.rmwCells q x va (cellsAt va sum.1) true
  else if rmw then (s.atAccess t q x va out.length).rmwCells q x va (cellsAt va out) false
  else ((s.atAccess t q x va out.length).writeCells q false x va (cellsAt va out) false).map (·.1)

/-- R143: how a line's write ends; where it fails, nothing of it stands. -/
def State.closeLine (s : State) (va : Nat) : Except MemFault State → State × LineOut
  | .ok s' => (s', .done)
  | .error f => (s, .fault f va)

/-- R248, R249: the side-log entry of a store of one thread that fails a stage. -/
def storeEntry (b : Block) (t : Thread) (q : Req) (va : Nat) (out : List Byte) (stage2 byVa : Bool) (gpa : Nat) : LogEntry :=
  { core := b.core, owner := q.owner, slice := b.owner, blk := b.uid, tids := [t.tid], level := q.level, stage2 := stage2, byVa := byVa
    va := va / 128 * 128, gpa := gpa / 128 * 128, cells := cellsAt va out, addend := none, rmw := false, seq := 0 }

section
variable {s X : State} {b : Block} {t : Thread} {q : Req} {rmw add : Bool} {va : Nat} {data out : List Byte} {term : CellTerms}
  (ht : b.threads[t.tid]? = some t) (hva : va ≤ 2 ^ 56) (hput : s.freeWhere (fun i => s.devUncovered b t q (va + i)) data = (out, X))
include ht hput

/-- R301: the bytes of one request, with those that no wait covers undefined. -/
theorem storedBytes_one : s.storedBytes b q [(t.tid, va, data, term)] = ([(t.tid, va, out, term)], X) := by
  simp only [State.storedBytes, List.foldl_cons, List.foldl_nil, ht, hput, List.nil_append]

include hva

/-- R248: one request that translates: what it waits for, or the write that it makes. -/
theorem storeLine_ok {x : Xlated} (hx : X.translate (if rmw then { q with code := 3 } else q) va (if add then 64 else out.length) = .ok x) :
    s.storeLine b q rmw add [(t.tid, va, data, term)] =
      if X.granuleHeld q.owner va x.gpa then (X, .wait (.load va 1 false))
      else if rmw && x.place.device.isNone then (X, .fault (.stage2 x.gpa) va)
      else if x.place.inHost && X.ownLogged b.uid t.tid then (X, .wait .fence)
      else X.closeLine va (X.writeLine b t q rmw add x va out term) := by
  have hcur : (X.noteXl x).cur = X.cur := (held_iff.1 (State.noteXl_held X x)).2.1
  have hsum : ((0 + term.1, false || term.2.1, false || term.2.2.1, false || term.2.2.2) : CellTerms) = term := by
    simp only [Int.zero_add, Bool.false_or]
  simp only [State.storeLine, storedBytes_one ht hput, lineXl_one X q rmw add hva, hx, lineBase_one hva, hcur, List.foldl_cons, List.foldl_nil, hsum,
    List.flatMap_cons, List.flatMap_nil, List.append_nil, List.any_cons, List.any_nil, Bool.or_false]
  refine if_congr Iff.rfl rfl (if_congr Iff.rfl rfl (if_congr Iff.rfl rfl ?_))
  cases add <;> cases rmw <;> rfl

end

section
variable {s X : State} {b : Block} {t : Thread} {q : Req} {va : Nat} {data out : List Byte} {term : CellTerms}
  (ht : b.threads[t.tid]? = some t) (hva : va ≤ 2 ^ 56) (hput : s.freeWhere (fun i => s.devUncovered b t q (va + i)) data = (out, X))
include ht hva hput

/-- R248: a store that fails the first stage retires into the side log where there is room. -/
theorem storeLine_page {np : Bool} {s' : State} (hx : X.translate q va out.length = .error (.page np))
    (hlog : (X.noteWalks q va).enterLog (storeEntry b t q va out false true 0) np = some s') :
    s.storeLine b q false false [(t.tid, va, data, term)] = (s', .done) := by
  have hxl := (lineXl_one X q false false (k := t.tid) (bytes := out) (term := term) hva).trans hx
  simp only [storeEntry] at hlog
  simp only [State.storeLine, storedBytes_one ht hput, hxl, lineBase_one hva, List.flatMap_cons, List.flatMap_nil, List.append_nil, List.map_cons,
    List.map_nil, Bool.not_false, Bool.true_or, Bool.false_eq_true, if_false, hlog]

/-- R248: a store that fails the second stage retires into the side log where there is room, under its own address where that stage failed for
its tables. -/
theorem storeLine_stage2 {g : Nat} {np byVa : Bool} {s' : State} (hx : X.translate q va out.length = .error (.stage2 g np))
    (hby : byVa = true ↔ ∀ y, X.translate1 q.owner va ≠ .ok y)
    (hlog : (X.noteWalks q va).enterLog (storeEntry b t q va out true byVa g) np = some s') :
    s.storeLine b q false false [(t.tid, va, data, term)] = (s', .done) := by
  have hxl := (lineXl_one X q false false (k := t.tid) (bytes := out) (term := term) hva).trans hx
  simp only [storeEntry] at hlog
  cases htr : X.translate1 q.owner va
  case' ok y => rw [show byVa = false from Bool.eq_false_iff.2 fun hb => hby.1 hb y htr] at hlog
  case' error f => rw [show byVa = true from hby.2 fun y hy => by rw [htr] at hy; cases hy] at hlog
  all_goals
    simp only [State.storeLine, storedBytes_one ht hput, hxl, lineBase_one hva, List.flatMap_cons, List.flatMap_nil, List.append_nil, List.map_cons,
      List.map_nil, Bool.not_true, Bool.false_or, Bool.false_eq_true, if_false, htr, hlog]

end

/-- R301: a request's bytes where no wait leaves one of them uncovered, and where one is left. -/
theorem freeWhere_put {s X : State} {f : Nat → Bool} {data out : List Byte} (h : (∀ i < data.length, f i = false) ∧ X = s ∧ out = data ∨
    (∃ i < data.length, f i = true) ∧ X = s.drew ∧ out = s.drawn f data) :
    s.freeWhere f data = (out, X) ∧ X.cur = s.cur ∧ X.sideLog = s.sideLog ∧ out.length = data.length := by
  rcases h with ⟨hc, rfl, rfl⟩ | ⟨ho, rfl, rfl⟩
  · exact ⟨freeWhere_none hc, rfl, rfl, rfl⟩
  · exact ⟨freeWhere_some ho, rfl, rfl, drawn_length⟩

section
variable {s X : State} {b : Block} {t : Thread} (h : Solo s b t) {q : Block → Level → Req} {rmw add : Bool} {unit : Nat} {lane : Block → Thread → StoreLane}
  {va : Nat} {data out : List Byte} {term : CellTerms} (hl : lane b t = .store va data term) (hva : va ≤ 2 ^ 56)
include h hl hva

/-- R250: a store that fails a stage waits while its core's side log is full. -/
theorem storeIssue_full {f : MemFault} (hf : (∃ np, f = .page np) ∨ ∃ g np, f = .stage2 g np) (hfull : ¬(s.logOf b.core).length < 64)
    (hx : s.progressed.translate (if rmw then { q b t.level with code := 3 } else q b t.level) va (if add then 64 else data.length) = .error f) :
    s.storeIssue q rmw add unit lane = .next (s.progressed.updThread s.cur.blk t.tid (fun u => u.hold s.cur (.load va 1 true))) := by
  have hlog : s.progressed.logFull b (q b t.level) rmw add [[(t.tid, va, data, term)]] = true :=
    (logFull_fails hva hf hx).trans (decide_eq_true (Nat.not_lt.1 hfull))
  rw [storeIssue_store h hl, if_pos hlog, lineBase_one hva]

/-- R248: a store that fails a stage while its core's side log has room. -/
theorem storeIssue_room {f : MemFault} (hf : (∃ np, f = .page np) ∨ ∃ g np, f = .stage2 g np) (hroom : (s.logOf b.core).length < 64)
    (hx : s.progressed.translate (if rmw then { q b t.level with code := 3 } else q b t.level) va (if add then 64 else data.length) = .error f) :
    s.storeIssue q rmw add unit lane =
      .next (State.endLine t.tid (q b t.level) va (s.progressed.storeLine b (q b t.level) rmw add [(t.tid, va, data, term)])) := by
  have hlog : s.progressed.logFull b (q b t.level) rmw add [[(t.tid, va, data, term)]] = false :=
    (logFull_fails hva hf hx).trans (decide_eq_false (Nat.not_le.2 hroom))
  rw [storeIssue_store h hl, if_neg (by rw [hlog]; exact Bool.false_ne_true)]

/-- R248: a store that translates, before and after its bytes are drawn: what it waits for, or the write that it makes. -/
theorem storeIssue_ok (hput : s.progressed.freeWhere (fun i => s.progressed.devUncovered b t (q b t.level) (va + i)) data = (out, X)) {x : Xlated}
    (hx : s.progressed.translate (if rmw then { q b t.level with code := 3 } else q b t.level) va (if add then 64 else data.length) = .ok x)
    (hx' : X.translate (if rmw then { q b t.level with code := 3 } else q b t.level) va (if add then 64 else out.length) = .ok x) :
    s.storeIssue q rmw add unit lane = .next (State.endLine t.tid (q b t.level) va (
      if X.granuleHeld (q b t.level).owner va x.gpa then (X, .wait (.load va 1 false))
      else if rmw && x.place.device.isNone then (X, .fault (.stage2 x.gpa) va)
      else if x.place.inHost && X.ownLogged b.uid t.tid then (X, .wait .fence)
      else X.closeLine va (X.writeLine b t (q b t.level) rmw add x va out term))) := by
  rw [storeIssue_store h hl, if_neg (by rw [logFull_ok hva hx]; exact Bool.false_ne_true), storeLine_ok h.thread hva hput hx']

/-- R277: a read-modify-write of device memory that no entry of the side log keeps waiting. -/
theorem storeIssue_dram (hput : s.progressed.freeWhere (fun i => s.progressed.devUncovered b t (q b t.level) (va + i)) data = (out, X)) {x : Xlated}
    (hx : s.progressed.translate (if rmw then { q b t.level with code := 3 } else q b t.level) va (if add then 64 else data.length) = .ok x)
    (hx' : X.translate (if rmw then { q b t.level with code := 3 } else q b t.level) va (if add then 64 else out.length) = .ok x)
    (hg : X.granuleHeld (q b t.level).owner va x.gpa = false) (hd : x.InDram) {s' : State}
    (hw : X.writeLine b t (q b t.level) rmw add x va out term = .ok s') : s.storeIssue q rmw add unit lane = .next (s'.retireLane t.tid) := by
  obtain ⟨a, slot, g, hp⟩ := hd
  have hdev : x.place.device = some (a, slot) := by rw [hp]; rfl
  have hhost : x.place.inHost = false := by rw [hp]; rfl
  rw [storeIssue_ok h hl hva hput hx hx', hg, hdev, hhost, hw, Option.isNone_some, Bool.and_false, Bool.false_and]
  rfl

end

/-- R82, R277: an FADDX to a cell of device memory of which commands leave every byte defined. -/
theorem addCell_defined {s : State} {b : Block} {t : Thread} (ht : b.threads[t.tid]? = some t) {q : Req} {x : Xlated} {a slot : Nat} {g : Bool}
    (hp : x.place = .dram a slot g) {va : Nat} (hd : ∀ j < 64, s.devPending b t q (va + j) = false) (term sum : CellTerms) :
    s.addCell b q x va [(t.tid, va, [], term)] sum = (toBytes 64 (cellAdd (ofBytes (s.dramBytes q.owner x.gpa a slot 64).1) sum),
      (s.noteSector q.owner x.gpa a).noteSector q.owner (x.gpa + 32) (a + 32)) := by
  have hdev : x.place.device.getD (0, 0) = (a, slot) := by rw [hp]; rfl
  have hu : ∀ j < 64, s.devUncovered b t q (va + j) = false := fun j hj => (Bool.or_eq_false_iff.1 (hd j hj)).2
  simp only [State.addCell, hdev, List.any_cons, List.any_nil, Bool.or_false, ht, Option.any_some]
  rw [freeWhere_none fun i hi => hd i (hi.trans_le (dramBytes_length_le _ _ _ _ _ _))]
  exact freeWhere_none fun i hi => hu i (hi.trans_eq (toBytes_length _ _))

end Sys2Proof.Machine
end

section
/-! SUPPORT. Accesses through a buffer record of a thread that issues alone (R27 to R29, R141, R143, R275, R277). -/

namespace Sys2Proof.Machine

/-- R27: a record is the thread's own, whatever progress its block has made. -/
theorem recOf_progressAt (b : Block) (c : Nat) (t : Thread) (k : Nat) : (b.progressAt c).recOf t k = b.recOf t k := rfl

theorem loadReq_progressAt (b : Block) (c : Nat) (l : Level) : (b.progressAt c).loadReq l = b.loadReq l := rfl

theorem rmwReq_progressAt (b : Block) (c : Nat) (l : Level) : (b.progressAt c).rmwReq l = b.rmwReq l := rfl

/-- R27, R29: the address that a record names, from its fields. -/
theorem recordAddr_eq (r i off : Nat) {o a : Nat} (ho : i * (r / 2 ^ 96 % 2 ^ 16) + off = o)
    (ha : r % 2 ^ 56 + (let mode := r / 2 ^ 124 % 2 ^ 4
      if mode = 1 then Nat.xor o (o / 2 ^ 7 % 2 ^ 5 * 4) else if mode = 2 then Nat.xor o (o / 2 ^ 7 % 2 ^ 4 * 8)
      else if mode = 3 then Nat.xor o (o / 2 ^ 7 % 2 ^ 3 * 16) else o) = a) :
    bufBase r + swizzle (i * bufStride r + off) (fld r 4 124) = a := by
  have hbase : bufBase r = r % 2 ^ 56 := fld_low _ _
  have hstride : bufStride r = r / 2 ^ 96 % 2 ^ 16 := rfl
  have hmode : fld r 4 124 = r / 2 ^ 124 % 2 ^ 4 := rfl
  rw [hbase, hstride, hmode, ho, swizzle_eq]
  exact ha

section
variable {s : State} {b : Block} {t : Thread} (h : Solo s b t) {d a : Reg} {k : BitVec 5}
include h

section
variable {w : BitVec 2} {o : BitVec 6} (hf : FieldsOk b t (dataRegs d.toNat (2 ^ w.toNat) ++ [a.toNat]) (upto (4 * k.toNat) 1 4) [a.toNat])
include hf

/-- R28: a load out of bounds, without a trap, reads 0. -/
theorem ld_outside (hb : bufAddr (b.recOf t k.toNat) k.toNat (t.get a.toNat).toNat (o.toNat * 2 ^ w.toNat) (2 ^ w.toNat) true false = .ok none) :
    exec (.ld d a k w o) s = .next ((s.progressed.deliver t d.toNat (List.replicate (2 ^ w.toNat) 0) false).retireLane t.tid) :=
  (exec_ld d a k w o s).trans (congrArg _ (exec_fold h _ (.done _) ((lc _ _ _ _ hf _).trans (by simp only [recOf_progressAt, hb]))))

/-- R28: a load that breaks a rule of its record. -/
theorem ld_trap {tr : Trap}
    (hb : bufAddr (b.recOf t k.toNat) k.toNat (t.get a.toNat).toNat (o.toNat * 2 ^ w.toNat) (2 ^ w.toNat) true false = .error tr) :
    exec (.ld d a k w o) s = .next (s.progressed.takeTrap t.tid tr) :=
  (exec_ld d a k w o s).trans (congrArg _ (exec_fold h _ (.trap _ tr) ((lc _ _ _ _ hf _).trans (by simp only [recOf_progressAt, hb]))))

/-- R141: a load in bounds brings what it reads. -/
theorem ld_read {va : Nat} {bytes : List Byte} {s' : State}
    (hb : bufAddr (b.recOf t k.toNat) k.toNat (t.get a.toNat).toNat (o.toNat * 2 ^ w.toNat) (2 ^ w.toNat) true false = .ok (some va))
    (hr : s.progressed.devLoad (b.progressAt s.clock) t (b.loadReq t.level) false none va (2 ^ w.toNat) = .ok bytes s') :
    exec (.ld d a k w o) s = .next ((s'.deliver t d.toNat bytes false).retireLane t.tid) :=
  (exec_ld d a k w o s).trans (congrArg _ (exec_fold h _ (.done _) ((lc _ _ _ _ hf _).trans (by simp only [recOf_progressAt, loadReq_progressAt, hb, hr]))))

end

/-- R277: RCRD of a cell in bounds brings its rounded value. -/
theorem rcrd_read (hf : FieldsOk b t [d.toNat, a.toNat] (upto (4 * k.toNat) 1 4) [a.toNat]) {va : Nat} {bytes : List Byte} {s' : State}
    (hb : bufAddr (b.recOf t k.toNat) k.toNat (t.get a.toNat).toNat 0 64 true false = .ok (some va))
    (hr : s.progressed.devLoad (b.progressAt s.clock) t (b.loadReq t.level) true none va 64 = .ok bytes s') :
    exec (.rcrd d a k) s = .next ((s'.deliver t d.toNat (toBytes 4 (cellRead (ofBytes bytes))) false).retireLane t.tid) :=
  (exec_rcrd d a k s).trans (congrArg _ (exec_fold h _ (.done _) ((lc _ _ _ _ hf _).trans (by simp only [recOf_progressAt, loadReq_progressAt, hb, hr]))))

/-- R275: a record atomic of w words brings the old value that it reads, and writes the new one. -/
theorem atom_solo {w q : Nat} (hf : FieldsOk b t (atomRegs d.toNat w q ++ [a.toNat]) (upto (4 * k.toNat) 1 4) (atomRegs d.toNat w q ++ [a.toNat]))
    {va : Nat} (hb : bufAddr (b.recOf t k.toNat) k.toNat (t.get a.toNat).toNat 0 (4 * w) true true = .ok (some va))
    {bytes out : List Byte} {s' X s'' : State} {x : Xlated}
    (hr : s.progressed.devLoad (b.progressAt s.clock) t (b.rmwReq t.level) true none va (4 * w) = .ok bytes s')
    (hx : s'.translate (b.rmwReq t.level) va = .ok x)
    (hput : (s'.spoilDevice s'.cur.blk (b.rmwReq t.level) va (4 * w)).freeWhere
      (fun i => s.progressed.devUncovered (b.progressAt s.clock) t (b.rmwReq t.level) (va + i)) (atomBytes t d.toNat w q (ofBytes bytes)) = (out, X))
    (hw : X.rmwCells (b.rmwReq t.level) x va (cellsAt va out) true = .ok s'') :
    s.recordAtom d a k w q = .next ((s''.deliver t d.toNat bytes false).retireLane t.tid) := by
  refine congrArg _ (exec_fold h _ (.done (s''.deliver t d.toNat bytes false)) ((lc _ _ _ _ hf _).trans ?_))
  simp only [recOf_progressAt, rmwReq_progressAt, hb, hr, hx, hput, hw]

end

/-- R58: the lane of a store whose fields and values pass. -/
theorem storeLane_ok {b : Block} {t : Thread} {vs ss srcs : List Nat} (hf : FieldsOk b t vs ss srcs) {addr : Except Trap (Option Nat)} {bytes : List Byte}
    {term : CellTerms} :
    (∀ tr, addr = .error tr → storeLane b t vs ss srcs addr bytes term = .trap tr) ∧
    (addr = .ok none → storeLane b t vs ss srcs addr bytes term = .skip) ∧
    (∀ va, addr = .ok (some va) → storeLane b t vs ss srcs addr bytes term = .store va bytes term) := by
  refine ⟨fun tr ha => ?_, fun ha => ?_, fun va ha => ?_⟩ <;> simp only [storeLane, hf.1, hf.2, ha]

/-- R143: a failure at a lane's own address. -/
theorem laneTrap_self (f : MemFault) (q : Req) (va : Nat) : f.laneTrap q va va = f.trap q va := by
  cases f <;> simp only [MemFault.laneTrap, Nat.sub_self, Nat.add_zero]

theorem dataSize_ok (w : BitVec 2) : 2 ^ w.toNat ≤ 4 ∨ 2 ^ w.toNat % 4 = 0 := by
  have hw := w.isLt
  interval_cases w.toNat <;> decide

section
variable {s X : State} {b : Block} {t : Thread} (h : Solo s b t) {d a : Reg} {k : BitVec 5} {w : BitVec 2} {o : BitVec 6} {n va : Nat} (hn : n = 2 ^ w.toNat)
  (hf : FieldsOk b t (dataRegs d.toNat n ++ [a.toNat]) (upto (4 * k.toNat) 1 4) (dataRegs d.toNat n ++ [a.toNat]))
include h hn hf

/-- R28: a store out of bounds, without a trap, does nothing. -/
theorem st_outside (hb : bufAddr (b.recOf t k.toNat) k.toNat (t.get a.toNat).toNat (o.toNat * n) n false true = .ok none) :
    exec (.st d a k w o) s = .next (s.done t t) := by
  subst hn
  exact (exec_st d a k w o s).trans (storeIssue_skip h ((storeLane_ok hf).2.1 hb))

/-- R28: a store that breaks a rule of its record. -/
theorem st_trap {tr : Trap} (hb : bufAddr (b.recOf t k.toNat) k.toNat (t.get a.toNat).toNat (o.toNat * n) n false true = .error tr) :
    exec (.st d a k w o) s = .next (s.progressed.takeTrap t.tid tr) := by
  subst hn
  exact (exec_st d a k w o s).trans (storeIssue_trap h ((storeLane_ok hf).1 tr hb))

variable (hb : bufAddr (b.recOf t k.toNat) k.toNat (t.get a.toNat).toNat (o.toNat * n) n false true = .ok (some va)) {out : List Byte}
include hb

/-- R250: a store that fails a stage waits while its core's side log is full. -/
theorem st_full {f : MemFault} (hm : (∃ np, f = .page np) ∨ ∃ g np, f = .stage2 g np) (hfull : ¬(s.logOf b.core).length < 64)
    (hx : s.progressed.translate (b.storeReq t.level) va n = .error f) :
    exec (.st d a k w o) s = .next (s.progressed.updThread s.cur.blk t.tid (fun u => u.hold s.cur (.load va 1 true))) := by
  subst hn
  have hva := (Nat.le_add_right va _).trans (bufAddr_some hb)
  have hdata := dataBytes_length t d.toNat _ (dataSize_ok w)
  exact (exec_st d a k w o s).trans (storeIssue_full h ((storeLane_ok hf).2.2 va hb) hva hm hfull (rmw := false) (add := false) (by rw [hdata]; exact hx))

/-- R248: a store that fails a stage while its core's side log has room. -/
theorem st_room {f : MemFault} (hm : (∃ np, f = .page np) ∨ ∃ g np, f = .stage2 g np) (hroom : (s.logOf b.core).length < 64)
    (hx : s.progressed.translate (b.storeReq t.level) va n = .error f) : exec (.st d a k w o) s = .next (State.endLine t.tid (b.storeReq t.level) va
      (s.progressed.storeLine b (b.storeReq t.level) false false [(t.tid, va, t.dataBytes d.toNat n, (0, false, false, false))])) := by
  subst hn
  have hva := (Nat.le_add_right va _).trans (bufAddr_some hb)
  have hdata := dataBytes_length t d.toNat _ (dataSize_ok w)
  exact (exec_st d a k w o s).trans (storeIssue_room h ((storeLane_ok hf).2.2 va hb) hva hm hroom (rmw := false) (add := false) (by rw [hdata]; exact hx))

/-- R143, R248, R264: a store that translates. -/
theorem st_ok (hput : s.progressed.freeWhere (fun i => s.progressed.devUncovered b t (b.storeReq t.level) (va + i)) (t.dataBytes d.toNat n) = (out, X))
    (hout : out.length = n) {x : Xlated} (hx : s.progressed.translate (b.storeReq t.level) va n = .ok x) (hx' : X.translate (b.storeReq t.level) va n = .ok x) :
    exec (.st d a k w o) s = .next (State.endLine t.tid (b.storeReq t.level) va (
      if X.granuleHeld (b.storeReq t.level).owner va x.gpa then (X, .wait (.load va 1 false))
      else if x.place.inHost && X.ownLogged b.uid t.tid then (X, .wait .fence)
      else X.closeLine va (((X.atAccess t (b.storeReq t.level) x va n).writeCells (b.storeReq t.level) false x va (cellsAt va out) false).map (·.1)))) := by
  subst hn
  have hva := (Nat.le_add_right va _).trans (bufAddr_some hb)
  have hdata := dataBytes_length t d.toNat _ (dataSize_ok w)
  have hend := (exec_st d a k w o s).trans (storeIssue_ok h ((storeLane_ok hf).2.2 va hb) hva hput (rmw := false) (add := false)
    (by rw [hdata]; exact hx) (by rw [hout]; exact hx'))
  rw [← hout]
  exact hend

end

/-- Settles O37: a record's rules follow the order of its checks; loads and atomics are one lane's work, and stores one request of a line. -/
theorem bufferRecords : Obligations.BufferRecords := by
  refine ⟨fun r k i off w reads writes _ => ?_, fun s s' s'' b t d a k x va bytes h => ?_⟩
  · intro base count stride esize mode o a' good allowed inside
    have hgood : bufOk r = true ↔ good := bufOk_iff r
    have heq := bufAddr_eq (k := k) (w := w) (reads := reads) (writes := writes) (recordAddr_eq r i off (o := o) (a := a') rfl rfl)
    refine ⟨fun hg => ?_, fun hg ha => ?_, fun hg ha hi hm => ?_, fun hg ha hi hm => ?_, fun hg ha hi ht => ?_, fun hg ha hi ht => ?_⟩
    · exact heq.trans (if_pos (Bool.eq_false_iff.2 (mt hgood.1 hg)))
    all_goals refine heq.trans ((if_neg (Bool.not_eq_false _ ▸ hgood.2 hg)).trans ?_)
    · exact if_pos ha
    all_goals refine (if_neg (not_not.2 ha)).trans ?_
    · exact (if_pos hi).trans (if_pos hm)
    · exact (if_pos hi).trans (if_neg (not_not.2 hm))
    · exact (if_neg hi).trans (if_pos ht)
    · exact (if_neg hi).trans (if_neg ht)
  · intro r i ss S load rmw store read gets waits room put
    refine ⟨fun w o => ?_, fun hf hb hr => rcrd_read h hf hb hr, fun hf hb hx hg => ?_, fun hf hb X out hp hx hx' hg hd hw => ?_, fun wide q => ?_⟩
    · intro n
      refine ⟨fun hf => ⟨fun hb => ld_outside h hf hb, fun hb hr => ld_read h hf hb hr, fun tr hb => ld_trap h hf hb⟩, fun hf => ?_⟩
      intro st logged
      refine ⟨fun hb => st_outside h rfl hf hb, fun tr hb => st_trap h rfl hf hb, fun X out hb hp => ?_⟩
      obtain ⟨hput, hcur, hside, hlen⟩ := freeWhere_put hp
      have hout : out.length = n := hlen.trans (dataBytes_length t _ _ (dataSize_ok w))
      have hown : X.ownLogged b.uid t.tid = s.ownLogged b.uid t.tid := by rw [State.ownLogged, hside]; rfl
      have hwait (v : Wait) : Host.Outcome.next (State.endLine t.tid store va (X, .wait v)) = waits X v := by
        rw [State.endLine, show X.cur = s.cur from hcur]
      have hva : va ≤ 2 ^ 56 := (Nat.le_add_right va n).trans (bufAddr_some hb)
      refine ⟨fun hx hx' => ?_, fun np hx hx' => ?_, fun g np hx hx' => ?_⟩
      · have hst := st_ok h rfl hf hb hput hout hx hx'
        refine ⟨fun hg => by rw [← hwait]; exact hst.trans (by rw [if_pos hg]), fun hg => ?_⟩
        rw [if_neg (by rw [hg]; exact Bool.false_ne_true)] at hst
        refine ⟨fun hh hl => ?_, fun hh => ?_⟩
        · rw [← hwait]
          exact hst.trans (by rw [if_pos (by rw [hh, hown, hl]; rfl)])
        · have hgo : ¬(x.place.inHost && X.ownLogged b.uid t.tid) = true := by
            rw [Bool.and_eq_true, hown]
            exact fun ⟨h1, h2⟩ => absurd ((hh h1).symm.trans h2) Bool.false_ne_true
          rw [if_neg hgo] at hst
          refine ⟨fun skipped hw => hst.trans ?_, fun f hw => hst.trans ?_⟩
          · rw [show State.writeCells _ _ _ _ _ _ _ = _ from hw]
            rfl
          · rw [show State.writeCells _ _ _ _ _ _ _ = _ from hw, ← laneTrap_self]
            rfl
      · refine ⟨fun hr hl => ?_, fun hr => st_full h rfl hf hb (.inl ⟨np, rfl⟩) hr hx⟩
        refine (st_room h rfl hf hb (.inl ⟨np, rfl⟩) hr hx).trans ?_
        rw [storeLine_page h.thread hva hput (by rw [hout]; exact hx') hl]
        rfl
      · refine ⟨fun byVa hby hr hl => ?_, fun hr => st_full h rfl hf hb (.inr ⟨g, np, rfl⟩) hr hx⟩
        refine (st_room h rfl hf hb (.inr ⟨g, np, rfl⟩) hr hx).trans ?_
        rw [storeLine_stage2 h.thread hva hput (by rw [hout]; exact hx') hby hl]
        rfl
    · intro ha slot g hp s1 sum
      have hva : va ≤ 2 ^ 56 := (Nat.le_add_right va 64).trans (bufAddr_some hb)
      refine ⟨fun hd => addCell_defined h.thread hp hd _ _, fun hw => ?_⟩
      exact (exec_faddx d a k s).trans (storeIssue_dram h ((storeLane_ok hf).2.2 va hb) hva
        (freeWhere_none (bytes := []) fun i hi => absurd hi (Nat.not_lt_zero i)) (rmw := true) (add := true) hx hx hg ⟨ha, slot, g, hp⟩ hw)
    · have hva : va ≤ 2 ^ 56 := (Nat.le_add_right va 64).trans (bufAddr_some hb)
      obtain ⟨hput, -, -, hlen⟩ := freeWhere_put hp
      have hout : out.length = 64 := hlen.trans List.length_replicate
      exact (exec_rcclr a k s).trans (storeIssue_dram h ((storeLane_ok hf).2.2 va hb) hva hput (rmw := true) (add := false)
        (by rw [List.length_replicate]; exact hx) (by rw [hout]; exact hx') hg hd (by rw [State.writeLine, hout]; exact hw))
    · intro w hf hb hr hx z new open'
      have hlen : new.length = 4 * w := atomBytes_length t _ _ _ wide
      have hexec : exec (if wide then Instr.atom64 d a k q else .atomRec d a k q) s = s.recordAtom d a k w q.toNat := by
        cases wide
        · exact exec_atomRec d a k q s
        · exact exec_atom64 d a k q s
      rw [hexec]
      exact ⟨fun hc hw => atom_solo h hf hb hr hx (freeWhere_none (by rw [← hlen] at hc; exact hc)) hw,
        fun ho hw => atom_solo h hf hb hr hx (freeWhere_some (by rw [← hlen] at ho; exact ho)) hw⟩

end Sys2Proof.Machine
end

section
/-! SUPPORT. Instruction words as parts set side by side (R36 to R50): what a field of such a word reads. -/

namespace Sys2Proof

/-- R5: a field is its high bits above its low ones. -/
theorem fld_split (n lo a b : Nat) : fld n (a + b) lo = fld n b (lo + a) * 2 ^ a + fld n a lo := by
  rw [fld, fld, fld, pow_add 2 a, Nat.mod_mul, Nat.div_div_eq_div_mul, ← pow_add, Nat.mul_comm, Nat.add_comm]

/-- R5: adding a number of `v` bits at bit `m`, where `n` is clear, changes nothing above. -/
theorem add_mul_div_above {n x m v lo : Nat} (hx : x < 2 ^ v) (h : fld n v m = 0) (hlo : m + v ≤ lo) : (n + x * 2 ^ m) / 2 ^ lo = n / 2 ^ lo := by
  obtain ⟨c, rfl⟩ := Nat.exists_eq_add_of_le hlo
  have hlow : (n / 2 ^ m + x) / 2 ^ v = n / 2 ^ m / 2 ^ v := by
    have e := Nat.div_add_mod (n / 2 ^ m) (2 ^ v)
    rw [show n / 2 ^ m % 2 ^ v = 0 from h, Nat.add_zero] at e
    rw [← e, Nat.mul_add_div (by positivity), Nat.div_eq_of_lt hx, Nat.mul_div_cancel_left _ (by positivity), Nat.add_zero]
  simp only [pow_add, ← Nat.div_div_eq_div_mul]
  rw [Nat.add_mul_div_right _ _ (by positivity), hlow]

/-- R5: the field at the place of such a number. -/
theorem fld_add_same {n x m v : Nat} (hx : x < 2 ^ v) (h : fld n v m = 0) : fld (n + x * 2 ^ m) v m = x := by
  rw [fld, Nat.add_mul_div_right _ _ (by positivity), Nat.add_mod, show n / 2 ^ m % 2 ^ v = 0 from h, Nat.zero_add, Nat.mod_mod, Nat.mod_eq_of_lt hx]

/-- The `w` bits from `lo` up are none of those of a place, its lowest bit and its width. -/
def apart (lo w : Nat) (p : Nat × Nat) : Bool := decide (lo + w ≤ p.1) || decide (p.1 + p.2 ≤ lo)

/-- R5: a field apart from the place of such a number. -/
theorem fld_add_apart {n x m v lo w : Nat} (hx : x < 2 ^ v) (h : fld n v m = 0) (ha : apart lo w (m, v) = true) :
    fld (n + x * 2 ^ m) w lo = fld n w lo := by
  simp only [apart, Bool.or_eq_true, decide_eq_true_eq] at ha
  rcases ha with ha | ha
  · obtain ⟨c, rfl⟩ := Nat.exists_eq_add_of_le ha
    rw [fld, show n + x * 2 ^ (lo + w + c) = n + 2 ^ lo * (2 ^ w * (x * 2 ^ c)) by rw [pow_add, pow_add]; ring,
      Nat.add_mul_div_left _ _ (by positivity), Nat.add_mul_mod_self_left]
    rfl
  · rw [fld, add_mul_div_above hx h ha]
    rfl

/-- The number leaves the places clear, no two of them meet, and all is within 32 bits. -/
def clear (k : Nat) : List (Nat × Nat) → Bool
  | [] => decide (k < 2 ^ 32)
  | p :: l => decide (p.1 + p.2 ≤ 32) && decide (fld k p.2 p.1 = 0) && l.all (apart p.1 p.2) && clear k l

/-- A number put in its place leaves the other places clear. -/
theorem clear_add {k x m v : Nat} {l : List (Nat × Nat)} (hx : x < 2 ^ v) (hm : m + v ≤ 32) (h : fld k v m = 0)
    (ha : l.all (apart m v) = true) (hl : clear k l = true) : clear (k + x * 2 ^ m) l = true := by
  induction l with
  | nil =>
    simp only [clear, decide_eq_true_eq] at *
    rw [← Nat.div_eq_zero_iff_lt (by positivity), add_mul_div_above hx h hm]
    exact Nat.div_eq_of_lt hl
  | cons p l ih =>
    simp only [clear, List.all_cons, Bool.and_eq_true, decide_eq_true_eq] at *
    obtain ⟨⟨⟨hp, hkp⟩, hlp⟩, hl⟩ := hl
    have hc : apart p.1 p.2 (m, v) = true := by simpa only [apart, Bool.or_eq_true, decide_eq_true_eq] using (Or.comm.1 (by simpa [apart] using ha.1))
    exact ⟨⟨⟨hp, (fld_add_apart hx h hc).trans hkp⟩, hlp⟩, ih ha.2 hl⟩

/-- A number of 32 bits that reads as the base `k` in every field that meets none of the places. -/
def Filled (k : Nat) (l : List (Nat × Nat)) (n : Nat) : Prop :=
  n < 2 ^ 32 ∧ ∀ lo w, l.all (apart lo w) = true → fld n w lo = fld k w lo

/-- R5: what fills the other places of a base with one number in it fills all places of the base, and holds the number. -/
theorem Filled.cons {k x m v n : Nat} {l : List (Nat × Nat)} {R : Prop} (hx : x < 2 ^ v) (h : clear k ((m, v) :: l) = true)
    (hn : clear (k + x * 2 ^ m) l = true → R ∧ Filled (k + x * 2 ^ m) l n) : fld n v m = x ∧ R ∧ Filled k ((m, v) :: l) n := by
  simp only [clear, Bool.and_eq_true, decide_eq_true_eq] at h
  obtain ⟨⟨⟨hm, hk⟩, ha⟩, hl⟩ := h
  obtain ⟨hR, hlt, hfld⟩ := hn (clear_add hx hm hk ha hl)
  refine ⟨(hfld m v ha).trans (fld_add_same hx hk), hR, hlt, fun lo w hw => ?_⟩
  rw [List.all_cons, Bool.and_eq_true] at hw
  exact (hfld lo w hw.2).trans (fld_add_apart hx hk hw.1)

/-- The operands of an instruction word, each at its place: a field or a flag at a bit of its own, or the lowest bits. -/
inductive Parts : List (Nat × Nat) → Type where
  | nil : Parts []
  | bits (lo : Nat) {v : Nat} {l : List (Nat × Nat)} (x : BitVec v) (rest : Parts l) : Parts ((lo, v) :: l)
  | flag (lo : Nat) {l : List (Nat × Nat)} (x : Bool) (rest : Parts l) : Parts ((lo, 1) :: l)
  | low {v : Nat} {l : List (Nat × Nat)} (x : BitVec v) (rest : Parts l) : Parts ((0, v) :: l)

/-- The word of a base and operands, summed as `encodeNat` sums it. -/
def Parts.word (k : Nat) {l : List (Nat × Nat)} : Parts l → Nat
  | .nil => k
  | .bits lo x rest => rest.word (k + x.toNat * 2 ^ lo)
  | .flag lo x rest => rest.word (k + x.toNat * 2 ^ lo)
  | .low x rest => rest.word (k + x.toNat)

/-- Each operand reads from the word as the decoders read it. -/
def Parts.Read (w : Nat) {l : List (Nat × Nat)} : Parts l → Prop
  | .nil => True
  | .bits (v := v) lo x rest => BitVec.ofNat v (fld w v lo) = x ∧ rest.Read w
  | .flag lo x rest => bit w lo = x ∧ rest.Read w
  | .low (v := v) x rest => BitVec.ofNat v (fld w v 0) = x ∧ rest.Read w

/-- A field with a value's number reads as the value. -/
theorem ofNat_of_eq_toNat {v m : Nat} {x : BitVec v} (h : m = x.toNat) : BitVec.ofNat v m = x := by simp [h]

/-- R36: from a word of operands each operand reads as itself, and every field that meets none of them as in the base. -/
theorem Parts.fields {k n : Nat} {l : List (Nat × Nat)} (p : Parts l) (hn : some (p.word k) = some n) (h : clear k l = true) :
    p.Read n ∧ Filled k l n := by
  obtain rfl := Option.some.inj hn
  clear hn
  induction p generalizing k with
  | nil => exact ⟨trivial, of_decide_eq_true h, fun _ _ _ => rfl⟩
  | bits lo x rest ih =>
    obtain ⟨hx, hr, hf⟩ := Filled.cons x.isLt h ih
    exact ⟨⟨ofNat_of_eq_toNat hx, hr⟩, hf⟩
  | flag lo x rest ih =>
    obtain ⟨hx, hr, hf⟩ := Filled.cons x.toNat_lt h ih
    exact ⟨⟨Machine.bit_of_eq hx, hr⟩, hf⟩
  | low x rest ih =>
    obtain ⟨hx, hr, hf⟩ := Filled.cons (m := 0) x.isLt h (by simpa using ih (k := _ + x.toNat))
    exact ⟨⟨ofNat_of_eq_toNat hx, hr⟩, hf⟩


/-- R5: a field of `w` bits is below 2^w. -/
theorem fld_lt (n w lo : Nat) : fld n w lo < 2 ^ w := Nat.mod_lt _ (by positivity)

/-- R36 to R42, R49: a word of the classes 0x0 to 0x7, which `Instr` lists before BRA, decodes to its instruction. -/
theorem decodeRaw_encodeNat_of_lt_bra {i : Instr} {n : Nat} (hn : encodeNat i = some n) (h : i.ctorIdx < (Instr.bra 0).ctorIdx) :
    n < 2 ^ 32 ∧ decodeRaw n = .ok i := by
  cases i
  -- class 0x0
  case iadd | isub | imul | imulhi | imulhiu | imad | idiv | idivu | irem | iremu | imin | imax | iminu | imaxu | iadds | isubs | iaddus |
      isubus | iadd64 | isub64 | imulw | imulwu | iaddsh1 | iaddsh2 | iaddsh3 | iaddsh4 =>
    rename_i d a b sb
    obtain ⟨⟨rfl, rfl, rfl, rfl, -⟩, hlt, hk⟩ := Parts.fields (.bits 21 d <| .bits 14 a <| .bits 7 b <| .flag 6 sb .nil) hn rfl
    exact ⟨hlt, by rw [decodeRaw, hk 28 4 rfl, decode0, hk 0 6 rfl]; rfl⟩
  case iabs | mov | movri | sext8 | sext16 =>
    rename_i d a
    obtain ⟨⟨rfl, rfl, -⟩, hlt, hk⟩ := Parts.fields (.bits 21 d <| .bits 14 a .nil) hn rfl
    exact ⟨hlt, by rw [decodeRaw, hk 28 4 rfl, decode0, hk 0 6 rfl, hk 6 8 rfl]; rfl⟩
  case icmp | icmp64 =>
    rename_i c p a b sb
    obtain ⟨⟨rfl, rfl, rfl, rfl, rfl, -⟩, hlt, hk⟩ := Parts.fields (.bits 25 c <| .bits 21 p <| .bits 14 a <| .bits 7 b <| .flag 6 sb .nil) hn rfl
    exact ⟨hlt, by rw [decodeRaw, hk 28 4 rfl, decode0, hk 0 6 rfl, hk 24 1 rfl]; rfl⟩
  case sel d a b sb q =>
    obtain ⟨⟨rfl, rfl, rfl, rfl, rfl, -⟩, hlt, hk⟩ := Parts.fields (.bits 21 d <| .bits 14 a <| .bits 7 b <| .flag 6 sb <| .low q .nil) hn rfl
    refine ⟨hlt, ?_⟩
    rw [decodeRaw, hk 28 4 rfl, decode0, fld_split n 0 3 3, hk 3 3 rfl]
    have hr := fld_lt n 3 0
    generalize fld n 3 0 = r at hr ⊢
    interval_cases r <;> rfl
  case movwi a b sb =>
    obtain ⟨⟨rfl, rfl, rfl, -⟩, hlt, hk⟩ := Parts.fields (.bits 14 a <| .bits 7 b <| .flag 6 sb .nil) hn rfl
    exact ⟨hlt, by rw [decodeRaw, hk 28 4 rfl, decode0, hk 0 6 rfl, hk 21 7 rfl]; rfl⟩
  -- class 0x1
  case iaddi | imuli | andi | ori | xori =>
    rename_i d a i
    obtain ⟨⟨rfl, rfl, rfl, -⟩, hlt, hk⟩ := Parts.fields (.bits 21 d <| .bits 14 a <| .low i .nil) hn rfl
    exact ⟨hlt, by rw [decodeRaw, hk 28 4 rfl, decode1, hk 11 3 rfl]; rfl⟩
  case icmpi c p a i =>
    obtain ⟨⟨rfl, rfl, rfl, rfl, -⟩, hlt, hk⟩ := Parts.fields (.bits 25 c <| .bits 21 p <| .bits 14 a <| .low i .nil) hn rfl
    exact ⟨hlt, by rw [decodeRaw, hk 28 4 rfl, decode1, hk 11 3 rfl, hk 24 1 rfl]; rfl⟩
  case shli | shri | sari | roli | rori =>
    rename_i d a i
    obtain ⟨⟨rfl, rfl, rfl, -⟩, hlt, hk⟩ := Parts.fields (.bits 21 d <| .bits 14 a <| .low i .nil) hn rfl
    exact ⟨hlt, by rw [decodeRaw, hk 28 4 rfl, decode1, hk 11 3 rfl, decodeShift, hk 8 3 rfl, hk 5 3 rfl]; rfl⟩
  case movi d imm =>
    have e : 0x10003800 + d.toNat * 2097152 + imm.toNat / 2048 * 16384 + imm.toNat % 2048 = n := Option.some.inj hn
    have hi : imm.toNat / 2048 < 128 := Nat.div_lt_of_lt_mul imm.isLt
    have hm := Nat.div_add_mod imm.toNat 2048
    have hl := Nat.mod_lt imm.toNat (show 2048 > 0 by decide)
    generalize imm.toNat / 2048 = q at e hi hm
    generalize imm.toNat % 2048 = r at e hm hl
    have hc : fld n 4 28 = 1 := by clear hm; rw [fld]; omega
    have ho : fld n 3 11 = 7 := by clear hm; rw [fld]; omega
    have hhigh : fld n 7 14 = q := by clear hm; rw [fld]; omega
    have hlow : fld n 11 0 = r := by clear hm; rw [fld]; omega
    have hdst : BitVec.ofNat 7 (fld n 7 21) = d := ofNat_of_eq_toNat (by clear hm; rw [fld]; omega)
    have himm : BitVec.ofNat 18 (fld n 7 14 * 2048 + fld n 11 0) = imm := ofNat_of_eq_toNat (by omega)
    exact ⟨by omega, by rw [decodeRaw, hc, decode1, ho, hdst, himm]; rfl⟩
  -- class 0x2
  case and | or | xor | andn | orn | xnor | shl | shr | sar | rol | ror | shl64 | shr64 | sar64 | bfx | bfxs | bfi | pdep | pext | pdep64 |
      pext64 | bperm | bmm8 | bmm8t =>
    rename_i d a b sb
    obtain ⟨⟨rfl, rfl, rfl, rfl, -⟩, hlt, hk⟩ := Parts.fields (.bits 21 d <| .bits 14 a <| .bits 7 b <| .flag 6 sb .nil) hn rfl
    exact ⟨hlt, by rw [decodeRaw, hk 28 4 rfl, decode2, hk 0 6 rfl]; rfl⟩
  case not | clz | ctz | popc | brev | clz64 | ctz64 | popc64 | brev64 =>
    rename_i d a
    obtain ⟨⟨rfl, rfl, -⟩, hlt, hk⟩ := Parts.fields (.bits 21 d <| .bits 14 a .nil) hn rfl
    exact ⟨hlt, by rw [decodeRaw, hk 28 4 rfl, decode2, hk 0 6 rfl, hk 6 8 rfl]; rfl⟩
  case plop t d a b =>
    obtain ⟨⟨rfl, rfl, rfl, rfl, -⟩, hlt, hk⟩ := Parts.fields (.bits 24 t <| .bits 21 d <| .bits 14 a <| .bits 7 b .nil) hn rfl
    exact ⟨hlt, by rw [decodeRaw, hk 28 4 rfl, decode2, hk 0 6 rfl, hk 6 1 rfl, hk 10 4 rfl, hk 17 4 rfl]; rfl⟩
  case p2v d =>
    obtain ⟨⟨rfl, -⟩, hlt, hk⟩ := Parts.fields (.bits 21 d .nil) hn rfl
    exact ⟨hlt, by rw [decodeRaw, hk 28 4 rfl, decode2, hk 0 6 rfl, hk 6 15 rfl]; rfl⟩
  case v2p a =>
    obtain ⟨⟨rfl, -⟩, hlt, hk⟩ := Parts.fields (.bits 14 a .nil) hn rfl
    exact ⟨hlt, by rw [decodeRaw, hk 28 4 rfl, decode2, hk 0 6 rfl, hk 6 8 rfl, hk 21 7 rfl]; rfl⟩
  -- class 0x3
  case fadd | fmul | ffma | fsub =>
    rename_i d a b sb ha hb m
    obtain ⟨⟨rfl, rfl, rfl, rfl, rfl, rfl, rfl, -⟩, hlt, hk⟩ := Parts.fields
      (.bits 21 d <| .bits 14 a <| .bits 7 b <| .flag 6 sb <| .flag 5 ha <| .flag 4 hb <| .bits 2 m .nil) hn rfl
    exact ⟨hlt, by rw [decodeRaw, hk 28 4 rfl, decode3, hk 0 2 rfl]; rfl⟩
  -- class 0x4
  case fmin | fmax | fminnm | fmaxnm | fcopysign | dmin | dmax | dminnm | dmaxnm =>
    rename_i d a b sb
    obtain ⟨⟨rfl, rfl, rfl, rfl, -⟩, hlt, hk⟩ := Parts.fields (.bits 21 d <| .bits 14 a <| .bits 7 b <| .flag 6 sb .nil) hn rfl
    exact ⟨hlt, by rw [decodeRaw, hk 28 4 rfl, decode4, hk 0 6 rfl]; rfl⟩
  case fcmp | dcmp =>
    rename_i c p a b sb
    obtain ⟨⟨rfl, rfl, rfl, rfl, rfl, -⟩, hlt, hk⟩ := Parts.fields (.bits 25 c <| .bits 21 p <| .bits 14 a <| .bits 7 b <| .flag 6 sb .nil) hn rfl
    exact ⟨hlt, by rw [decodeRaw, hk 28 4 rfl, decode4, hk 0 6 rfl, hk 24 1 rfl]; rfl⟩
  case fabs | fneg | fclass | frcp | frsq | fexp2 | flog2 | fsin | fcos | h2f | f2d | i2d | dabs =>
    rename_i d a
    obtain ⟨⟨rfl, rfl, -⟩, hlt, hk⟩ := Parts.fields (.bits 21 d <| .bits 14 a .nil) hn rfl
    exact ⟨hlt, by rw [decodeRaw, hk 28 4 rfl, decode4, hk 0 6 rfl, hk 6 8 rfl]; rfl⟩
  case frint | f2i | f2u | i2f | u2f | f2h | d2f | d2i =>
    rename_i d a m
    obtain ⟨⟨rfl, rfl, rfl, -⟩, hlt, hk⟩ := Parts.fields (.bits 21 d <| .bits 14 a <| .bits 7 m .nil) hn rfl
    exact ⟨hlt, by rw [decodeRaw, hk 28 4 rfl, decode4, hk 0 6 rfl, hk 6 1 rfl, hk 9 5 rfl]; rfl⟩
  case dadd | dmul | dfma | dsub =>
    rename_i d a b sb m
    obtain ⟨⟨rfl, rfl, rfl, rfl, rfl, -⟩, hlt, hk⟩ := Parts.fields (.bits 21 d <| .bits 14 a <| .bits 7 b <| .flag 6 sb <| .low m .nil) hn rfl
    refine ⟨hlt, ?_⟩
    rw [decodeRaw, hk 28 4 rfl, decode4, fld_split n 0 2 4, hk 2 4 rfl]
    have hr := fld_lt n 2 0
    generalize fld n 2 0 = r at hr ⊢
    interval_cases r <;> rfl
  -- class 0x5
  case hmin2 | hmax2 | bmin2 | bmax2 | pke4m | pke5m | pkf4m | idp4 | idp4u =>
    rename_i d a b sb
    obtain ⟨⟨rfl, rfl, rfl, rfl, -⟩, hlt, hk⟩ := Parts.fields (.bits 21 d <| .bits 14 a <| .bits 7 b <| .flag 6 sb .nil) hn rfl
    exact ⟨hlt, by rw [decodeRaw, hk 28 4 rfl, decode5, hk 0 6 rfl]; rfl⟩
  case hadd2 | hmul2 | hfma2 | hsub2 | badd2 | bmul2 | bfma2 | bsub2 | pkh2 | pkb2 =>
    rename_i d a b sb m
    obtain ⟨⟨rfl, rfl, rfl, rfl, rfl, -⟩, hlt, hk⟩ := Parts.fields (.bits 21 d <| .bits 14 a <| .bits 7 b <| .flag 6 sb <| .low m .nil) hn rfl
    refine ⟨hlt, ?_⟩
    rw [decodeRaw, hk 28 4 rfl, decode5, fld_split n 0 2 4, hk 2 4 rfl]
    have hr := fld_lt n 2 0
    generalize fld n 2 0 = r at hr ⊢
    interval_cases r <;> rfl
  case hcmp2 | bcmp2 =>
    rename_i c p a b sb
    obtain ⟨⟨rfl, rfl, rfl, rfl, rfl, -⟩, hlt, hk⟩ := Parts.fields (.bits 25 c <| .bits 21 p <| .bits 14 a <| .bits 7 b <| .flag 6 sb .nil) hn rfl
    exact ⟨hlt, by rw [decodeRaw, hk 28 4 rfl, decode5, hk 0 6 rfl, hk 24 1 rfl]; rfl⟩
  case upkh | upkb =>
    rename_i d a e
    obtain ⟨⟨rfl, rfl, rfl, -⟩, hlt, hk⟩ := Parts.fields (.bits 21 d <| .bits 14 a <| .flag 7 e .nil) hn rfl
    exact ⟨hlt, by rw [decodeRaw, hk 28 4 rfl, decode5, hk 0 6 rfl, hk 6 1 rfl, hk 8 6 rfl]; rfl⟩
  case upke4 | upke5 | mxscale =>
    rename_i d a e
    obtain ⟨⟨rfl, rfl, rfl, -⟩, hlt, hk⟩ := Parts.fields (.bits 21 d <| .bits 14 a <| .bits 7 e .nil) hn rfl
    exact ⟨hlt, by rw [decodeRaw, hk 28 4 rfl, decode5, hk 0 6 rfl, hk 6 1 rfl, hk 9 5 rfl]; rfl⟩
  case upkf4 d a e =>
    obtain ⟨⟨rfl, rfl, rfl, -⟩, hlt, hk⟩ := Parts.fields (.bits 21 d <| .bits 14 a <| .bits 7 e .nil) hn rfl
    exact ⟨hlt, by rw [decodeRaw, hk 28 4 rfl, decode5, hk 0 6 rfl, hk 6 1 rfl, hk 10 4 rfl]; rfl⟩
  -- class 0x6
  case ld | st =>
    rename_i d a k w o
    obtain ⟨⟨rfl, rfl, rfl, rfl, rfl, -⟩, hlt, hk⟩ := Parts.fields (.bits 21 d <| .bits 14 a <| .bits 9 k <| .bits 6 w <| .low o .nil) hn rfl
    exact ⟨hlt, by rw [decodeRaw, hk 28 4 rfl, decode6, hk 8 1 rfl]; rfl⟩
  -- class 0x7
  case atomSp | atomNb =>
    rename_i d a b q
    obtain ⟨⟨rfl, rfl, rfl, rfl, -⟩, hlt, hk⟩ := Parts.fields (.bits 21 d <| .bits 14 a <| .bits 7 b <| .low q .nil) hn rfl
    refine ⟨hlt, ?_⟩
    rw [decodeRaw, hk 28 4 rfl, decode7, fld_split n 0 4 3, hk 4 3 rfl]
    have hr := fld_lt n 4 0
    generalize fld n 4 0 = r at hr ⊢
    interval_cases r <;> rfl
  case sld | sst | nld | nst =>
    rename_i d a b w
    obtain ⟨⟨rfl, rfl, rfl, rfl, -⟩, hlt, hk⟩ := Parts.fields (.bits 21 d <| .bits 14 a <| .bits 7 b <| .low w .nil) hn rfl
    refine ⟨hlt, ?_⟩
    rw [decodeRaw, hk 28 4 rfl, decode7, fld_split n 0 3 4, hk 3 4 rfl]
    have hr := fld_lt n 3 0
    generalize fld n 3 0 = r at hr ⊢
    interval_cases r <;> rfl
  case atomRec | atom64 =>
    rename_i d a k q
    obtain ⟨⟨rfl, rfl, rfl, rfl, -⟩, hlt, hk⟩ := Parts.fields (.bits 21 d <| .bits 14 a <| .bits 7 k <| .low q .nil) hn rfl
    refine ⟨hlt, ?_⟩
    rw [decodeRaw, hk 28 4 rfl, decode7, fld_split n 0 4 3, hk 4 3 rfl, hk 12 2 rfl]
    have hr := fld_lt n 4 0
    generalize fld n 4 0 = r at hr ⊢
    interval_cases r <;> rfl
  case faddx | rcrd | sample =>
    rename_i d a k
    obtain ⟨⟨rfl, rfl, rfl, -⟩, hlt, hk⟩ := Parts.fields (.bits 21 d <| .bits 14 a <| .bits 7 k .nil) hn rfl
    exact ⟨hlt, by rw [decodeRaw, hk 28 4 rfl, decode7, hk 0 7 rfl, hk 12 2 rfl]; rfl⟩
  case rcclr | cwb | cinv =>
    rename_i a k
    obtain ⟨⟨rfl, rfl, -⟩, hlt, hk⟩ := Parts.fields (.bits 14 a <| .bits 7 k .nil) hn rfl
    exact ⟨hlt, by rw [decodeRaw, hk 28 4 rfl, decode7, hk 0 7 rfl, hk 12 2 rfl, hk 21 7 rfl]; rfl⟩
  case pref l a k =>
    obtain ⟨⟨rfl, rfl, rfl, -⟩, hlt, hk⟩ := Parts.fields (.flag 21 l <| .bits 14 a <| .bits 7 k .nil) hn rfl
    exact ⟨hlt, by rw [decodeRaw, hk 28 4 rfl, decode7, hk 0 7 rfl, hk 12 2 rfl, hk 22 6 rfl]; rfl⟩
  all_goals exact absurd h (of_decide_eq_false rfl)

/-- R36 to R50: the word of an instruction decodes to it. CALL needs a window step other than 0, by which R43 tells it from the flow forms. -/
theorem decodeRaw_encodeNat {i : Instr} {n : Nat} (hn : encodeNat i = some n) (hd : i.defect = none) : n < 2 ^ 32 ∧ decodeRaw n = .ok i := by
  by_cases hlow : i.ctorIdx < (Instr.bra 0).ctorIdx
  · exact decodeRaw_encodeNat_of_lt_bra hn hlow
  cases i
  -- class 0x8
  case bra o =>
    obtain ⟨⟨rfl, -⟩, hlt, hk⟩ := Parts.fields (.low o .nil) hn rfl
    exact ⟨hlt, by rw [decodeRaw, hk 28 4 rfl, decode8, hk 25 3 rfl, hk 22 3 rfl]; rfl⟩
  case brt | brf | brany | brall =>
    rename_i p o
    obtain ⟨⟨rfl, rfl, -⟩, hlt, hk⟩ := Parts.fields (.bits 22 p <| .low o .nil) hn rfl
    exact ⟨hlt, by rw [decodeRaw, hk 28 4 rfl, decode8, hk 25 3 rfl]; rfl⟩
  -- class 0x9
  case call v i =>
    obtain ⟨⟨rfl, rfl, -⟩, hlt, hk⟩ := Parts.fields (.bits 21 v <| .low i .nil) hn rfl
    have hv : (fld n 7 21 == 0) = false := by
      cases h : fld n 7 21 with
      | zero => rw [h] at hd; cases hd
      | succ m => rfl
    exact ⟨hlt, by rw [decodeRaw, hk 28 4 rfl, decode9, hv]; rfl⟩
  case ret | land | reform | exit | nop =>
    obtain ⟨-, hlt, hk⟩ := Parts.fields .nil hn rfl
    exact ⟨hlt, by rw [decodeRaw, hk 28 4 rfl, decode9, hk 21 7 rfl, decodeFlow, hk 0 7 rfl, hk 7 21 rfl]; rfl⟩
  case jmpi a =>
    obtain ⟨⟨rfl, -⟩, hlt, hk⟩ := Parts.fields (.bits 14 a .nil) hn rfl
    exact ⟨hlt, by rw [decodeRaw, hk 28 4 rfl, decode9, decodeFlow, hk 21 7 rfl, hk 0 7 rfl, hk 7 7 rfl]; rfl⟩
  case calli a b =>
    obtain ⟨⟨rfl, rfl, -⟩, hlt, hk⟩ := Parts.fields (.bits 14 a <| .bits 7 b .nil) hn rfl
    exact ⟨hlt, by rw [decodeRaw, hk 28 4 rfl, decode9, decodeFlow, hk 21 7 rfl, hk 0 7 rfl]; rfl⟩
  case frame | wbase =>
    rename_i b
    obtain ⟨⟨rfl, -⟩, hlt, hk⟩ := Parts.fields (.bits 7 b .nil) hn rfl
    exact ⟨hlt, by rw [decodeRaw, hk 28 4 rfl, decode9, hk 21 7 rfl, decodeFlow, hk 0 7 rfl, hk 14 14 rfl]; rfl⟩
  case trap i =>
    obtain ⟨⟨rfl, -⟩, hlt, hk⟩ := Parts.fields (.bits 7 i .nil) hn rfl
    exact ⟨hlt, by rw [decodeRaw, hk 28 4 rfl, decode9, decodeFlow, hk 21 7 rfl, hk 0 7 rfl]; rfl⟩
  -- class 0xA
  case routePick | routeRot | routeShift | routeFlip | reduxAdd | reduxMin | reduxMax | reduxMinu | reduxMaxu | reduxAnd | reduxOr | reduxXor |
      reduxFadd | reduxFmin | reduxFmax | scanAdd | scanFadd =>
    rename_i d a b
    obtain ⟨⟨rfl, rfl, rfl, -⟩, hlt, hk⟩ := Parts.fields (.bits 21 d <| .bits 14 a <| .bits 7 b .nil) hn rfl
    exact ⟨hlt, by rw [decodeRaw, hk 28 4 rfl, decodeA, hk 0 7 rfl]; rfl⟩
  case pollOr | pollAnd | pollSame =>
    rename_i d a b
    obtain ⟨⟨rfl, rfl, rfl, -⟩, hlt, hk⟩ := Parts.fields (.bits 21 d <| .bits 14 a <| .bits 7 b .nil) hn rfl
    exact ⟨hlt, by rw [decodeRaw, hk 28 4 rfl, decodeA, hk 0 7 rfl, hk 17 4 rfl, hk 24 4 rfl]; rfl⟩
  case pgather d a b =>
    obtain ⟨⟨rfl, rfl, rfl, -⟩, hlt, hk⟩ := Parts.fields (.bits 21 d <| .bits 14 a <| .bits 7 b .nil) hn rfl
    exact ⟨hlt, by rw [decodeRaw, hk 28 4 rfl, decodeA, hk 0 7 rfl, hk 17 4 rfl]; rfl⟩
  case barinit | barwait | nbarwait =>
    rename_i a b
    obtain ⟨⟨rfl, rfl, -⟩, hlt, hk⟩ := Parts.fields (.bits 14 a <| .bits 7 b .nil) hn rfl
    exact ⟨hlt, by rw [decodeRaw, hk 28 4 rfl, decodeA, hk 0 7 rfl, hk 21 7 rfl]; rfl⟩
  case bararv | nbararv =>
    rename_i d a
    obtain ⟨⟨rfl, rfl, -⟩, hlt, hk⟩ := Parts.fields (.bits 21 d <| .bits 14 a .nil) hn rfl
    exact ⟨hlt, by rw [decodeRaw, hk 28 4 rfl, decodeA, hk 0 7 rfl, hk 7 7 rfl]; rfl⟩
  case barsync | nbarsync | nichewait =>
    rename_i a
    obtain ⟨⟨rfl, -⟩, hlt, hk⟩ := Parts.fields (.bits 14 a .nil) hn rfl
    exact ⟨hlt, by rw [decodeRaw, hk 28 4 rfl, decodeA, hk 0 7 rfl, hk 7 7 rfl, hk 21 7 rfl]; rfl⟩
  case cinit m a =>
    obtain ⟨⟨rfl, rfl, -⟩, hlt, hk⟩ := Parts.fields (.bits 21 m <| .bits 14 a .nil) hn rfl
    exact ⟨hlt, by rw [decodeRaw, hk 28 4 rfl, decodeA, hk 0 7 rfl, hk 7 7 rfl, hk 25 3 rfl]; rfl⟩
  case msign d m =>
    obtain ⟨⟨rfl, rfl, -⟩, hlt, hk⟩ := Parts.fields (.bits 21 d <| .bits 14 m .nil) hn rfl
    exact ⟨hlt, by rw [decodeRaw, hk 28 4 rfl, decodeA, hk 0 7 rfl, hk 7 7 rfl, hk 18 3 rfl]; rfl⟩
  case cwait m b =>
    obtain ⟨⟨rfl, rfl, -⟩, hlt, hk⟩ := Parts.fields (.bits 14 m <| .bits 7 b .nil) hn rfl
    exact ⟨hlt, by rw [decodeRaw, hk 28 4 rfl, decodeA, hk 0 7 rfl, hk 18 10 rfl]; rfl⟩
  case fenceB | fenceN | fenceQ | fenceT | fenceS | ofence | commit =>
    obtain ⟨-, hlt, hk⟩ := Parts.fields .nil hn rfl
    exact ⟨hlt, by rw [decodeRaw, hk 28 4 rfl, decodeA, hk 0 7 rfl, hk 7 21 rfl]; rfl⟩
  case waitb m =>
    obtain ⟨⟨rfl, -⟩, hlt, hk⟩ := Parts.fields (.bits 7 m .nil) hn rfl
    exact ⟨hlt, by rw [decodeRaw, hk 28 4 rfl, decodeA, hk 0 7 rfl, hk 11 17 rfl]; rfl⟩
  case waitseq a e =>
    obtain ⟨⟨rfl, rfl, -⟩, hlt, hk⟩ := Parts.fields (.bits 14 a <| .bits 7 e .nil) hn rfl
    exact ⟨hlt, by rw [decodeRaw, hk 28 4 rfl, decodeA, hk 0 7 rfl, hk 10 4 rfl, hk 21 7 rfl]; rfl⟩
  case qwaitDone | qwaitTake =>
    rename_i d a b
    obtain ⟨⟨rfl, rfl, rfl, -⟩, hlt, hk⟩ := Parts.fields (.bits 21 d <| .bits 14 a <| .bits 7 b .nil) hn rfl
    exact ⟨hlt, by rw [decodeRaw, hk 28 4 rfl, decodeA, hk 0 7 rfl, bit, hk 27 1 rfl]; rfl⟩
  -- class 0xB
  case tmovTr | tmovTc | tmovRt | tmovCt =>
    rename_i d t b o
    obtain ⟨⟨rfl, rfl, rfl, rfl, -⟩, hlt, hk⟩ := Parts.fields (.bits 21 d <| .bits 14 t <| .bits 7 b <| .low o .nil) hn rfl
    exact ⟨hlt, by rw [decodeRaw, hk 28 4 rfl, decodeB, bit, hk 6 1 rfl, decodeTmov, hk 19 2 rfl, hk 17 2 rfl]; rfl⟩
  case tstat d t =>
    obtain ⟨⟨rfl, rfl, -⟩, hlt, hk⟩ := Parts.fields (.bits 21 d <| .bits 14 t .nil) hn rfl
    exact ⟨hlt, by rw [decodeRaw, hk 28 4 rfl, decodeB, bit, hk 6 1 rfl, decodeTile, hk 0 7 rfl, hk 7 7 rfl, hk 19 2 rfl]; rfl⟩
  case twait t =>
    obtain ⟨⟨rfl, -⟩, hlt, hk⟩ := Parts.fields (.bits 14 t .nil) hn rfl
    exact ⟨hlt, by rw [decodeRaw, hk 28 4 rfl, decodeB, bit, hk 6 1 rfl, decodeTile, hk 0 7 rfl, hk 7 7 rfl, hk 19 9 rfl]; rfl⟩
  -- class 0xC
  case bload | mma | mmas | tzero | tdrain | tfill | xtrav | xtravRes | copy | scatter | restripe | coll | enc | emit | ndone | tcbarm | tcbret =>
    rename_i id p q k
    obtain ⟨⟨rfl, rfl, rfl, rfl, -⟩, hlt, hk⟩ := Parts.fields (.bits 22 id <| .bits 16 p <| .bits 10 q <| .bits 5 k .nil) hn rfl
    exact ⟨hlt, by rw [decodeRaw, hk 28 4 rfl, decodeC, hk 0 5 rfl]; rfl⟩
  -- class 0xD
  case sadd | ssub | smul | sand | sor | sxor | sshl | sshr | ssar | smin | smax | sminu | smaxu | saddi | sld32 | sst32 | sadd64 =>
    rename_i d a b
    obtain ⟨⟨rfl, rfl, rfl, -⟩, hlt, hk⟩ := Parts.fields (.bits 21 d <| .bits 14 a <| .bits 7 b .nil) hn rfl
    exact ⟨hlt, by rw [decodeRaw, hk 28 4 rfl, decodeD, hk 0 7 rfl]; rfl⟩
  case scmp c p a b =>
    obtain ⟨⟨rfl, rfl, rfl, rfl, -⟩, hlt, hk⟩ := Parts.fields (.bits 25 c <| .bits 21 p <| .bits 14 a <| .bits 7 b .nil) hn rfl
    exact ⟨hlt, by rw [decodeRaw, hk 28 4 rfl, decodeD, hk 0 7 rfl, hk 24 1 rfl]; rfl⟩
  case smov | v2s | s2v =>
    rename_i d a
    obtain ⟨⟨rfl, rfl, -⟩, hlt, hk⟩ := Parts.fields (.bits 21 d <| .bits 14 a .nil) hn rfl
    exact ⟨hlt, by rw [decodeRaw, hk 28 4 rfl, decodeD, hk 0 7 rfl, hk 7 7 rfl]; rfl⟩
  case sshli | sshri | ssari =>
    rename_i d a m
    obtain ⟨⟨rfl, rfl, rfl, -⟩, hlt, hk⟩ := Parts.fields (.bits 21 d <| .bits 14 a <| .bits 7 m .nil) hn rfl
    exact ⟨hlt, by rw [decodeRaw, hk 28 4 rfl, decodeD, hk 0 7 rfl, hk 12 2 rfl]; rfl⟩
  -- class 0xE
  case srd | swr =>
    rename_i d m
    obtain ⟨⟨rfl, rfl, -⟩, hlt, hk⟩ := Parts.fields (.bits 21 d <| .bits 7 m .nil) hn rfl
    exact ⟨hlt, by rw [decodeRaw, hk 28 4 rfl, decodeE, hk 0 7 rfl]; rfl⟩
  case tret | tinva =>
    obtain ⟨-, hlt, hk⟩ := Parts.fields .nil hn rfl
    exact ⟨hlt, by rw [decodeRaw, hk 28 4 rfl, decodeE, hk 0 7 rfl, hk 7 21 rfl]; rfl⟩
  case tinv | keyerase =>
    rename_i a
    obtain ⟨⟨rfl, -⟩, hlt, hk⟩ := Parts.fields (.bits 14 a .nil) hn rfl
    exact ⟨hlt, by rw [decodeRaw, hk 28 4 rfl, decodeE, hk 0 7 rfl, hk 7 7 rfl, hk 21 7 rfl]; rfl⟩
  case pinv | launch | keyset | ustat | slnew | slassign | slquiesce | slsplit | slways | slplace | slquota | slstat =>
    rename_i d a b
    obtain ⟨⟨rfl, rfl, rfl, -⟩, hlt, hk⟩ := Parts.fields (.bits 21 d <| .bits 14 a <| .bits 7 b .nil) hn rfl
    exact ⟨hlt, by rw [decodeRaw, hk 28 4 rfl, decodeE, hk 0 7 rfl]; rfl⟩
  case pinva d b =>
    obtain ⟨⟨rfl, rfl, -⟩, hlt, hk⟩ := Parts.fields (.bits 21 d <| .bits 7 b .nil) hn rfl
    exact ⟨hlt, by rw [decodeRaw, hk 28 4 rfl, decodeE, hk 0 7 rfl, hk 14 7 rfl]; rfl⟩
  case ckpt d =>
    obtain ⟨⟨rfl, -⟩, hlt, hk⟩ := Parts.fields (.bits 21 d .nil) hn rfl
    exact ⟨hlt, by rw [decodeRaw, hk 28 4 rfl, decodeE, hk 0 7 rfl, hk 7 14 rfl]; rfl⟩
  case sldel | slresume | slfuse | slreset =>
    rename_i d a
    obtain ⟨⟨rfl, rfl, -⟩, hlt, hk⟩ := Parts.fields (.bits 21 d <| .bits 14 a .nil) hn rfl
    exact ⟨hlt, by rw [decodeRaw, hk 28 4 rfl, decodeE, hk 0 7 rfl, hk 7 7 rfl]; rfl⟩
  -- class 0xF
  case rep m x y z t =>
    obtain ⟨⟨rfl, rfl, rfl, rfl, rfl, -⟩, hlt, hk⟩ := Parts.fields (.bits 18 m <| .flag 17 x <| .flag 16 y <| .flag 15 z <| .bits 11 t .nil) hn rfl
    exact ⟨hlt, by rw [decodeRaw, hk 28 4 rfl, decodeF, hk 24 4 rfl, hk 0 11 rfl]; rfl⟩
  case ifp p g =>
    obtain ⟨⟨rfl, rfl, -⟩, hlt, hk⟩ := Parts.fields (.bits 21 p <| .flag 20 g .nil) hn rfl
    exact ⟨hlt, by rw [decodeRaw, hk 28 4 rfl, decodeF, hk 24 4 rfl, hk 0 20 rfl]; rfl⟩
  case limm t =>
    obtain ⟨⟨rfl, -⟩, hlt, hk⟩ := Parts.fields (.bits 22 t .nil) hn rfl
    exact ⟨hlt, by rw [decodeRaw, hk 28 4 rfl, decodeF, hk 24 4 rfl, hk 0 22 rfl]; rfl⟩
  case swin w =>
    obtain ⟨⟨rfl, -⟩, hlt, hk⟩ := Parts.fields (.bits 21 w .nil) hn rfl
    exact ⟨hlt, by rw [decodeRaw, hk 28 4 rfl, decodeF, hk 24 4 rfl, hk 0 21 rfl]; rfl⟩
  -- the classes already done, and the steps that no word encodes
  all_goals first
    | exact absurd (of_decide_eq_true rfl) hlow
    | cases hn

/-- Settles O1: the operands' places in a word are apart, so each decodes to itself, and the rest of the word to the opcode. -/
theorem decodeOfEncode : Obligations.DecodeOfEncode := by
  intro i w hd hw
  obtain ⟨n, hn, rfl⟩ := Option.map_eq_some_iff.1 hw
  obtain ⟨hlt, hdec⟩ := decodeRaw_encodeNat hn hd
  rw [decodeWord, BitVec.toNat_ofNat, Nat.mod_eq_of_lt hlt, hdec]
  dsimp only
  rw [hd]

end Sys2Proof
end


section
/-! SUPPORT. What a word that decodes says of its bits: it is the word of the instruction (R36, R57). -/

namespace Sys2Proof

/-- A flag is the field of one bit. -/
theorem toNat_bit (w lo : Nat) : (bit w lo).toNat = fld w 1 lo := by
  have h := fld_lt w 1 lo
  rw [bit]
  generalize fld w 1 lo = r at h ⊢
  interval_cases r <;> rfl

/-- A field fits the operand of its width. -/
theorem toNat_ofNat_fld (w v lo : Nat) : (BitVec.ofNat v (fld w v lo)).toNat = fld w v lo := by
  rw [BitVec.toNat_ofNat, Nat.mod_eq_of_lt (fld_lt w v lo)]

/-- An arm of a decoder that checks nothing, in the shape of one that does (`guard_eq_ok`). -/
theorem ok_eq_ok {i j : Instr} : (Except.ok i : Decoded) = .ok j ↔ True ∧ i = j := by simp

/-- An arm of a decoder that checks fields, when it answers an instruction. -/
theorem guard_eq_ok {p : Prop} [Decidable p] {i j : Instr} {e : DecodeError} :
    (if p then (Except.ok i : Decoded) else .error e) = .ok j ↔ p ∧ i = j := by
  by_cases h : p <;> simp [h]

/-- R37: the class and the four fields of seven bits are the whole of a word. -/
theorem word_split {w : Nat} (hw : w < 2 ^ 32) :
    w = fld w 4 28 * 2 ^ 28 + fld w 7 21 * 2 ^ 21 + fld w 7 14 * 2 ^ 14 + fld w 7 7 * 2 ^ 7 + fld w 7 0 := by
  simp only [fld]; omega

/-- R5: 32 bits are the whole of a word. -/
theorem fld_all {w : Nat} (hw : w < 2 ^ 32) : fld w 32 0 = w := by rw [fld, pow_zero, Nat.div_one, Nat.mod_eq_of_lt hw]

/-! Each class: the equations say how its decoder cuts the fields of seven bits, or the word; an arm that answers an instruction has
read or checked every part, so the parts of the instruction's word sum to the word read. -/

theorem encodeNat_of_decode0 {w : Nat} {i : Instr} (hw : w < 2 ^ 32) (hc : fld w 4 28 = 0) (h : decode0 w = .ok i) :
    encodeNat i = some w := by
  have hword := word_split hw
  have hlow : fld w 7 0 = fld w 1 6 * 2 ^ 6 + fld w 6 0 := fld_split w 0 6 1
  have hb8 : fld w 8 6 = fld w 7 7 * 2 ^ 1 + fld w 1 6 := fld_split w 6 1 7
  have hd : fld w 7 21 = fld w 4 24 * 2 ^ 3 + fld w 3 21 := fld_split w 21 3 4
  have hcmp : fld w 4 24 = fld w 3 25 * 2 ^ 1 + fld w 1 24 := fld_split w 24 1 3
  have hsel : fld w 6 0 = fld w 3 3 * 2 ^ 3 + fld w 3 0 := fld_split w 0 3 3
  have hq := fld_lt w 3 0
  unfold decode0 at h
  split at h <;> simp only [guard_eq_ok, ok_eq_ok, beq_iff_eq, reduceCtorEq] at h
  all_goals
    obtain ⟨hz, rfl⟩ := h
    refine congrArg some ?_
    simp only [toNat_ofNat_fld, toNat_bit]
    omega

theorem encodeNat_of_decodeShift {w : Nat} {i : Instr} (hw : w < 2 ^ 32) (hc : fld w 4 28 = 1) (hop : fld w 3 11 = 6) (h : decodeShift w = .ok i) :
    encodeNat i = some w := by
  have hword := word_split hw
  have hlow14 : fld w 14 0 = fld w 7 7 * 2 ^ 7 + fld w 7 0 := fld_split w 0 7 7
  have hkind : fld w 14 0 = fld w 3 11 * 2 ^ 11 + fld w 11 0 := fld_split w 0 11 3
  have hrot : fld w 11 0 = fld w 3 8 * 2 ^ 8 + fld w 8 0 := fld_split w 0 8 3
  have hn : fld w 8 0 = fld w 3 5 * 2 ^ 5 + fld w 5 0 := fld_split w 0 5 3
  unfold decodeShift at h
  split at h <;> simp only [guard_eq_ok, beq_iff_eq, reduceCtorEq] at h
  all_goals
    obtain ⟨hz, rfl⟩ := h
    refine congrArg some ?_
    simp only [toNat_ofNat_fld]
    omega

theorem encodeNat_of_decode1 {w : Nat} {i : Instr} (hw : w < 2 ^ 32) (hc : fld w 4 28 = 1) (h : decode1 w = .ok i) :
    encodeNat i = some w := by
  have hword := word_split hw
  have hlow14 : fld w 14 0 = fld w 7 7 * 2 ^ 7 + fld w 7 0 := fld_split w 0 7 7
  have himm : fld w 14 0 = fld w 3 11 * 2 ^ 11 + fld w 11 0 := fld_split w 0 11 3
  have hd : fld w 7 21 = fld w 4 24 * 2 ^ 3 + fld w 3 21 := fld_split w 21 3 4
  have hcmp : fld w 4 24 = fld w 3 25 * 2 ^ 1 + fld w 1 24 := fld_split w 24 1 3
  unfold decode1 at h
  split at h
  case h_7 =>
    cases h
    have hhigh := fld_lt w 7 14
    have hlow := fld_lt w 11 0
    refine congrArg some ?_
    rw [toNat_ofNat_fld, BitVec.toNat_ofNat]
    omega
  case h_8 hop => exact encodeNat_of_decodeShift hw hc hop h
  all_goals
    simp only [guard_eq_ok, ok_eq_ok, beq_iff_eq, reduceCtorEq] at h
  all_goals
    obtain ⟨hz, rfl⟩ := h
    refine congrArg some ?_
    simp only [toNat_ofNat_fld]
    omega

theorem encodeNat_of_decode2 {w : Nat} {i : Instr} (hw : w < 2 ^ 32) (hc : fld w 4 28 = 2) (h : decode2 w = .ok i) :
    encodeNat i = some w := by
  have hword := word_split hw
  have hlow : fld w 7 0 = fld w 1 6 * 2 ^ 6 + fld w 6 0 := fld_split w 0 6 1
  have hb8 : fld w 8 6 = fld w 7 7 * 2 ^ 1 + fld w 1 6 := fld_split w 6 1 7
  have hab : fld w 15 6 = fld w 7 14 * 2 ^ 8 + fld w 8 6 := fld_split w 6 8 7
  have hd : fld w 7 21 = fld w 4 24 * 2 ^ 3 + fld w 3 21 := fld_split w 21 3 4
  have ha : fld w 7 14 = fld w 4 17 * 2 ^ 3 + fld w 3 14 := fld_split w 14 3 4
  have hb : fld w 7 7 = fld w 4 10 * 2 ^ 3 + fld w 3 7 := fld_split w 7 3 4
  unfold decode2 at h
  split at h <;> simp only [guard_eq_ok, ok_eq_ok, Bool.and_eq_true, beq_iff_eq, reduceCtorEq] at h
  all_goals
    obtain ⟨hz, rfl⟩ := h
    refine congrArg some ?_
    simp only [toNat_ofNat_fld, toNat_bit]
    omega

theorem encodeNat_of_decode3 {w : Nat} {i : Instr} (hw : w < 2 ^ 32) (hc : fld w 4 28 = 3) (h : decode3 w = .ok i) :
    encodeNat i = some w := by
  have hword := word_split hw
  have hlow : fld w 7 0 = fld w 1 6 * 2 ^ 6 + fld w 6 0 := fld_split w 0 6 1
  have hha : fld w 6 0 = fld w 1 5 * 2 ^ 5 + fld w 5 0 := fld_split w 0 5 1
  have hhb : fld w 5 0 = fld w 1 4 * 2 ^ 4 + fld w 4 0 := fld_split w 0 4 1
  have hm : fld w 4 0 = fld w 2 2 * 2 ^ 2 + fld w 2 0 := fld_split w 0 2 2
  unfold decode3 at h
  split at h <;> simp only [ok_eq_ok, reduceCtorEq] at h
  all_goals
    obtain ⟨hz, rfl⟩ := h
    refine congrArg some ?_
    simp only [toNat_ofNat_fld, toNat_bit]
    omega

theorem encodeNat_of_decode4 {w : Nat} {i : Instr} (hw : w < 2 ^ 32) (hc : fld w 4 28 = 4) (h : decode4 w = .ok i) :
    encodeNat i = some w := by
  have hword := word_split hw
  have hlow : fld w 7 0 = fld w 1 6 * 2 ^ 6 + fld w 6 0 := fld_split w 0 6 1
  have hb8 : fld w 8 6 = fld w 7 7 * 2 ^ 1 + fld w 1 6 := fld_split w 6 1 7
  have hd : fld w 7 21 = fld w 4 24 * 2 ^ 3 + fld w 3 21 := fld_split w 21 3 4
  have hcmp : fld w 4 24 = fld w 3 25 * 2 ^ 1 + fld w 1 24 := fld_split w 24 1 3
  have hb : fld w 7 7 = fld w 5 9 * 2 ^ 2 + fld w 2 7 := fld_split w 7 2 5
  have hmode : fld w 6 0 = fld w 4 2 * 2 ^ 2 + fld w 2 0 := fld_split w 0 2 4
  have hm := fld_lt w 2 0
  unfold decode4 at h
  split at h <;> simp only [guard_eq_ok, ok_eq_ok, Bool.and_eq_true, beq_iff_eq, reduceCtorEq] at h
  all_goals
    obtain ⟨hz, rfl⟩ := h
    refine congrArg some ?_
    simp only [toNat_ofNat_fld, toNat_bit]
    omega

theorem encodeNat_of_decode5 {w : Nat} {i : Instr} (hw : w < 2 ^ 32) (hc : fld w 4 28 = 5) (h : decode5 w = .ok i) :
    encodeNat i = some w := by
  have hword := word_split hw
  have hlow : fld w 7 0 = fld w 1 6 * 2 ^ 6 + fld w 6 0 := fld_split w 0 6 1
  have hb8 : fld w 8 6 = fld w 7 7 * 2 ^ 1 + fld w 1 6 := fld_split w 6 1 7
  have hd : fld w 7 21 = fld w 4 24 * 2 ^ 3 + fld w 3 21 := fld_split w 21 3 4
  have hcmp : fld w 4 24 = fld w 3 25 * 2 ^ 1 + fld w 1 24 := fld_split w 24 1 3
  have hb1 : fld w 7 7 = fld w 6 8 * 2 ^ 1 + fld w 1 7 := fld_split w 7 1 6
  have hb2 : fld w 7 7 = fld w 5 9 * 2 ^ 2 + fld w 2 7 := fld_split w 7 2 5
  have hb3 : fld w 7 7 = fld w 4 10 * 2 ^ 3 + fld w 3 7 := fld_split w 7 3 4
  have hmode : fld w 6 0 = fld w 4 2 * 2 ^ 2 + fld w 2 0 := fld_split w 0 2 4
  have hm := fld_lt w 2 0
  unfold decode5 at h
  split at h <;> simp only [guard_eq_ok, ok_eq_ok, Bool.and_eq_true, beq_iff_eq, reduceCtorEq] at h
  all_goals
    obtain ⟨hz, rfl⟩ := h
    refine congrArg some ?_
    simp only [toNat_ofNat_fld, toNat_bit]
    omega

theorem encodeNat_of_decode6 {w : Nat} {i : Instr} (hw : w < 2 ^ 32) (hc : fld w 4 28 = 6) (h : decode6 w = .ok i) :
    encodeNat i = some w := by
  have hword := word_split hw
  have hlow14 : fld w 14 0 = fld w 7 7 * 2 ^ 7 + fld w 7 0 := fld_split w 0 7 7
  have hk : fld w 14 0 = fld w 5 9 * 2 ^ 9 + fld w 9 0 := fld_split w 0 9 5
  have hop : fld w 9 0 = fld w 1 8 * 2 ^ 8 + fld w 8 0 := fld_split w 0 8 1
  have hwidth : fld w 8 0 = fld w 2 6 * 2 ^ 6 + fld w 6 0 := fld_split w 0 6 2
  unfold decode6 at h
  split at h <;> simp only [ok_eq_ok, reduceCtorEq] at h
  all_goals
    obtain ⟨hz, rfl⟩ := h
    refine congrArg some ?_
    simp only [toNat_ofNat_fld]
    omega

theorem encodeNat_of_decode7 {w : Nat} {i : Instr} (hw : w < 2 ^ 32) (hc : fld w 4 28 = 7) (h : decode7 w = .ok i) :
    encodeNat i = some w := by
  have hword := word_split hw
  have hb : fld w 7 7 = fld w 2 12 * 2 ^ 5 + fld w 5 7 := fld_split w 7 5 2
  have hq4 : fld w 7 0 = fld w 3 4 * 2 ^ 4 + fld w 4 0 := fld_split w 0 4 3
  have hq3 : fld w 7 0 = fld w 4 3 * 2 ^ 3 + fld w 3 0 := fld_split w 0 3 4
  have h4 := fld_lt w 4 0
  have h3 := fld_lt w 3 0
  have hl : fld w 7 21 = fld w 6 22 * 2 ^ 1 + fld w 1 21 := fld_split w 21 1 6
  unfold decode7 at h
  split at h <;> simp only [guard_eq_ok, ok_eq_ok, Bool.and_eq_true, beq_iff_eq, reduceCtorEq] at h
  all_goals
    obtain ⟨hz, rfl⟩ := h
    refine congrArg some ?_
    simp only [toNat_ofNat_fld, toNat_bit]
    omega

theorem encodeNat_of_decode8 {w : Nat} {i : Instr} (hw : w < 2 ^ 32) (hc : fld w 4 28 = 8) (h : decode8 w = .ok i) :
    encodeNat i = some w := by
  have hword := fld_all hw
  have hclass : fld w 32 0 = fld w 4 28 * 2 ^ 28 + fld w 28 0 := fld_split w 0 28 4
  have hop : fld w 28 0 = fld w 3 25 * 2 ^ 25 + fld w 25 0 := fld_split w 0 25 3
  have hp : fld w 25 0 = fld w 3 22 * 2 ^ 22 + fld w 22 0 := fld_split w 0 22 3
  unfold decode8 at h
  split at h <;> simp only [guard_eq_ok, ok_eq_ok, beq_iff_eq, reduceCtorEq] at h
  all_goals
    obtain ⟨hz, rfl⟩ := h
    refine congrArg some ?_
    simp only [toNat_ofNat_fld]
    omega

theorem encodeNat_of_decodeFlow {w : Nat} {i : Instr} (hw : w < 2 ^ 32) (hc : fld w 4 28 = 9) (hd : fld w 7 21 = 0) (h : decodeFlow w = .ok i) :
    encodeNat i = some w := by
  have hword := word_split hw
  have hab : fld w 14 7 = fld w 7 14 * 2 ^ 7 + fld w 7 7 := fld_split w 7 7 7
  have hdab : fld w 21 7 = fld w 7 21 * 2 ^ 14 + fld w 14 7 := fld_split w 7 14 7
  have hda : fld w 14 14 = fld w 7 21 * 2 ^ 7 + fld w 7 14 := fld_split w 14 7 7
  unfold decodeFlow at h
  split at h <;> simp only [guard_eq_ok, Bool.and_eq_true, beq_iff_eq, reduceCtorEq] at h
  all_goals
    obtain ⟨hz, rfl⟩ := h
    refine congrArg some ?_
    simp only [toNat_ofNat_fld, Nat.reducePow] at hword ⊢
    omega

theorem encodeNat_of_decode9 {w : Nat} {i : Instr} (hw : w < 2 ^ 32) (hc : fld w 4 28 = 9) (h : decode9 w = .ok i) :
    encodeNat i = some w := by
  have hword := fld_all hw
  have hclass : fld w 32 0 = fld w 4 28 * 2 ^ 28 + fld w 28 0 := fld_split w 0 28 4
  have hv : fld w 28 0 = fld w 7 21 * 2 ^ 21 + fld w 21 0 := fld_split w 0 21 7
  rw [decode9] at h
  split at h
  case isTrue hd => exact encodeNat_of_decodeFlow hw hc (beq_iff_eq.1 hd) h
  case isFalse =>
    cases h
    refine congrArg some ?_
    simp only [toNat_ofNat_fld]
    omega

theorem encodeNat_of_decodeA {w : Nat} {i : Instr} (hw : w < 2 ^ 32) (hc : fld w 4 28 = 10) (h : decodeA w = .ok i) :
    encodeNat i = some w := by
  have hword := word_split hw
  have hab : fld w 14 7 = fld w 7 14 * 2 ^ 7 + fld w 7 7 := fld_split w 7 7 7
  have hdab : fld w 21 7 = fld w 7 21 * 2 ^ 14 + fld w 14 7 := fld_split w 7 14 7
  have hd3 : fld w 7 21 = fld w 4 24 * 2 ^ 3 + fld w 3 21 := fld_split w 21 3 4
  have hd4 : fld w 7 21 = fld w 3 25 * 2 ^ 4 + fld w 4 21 := fld_split w 21 4 3
  have hd6 : fld w 7 21 = fld w 1 27 * 2 ^ 6 + fld w 6 21 := fld_split w 21 6 1
  have ha3 : fld w 7 14 = fld w 4 17 * 2 ^ 3 + fld w 3 14 := fld_split w 14 3 4
  have ha4 : fld w 7 14 = fld w 3 18 * 2 ^ 4 + fld w 4 14 := fld_split w 14 4 3
  have hda : fld w 10 18 = fld w 7 21 * 2 ^ 3 + fld w 3 18 := fld_split w 18 3 7
  have hb3 : fld w 7 7 = fld w 4 10 * 2 ^ 3 + fld w 3 7 := fld_split w 7 3 4
  have hb4 : fld w 7 7 = fld w 3 11 * 2 ^ 4 + fld w 4 7 := fld_split w 7 4 3
  have hdab4 : fld w 17 11 = fld w 14 14 * 2 ^ 3 + fld w 3 11 := fld_split w 11 3 14
  have hda7 : fld w 14 14 = fld w 7 21 * 2 ^ 7 + fld w 7 14 := fld_split w 14 7 7
  unfold decodeA at h
  split at h
  case h_42 =>
    have hflag := toNat_bit w 27
    split at h
    all_goals
      rename_i hbit
      cases h
      refine congrArg some ?_
      simp only [toNat_ofNat_fld]
      simp only [hbit, Bool.toNat_true, Bool.toNat_false] at hflag
      omega
  all_goals simp only [guard_eq_ok, ok_eq_ok, Bool.and_eq_true, beq_iff_eq, reduceCtorEq] at h
  all_goals
    obtain ⟨hz, rfl⟩ := h
    refine congrArg some ?_
    simp only [toNat_ofNat_fld, Nat.reducePow] at hword ⊢
    omega

theorem encodeNat_of_decodeTmov {w : Nat} {i : Instr} (hw : w < 2 ^ 32) (hc : fld w 4 28 = 11) (hb : fld w 1 6 = 1) (h : decodeTmov w = .ok i) :
    encodeNat i = some w := by
  have hword := word_split hw
  have hlow : fld w 7 0 = fld w 1 6 * 2 ^ 6 + fld w 6 0 := fld_split w 0 6 1
  have ha : fld w 7 14 = fld w 2 19 * 2 ^ 5 + fld w 5 14 := fld_split w 14 5 2
  have ht : fld w 5 14 = fld w 2 17 * 2 ^ 3 + fld w 3 14 := fld_split w 14 3 2
  unfold decodeTmov at h
  split at h <;> simp only [guard_eq_ok, beq_iff_eq, reduceCtorEq] at h
  all_goals
    obtain ⟨hz, rfl⟩ := h
    refine congrArg some ?_
    simp only [toNat_ofNat_fld]
    omega

theorem encodeNat_of_decodeTile {w : Nat} {i : Instr} (hw : w < 2 ^ 32) (hc : fld w 4 28 = 11) (h : decodeTile w = .ok i) :
    encodeNat i = some w := by
  have hword := word_split hw
  have ha : fld w 7 14 = fld w 2 19 * 2 ^ 5 + fld w 5 14 := fld_split w 14 5 2
  have hda : fld w 9 19 = fld w 7 21 * 2 ^ 2 + fld w 2 19 := fld_split w 19 2 7
  unfold decodeTile at h
  split at h <;> simp only [guard_eq_ok, Bool.and_eq_true, beq_iff_eq, reduceCtorEq] at h
  all_goals
    obtain ⟨hz, rfl⟩ := h
    refine congrArg some ?_
    simp only [toNat_ofNat_fld]
    omega

theorem encodeNat_of_decodeB {w : Nat} {i : Instr} (hw : w < 2 ^ 32) (hc : fld w 4 28 = 11) (h : decodeB w = .ok i) :
    encodeNat i = some w := by
  rw [decodeB] at h
  split at h
  case isTrue hb => exact encodeNat_of_decodeTmov hw hc (by rw [← toNat_bit, hb]; rfl) h
  case isFalse => exact encodeNat_of_decodeTile hw hc h

theorem encodeNat_of_decodeC {w : Nat} {i : Instr} (hw : w < 2 ^ 32) (hc : fld w 4 28 = 12) (h : decodeC w = .ok i) :
    encodeNat i = some w := by
  have hword := fld_all hw
  have hclass : fld w 32 0 = fld w 4 28 * 2 ^ 28 + fld w 28 0 := fld_split w 0 28 4
  have hid : fld w 28 0 = fld w 6 22 * 2 ^ 22 + fld w 22 0 := fld_split w 0 22 6
  have hp : fld w 22 0 = fld w 6 16 * 2 ^ 16 + fld w 16 0 := fld_split w 0 16 6
  have hq : fld w 16 0 = fld w 6 10 * 2 ^ 10 + fld w 10 0 := fld_split w 0 10 6
  have hk : fld w 10 0 = fld w 5 5 * 2 ^ 5 + fld w 5 0 := fld_split w 0 5 5
  unfold decodeC at h
  split at h <;> simp only [ok_eq_ok, reduceCtorEq] at h
  all_goals
    obtain ⟨hz, rfl⟩ := h
    refine congrArg some ?_
    simp only [toNat_ofNat_fld]
    omega

theorem encodeNat_of_decodeD {w : Nat} {i : Instr} (hw : w < 2 ^ 32) (hc : fld w 4 28 = 13) (h : decodeD w = .ok i) :
    encodeNat i = some w := by
  have hword := word_split hw
  have hd : fld w 7 21 = fld w 4 24 * 2 ^ 3 + fld w 3 21 := fld_split w 21 3 4
  have hcmp : fld w 4 24 = fld w 3 25 * 2 ^ 1 + fld w 1 24 := fld_split w 24 1 3
  have hb : fld w 7 7 = fld w 2 12 * 2 ^ 5 + fld w 5 7 := fld_split w 7 5 2
  unfold decodeD at h
  split at h <;> simp only [guard_eq_ok, ok_eq_ok, beq_iff_eq, reduceCtorEq] at h
  all_goals
    obtain ⟨hz, rfl⟩ := h
    refine congrArg some ?_
    simp only [toNat_ofNat_fld]
    omega

theorem encodeNat_of_decodeE {w : Nat} {i : Instr} (hw : w < 2 ^ 32) (hc : fld w 4 28 = 14) (h : decodeE w = .ok i) :
    encodeNat i = some w := by
  have hword := word_split hw
  have hab : fld w 14 7 = fld w 7 14 * 2 ^ 7 + fld w 7 7 := fld_split w 7 7 7
  have hdab : fld w 21 7 = fld w 7 21 * 2 ^ 14 + fld w 14 7 := fld_split w 7 14 7
  unfold decodeE at h
  split at h <;> simp only [guard_eq_ok, ok_eq_ok, Bool.and_eq_true, beq_iff_eq, reduceCtorEq] at h
  all_goals
    obtain ⟨hz, rfl⟩ := h
    refine congrArg some ?_
    simp only [toNat_ofNat_fld, Nat.reducePow] at hword ⊢
    omega

theorem encodeNat_of_decodeF {w : Nat} {i : Instr} (hw : w < 2 ^ 32) (hc : fld w 4 28 = 15) (h : decodeF w = .ok i) :
    encodeNat i = some w := by
  have hword := fld_all hw
  have hclass : fld w 32 0 = fld w 4 28 * 2 ^ 28 + fld w 28 0 := fld_split w 0 28 4
  have hop : fld w 28 0 = fld w 4 24 * 2 ^ 24 + fld w 24 0 := fld_split w 0 24 4
  have hn : fld w 24 0 = fld w 6 18 * 2 ^ 18 + fld w 18 0 := fld_split w 0 18 6
  have hx : fld w 18 0 = fld w 1 17 * 2 ^ 17 + fld w 17 0 := fld_split w 0 17 1
  have hy : fld w 17 0 = fld w 1 16 * 2 ^ 16 + fld w 16 0 := fld_split w 0 16 1
  have hzz : fld w 16 0 = fld w 1 15 * 2 ^ 15 + fld w 15 0 := fld_split w 0 15 1
  have ht : fld w 15 0 = fld w 4 11 * 2 ^ 11 + fld w 11 0 := fld_split w 0 11 4
  have hp : fld w 24 0 = fld w 3 21 * 2 ^ 21 + fld w 21 0 := fld_split w 0 21 3
  have hg : fld w 21 0 = fld w 1 20 * 2 ^ 20 + fld w 20 0 := fld_split w 0 20 1
  have hl : fld w 24 0 = fld w 2 22 * 2 ^ 22 + fld w 22 0 := fld_split w 0 22 2
  unfold decodeF at h
  split at h <;> simp only [guard_eq_ok, beq_iff_eq, reduceCtorEq] at h
  all_goals
    obtain ⟨hz, rfl⟩ := h
    refine congrArg some ?_
    simp only [toNat_ofNat_fld, toNat_bit]
    omega

/-- R36: a word that decodes is that of the instruction, class by class. -/
theorem encodeNat_of_decodeRaw {w : Nat} {i : Instr} (hw : w < 2 ^ 32) (h : decodeRaw w = .ok i) : encodeNat i = some w := by
  unfold decodeRaw at h
  split at h
  case h_1 hc => exact encodeNat_of_decode0 hw hc h
  case h_2 hc => exact encodeNat_of_decode1 hw hc h
  case h_3 hc => exact encodeNat_of_decode2 hw hc h
  case h_4 hc => exact encodeNat_of_decode3 hw hc h
  case h_5 hc => exact encodeNat_of_decode4 hw hc h
  case h_6 hc => exact encodeNat_of_decode5 hw hc h
  case h_7 hc => exact encodeNat_of_decode6 hw hc h
  case h_8 hc => exact encodeNat_of_decode7 hw hc h
  case h_9 hc => exact encodeNat_of_decode8 hw hc h
  case h_10 hc => exact encodeNat_of_decode9 hw hc h
  case h_11 hc => exact encodeNat_of_decodeA hw hc h
  case h_12 hc => exact encodeNat_of_decodeB hw hc h
  case h_13 hc => exact encodeNat_of_decodeC hw hc h
  case h_14 hc => exact encodeNat_of_decodeD hw hc h
  case h_15 hc => exact encodeNat_of_decodeE hw hc h
  case h_16 hc => exact encodeNat_of_decodeF hw hc h
  case h_17 => cases h

/-- Settles O2: every decoder reads all the bits of a word, so what it decodes to has those bits for its word. -/
theorem encodeOfDecode : Obligations.EncodeOfDecode := by
  intro i w h
  unfold decodeWord at h
  split at h
  case h_1 j hraw =>
    split at h
    case h_1 hd =>
      cases h
      exact ⟨by rw [encode, encodeNat_of_decodeRaw w.isLt hraw]; simp, hd⟩
    case h_2 => cases h
  case h_2 => cases h

end Sys2Proof
end


section
/-! SUPPORT. The words that the manual writes out. -/

namespace Sys2Proof

/-- Settles O3: each instruction is well-formed and the word is its own; the all-zero word has operation 0 of class 0x0, which none has. -/
theorem manualWords : Obligations.ManualWords := by
  have of {i : Instr} {w : BitVec 32} (hd : i.defect = none) (hw : encode i = some w) : decodeWord w = .ok i := decodeOfEncode i w hd hw
  exact ⟨of rfl rfl, of rfl rfl, of rfl rfl, of rfl rfl, of rfl rfl, of rfl rfl, of rfl rfl, of rfl rfl, of rfl rfl, of rfl rfl, of rfl rfl,
    of rfl rfl, of rfl rfl, of rfl rfl, of rfl rfl, of rfl rfl, rfl⟩

end Sys2Proof
end


section
/-! SUPPORT. Extensions, shifts and rotates of words as arithmetic, and the immediate forms (R42, R96). -/

namespace Sys2Proof.Machine

/-- A sign extension keeps the signed value. -/
theorem signExtend_eq_ofInt {v : Nat} (w : Nat) (x : BitVec v) : x.signExtend w = BitVec.ofInt w x.toInt := rfl

/-- A left shift multiplies by a power of two. -/
theorem shiftLeft_eq_ofNat {w : Nat} (x : BitVec w) (n : Nat) : x <<< n = BitVec.ofNat w (x.toNat * 2 ^ n) := by
  rw [← Nat.shiftLeft_eq]; rfl

/-- A right shift divides by a power of two. -/
theorem ushiftRight_eq_ofNat {w : Nat} (x : BitVec w) (n : Nat) : x >>> n = BitVec.ofNat w (x.toNat / 2 ^ n) := by
  rw [← Nat.shiftRight_eq_div_pow, ← BitVec.toNat_ushiftRight, BitVec.ofNat_toNat, BitVec.setWidth_eq]

/-- An arithmetic right shift divides the signed value by a power of two. -/
theorem sshiftRight_eq_ofInt {w : Nat} (x : BitVec w) (n : Nat) : x.sshiftRight n = BitVec.ofInt w (x.toInt / 2 ^ n) := by
  rw [BitVec.sshiftRight, Int.shiftRight_eq_div_pow]; norm_cast

/-- What a left shift moves up lies above what the complementary right shift leaves. -/
theorem shiftLeft_and_ushiftRight {w k : Nat} (x : BitVec w) (hk : k ≤ w) : x <<< k &&& x >>> (w - k) = 0#w := by
  ext i hi
  simp only [BitVec.getElem_and, BitVec.getElem_shiftLeft, BitVec.getElem_ushiftRight, BitVec.getElem_zero]
  by_cases h : i < k
  · simp [h]
  · rw [BitVec.getLsbD_of_ge x (w - k + i) (by omega), Bool.and_false]

/-- A rotate joins the two shifts without a carry. -/
theorem shiftLeft_or_ushiftRight {w k : Nat} (x : BitVec w) (hk : k ≤ w) :
    x <<< k ||| x >>> (w - k) = BitVec.ofNat w (x.toNat * 2 ^ k + x.toNat / 2 ^ (w - k)) := by
  rw [← BitVec.add_eq_or_of_and_eq_zero _ _ (shiftLeft_and_ushiftRight x hk), BitVec.ofNat_add, shiftLeft_eq_ofNat, ushiftRight_eq_ofNat]

theorem rotateLeft_eq_ofNat {w n : Nat} (x : BitVec w) (hn : n < w) :
    x.rotateLeft n = BitVec.ofNat w (x.toNat * 2 ^ n % 2 ^ w + x.toNat / 2 ^ (w - n)) := by
  rw [BitVec.rotateLeft_def, Nat.mod_eq_of_lt hn, shiftLeft_or_ushiftRight x hn.le, BitVec.ofNat_add, BitVec.ofNat_add]
  congr 1
  exact BitVec.eq_of_toNat_eq (by simp only [BitVec.toNat_ofNat, Nat.mod_mod])

theorem rotateRight_eq_ofNat {w n : Nat} (x : BitVec w) (hn : n < w) :
    x.rotateRight n = BitVec.ofNat w (x.toNat / 2 ^ n + x.toNat * 2 ^ (w - n)) := by
  have h := shiftLeft_or_ushiftRight x (Nat.sub_le w n)
  rw [Nat.sub_sub_self hn.le] at h
  rw [BitVec.rotateRight_def, Nat.mod_eq_of_lt hn, BitVec.or_comm, h, Nat.add_comm]

/-- An instruction of the immediate form whose value function is `f` at the immediate. -/
theorem withImm_of {i : Instr} {d a : Reg} {x : Word} {f : Word → Word → Word} (g : State → Word → Word)
    (h : ∀ s, exec i s = s.imm d a (g s)) (e : ∀ s y, g s y = f y (s.immOr x)) : WithImm i d a x f :=
  does_of _ _ _ _ _ _ h (fun s _ t => congrArg (t.put d.toNat) (e s (t.get a.toNat)))

/-- Settles O7: each form is its value function at the immediate or the literal, and each extension, shift and rotate is its arithmetic. -/
theorem immediates : Obligations.Immediates :=
  ⟨fun d a i => ⟨withImm_of (fun s x => x + s.immOr (i.signExtend 32)) (fun _ => rfl) (fun _ _ => rfl),
      withImm_of (fun s x => x * s.immOr (i.signExtend 32)) (fun _ => rfl) (fun _ _ => rfl),
      withImm_of (fun s x => x &&& s.immOr (i.setWidth 32)) (fun _ => rfl) (fun _ _ => by rw [BitVec.ofNat_toNat]),
      withImm_of (fun s x => x ||| s.immOr (i.setWidth 32)) (fun _ => rfl) (fun _ _ => by rw [BitVec.ofNat_toNat]),
      withImm_of (fun s x => x ^^^ s.immOr (i.setWidth 32)) (fun _ => rfl) (fun _ _ => by rw [BitVec.ofNat_toNat])⟩,
    fun c p a i => does_of _ _ _ _ _ _ (fun _ => rfl) (fun _ _ _ => rfl),
    fun d a i => ⟨withImm_of (fun _ x => x <<< i.toNat) (fun _ => rfl) (fun _ x => shiftLeft_eq_ofNat x i.toNat),
      withImm_of (fun _ x => x >>> i.toNat) (fun _ => rfl) (fun _ x => ushiftRight_eq_ofNat x i.toNat),
      withImm_of (fun _ x => x.sshiftRight i.toNat) (fun _ => rfl) (fun _ x => sshiftRight_eq_ofInt x i.toNat),
      withImm_of (fun _ x => x.rotateLeft i.toNat) (fun _ => rfl) (fun _ x => rotateLeft_eq_ofNat x i.isLt),
      withImm_of (fun _ x => x.rotateRight i.toNat) (fun _ => rfl) (fun _ x => rotateRight_eq_ofNat x i.isLt)⟩,
    fun d i => does_of _ _ _ _ _ _ (fun _ => rfl) (fun _ _ _ => rfl)⟩

end Sys2Proof.Machine
end


section
/-! SUPPORT. Prefix words, repeats and retirement (R50 to R56, R138). -/

namespace Sys2Proof.Machine

/-- R55: a thread with repeats left goes on to the next of them. -/
theorem Thread.retire_repeat {t : Thread} (c : Issue) (hr : t.pfx.repv = true) (hn : t.pfx.next < t.pfx.cnt) :
    t.retire c = { t with pc := c.pc, pfx := { t.pfx with next := t.pfx.next + 1 }, wait := .none, waited := 0 } := if_pos ⟨hr, hn⟩

/-- R54, R55: a thread with no repeat left goes on to the next group, without prefix state. -/
theorem Thread.retire_last {t : Thread} (c : Issue) (h : t.pfx.repv = false ∨ t.pfx.cnt ≤ t.pfx.next) :
    t.retire c = { t with pc := c.next, pfx := {}, wait := .none, waited := 0 } :=
  if_neg fun ⟨hr, hn⟩ => h.elim (fun h => Bool.false_ne_true (h.symm.trans hr)) (Nat.not_le.2 hn)

/-- R164: a thread that retires waits for nothing. -/
@[simp] theorem Thread.retire_wait (t : Thread) (c : Issue) : (t.retire c).wait = .none := by unfold Thread.retire; split <;> rfl

/-- Settles O15: a prefix word is its latch, SWIN, NOP and LAND are register operations, and retirement splits on the repeats left. -/
theorem prefixesAndRepeats : Obligations.PrefixesAndRepeats :=
  ⟨⟨fun _ _ _ _ _ _ => rfl, fun _ _ _ => rfl, fun _ _ => rfl, fun _ => does_of _ _ _ _ _ _ (fun _ => rfl) (fun _ _ _ => rfl)⟩,
    does_of _ _ _ _ _ _ (fun _ => rfl) (fun _ _ _ => rfl), does_of _ _ _ _ _ _ (fun _ => rfl) (fun _ _ _ => rfl),
    fun t c => ⟨fun hr hn => by rw [Thread.retire_repeat c hr hn]; exact ⟨rfl, rfl⟩, fun h => by rw [Thread.retire_last c h]; exact ⟨rfl, rfl⟩,
      t.retire_regs c, t.retire_preds c, t.retire_wb c, t.retire_f c, t.retire_wait c⟩⟩

end Sys2Proof.Machine
end


section
/-! SUPPORT. The words of a group: fetching its prefix words and its instruction word, and their checks (R36, R50, R51, R56). -/

namespace Sys2Proof.Machine

/-- R36: the class of a word is its highest bits. -/
theorem fld_class (w : Word) : fld w.toNat 4 28 = w.toNat / 2 ^ 28 := by
  have := w.isLt
  unfold fld
  omega

/-- R50: the kind of a word of class 0xF. -/
theorem fld_kind (w : Word) : fld w.toNat 4 24 = w.toNat / 2 ^ 24 % 16 := rfl

/-- R50: a word of class 0xF whose kind is known. -/
theorem class_kind_of_prefix {w : Word} {k : Nat} (hk : k < 16) (h : w.toNat / 2 ^ 24 = 0xF0 + k) :
    fld w.toNat 4 28 = 15 ∧ fld w.toNat 4 24 = k := by
  rw [fld_class, fld_kind]
  omega

section
variable {fetch : Nat → Except (MemFault × Nat) Word} {pc : Nat} {w : Word} (hf : fetch pc = .ok w) (n : Nat) (g : Group)
include hf

/-- R36: a word outside class 0xF ends the group. -/
theorem scanGroup_instr (hc : w.toNat / 2 ^ 28 ≠ 15) (prev : Option (Nat × Word)) :
    scanGroup fetch (n + 1) g prev none pc = .group { g with pc := pc, word := w } := by
  rw [← fld_class] at hc
  simp only [scanGroup, hf, if_pos hc]

/-- R51, R52: a SWIN is a group of itself. -/
theorem scanGroup_swin (hc : w.toNat / 2 ^ 28 = 15) (hk : w.toNat / 2 ^ 24 % 16 = 3) :
    scanGroup fetch (n + 1) g none none pc = .group { g with pc := pc, word := w } := by
  rw [← fld_class] at hc
  rw [← fld_kind] at hk
  simp only [scanGroup, hf, hc, hk, ne_eq, not_true_eq_false, if_false, le_refl, if_true]

variable {i : Instr} (hi : decodeWord w = .ok i)
include hi

/-- R51: a REP stands first in its group. -/
theorem scanGroup_rep (hw : w.toNat / 2 ^ 24 = 0xF0) :
    scanGroup fetch (n + 1) g none none pc = scanGroup fetch n { g with rep := some (pc, w) } (some (pc, w)) none (pc + 4) := by
  obtain ⟨hc, hk⟩ := class_kind_of_prefix (k := 0) (by decide) hw
  simp [scanGroup, hf, hc, hk, hi]

/-- R51: an IFP stands before a LIMM. -/
theorem scanGroup_ifp (hw : w.toNat / 2 ^ 24 = 0xF1) (hifp : g.ifp = none) (hlimm : g.limm = none) (prev : Option (Nat × Word)) :
    scanGroup fetch (n + 1) g prev none pc = scanGroup fetch n { g with ifp := some (pc, w) } (some (pc, w)) none (pc + 4) := by
  obtain ⟨hc, hk⟩ := class_kind_of_prefix (k := 1) (by decide) hw
  simp [scanGroup, hf, hc, hk, hi, hifp, hlimm]

/-- R51: a LIMM stands last, its literal behind it. -/
theorem scanGroup_limm (hw : w.toNat / 2 ^ 24 = 0xF2) {lit : Word} (hlit : fetch (pc + 4) = .ok lit) (hlimm : g.limm = none)
    (prev : Option (Nat × Word)) :
    scanGroup fetch (n + 1) g prev none pc =
      scanGroup fetch n { g with limm := some (pc, w), lit := lit } (some (pc, w)) none (pc + 8) := by
  obtain ⟨hc, hk⟩ := class_kind_of_prefix (k := 2) (by decide) hw
  simp [scanGroup, hf, hc, hk, hi, hlit, hlimm]

end

/-- R36: a word alone, which may be a SWIN, is a group. -/
theorem scanGroup_word {fetch : Nat → Except (MemFault × Nat) Word} {pc : Nat} {w : Word} (hf : fetch pc = .ok w) (n : Nat)
    (hw : w.toNat / 2 ^ 28 ≠ 15 ∨ w.toNat / 2 ^ 24 % 16 = 3) :
    scanGroup fetch (n + 1) { grp := pc } none none pc = .group { grp := pc, pc := pc, word := w } := by
  by_cases hc : w.toNat / 2 ^ 28 = 15
  · exact scanGroup_swin hf n _ hc (hw.resolve_left (not_not.2 hc))
  · exact scanGroup_instr hf n _ hc none

/-- The words of a group of which each prefix may be absent: where they stand, and that each decodes. -/
structure GroupAt (fetch : Nat → Except (MemFault × Nat) Word) (pc : Nat) (rep ifp limm : Option (Word × Instr)) (lit : Word)
    (a1 a2 a3 : Nat) (w : Word) : Prop where
  after_rep : a1 = pc + (if rep.isSome then 4 else 0)
  after_ifp : a2 = a1 + (if ifp.isSome then 4 else 0)
  after_limm : a3 = a2 + (if limm.isSome then 8 else 0)
  rep_word : ∀ x ∈ rep, fetch pc = .ok x.1 ∧ x.1.toNat / 2 ^ 24 = 0xF0 ∧ decodeWord x.1 = .ok x.2
  ifp_word : ∀ x ∈ ifp, fetch a1 = .ok x.1 ∧ x.1.toNat / 2 ^ 24 = 0xF1 ∧ decodeWord x.1 = .ok x.2
  limm_word : ∀ x ∈ limm, fetch a2 = .ok x.1 ∧ x.1.toNat / 2 ^ 24 = 0xF2 ∧ decodeWord x.1 = .ok x.2 ∧ fetch (a2 + 4) = .ok lit
  no_lit : limm = none → lit = 0
  instr_word : fetch a3 = .ok w
  instr_class : w.toNat / 2 ^ 28 ≠ 15

/-- The group that the words make. -/
def groupWith (pc : Nat) (rep ifp limm : Option (Word × Instr)) (lit : Word) (a1 a2 a3 : Nat) (w : Word) : Group :=
  { grp := pc, rep := rep.map (fun x => (pc, x.1)), ifp := ifp.map (fun x => (a1, x.1)), limm := limm.map (fun x => (a2, x.1))
    lit := lit, pc := a3, word := w }

/-- The prefix words of the group, in order, with their addresses. -/
theorem groupWith_words (pc : Nat) (rep ifp limm : Option (Word × Instr)) (lit : Word) (a1 a2 a3 : Nat) (w : Word) :
    let g := groupWith pc rep ifp limm lit a1 a2 a3 w
    (g.rep.toList ++ g.ifp.toList ++ g.limm.toList).map (·.2) = (rep.toList ++ ifp.toList ++ limm.toList).map (·.1) := by
  cases rep <;> cases ifp <;> cases limm <;> rfl

section
variable {fetch : Nat → Except (MemFault × Nat) Word} {pc : Nat} {rep ifp limm : Option (Word × Instr)} {lit : Word} {a1 a2 a3 : Nat} {w : Word}

/-- Each prefix word of the group is the word of the instruction given. -/
theorem GroupAt.words_decode (h : GroupAt fetch pc rep ifp limm lit a1 a2 a3 w) :
    ∀ x ∈ rep.toList ++ ifp.toList ++ limm.toList, decodeWord x.1 = .ok x.2 := by
  intro x hx
  simp only [List.mem_append, Option.mem_toList] at hx
  obtain (hx | hx) | hx := hx
  · exact (h.rep_word x hx).2.2
  · exact (h.ifp_word x hx).2.2
  · exact (h.limm_word x hx).2.2.1

/-- R51 pass 1: an optional REP, then an optional IFP, then an optional LIMM, then the instruction word. -/
theorem scanGroup_groupAt (h : GroupAt fetch pc rep ifp limm lit a1 a2 a3 w) (n : Nat) :
    scanGroup fetch (n + 4) { grp := pc } none none pc = .group (groupWith pc rep ifp limm lit a1 a2 a3 w) := by
  obtain ⟨h1, h2, h3, hrep, hifp, hlimm, hlit, hw, hc⟩ := h
  have rep_step : ∃ m prev, scanGroup fetch (n + 4) { grp := pc } none none pc =
      scanGroup fetch (m + 3) { grp := pc, rep := rep.map (fun x => (pc, x.1)) } prev none a1 := by
    cases rep with
    | none => exact ⟨n + 1, none, by rw [h1]; rfl⟩
    | some x =>
      obtain ⟨hx, hk, hd⟩ := hrep x rfl
      exact ⟨n, _, by rw [h1]; exact scanGroup_rep hx _ _ hd hk⟩
  obtain ⟨m1, p1, e1⟩ := rep_step
  have ifp_step : ∃ m prev, scanGroup fetch (m1 + 3) { grp := pc, rep := rep.map (fun x => (pc, x.1)) } p1 none a1 =
      scanGroup fetch (m + 2) { grp := pc, rep := rep.map (fun x => (pc, x.1)), ifp := ifp.map (fun x => (a1, x.1)) } prev none a2 := by
    cases ifp with
    | none => exact ⟨m1 + 1, p1, by rw [h2]; rfl⟩
    | some x =>
      obtain ⟨hx, hk, hd⟩ := hifp x rfl
      exact ⟨m1, _, by rw [h2]; exact scanGroup_ifp hx _ _ hd hk rfl rfl _⟩
  obtain ⟨m2, p2, e2⟩ := ifp_step
  have limm_step : ∃ m prev, scanGroup fetch (m2 + 2)
        { grp := pc, rep := rep.map (fun x => (pc, x.1)), ifp := ifp.map (fun x => (a1, x.1)) } p2 none a2 =
      scanGroup fetch (m + 1) { grp := pc, rep := rep.map (fun x => (pc, x.1)), ifp := ifp.map (fun x => (a1, x.1)),
                                limm := limm.map (fun x => (a2, x.1)), lit := lit } prev none a3 := by
    cases limm with
    | none => exact ⟨m2 + 1, p2, by rw [h3, hlit rfl]; rfl⟩
    | some x =>
      obtain ⟨hx, hk, hd, hl⟩ := hlimm x rfl
      exact ⟨m2, _, by rw [h3]; exact scanGroup_limm hx _ _ hd hk hl rfl _⟩
  obtain ⟨m3, p3, e3⟩ := limm_step
  rw [e1, e2, e3, scanGroup_instr hw _ _ hc]
  rfl

end

/-- R51 passes 2 and 3, passed. -/
theorem Group.check_ok {g : Group} {i : Instr} (hi : decodeWord g.word = .ok i)
    (hp : prefixDefect i g.word (g.rep.map (fun p => repSteps p.2)) (g.limm.map (fun p => limmTargetOf p.2)) = none) : g.check = .ok i := by
  simp only [Group.check, hi, hp]

end Sys2Proof.Machine
end

section
/-! SUPPORT. The fetch of a group in a state, the issue of a gang and the turns of a step (R36, R55 to R58, R157, R163). -/

namespace Sys2Proof.Machine

/-- The words that a thread at level `l` of the block fetches. -/
def State.words (s : State) (b : Block) (l : Level) (a : Nat) : Except (MemFault × Nat) Word :=
  match s.fetchAt b l a with
  | .error f => .error f
  | .ok (w, _) => .ok w

theorem words_of_fetchAt {s s' : State} {b : Block} {l : Level} {a : Nat} {w : Word} (h : s.fetchAt b l a = .ok (w, s')) :
    s.words b l a = .ok w := by
  rw [State.words, h]

/-- R14: a fetch leaves threads as they are. -/
theorem fetchAt_held {s s' : State} {b : Block} {l : Level} {a : Nat} {w : Word} (h : s.fetchAt b l a = .ok (w, s')) : s'.held = s.held := by
  unfold State.fetchAt at h
  split at h
  · cases h
  next hr => cases h; exact (readVa_held hr :)

theorem noteFetch_of_fetchAt {s s' : State} {b : Block} {l : Level} {a : Nat} {w : Word} (h : s.fetchAt b l a = .ok (w, s')) :
    s.noteFetch b l a = s' := by
  rw [State.noteFetch, h]

/-- R56: a group that resumes behind a pending prefix: its instruction word, and its literal read again where it has one. -/
def resumedGroup (fetch : Nat → Except (MemFault × Nat) Word) (pc : Nat) (lit : Bool) : Fetched :=
  match fetch pc with
  | .error (f, va) => .fault f va
  | .ok w =>
    if !lit then .group { grp := pc, pc := pc, word := w }
    else match fetch (pc - 4), fetch (pc - 8) with
      | .error (f, va), _ => .fault f va
      | _, .error (f, va) => .fault f va
      | .ok lit, .ok lw => .group { grp := pc, pc := pc, word := w, limm := some (pc - 8, lw), lit := lit }

theorem fetchGroup_eq (s : State) (b : Block) (l : Level) (pc : Nat) (p : Pfx) : s.fetchGroup b l pc p =
    if !p.repv && !p.ifpv then scanGroup (s.words b l) (2 ^ 55) { grp := pc } none none pc else resumedGroup (s.words b l) pc p.limmv := rfl

section
variable {s : State} {b : Block} {l : Level} {pc : Nat} {p : Pfx} {w : Word}

/-- R36: with no prefix pending the whole group is fetched. -/
theorem fetchGroup_fresh (hr : p.repv = false) (hi : p.ifpv = false) :
    ∃ n, s.fetchGroup b l pc p = scanGroup (s.words b l) (n + 4) { grp := pc } none none pc := by
  obtain ⟨n, hn⟩ : ∃ n, 2 ^ 55 = n + 4 := ⟨2 ^ 55 - 4, by norm_num⟩
  exact ⟨n, by rw [fetchGroup_eq, hn, hr, hi]; rfl⟩

section
variable (hp : p.repv = true ∨ p.ifpv = true) (hw : s.words b l pc = .ok w)
include hp hw

/-- R56: behind a pending prefix without a literal the instruction word alone is fetched. -/
theorem fetchGroup_resumed (hl : p.limmv = false) : s.fetchGroup b l pc p = .group { grp := pc, pc := pc, word := w } := by
  rw [fetchGroup_eq, if_neg (by rcases hp with h | h <;> simp [h]), resumedGroup, hw, hl]
  rfl

/-- R56: behind a pending prefix with a literal the literal is read again. -/
theorem fetchGroup_resumed_lit (hl : p.limmv = true) {lit lw : Word} (hlit : s.words b l (pc - 4) = .ok lit) (hlw : s.words b l (pc - 8) = .ok lw) :
    s.fetchGroup b l pc p = .group { grp := pc, pc := pc, word := w, limm := some (pc - 8, lw), lit := lit } := by
  rw [fetchGroup_eq, if_neg (by rcases hp with h | h <;> simp [h]), resumedGroup, hw, hl, hlit, hlw]
  rfl

end

end

/-- R55: prefix words that decode are executed one after another. -/
theorem thenDo_runWords (f : State → Outcome) (o : Outcome) (ws : List (Nat × Word)) (l : List (Word × Instr)) (hl : ws.map (·.2) = l.map (·.1))
    (hd : ∀ x ∈ l, decodeWord x.1 = .ok x.2) :
    thenDo (thenDo o (fun s => runWords s ws)) f = thenDo (l.foldl (fun o x => thenDo o (exec x.2)) o) f := by
  induction ws generalizing o l with
  | nil =>
    obtain rfl : l = [] := by simpa using hl.symm
    cases o <;> rfl
  | cons y ws ih =>
    obtain _ | ⟨x, l⟩ := l
    · cases hl
    obtain ⟨hyx, hl⟩ := List.cons.inj (by simpa using hl : y.2 :: ws.map (·.2) = x.1 :: l.map (·.1))
    have hx : decodeWord y.2 = .ok x.2 := hyx ▸ hd x List.mem_cons_self
    have e : thenDo o (fun s => runWords s (y :: ws)) = thenDo (thenDo o (exec x.2)) (fun s => runWords s ws) := by
      cases o with
      | next s => show runWords s (y :: ws) = _; rw [runWords]; simp only [hx]; rfl
      | fault _ => rfl
      | refused _ => rfl
    rw [e, ih _ l hl (fun z hz => hd z (List.mem_cons_of_mem _ hz)), List.foldl_cons]

/-- The same from a state. -/
theorem runWords_eq (f : State → Outcome) (s : State) {ws : List (Nat × Word)} {l : List (Word × Instr)} (hl : ws.map (·.2) = l.map (·.1))
    (hd : ∀ x ∈ l, decodeWord x.1 = .ok x.2) :
    thenDo (runWords s ws) f = thenDo (l.foldl (fun o x => thenDo o (exec x.2)) (.next s)) f := thenDo_runWords f (.next s) ws l hl hd

section
variable {s : State} {b : Block} {t : Thread} {k : Nat} {ks : List Nat} (hk : s.cur.tids = k :: ks) (ht : s.thread? s.cur.blk k = some (b, t))
include hk ht

/-- R55: without a REP the instruction word runs as it is. -/
theorem runRepeat_once (hr : t.pfx.repv = false) {i : Instr} (hi : decodeWord s.cur.word = .ok i) : runRepeat s = exec i s := by
  simp only [runRepeat, hk, List.head?_cons, Option.bind_some, ht, hr, hi]
  rfl

/-- R55: under a REP the instruction word runs with its fields stepped. -/
theorem runRepeat_stepped (hr : t.pfx.repv = true) (ho : stepOffender s.cur.word t.pfx = none) {i : Instr}
    (hi : decodeWord (stepWord s.cur.word t.pfx.sd t.pfx.sa t.pfx.sb t.pfx.next t.pfx.stride.toInt) = .ok i) : runRepeat s = exec i s := by
  simp only [runRepeat, hk, List.head?_cons, Option.bind_some, ht, hr, hi, ho]
  rfl

end

/-- R163: the gang at place `gi` of a block has issued. -/
def State.noteIssue (s : State) (bi gi : Nat) : State :=
  s.updBlock bi (fun b => { b with gangs := upd b.gangs gi (fun g => { g with last := some s.clock }) })

/-- What the issue of a group by a gang's threads is (R55, R58). -/
def Group.issue (gr : Group) (bi : Nat) (tids : List Nat) (lit : Option (LimmTarget × Word)) : Issue :=
  { blk := bi, tids := tids, grp := BitVec.ofNat 64 gr.grp, pc := BitVec.ofNat 64 gr.pc, next := BitVec.ofNat 64 (gr.pc + 4)
    word := gr.word, litWord := gr.lit, lit := lit }

section
variable {s s2 s3 : State} {bi gi : Nat} {g : Gang} {b b' : Block} {t : Thread} {k : Nat} {ks : List Nat} (hb : s.blocks[bi]? = some b)
  (hs : s.settleAll bi (s.activeTids bi b g) = (s2, k :: ks)) (hs3 : (s2.ageQuads bi g (s.activeTids bi b g)).noteIssue bi gi = s3)
  (ht : s3.thread? bi k = some (b', t)) {gr : Group}
  (hg : s3.fetchGroup b t.level t.pc.toNat t.pfx = .group gr)
include hb hs hs3 ht hg

/-- R55, R58: a fresh group that passes its checks: its prefix words, then its instruction word. -/
theorem runIssue_fresh (hr : t.pfx.repv = false) (hi : t.pfx.ifpv = false) {i : Instr} (hc : gr.check = .ok i) :
    runIssue s bi gi g = thenDo (runWords { s3.noteFetch b t.level gr.pc with cur := gr.issue bi (k :: ks) none }
      (gr.rep.toList ++ gr.ifp.toList ++ gr.limm.toList)) runRepeat := by
  subst hs3
  unfold State.noteIssue at ht hg
  simp only [runIssue, hb, hs, List.head?_cons, Option.bind_some, ht, hg, hr, hi, hc]
  rfl

/-- R56, R58: a group that resumes and passes its checks: its instruction word, its literal in place. -/
theorem runIssue_resumed (hp : t.pfx.repv = true ∨ t.pfx.ifpv = true) {i : Instr} (hc : gr.checkResumed t.pfx = .ok i) :
    runIssue s bi gi g = runRepeat { s3.noteFetch b t.level gr.pc with
      cur := gr.issue bi (k :: ks) (gr.limm.map (fun x => (limmTargetOf x.2, gr.lit))) } := by
  have hp' : (t.pfx.repv || t.pfx.ifpv) = true := by simpa using hp
  subst hs3
  unfold State.noteIssue at ht hg
  simp only [runIssue, hb, hs, List.head?_cons, Option.bind_some, ht, hg, hp', hc]
  rfl

end

/-- The issue record of a group that begins at the thread's PC. -/
theorem Group.issue_of_grp {gr : Group} {pc : DWord} (h : gr.grp = pc.toNat) (bi : Nat) (tids : List Nat) (lit : Option (LimmTarget × Word)) :
    gr.issue bi tids lit = { blk := bi, tids := tids, grp := pc, pc := BitVec.ofNat 64 gr.pc, next := BitVec.ofNat 64 (gr.pc + 4)
                             word := gr.word, litWord := gr.lit, lit := lit } := by
  simp only [Group.issue, h, BitVec.ofNat_toNat, BitVec.setWidth_eq]

section
variable {s s2 s3 s4 : State} {bi gi : Nat} {g : Gang} {b b' : Block} {t : Thread} {k : Nat} {ks : List Nat} {w : Word} (hb : s.blocks[bi]? = some b)
  (hs : s.settleAll bi (s.activeTids bi b g) = (s2, k :: ks)) (hs3 : (s2.ageQuads bi g (s.activeTids bi b g)).noteIssue bi gi = s3)
  (ht : s3.thread? bi k = some (b', t))
include hb hs hs3 ht

section
variable (hr : t.pfx.repv = false) (hi : t.pfx.ifpv = false) {i : Instr} (hd : decodeWord w = .ok i)
include hr hi hd

/-- R36: a group of one word runs the instruction of that word. -/
theorem runIssue_word (hw : s3.fetchAt b t.level t.pc.toNat = .ok (w, s4)) (hc : w.toNat / 2 ^ 28 ≠ 15 ∨ w.toNat / 2 ^ 24 % 16 = 3) :
    runIssue s bi gi g = exec i { s4 with cur := Group.issue { grp := t.pc.toNat, pc := t.pc.toNat, word := w } bi (k :: ks) none } := by
  obtain ⟨n, hn⟩ := fetchGroup_fresh (s := s3) (b := b) (l := t.level) (pc := t.pc.toNat) hr hi
  rw [scanGroup_word (words_of_fetchAt hw) _ hc] at hn
  rw [runIssue_fresh hb hs hs3 ht hn hr hi (Group.check_ok hd rfl), noteFetch_of_fetchAt hw]
  refine runRepeat_once (b := b') (t := t) (k := k) (ks := ks) rfl ?_ hr hd
  rw [← thread?_of_held (fetchAt_held hw)] at ht
  exact ht

/-- R51, R55: a group with prefix words runs these, in order, and then its instruction word. -/
theorem runIssue_groupAt {rep ifp limm : Option (Word × Instr)} {lit : Word} {a1 a2 a3 : Nat}
    (h : GroupAt (s3.words b t.level) t.pc.toNat rep ifp limm lit a1 a2 a3 w) (hw : s3.fetchAt b t.level a3 = .ok (w, s4))
    (hp : prefixDefect i w (rep.map (fun x => repSteps x.1)) (limm.map (fun x => limmTargetOf x.1)) = none) :
    runIssue s bi gi g = thenDo ((rep.toList ++ ifp.toList ++ limm.toList).foldl (fun o x => thenDo o (exec x.2))
      (.next { s4 with cur := (groupWith t.pc.toNat rep ifp limm lit a1 a2 a3 w).issue bi (k :: ks) none })) runRepeat := by
  obtain ⟨n, hn⟩ := fetchGroup_fresh (s := s3) (b := b) (l := t.level) (pc := t.pc.toNat) hr hi
  rw [scanGroup_groupAt h] at hn
  have hc : (groupWith t.pc.toNat rep ifp limm lit a1 a2 a3 w).check = .ok i :=
    Group.check_ok hd (by simpa only [groupWith, Option.map_map, Function.comp_def] using hp)
  rw [runIssue_fresh hb hs hs3 ht hn hr hi hc, runWords_eq _ _ (groupWith_words ..) h.words_decode]
  exact congrArg (fun x : State => thenDo (List.foldl _ (.next { x with cur := _ }) _) _) (noteFetch_of_fetchAt hw)

end

section
variable (hp : t.pfx.repv = true ∨ t.pfx.ifpv = true) (hw : s3.fetchAt b t.level t.pc.toNat = .ok (w, s4)) {j : Instr}
include hp hw

/-- R56: behind a pending prefix without a literal the instruction word alone runs. -/
theorem runIssue_pending (hl : t.pfx.limmv = false)
    (hc : Group.checkResumed { grp := t.pc.toNat, pc := t.pc.toNat, word := w } t.pfx = .ok j) :
    runIssue s bi gi g = runRepeat { s4 with cur := Group.issue { grp := t.pc.toNat, pc := t.pc.toNat, word := w } bi (k :: ks) none } := by
  rw [runIssue_resumed hb hs hs3 ht (fetchGroup_resumed hp (words_of_fetchAt hw) hl) hp hc, noteFetch_of_fetchAt hw]
  rfl

/-- R56: behind a pending prefix with a literal the instruction word runs with the literal read again. -/
theorem runIssue_pending_lit (hl : t.pfx.limmv = true) {lit lw : Word} (hlit : s3.words b t.level (t.pc.toNat - 4) = .ok lit)
    (hlw : s3.words b t.level (t.pc.toNat - 8) = .ok lw)
    (hc : Group.checkResumed { grp := t.pc.toNat, pc := t.pc.toNat, word := w, limm := some (t.pc.toNat - 8, lw), lit := lit } t.pfx = .ok j) :
    runIssue s bi gi g = runRepeat { s4 with
      cur := Group.issue { grp := t.pc.toNat, pc := t.pc.toNat, word := w, limm := some (t.pc.toNat - 8, lw), lit := lit } bi (k :: ks)
        (some (limmTargetOf lw, lit)) } := by
  rw [runIssue_resumed hb hs hs3 ht (fetchGroup_resumed_lit hp (words_of_fetchAt hw) hl hlit hlw) hp hc, noteFetch_of_fetchAt hw]
  rfl

end

end

end Sys2Proof.Machine
end


section
/-! SUPPORT. The turns of a step: what comes from outside, an agent, decoder 0 and decoder 1 (R36, R157, R163, R375). -/

namespace Sys2Proof.Machine

/-- Releases are noted and time passes after whatever a step runs. -/
theorem step_of_runStep {s : State} {o : Outcome} (h : runStep s = o) :
    step s = thenDo o (fun x => .next (x.noteReleases s).passTime) := congrArg (thenDo · _) h

section
variable {s : State}

theorem runStep_input {i : Instr} {rest : List Instr} (h : s.inputs = i :: rest) : runStep s = exec i { s with inputs := rest } := by
  simp only [runStep, h]

theorem runStep_stopped (h : s.inputs = []) (hs : s.boot.stopped = true ∨ s.boot.powered = false) : runStep s = .fault .moduleStopped := by
  simp only [runStep, h]
  exact if_pos (by simpa using hs)

section
variable (h : s.inputs = []) (hs : s.boot.stopped = false) (hp : s.boot.powered = true)
include h hs hp

theorem runStep_agents (ha : s.agents = true) (hd : s.decoder1 = none) : runStep s = (runAgent s).getD (.next s) := by
  simp only [runStep, h, hs, hp, ha, hd]
  rfl

theorem runStep_threads (ha : s.agents = false ∨ s.decoder1 ≠ none) : runStep s = (runThreads s).getD (.next s) := by
  have ha' : (s.agents && s.decoder1.isNone) = false := by
    rw [Bool.and_eq_false_iff]
    exact ha.imp_right (fun hd => by rwa [Option.isNone_eq_false_iff, Option.isSome_iff_ne_none])
  simp only [runStep, h, hs, hp, ha']
  rfl

end

/-- R163, R164: the state in which the decoders choose: gangs formed, and the active sets filled. -/
def State.withActiveSets (s : State) : State := s.regangAll.coresInUse.foldl State.swapActive s.regangAll

/-- R163: decoder 0 chooses a gang. -/
theorem runThreads_decoder0 (h : s.withActiveSets.decoder1 = none) : runThreads s =
    (s.withActiveSets.nextGang).map (fun g => runIssue { s.withActiveSets with decoder1 := s.withActiveSets.forDecoder1 g.1 g.2.2 } g.1 g.2.1 g.2.2) := by
  unfold State.withActiveSets at h ⊢
  simp only [runThreads, h]

/-- R163: decoder 1 chooses a gang beside that of decoder 0. -/
theorem runThreads_decoder1 {core : Nat} {groups : List Nat} (h : s.withActiveSets.decoder1 = some (core, groups)) : runThreads s =
    some ((((({ s.withActiveSets with decoder1 := none } : State).besideGang core groups).map
      (fun g => runIssue { s.withActiveSets with decoder1 := none } g.1 g.2.1 g.2.2)).getD (.next { s.withActiveSets with decoder1 := none }))) := by
  unfold State.withActiveSets at h ⊢
  simp only [runThreads, h]

/-- R163: the gang that issues, and the state in which it does: the choice of decoder 0, or of decoder 1 after it. -/
def Chosen (s0 s1 : State) (bi gi : Nat) (g : Gang) : Prop :=
  s0.decoder1 = none ∧ s0.nextGang = some (bi, gi, g) ∧ s1 = { s0 with decoder1 := s0.forDecoder1 bi g } ∨
    ∃ core groups, s0.decoder1 = some (core, groups) ∧ s1 = { s0 with decoder1 := none } ∧ s1.besideGang core groups = some (bi, gi, g)

/-- R163: the threads' turn is the issue of the chosen gang. -/
theorem runThreads_chosen {s1 : State} {bi gi : Nat} {g : Gang} (h : Chosen s.withActiveSets s1 bi gi g) : runThreads s = some (runIssue s1 bi gi g) := by
  obtain ⟨hd, hn, rfl⟩ | ⟨core, groups, hd, rfl, hn⟩ := h
  · rw [runThreads_decoder0 hd, hn]; rfl
  · rw [runThreads_decoder1 hd, hn]; rfl

end

/-- Settles O54: each turn is its case of `runStep`, and an issue is that of its group, of one word, with prefix words, or resumed. -/
theorem stepRunsDecoded : Obligations.StepRunsDecoded := by
  intro s passes
  refine ⟨fun i rest h => step_of_runStep (runStep_input h), fun h hs => step_of_runStep (runStep_stopped h hs), fun h hs hp => ⟨?_, ?_⟩, ?_⟩
  · intro ha hd
    have hrun := runStep_agents h hs hp ha hd
    exact ⟨fun i hi => step_of_runStep (hrun.trans (by rw [runAgent, hi]; rfl)), fun hi => step_of_runStep (hrun.trans (by rw [runAgent, hi]; rfl))⟩
  · intro ha s0
    have hrun := runStep_threads h hs hp ha
    refine ⟨fun hd hn => step_of_runStep (hrun.trans ?_), fun core groups hd hn => step_of_runStep (hrun.trans ?_), ?_⟩
    · rw [runThreads_decoder0 hd, show s.withActiveSets.nextGang = none from hn]; rfl
    · rw [runThreads_decoder1 hd, show State.besideGang { s.withActiveSets with decoder1 := none } core groups = none from hn]; rfl
    intro bi gi k g b b' t ks s1 s2 s4 w hchosen hb hset s3 ht pc stands issued
    have issues {o : Outcome} (ho : runIssue s1 bi gi g = o) : step s = passes o := by
      refine step_of_runStep (hrun.trans ?_)
      rw [runThreads_chosen hchosen, ho]
      rfl
    refine ⟨fun hr hi => ⟨fun hw hc i hd => issues ?_, ?_⟩, fun hpend hw => ⟨fun hl j hc => issues ?_, ?_⟩⟩
    · rw [runIssue_word hb hset rfl ht hr hi hd hw hc, Group.issue_of_grp rfl]; rfl
    · intro rep ifp limm lit i a1 a2 a3 hrep hifp hlimm hlit hw hc hd hpd
      have hgroup : GroupAt (s3.words b t.level) pc rep ifp limm lit a1 a2 a3 w :=
        { after_rep := rfl, after_ifp := rfl, after_limm := rfl, no_lit := hlit, instr_word := words_of_fetchAt hw, instr_class := hc
          rep_word := fun x hx => (hrep x hx).imp_left fun ⟨_, hf⟩ => words_of_fetchAt hf
          ifp_word := fun x hx => (hifp x hx).imp_left fun ⟨_, hf⟩ => words_of_fetchAt hf
          limm_word := fun x hx => by
            obtain ⟨⟨_, hf⟩, hk, hx, ⟨_, hl⟩⟩ := hlimm x hx
            exact ⟨words_of_fetchAt hf, hk, hx, words_of_fetchAt hl⟩ }
      refine issues ?_
      rw [runIssue_groupAt hb hset rfl ht hr hi hd hgroup hw hpd, Group.issue_of_grp rfl]
      rfl
    · rw [runIssue_pending hb hset rfl ht hpend hw hl hc, Group.issue_of_grp rfl]; rfl
    · intro lw lit j hl hlit hlw hc
      obtain ⟨_, hlit⟩ := hlit
      obtain ⟨_, hlw⟩ := hlw
      refine issues ?_
      rw [runIssue_pending_lit hb hset rfl ht hpend hw hl (words_of_fetchAt hlit) (words_of_fetchAt hlw) hc, Group.issue_of_grp rfl]
      rfl
  · intro b t k ks hk ht
    exact ⟨fun hr i hi => runRepeat_once hk ht hr hi, fun hr ho i hi => runRepeat_stepped hk ht hr ho hi⟩

end Sys2Proof.Machine
end


section
/-! SUPPORT. Register instructions by the shape of their meaning (R84 to R88): one lemma for each shape. -/

namespace Sys2Proof.Machine

section
variable {i : Instr} {d a b : Reg} {sb : Bool}

theorem unary_of {f g : Word → Word} (e : ∀ x, g x = f x) (h : ∀ s, exec i s = s.un d a g) : Unary i d a f :=
  does_of _ _ _ _ _ _ h (fun _ _ t => congrArg (t.put d.toNat) (e _))

theorem unaryOfPair_of {f g : DWord → Word} (e : ∀ x, g x = f x) (h : ∀ s, exec i s = s.un64 d a g) : UnaryOfPair i d a f :=
  does_of _ _ _ _ _ _ h (fun _ _ t => congrArg (t.put d.toNat) (e _))

theorem unaryToPair_of {f g : Word → DWord} (e : ∀ x, g x = f x) (h : ∀ s, exec i s = s.widen d a g) : UnaryToPair i d a f :=
  does_of _ _ _ _ _ _ h (fun _ _ t => congrArg (t.put64 d.toNat) (e _))

theorem binary_of {f g : Word → Word → Word} (e : ∀ x y, g x y = f x y) (h : ∀ s, exec i s = s.bin d a b sb g) : Binary i d a b sb f :=
  does_of _ _ _ _ _ _ h (fun _ _ t => congrArg (t.put d.toNat) (e _ _))

theorem ternary_of {f g : Word → Word → Word → Word} (e : ∀ x y z, g x y z = f x y z) (h : ∀ s, exec i s = s.tern d a b sb g) :
    Ternary i d a b sb f :=
  does_of _ _ _ _ _ _ h (fun _ _ t => congrArg (t.put d.toNat) (e _ _ _))

theorem binaryToPair_of {f g : Word → Word → DWord} (e : ∀ x y, g x y = f x y) (h : ∀ s, exec i s = s.binWide d a b sb g) :
    BinaryToPair i d a b sb f :=
  does_of _ _ _ _ _ _ h (fun _ _ t => congrArg (t.put64 d.toNat) (e _ _))

theorem binaryPair_of {f g : DWord → DWord → DWord} (e : ∀ x y, g x y = f x y) (h : ∀ s, exec i s = s.bin64 d a b sb g) :
    BinaryPair i d a b sb f :=
  does_of _ _ _ _ _ _ h (fun _ _ t => congrArg (t.put64 d.toNat) (e _ _))

theorem compare_of {p : BitVec 3} {f g : Word → Word → Bool} (e : ∀ x y, g x y = f x y) (h : ∀ s, exec i s = s.cmp p a b sb g) :
    Compare i p a b sb f :=
  does_of _ _ _ _ _ _ h (fun _ _ t => congrArg (t.putPred p.toNat) (e _ _))

/-- R107: the divider gives its result at once, or as a return of one word. -/
theorem divide_of {f g : Word → Word → Word} (e : ∀ x y, g x y = f x y) (h : ∀ s, exec i s = s.divide d a b sb g) : Divide i d a b sb f := by
  obtain rfl : g = f := funext fun x => funext (e x)
  refine ⟨fun s blk hb hl hr => ?_, fun s blk t hs hl hf => ?_⟩
  · rw [h, State.divide, if_neg (by simp [hl])]
    exact State.alu_ok s _ _ _ _ blk hb hr
  · have hbytes (z : Word) : ofBytes (toBytes 4 z.toNat) = z.toNat := by
      rw [ofBytes_toBytes]; exact Nat.mod_eq_of_lt z.isLt
    have hlater : s.progressed.later = true := hl
    rw [h, State.divide, if_pos hl, exec_fold hs _ _ (lc _ _ _ _ hf _), State.deliver, if_pos hlater, hbytes, toBytes_length]
    rfl

end

end Sys2Proof.Machine
end


section
/-! SUPPORT. Integer arithmetic of words (R63, R64, R90): sums, products, bounds and quotients as those of the integers they stand for. -/

namespace Sys2Proof.Machine

section
variable {w : Nat} (x y : BitVec w)

theorem add_eq_ofInt : x + y = BitVec.ofInt w (x.toInt + y.toInt) := by simp [BitVec.ofInt_add]

theorem sub_eq_ofInt : x - y = BitVec.ofInt w (x.toInt - y.toInt) := by
  rw [BitVec.sub_eq_add_neg, Int.sub_eq_add_neg, BitVec.ofInt_add, BitVec.ofInt_neg, BitVec.ofInt_toInt, BitVec.ofInt_toInt]

theorem mul_eq_ofInt : x * y = BitVec.ofInt w (x.toInt * y.toInt) := by simp [BitVec.ofInt_mul]

theorem mul_add_eq_ofInt (z : BitVec w) : x * y + z = BitVec.ofInt w (x.toInt * y.toInt + z.toInt) := by
  rw [BitVec.ofInt_add, BitVec.ofInt_toInt, mul_eq_ofInt]

theorem abs_eq_ofInt : (if x.msb then -x else x) = BitVec.ofInt w |x.toInt| := by
  by_cases h : x.toInt < 0
  · rw [BitVec.msb_eq_toInt, if_pos (by simpa using h), abs_of_neg h, BitVec.ofInt_neg, BitVec.ofInt_toInt]
  · rw [BitVec.msb_eq_toInt, if_neg (by simpa using h), abs_of_nonneg (by omega), BitVec.ofInt_toInt]

/-- Adding a shifted word. -/
theorem shiftLeft_add (n : Nat) : x <<< n + y = BitVec.ofNat w (x.toNat * 2 ^ n + y.toNat) := by
  rw [shiftLeft_eq_ofNat, BitVec.ofNat_add, BitVec.ofNat_toNat, BitVec.setWidth_eq]

/-- A product of sign-extended words is the product of what they stand for. -/
theorem signExtend_mul (v : Nat) : x.signExtend v * y.signExtend v = BitVec.ofInt v (x.toInt * y.toInt) := by
  rw [signExtend_eq_ofInt, signExtend_eq_ofInt, BitVec.ofInt_mul]

/-- A product of zero-extended words is the product of their numbers. -/
theorem setWidth_mul_setWidth (v : Nat) : x.setWidth v * y.setWidth v = BitVec.ofNat v (x.toNat * y.toNat) := by
  rw [BitVec.ofNat_mul, BitVec.ofNat_toNat, BitVec.ofNat_toNat]

end

section
variable (x y : Word)

/-! R90: the bounds of the model choose one of the words; so do those of the numbers. -/

theorem minS_eq_ite : minS x y = if x.toInt ≤ y.toInt then x else y := by simp only [minS, BitVec.sle_eq_decide, decide_eq_true_eq]
theorem maxS_eq_ite : maxS x y = if x.toInt ≤ y.toInt then y else x := by simp only [maxS, BitVec.sle_eq_decide, decide_eq_true_eq]
theorem minU_eq_ite : minU x y = if x.toNat ≤ y.toNat then x else y := by simp only [minU, BitVec.ule_eq_decide, decide_eq_true_eq]
theorem maxU_eq_ite : maxU x y = if x.toNat ≤ y.toNat then y else x := by simp only [maxU, BitVec.ule_eq_decide, decide_eq_true_eq]

theorem minS_eq_ofInt : minS x y = BitVec.ofInt 32 (min x.toInt y.toInt) := by
  rw [minS_eq_ite, min_def, apply_ite (BitVec.ofInt 32), BitVec.ofInt_toInt, BitVec.ofInt_toInt]

theorem maxS_eq_ofInt : maxS x y = BitVec.ofInt 32 (max x.toInt y.toInt) := by
  rw [maxS_eq_ite, max_def, apply_ite (BitVec.ofInt 32), BitVec.ofInt_toInt, BitVec.ofInt_toInt]

theorem minU_eq_ofNat : minU x y = BitVec.ofNat 32 (min x.toNat y.toNat) := by
  rw [minU_eq_ite, min_def, apply_ite (BitVec.ofNat 32), BitVec.ofNat_toNat, BitVec.ofNat_toNat, BitVec.setWidth_eq, BitVec.setWidth_eq]

theorem maxU_eq_ofNat : maxU x y = BitVec.ofNat 32 (max x.toNat y.toNat) := by
  rw [maxU_eq_ite, max_def, apply_ite (BitVec.ofNat 32), BitVec.ofNat_toNat, BitVec.ofNat_toNat, BitVec.setWidth_eq, BitVec.setWidth_eq]

/-- R63: a sum clamped to an unsigned word has no lower bound to meet. -/
theorem clampU_add : clampU ((x.toNat : Int) + y.toNat) = BitVec.ofNat 32 (min 4294967295 (x.toNat + y.toNat)) := by
  have h : max 0 (min 4294967295 ((x.toNat : Int) + y.toNat)) = (min 4294967295 (x.toNat + y.toNat) : Nat) := by omega
  rw [clampU, clampInt, h, BitVec.ofInt_natCast]

/-- R63: a difference clamped to an unsigned word has no upper bound to meet. -/
theorem clampU_sub : clampU ((x.toNat : Int) - y.toNat) = BitVec.ofNat 32 (x.toNat - y.toNat) := by
  have h : max 0 (min 4294967295 ((x.toNat : Int) - y.toNat)) = (x.toNat - y.toNat : Nat) := by omega
  rw [clampU, clampInt, h, BitVec.ofInt_natCast]

/-- R64: the remainder is what the quotient times the divisor leaves. -/
theorem remS_eq : remS x y = if y = 0 then x else x - BitVec.ofInt 32 (x.toInt.tdiv y.toInt) * y := by
  have h : BitVec.ofInt 32 (x.toInt.tmod y.toInt) + BitVec.ofInt 32 (x.toInt.tdiv y.toInt) * y = x := by
    conv_rhs => rw [← BitVec.ofInt_toInt (x := x), ← Int.tmod_add_tdiv_mul x.toInt y.toInt]
    rw [BitVec.ofInt_add, BitVec.ofInt_mul, BitVec.ofInt_toInt]
  rw [remS, eq_sub_of_add_eq h]

theorem remU_eq : remU x y = if y = 0 then x else x - BitVec.ofNat 32 (x.toNat / y.toNat) * y := by
  have h : BitVec.ofNat 32 (x.toNat % y.toNat) + BitVec.ofNat 32 (x.toNat / y.toNat) * y = x := by
    conv_rhs => rw [← BitVec.setWidth_eq x, ← BitVec.ofNat_toNat, ← Nat.mod_add_div' x.toNat y.toNat]
    rw [BitVec.ofNat_add, BitVec.ofNat_mul, BitVec.ofNat_toNat 32 y, BitVec.setWidth_eq]
  rw [remU, eq_sub_of_add_eq h]

end

/-- R37, R49: the word of the three register fields, SB and a code of class 0x0. -/
theorem encode_of_regs {i : Instr} {d a b : Reg} {sb : Bool} {code : Nat}
    (h : encodeNat i = some (code + d.toNat * 2097152 + a.toNat * 16384 + b.toNat * 128 + sb.toNat * 64)) :
    encode i = some (BitVec.ofNat 32 (d.toNat * 2 ^ 21 + a.toNat * 2 ^ 14 + b.toNat * 2 ^ 7 + sb.toNat * 2 ^ 6 + code)) := by
  rw [encode, h, Option.map_some, Nat.add_comm _ code]
  simp only [Nat.add_assoc]
  rfl

/-- Settles O4: each value function of the model is the integers' own, reduced or clamped; and each word holds its fields and its code. -/
theorem integerArithmetic : Obligations.IntegerArithmetic := by
  intro d a b sb coded
  refine ⟨binary_of add_eq_ofInt fun _ => rfl, binary_of sub_eq_ofInt fun _ => rfl, binary_of mul_eq_ofInt fun _ => rfl,
    binary_of (fun _ _ => rfl) fun _ => rfl, binary_of (fun _ _ => rfl) fun _ => rfl,
    ternary_of mul_add_eq_ofInt fun _ => rfl, unary_of abs_eq_ofInt fun _ => rfl,
    binary_of minS_eq_ofInt fun _ => rfl, binary_of maxS_eq_ofInt fun _ => rfl,
    binary_of minU_eq_ofNat fun _ => rfl, binary_of maxU_eq_ofNat fun _ => rfl,
    binary_of (fun _ _ => rfl) fun _ => rfl, binary_of (fun _ _ => rfl) fun _ => rfl,
    binary_of clampU_add fun _ => rfl, binary_of clampU_sub fun _ => rfl,
    binary_of (fun x y => shiftLeft_add x y 1) fun _ => rfl, binary_of (fun x y => shiftLeft_add x y 2) fun _ => rfl,
    binary_of (fun x y => shiftLeft_add x y 3) fun _ => rfl, binary_of (fun x y => shiftLeft_add x y 4) fun _ => rfl,
    divide_of (fun _ _ => rfl) fun _ => rfl, divide_of remS_eq fun _ => rfl,
    divide_of (fun _ _ => rfl) fun _ => rfl, divide_of remU_eq fun _ => rfl,
    binaryPair_of add_eq_ofInt fun _ => rfl, binaryPair_of sub_eq_ofInt fun _ => rfl,
    binaryToPair_of (fun x y => signExtend_mul x y 64) fun _ => rfl, binaryToPair_of (fun x y => setWidth_mul_setWidth x y 64) fun _ => rfl,
    encode_of_regs rfl, encode_of_regs rfl, encode_of_regs rfl, encode_of_regs rfl, encode_of_regs rfl, encode_of_regs rfl,
    encode_of_regs rfl, encode_of_regs rfl, encode_of_regs rfl, encode_of_regs rfl, encode_of_regs rfl, encode_of_regs rfl,
    encode_of_regs rfl, encode_of_regs rfl, encode_of_regs rfl, encode_of_regs rfl, encode_of_regs rfl, encode_of_regs rfl,
    encode_of_regs rfl, encode_of_regs rfl, encode_of_regs rfl, encode_of_regs rfl, encode_of_regs rfl, encode_of_regs rfl,
    encode_of_regs rfl, encode_of_regs rfl, ?_⟩
  rintro rfl rfl
  exact encode_of_regs rfl

end Sys2Proof.Machine
end


section
/-! SUPPORT. Rounding, and encodings as the roundings of the numbers they stand for (R65, R69, R71, R73, R74). -/

namespace Sys2Proof.Machine

/-! ## Rounding to an integer (R69) -/

/-- R69: what is lost in m ÷ 2^k, rounded up, is a carry unless nothing is lost. -/
theorem div_ceil_eq (m k : Nat) : (m + (2 ^ k - 1)) / 2 ^ k = if m % 2 ^ k ≠ 0 then m / 2 ^ k + 1 else m / 2 ^ k := by
  have hk : 0 < 2 ^ k := by positivity
  rw [Nat.add_div hk, Nat.div_eq_of_lt (Nat.sub_lt hk one_pos), Nat.mod_eq_of_lt (Nat.sub_lt hk one_pos), Nat.add_zero]
  by_cases hr : m % 2 ^ k = 0
  · rw [if_neg (by omega), if_neg (by simpa using hr), Nat.add_zero]
  · rw [if_pos (by omega), if_pos hr]

theorem roundShift_down (neg : Bool) (m k : Nat) : roundShift 2 neg m k = if neg then (m + (2 ^ k - 1)) / 2 ^ k else m / 2 ^ k := by
  cases neg <;> simp [roundShift, div_ceil_eq]

theorem roundShift_up (neg : Bool) (m k : Nat) : roundShift 3 neg m k = if neg then m / 2 ^ k else (m + (2 ^ k - 1)) / 2 ^ k := by
  cases neg <;> simp [roundShift, div_ceil_eq]

/-- R69: the nearest integer is at most half a unit away, and in a tie even. -/
theorem roundShift_nearest (neg : Bool) (m k : Nat) :
    2 * (roundShift 0 neg m k * 2 ^ k) ≤ 2 * m + 2 ^ k ∧ 2 * m ≤ 2 * (roundShift 0 neg m k * 2 ^ k) + 2 ^ k ∧
      (2 * (m % 2 ^ k) = 2 ^ k → roundShift 0 neg m k % 2 = 0) := by
  have hm := Nat.div_add_mod' m (2 ^ k)
  have hr : m % 2 ^ k < 2 ^ k := Nat.mod_lt _ (by positivity)
  simp only [roundShift, Bool.or_eq_true, Bool.and_eq_true, decide_eq_true_eq, beq_iff_eq, bne_iff_ne]
  generalize m / 2 ^ k = n at *
  generalize m % 2 ^ k = r at *
  generalize 2 ^ k = q at *
  split
  case isTrue up =>
    have hodd (tie : 2 * r = q) : n % 2 = 1 := by omega
    rw [Nat.add_mul, Nat.one_mul]
    exact ⟨by omega, by omega, fun tie => Nat.succ_mod_two_eq_zero_iff.2 (hodd tie)⟩
  case isFalse stay => exact ⟨by omega, by omega, fun tie => by omega⟩

/-! ## Encodings of a format with infinities (R65, R66, R69, R73) -/

namespace Fmt

variable {f : Fmt} {mode x m fr ex : Nat} {neg : Bool} {e : Int}

/-- R65: an encoding is its sign over its magnitude code. -/
theorem signed_mag (hx : x < 2 ^ (f.top + 1)) : f.signed (x.testBit f.top) (x % 2 ^ f.top) = x := by
  have hq : x / 2 ^ f.top < 2 := Nat.div_lt_of_lt_mul (by rwa [pow_succ] at hx)
  have hd := Nat.div_add_mod x (2 ^ f.top)
  have hbit : x.testBit f.top = decide (x / 2 ^ f.top = 1) := by rw [Nat.testBit_eq_decide_div_mod_eq, Nat.mod_eq_of_lt hq]
  rw [signed, hbit]
  generalize x / 2 ^ f.top = q at hq hd ⊢
  interval_cases q <;> simpa using hd

/-- R65: the exponent of a magnitude code is below 2^eb. -/
theorem exponent_lt : x % 2 ^ f.top / 2 ^ f.mb < 2 ^ f.eb :=
  Nat.div_lt_of_lt_mul (by rw [← pow_add, Nat.add_comm]; exact Nat.mod_lt _ (by positivity))

/-- R65, R66: what an encoding of a format with infinities stands for. -/
theorem decode_ieee (hf : f.ieee = true) : f.decode x =
    let mag := x % 2 ^ f.top
    if mag / 2 ^ f.mb = 2 ^ f.eb - 1 then (if mag % 2 ^ f.mb = 0 then .inf (x.testBit f.top) else .nan)
    else if mag / 2 ^ f.mb = 0 then .fin (x.testBit f.top) (mag % 2 ^ f.mb) (1 - (f.bias : Int) - f.mb)
    else .fin (x.testBit f.top) (2 ^ f.mb + mag % 2 ^ f.mb) ((mag / 2 ^ f.mb : Nat) - (f.bias : Int) - f.mb) := by
  simp only [decode, hf, Bool.true_and, Bool.not_true, Bool.false_and, beq_iff_eq, Bool.false_eq_true, if_false]

/-- R69: rounding changes nothing where the last place of the format is that of the number. -/
theorem roundCode_exact (h : max ((m.log2 : Int) + e) (1 - f.bias) = e + f.mb) :
    f.roundCode mode neg m e = (e + f.mb + f.bias - 1).toNat * 2 ^ f.mb + m := by
  simp only [roundCode, h, Int.add_sub_cancel, le_refl, if_true, sub_self, Int.toNat_zero, pow_zero, mul_one]

theorem roundCode_subnormal (h0 : fr ≠ 0) (hfr : fr < 2 ^ f.mb) : f.roundCode mode neg fr (1 - (f.bias : Int) - f.mb) = fr := by
  have hlog : fr.log2 < f.mb := (Nat.log2_lt h0).2 hfr
  rw [roundCode_exact (by omega), show (1 - (f.bias : Int) - f.mb + f.mb + f.bias - 1).toNat = 0 by omega, Nat.zero_mul, Nat.zero_add]

theorem roundCode_normal (h0 : ex ≠ 0) (hfr : fr < 2 ^ f.mb) :
    f.roundCode mode neg (2 ^ f.mb + fr) ((ex : Int) - f.bias - f.mb) = ex * 2 ^ f.mb + fr := by
  have hlog : (2 ^ f.mb + fr).log2 = f.mb := (Nat.log2_eq_iff (by positivity)).2 ⟨Nat.le_add_right _ _, by rw [pow_succ]; omega⟩
  obtain ⟨c, rfl⟩ := Nat.exists_eq_succ_of_ne_zero h0
  rw [roundCode_exact (by omega), show ((c.succ : Int) - f.bias - f.mb + f.mb + f.bias - 1).toNat = c by omega, Nat.succ_mul, Nat.add_assoc]

/-- R69: a rounded magnitude code below that of infinity stands. -/
theorem round_of_lt (h : f.roundCode mode neg m e < f.infCode) : f.round mode neg m e = f.signed neg (f.roundCode mode neg m e) := by
  rw [round]; simp only [if_neg (Nat.not_le.2 h)]

/-- R65, R69: an encoding that is no NaN is the rounding of the number it stands for. -/
theorem encode_decode (hf : f.ieee = true) (hx : x < 2 ^ (f.top + 1)) (hn : f.decode x ≠ .nan) : f.encode mode (f.decode x) = x := by
  have hmag : x % 2 ^ f.top / 2 ^ f.mb * 2 ^ f.mb + x % 2 ^ f.top % 2 ^ f.mb = x % 2 ^ f.top := Nat.div_add_mod' _ _
  have hex : x % 2 ^ f.top / 2 ^ f.mb < 2 ^ f.eb := exponent_lt
  have hfr : x % 2 ^ f.top % 2 ^ f.mb < 2 ^ f.mb := Nat.mod_lt _ (by positivity)
  have hsign := signed_mag hx
  rw [decode_ieee hf] at hn ⊢
  dsimp only at hn ⊢
  generalize x % 2 ^ f.top / 2 ^ f.mb = ex at *
  generalize x % 2 ^ f.top % 2 ^ f.mb = fr at *
  generalize x % 2 ^ f.top = mag at *
  have hfinite (h : ex ≠ 2 ^ f.eb - 1) : mag < f.infCode := by
    have : (ex + 1) * 2 ^ f.mb ≤ f.infCode := Nat.mul_le_mul_right _ (by omega)
    rw [Nat.succ_mul] at this
    omega
  split at hn
  case isTrue hinf =>
    rw [if_pos hinf]
    split at hn
    case isTrue h0 => rw [if_pos h0, encode, infCode, ← hinf, ← Nat.add_zero (ex * _), ← h0, hmag, hsign]
    case isFalse => exact absurd rfl hn
  case isFalse hfin =>
    have hlt := hfinite hfin
    rw [if_neg hfin]
    by_cases hsub : ex = 0
    · rw [hsub, Nat.zero_mul, Nat.zero_add] at hmag
      subst hmag
      rw [if_pos hsub, encode]
      split
      case isTrue h0 => rwa [h0] at hsign
      case isFalse h0 =>
        have hcode : f.roundCode mode (x.testBit f.top) fr (1 - (f.bias : Int) - f.mb) = fr := roundCode_subnormal h0 hfr
        rw [round_of_lt (by rwa [hcode]), hcode, hsign]
    · have hcode : f.roundCode mode (x.testBit f.top) (2 ^ f.mb + fr) ((ex : Int) - f.bias - f.mb) = mag := (roundCode_normal hsub hfr).trans hmag
      rw [if_neg hsub, encode, if_neg (by positivity), round_of_lt (by rwa [hcode]), hcode, hsign]

end Fmt

/-! ## Exact sums and products (R71, R74) -/

theorem Num.mul_comm (x y : Num) : x.mul y = y.mul x := by
  have hxor (s t : Bool) : (s != t) = (t != s) := Bool.xor_comm s t
  cases x <;> cases y <;> simp only [Num.mul, hxor, Nat.mul_comm, Int.add_comm]

theorem Num.add_comm (rd : Bool) (x y : Num) : Num.add rd x y = Num.add rd y x := by
  cases x <;> cases y
  case inf.inf s t => simp only [Num.add]; split <;> simp_all [eq_comm]
  case fin.fin s m e t n g =>
    have hzero : (if s = t ∧ m = 0 ∧ n = 0 then s else rd) = if t = s ∧ n = 0 ∧ m = 0 then t else rd := by
      split <;> split <;> simp_all
    simp only [Num.add, min_comm e g, Int.add_comm (scaled s m e _), hzero]
  all_goals rfl

/-- R71: a NaN operand gives a NaN. -/
@[simp] theorem Num.nan_mul (x : Num) : Num.mul .nan x = .nan := rfl
@[simp] theorem Num.nan_add (rd : Bool) (x : Num) : Num.add rd .nan x = .nan := rfl

/-- Settles O10: rounding by its remainder, encodings of finite numbers by their exponent, and exact sums and products by the kinds of their
operands. -/
theorem roundingAndAlgebra : Obligations.RoundingAndAlgebra := by
  have hieee : ∀ f ∈ [fp64, fp32, fp16, bf16], f.ieee = true := by decide
  have hnan : ∀ f ∈ [fp64, fp32, fp16, bf16], f.decode f.nan = .nan := by decide
  refine ⟨fun neg m k => ⟨roundShift_nearest neg m k, rfl, roundShift_down false m k, roundShift_down true m k, roundShift_up true m k,
    roundShift_up false m k⟩, fun f hf mode x hx => ⟨Fmt.encode_decode (hieee f hf) hx, fun h => by rw [h]; rfl, hnan f hf⟩,
    fun f mode x y z => ?_⟩
  refine ⟨?_, ?_, ?_, fun hx => ?_, rfl⟩
  · rw [Fmt.add, Num.add_comm]; rfl
  · rw [Fmt.mul, Num.mul_comm]; rfl
  · rw [Fmt.fma, Num.mul_comm]; rfl
  · simp only [Fmt.add, Fmt.sub, Fmt.mul, Fmt.fma, hx, Num.nan_mul, Num.nan_add]
    exact ⟨rfl, rfl, rfl, rfl⟩

end Sys2Proof.Machine
end


section
/-! SUPPORT. FP32 instructions (R79, R80, R111 to R118): signs as bits, the classes of FCLASS, and the special functions of NaNs and below zero. -/

namespace Sys2Proof.Machine

/-! ## Signs (R65, R113) -/

/-- R65: the bits below the sign. -/
theorem and_magnitude (x : Word) : x &&& 0x7FFFFFFF = BitVec.ofNat 32 (x.toNat % 2 ^ 31) := by
  apply BitVec.eq_of_toNat_eq
  rw [BitVec.toNat_and, BitVec.toNat_ofNat, show (0x7FFFFFFF : Word).toNat = 2 ^ 31 - 1 from rfl, Nat.and_two_pow_sub_one_eq_mod]
  omega

/-- R65: the sign in its place. -/
theorem and_sign (y : Word) : y &&& 0x80000000 = BitVec.ofNat 32 (y.toNat / 2 ^ 31 * 2 ^ 31) := by
  apply BitVec.eq_of_toNat_eq
  rw [BitVec.toNat_and, BitVec.toNat_ofNat, show (0x80000000 : Word).toNat = 2 ^ 31 from rfl, Nat.and_two_pow, Nat.toNat_testBit]
  omega

/-- Changing the highest bit is adding it, the carry lost. -/
theorem xor_sign (x : Word) : x ^^^ 0x80000000 = BitVec.ofNat 32 (x.toNat + 2 ^ 31) := by
  have hlow : (x.toNat ^^^ 2 ^ 31) % 2 ^ 31 = x.toNat % 2 ^ 31 := by rw [Nat.xor_mod_two_pow, Nat.mod_self, Nat.xor_zero]
  have hhigh : (x.toNat ^^^ 2 ^ 31) / 2 ^ 31 = (x.toNat / 2 ^ 31) ^^^ 1 := by rw [Nat.xor_div_two_pow]; rfl
  apply BitVec.eq_of_toNat_eq
  rw [BitVec.toNat_xor, BitVec.toNat_ofNat, show (0x80000000 : Word).toNat = 2 ^ 31 from rfl]
  have hq : x.toNat / 2 ^ 31 < 2 := by omega
  have hd := Nat.div_add_mod x.toNat (2 ^ 31)
  generalize x.toNat / 2 ^ 31 = q at *
  interval_cases q <;> simp only [Nat.zero_xor, Nat.xor_self] at hhigh <;> omega

theorem copysign_eq (x y : Word) : (x &&& 0x7FFFFFFF) ||| (y &&& 0x80000000) = BitVec.ofNat 32 (x.toNat % 2 ^ 31 + y.toNat / 2 ^ 31 * 2 ^ 31) := by
  have hlow : x.toNat % 2 ^ 31 < 2 ^ 31 := Nat.mod_lt _ (by positivity)
  rw [and_magnitude, and_sign, Nat.add_comm, Nat.mul_comm, Nat.two_pow_add_eq_or_of_lt hlow, Nat.or_comm]
  exact BitVec.eq_of_toNat_eq (by simp only [BitVec.toNat_or, BitVec.toNat_ofNat, Nat.or_mod_two_pow])

/-! ## FCLASS (R115) -/

/-- R115: the class of each kind of number, a finite one by its sign, its zero fraction and its exponent. -/
theorem fclass_eq (x : Nat) : match fp32.decode x with
    | .inf neg => fclass x = if neg then 2 ^ 0 else 2 ^ 7
    | .nan => fclass x = if x.testBit 22 then 2 ^ 9 else 2 ^ 8
    | .fin neg m _ => fclass x = if m = 0 then (if neg then 2 ^ 3 else 2 ^ 4) else if x % 2 ^ 31 < 2 ^ 23 then (if neg then 2 ^ 2 else 2 ^ 5)
        else if neg then 2 ^ 1 else 2 ^ 6 := by
  have hex : x / 2 ^ 23 % 256 = x % 2 ^ 31 / 2 ^ 23 := by omega
  have hfr : x % 2 ^ 23 = x % 2 ^ 31 % 2 ^ 23 := by omega
  rw [Fmt.decode_ieee rfl, fclass, hex, hfr]
  simp only [show fp32.top = 31 from rfl, show fp32.mb = 23 from rfl, show fp32.eb = 8 from rfl]
  generalize x % 2 ^ 31 = mag at *
  have hmag : mag < 2 ^ 23 ↔ mag / 2 ^ 23 = 0 := (Nat.div_eq_zero_iff_lt (by positivity)).symm
  have hone : 2 ^ 23 + mag % 2 ^ 23 ≠ 0 := by positivity
  simp only [hmag, show 2 ^ 8 - 1 = 255 from rfl]
  by_cases hinf : mag / 2 ^ 23 = 255
  · by_cases h0 : mag % 2 ^ 23 = 0
    · simp only [if_pos hinf, if_pos h0]; cases x.testBit 31 <;> rfl
    · simp only [if_pos hinf, if_neg h0]; cases x.testBit 22 <;> rfl
  · by_cases hsub : mag / 2 ^ 23 = 0
    · by_cases h0 : mag % 2 ^ 23 = 0
      · simp only [if_neg hinf, if_pos hsub, if_pos h0]; cases x.testBit 31 <;> rfl
      · simp only [if_neg hinf, if_pos hsub, if_neg h0]; cases x.testBit 31 <;> rfl
    · simp only [if_neg hinf, if_neg hsub, if_neg hone]; cases x.testBit 31 <;> rfl

/-! ## Special functions (R79, R80, R118) -/

/-- R80: a special function of a NaN is the canonical NaN. -/
theorem special_nan : ∀ f ∈ [frcp, frsq, fexp2, flog2, fsin, fcos], ∀ x : Nat, fp32.decode x = .nan → f x = 0x7FC00000 := by
  intro f hf x hx
  simp only [List.mem_cons, List.not_mem_nil, or_false] at hf
  rcases hf with rfl | rfl | rfl | rfl | rfl | rfl
  · rw [frcp, hx]; rfl
  · rw [frsq, hx]; rfl
  · rw [fexp2, hx]; rfl
  · rw [flog2, hx]; rfl
  · rw [fsin, hx]; rfl
  · rw [fcos, hx]; rfl

/-- R80: the reciprocal square root and the logarithm of a negative number are the canonical NaN. -/
theorem special_negative : ∀ f ∈ [frsq, flog2], ∀ (x m : Nat) (e : Int), fp32.decode x = .fin true m e → m ≠ 0 → f x = 0x7FC00000 := by
  intro f hf x m e hx hm
  simp only [List.mem_cons, List.not_mem_nil, or_false] at hf
  rcases hf with rfl | rfl
  · simp only [frsq, hx, if_neg hm, if_true]; rfl
  · simp only [flog2, hx, if_neg hm, if_true]; rfl

/-- Settles O11: each form is its function of encodings, signs are bit 31, FCLASS splits as decoding does, and the edges are evaluated. -/
theorem singlePrecision : Obligations.SinglePrecision := by
  refine ⟨fun d a b sb ha hb m => ⟨binary_of (fun _ _ => rfl) fun _ => rfl, binary_of (fun _ _ => rfl) fun _ => rfl,
      binary_of (fun _ _ => rfl) fun _ => rfl, ternary_of (fun _ _ _ => rfl) fun _ => rfl⟩,
    fun d a b sb => ⟨binary_of (fun _ _ => rfl) fun _ => rfl, binary_of (fun _ _ => rfl) fun _ => rfl, binary_of (fun _ _ => rfl) fun _ => rfl,
      binary_of (fun _ _ => rfl) fun _ => rfl, binary_of copysign_eq fun _ => rfl, unary_of and_magnitude fun _ => rfl,
      unary_of xor_sign fun _ => rfl, unary_of (fun _ => rfl) fun _ => rfl, unary_of (fun _ => rfl) fun _ => rfl,
      unary_of (fun _ => rfl) fun _ => rfl, unary_of (fun _ => rfl) fun _ => rfl, unary_of (fun _ => rfl) fun _ => rfl,
      unary_of (fun _ => rfl) fun _ => rfl, unary_of (fun _ => rfl) fun _ => rfl⟩,
    fun c p a b sb => compare_of (fun _ _ => rfl) fun _ => rfl, fun x _ => fclass_eq x, special_nan, special_negative, ?_, ?_⟩
  · decide +kernel
  · decide +kernel

end Sys2Proof.Machine
end


section
/-! SUPPORT. Conversions and the range of integer results (R63, R76, R116, R117). -/

namespace Sys2Proof.Machine

section
variable {lo hi z : Int}

/-- R63: a clamp leaves what is in its range, and gives the end that the rest lies beyond. -/
theorem clampInt_of_mem (hl : lo ≤ z) (hh : z ≤ hi) : clampInt lo hi z = BitVec.ofInt 32 z := by rw [clampInt, min_eq_right hh, max_eq_right hl]

theorem clampInt_of_ge (h : lo ≤ hi) (hh : hi ≤ z) : clampInt lo hi z = BitVec.ofInt 32 hi := by rw [clampInt, min_eq_left hh, max_eq_right h]

theorem clampInt_of_le (hl : z ≤ lo) : clampInt lo hi z = BitVec.ofInt 32 lo := by rw [clampInt, max_eq_left (min_le_of_right_le hl)]

end

/-- Settles O12: each conversion decodes in one format and rounds once into the other, and an integer result is clamped. -/
theorem conversions : Obligations.Conversions := by
  refine ⟨fun d a m => ⟨unary_of (fun _ => rfl) fun _ => rfl, unary_of (fun _ => rfl) fun _ => rfl, unary_of (fun _ => rfl) fun _ => rfl,
    unary_of (fun _ => rfl) fun _ => rfl, unary_of (fun _ => rfl) fun _ => rfl, unary_of (fun _ => rfl) fun _ => rfl,
    unary_of (fun _ => rfl) fun _ => rfl, unaryToPair_of (fun _ => rfl) fun _ => rfl, unaryOfPair_of (fun _ => rfl) fun _ => rfl,
    unaryOfPair_of (fun _ => rfl) fun _ => rfl, unaryToPair_of (fun _ => rfl) fun _ => rfl⟩, fun lo hi mode _ hlo hhi _ => ?_⟩
  have hle : lo ≤ hi := hlo.trans hhi
  exact ⟨rfl, clampInt_of_ge hle le_rfl, clampInt_of_le le_rfl, fun neg m e =>
    ⟨clampInt_of_mem, fun h => clampInt_of_ge hle h.le, fun h => clampInt_of_le h.le⟩⟩

end Sys2Proof.Machine
end


section
/-! SUPPORT. A rendezvous whose members all run in the issue (R178 to R185): every member arrives, none is gone, and all complete. -/

namespace Sys2Proof.Machine

/-! ## Threads and their numbers (R12) -/

/-- R12: a thread stands at its number. -/
theorem Block.Numbered.get {b : Block} (hn : b.Numbered) {t : Thread} (ht : t ∈ b.threads) : b.threads[t.tid]? = some t := by
  obtain ⟨j, hj⟩ := List.getElem?_of_mem ht
  rw [hn j t hj, hj]

/-- R12: the numbers of a block's threads are those below how many there are. -/
theorem Block.Numbered.tids {b : Block} (hn : b.Numbered) : b.threads.map (·.tid) = List.range b.threads.length := by
  refine List.ext_getElem (by simp) fun k hk _ => ?_
  rw [List.getElem_map, List.getElem_range]
  exact hn k _ (List.getElem?_eq_getElem (by simpa using hk))

/-- R5: the one bits of a number are its set positions. -/
theorem popcount_eq (n : Nat) : ∀ x : Nat, popcount n x = (bitsOf n x).length := by
  induction n with
  | zero => intro x; rfl
  | succ n ih =>
    intro x
    have hshift : (fun i => x.testBit i) ∘ Nat.succ = fun i => (x / 2).testBit i := funext fun i => Nat.testBit_succ x i
    rw [popcount, ih, bitsOf, bitsOf, List.range_succ_eq_map, List.filter_cons, List.filter_map, hshift, Nat.testBit_zero]
    rcases Nat.mod_two_eq_zero_or_one x with h0 | h0 <;> simp [h0, Nat.add_comm]

/-! ## Who arrives, and what is then pending (R178 to R180) -/

/-- R179: a thread of the block in issue after the arrivals: `arr` of each that runs is pending. -/
def State.arrived (s : State) (arr : Thread → Arrival) (t : Thread) : Thread :=
  if s.cur.tids.contains t.tid then t.hold s.cur (.rendezvous (arr t)) else t

/-- R179: the block in issue after the arrivals. -/
def State.gathered (s : State) (b : Block) (arr : Thread → Arrival) : Block :=
  { b with threads := b.threads.map (s.arrived arr), progress := s.clock }

/-- Lanes depend on what they do in the threads that execute the group. -/
theorem lanesBy_congr {s : State} {b : Block} (close : Thread → Thread) (hb : s.issuing b) {f g : Block → Thread → Except Trap Thread}
    (e : ∀ t ∈ b.threads, s.runs t → t.guardOk = true → f b t = g b t) : s.lanesBy close f = s.lanesBy close g := by
  have hout : ∀ t ∈ b.threads, laneOut s close b f t = laneOut s close b g t := by
    intro t ht
    unfold laneOut
    split
    · rfl
    case isFalse hr =>
      split
      · rfl
      case isFalse hg => rw [e t ht (by simpa [State.runs] using hr) (by simpa using hg)]
  have hb' : s.blocks[s.cur.blk]? = some b := hb
  unfold State.lanesBy
  simp only [hb', List.map_congr_left hout]

/-- R179: what a member receives does not depend on its waiting. -/
theorem meetWrite_hold (ms : List (Nat × Arrival)) (j : Nat) (a : Arrival) (t : Thread) (c : Issue) (w : Wait) (pc : DWord) (o : Nat) :
    ({ (meetWrite ms j a (t.hold c w)).jump pc with oview := o, waited := (t.hold c w).waited } : Thread) =
      { (meetWrite ms j a t).jump pc with waitWord := c.word, oview := o } := by
  unfold meetWrite
  split_ifs <;> rfl

section
variable {s : State} {b : Block} {m : Nat} {M : DWord} {v : Nat} {arr : Thread → Arrival}

@[simp] theorem State.arrived_tid (t : Thread) : (s.arrived arr t).tid = t.tid := by rw [State.arrived]; split <;> rfl
@[simp] theorem State.arrived_exited (t : Thread) : (s.arrived arr t).exited = t.exited := by rw [State.arrived]; split <;> rfl
@[simp] theorem State.arrived_oview (t : Thread) : (s.arrived arr t).oview = t.oview := by rw [State.arrived]; split <;> rfl

theorem State.mem_runners {t : Thread} : t ∈ s.runners b ↔ t ∈ b.threads ∧ s.cur.tids.contains t.tid = true := List.mem_filter

variable (h : Meets s b m M v) (hmask : ∀ t, (arr t).mask = M) (hop : ∀ t u, (arr t).op = (arr u).op)
include h

/-- R179: a member stands in the group at its number. -/
theorem Meets.member {t : Thread} (ht : t ∈ s.runners b) : t.tid / 64 = m ∧ b.threads[t.tid]? = some t := by
  obtain ⟨hb, hr⟩ := State.mem_runners.1 ht
  exact ⟨(h.group.2 _ (by simpa using hr)).1, h.numbered.get hb⟩

/-- R178: the mask names each member. -/
theorem Meets.named_member {t : Thread} (ht : t ∈ s.runners b) : M.getLsbD (t.tid % 64) = true := by
  have hm := (h.member ht).1
  rw [h.named _ (Nat.mod_lt _ (by decide)), show 64 * m + t.tid % 64 = t.tid by omega]
  exact (State.mem_runners.1 ht).2

/-- R178: each bit of the mask names a member. -/
theorem Meets.member_of_named {k : Nat} (hk : k < 64) (hM : M.getLsbD k = true) :
    ∃ t ∈ s.runners b, t.tid = 64 * m + k ∧ b.threads[64 * m + k]? = some t := by
  rw [h.named k hk] at hM
  have hlt := (h.group.2 _ (by simpa using hM)).2
  have ht := h.numbered _ _ (List.getElem?_eq_getElem hlt)
  exact ⟨_, State.mem_runners.2 ⟨List.getElem_mem hlt, by rwa [ht]⟩, ht, List.getElem?_eq_getElem hlt⟩

/-- R178: there are as many members as bits of the mask. -/
theorem Meets.runners_length : (s.runners b).length = popcount 64 M.toNat := by
  have hnums : (s.runners b).map (·.tid) = (List.range b.threads.length).filter s.cur.tids.contains := by
    rw [← h.numbered.tids, List.filter_map]; rfl
  have hperm : ((s.runners b).map (·.tid)).Perm ((bitsOf 64 M.toNat).map (64 * m + ·)) := by
    refine (List.perm_ext_iff_of_nodup ?_ ?_).2 fun k => ?_
    · rw [hnums]; exact List.nodup_range.filter _
    · exact (List.nodup_range.filter _).map (add_right_injective _)
    · rw [List.mem_map, List.mem_map]
      constructor
      · rintro ⟨t, ht, rfl⟩
        have := (h.member ht).1
        exact ⟨t.tid % 64, List.mem_filter.2 ⟨List.mem_range.2 (Nat.mod_lt _ (by decide)), h.named_member ht⟩, by omega⟩
      · rintro ⟨k, hk, rfl⟩
        obtain ⟨hk, hM⟩ := List.mem_filter.1 hk
        obtain ⟨t, ht, he, -⟩ := h.member_of_named (List.mem_range.1 hk) hM
        exact ⟨t, ht, he⟩
  rw [popcount_eq, ← List.length_map (as := s.runners b), hperm.length_eq, List.length_map]

/-- R157: the issue is of one aligned group. -/
theorem Meets.groups : (s.cur.tids.map (· / 64)).eraseDups = [m] := by
  obtain ⟨hne, hall⟩ := h.group
  obtain ⟨k, ks, hks⟩ := List.exists_cons_of_ne_nil hne
  rw [hks] at hall ⊢
  have hrest : ((ks.map (· / 64)).filter (fun j => !j == m)) = [] := by
    simp only [List.filter_eq_nil_iff, List.mem_map]
    rintro _ ⟨j, hj, rfl⟩
    simp [(hall j (List.mem_cons_of_mem _ hj)).1]
  rw [List.map_cons, List.eraseDups_cons, (hall k List.mem_cons_self).1, hrest]
  rfl

/-- R179: what is pending in the group are the members' arrivals. -/
theorem Meets.pendingIn_gathered : (s.gathered b arr).pendingIn m = (s.runners b).map (fun t => (t.tid, arr t)) := by
  rw [Block.pendingIn, State.gathered, List.filterMap_map, State.runners, ← List.filterMap_eq_map, List.filterMap_filter]
  refine List.filterMap_congr fun t ht => ?_
  by_cases hr : s.cur.tids.contains t.tid = true
  · have hm := (h.member (State.mem_runners.2 ⟨ht, hr⟩)).1
    rw [Function.comp_apply, if_pos hr, if_pos ((congrArg (· / 64) (State.arrived_tid t)).trans hm), State.arrived, if_pos hr]
    rfl
  · simp [State.arrived, hr, h.idle t ht, -List.contains_eq_mem]

include hmask hop

omit h in
/-- R179: all of them are in one rendezvous. -/
theorem sameMeet_of (t u : Thread) : sameMeet (arr t) (arr u) = true := by simp [sameMeet, hop t u, hmask]

/-- R180: no member is gone. -/
theorem Meets.meetGone_gathered (t : Thread) : (s.gathered b arr).meetGone m (arr t) = false := by
  have hpend (k : Nat) (p : Nat × Arrival → Bool) :
      ((s.runners b).map (fun u => (u.tid, arr u))).any (fun q => q.1 == k && !sameMeet q.2 (arr t) && p q) = false := by
    simp [sameMeet_of hmask hop]
  rw [Block.meetGone, h.pendingIn_gathered, List.any_eq_false]
  intro k hk
  simp only [hpend, Bool.or_false]
  by_cases hM : M.getLsbD k = true
  · obtain ⟨u, hu, -, hget⟩ := h.member_of_named (List.mem_range.1 hk) hM
    simp [State.gathered, hget, (h.each u hu).2.1]
  · simp [hmask, hM]

/-- R179: the members of the rendezvous. -/
theorem Meets.members_gathered (t : Thread) : (s.gathered b arr).members m (arr t) = (s.runners b).map (fun u => (u.tid % 64, arr u)) := by
  rw [Block.members, h.pendingIn_gathered, List.filter_eq_self.2, List.map_map]
  · rfl
  · intro p hp
    obtain ⟨u, hu, rfl⟩ := List.mem_map.1 hp
    simp [sameMeet_of hmask hop, hmask, h.named_member hu]

/-- R179: every member has arrived. -/
theorem Meets.complete_gathered (t : Thread) : (s.gathered b arr).complete m (arr t) = true := by
  rw [Block.complete, h.members_gathered hmask hop, List.length_map, hmask, h.runners_length, beq_self_eq_true]

/-- R259: what the members have ordered. -/
theorem Meets.meetView_gathered (t : Thread) : (s.gathered b arr).meetView m (arr t) = ((s.runners b).map (·.oview)).foldl max 0 := by
  rw [Block.meetView, h.members_gathered hmask hop, List.map_map]
  refine congrArg (List.foldl max 0) (List.map_congr_left fun u hu => ?_)
  obtain ⟨hm, hget⟩ := h.member hu
  simp [State.gathered, show 64 * m + u.tid % 64 = u.tid by omega, hget]

/-- R180: nobody is gone, so that the arrivals end in what completes. -/
theorem Meets.resolveMeets_gathered : (s.updBlock s.cur.blk (fun _ => s.gathered b arr)).resolveMeets s.cur.blk m =
    s.updBlock s.cur.blk (fun _ => (s.gathered b arr).finishMeets m) := by
  have hgone : ((s.gathered b arr).pendingIn m).filter (fun p => (s.gathered b arr).meetGone m p.2) = [] := by
    rw [h.pendingIn_gathered, List.filter_eq_nil_iff]
    intro p hp
    obtain ⟨u, -, rfl⟩ := List.mem_map.1 hp
    simp [h.meetGone_gathered hmask hop u]
  rw [State.resolveMeets, State.updBlock_get _ _ _ _ h.block]
  simp only [hgone, List.foldl_nil, State.updBlock_updBlock]

/-- R179, R182 to R185: what completion leaves of the block: each member with what it receives, at its next group. -/
theorem Meets.finishMeets_gathered (hnext : ∀ t, (arr t).next = s.cur.next) : (s.gathered b arr).finishMeets m =
    { b with
      threads := b.threads.map (fun t => if s.cur.tids.contains t.tid then
        { (meetWrite ((s.runners b).map (fun u => (u.tid % 64, arr u))) (t.tid % 64) (arr t) t).jump s.cur.next with
          waitWord := s.cur.word, oview := ((s.runners b).map (·.oview)).foldl max 0 } else t)
      progress := s.clock } := by
  rw [Block.finishMeets]
  refine congrArg (fun l => ({ b with threads := l, progress := s.clock } : Block)) ?_
  refine (List.map_map ..).trans (List.map_congr_left fun t ht => ?_)
  rw [Function.comp_apply]
  by_cases hr : s.cur.tids.contains t.tid = true
  · have hm : (s.arrived arr t).tid / 64 = m := (congrArg (· / 64) (State.arrived_tid t)).trans (h.member (State.mem_runners.2 ⟨ht, hr⟩)).1
    have harr : (s.arrived arr t).arrival = some (arr t) := by rw [State.arrived, if_pos hr]; rfl
    simp only [harr, if_pos hr, h.complete_gathered hmask hop, h.members_gathered hmask hop, h.meetView_gathered hmask hop, hm, hnext,
      and_self, if_true]
    rw [State.arrived_tid, State.arrived, if_pos hr]
    exact meetWrite_hold _ _ _ _ _ _ _ _
  · have harr : (s.arrived arr t).arrival = none := by rw [State.arrived, if_neg hr]; exact h.idle t ht
    simp only [harr, if_neg hr]
    rw [State.arrived, if_neg hr]

omit hmask hop in
/-- R179: the lanes of members that meet no condition all arrive. -/
theorem Meets.lanesBy_arrive {f : Block → Thread → Except Trap Thread}
    (hf : ∀ t ∈ s.runners b, f b t = .ok (t.hold s.cur (.rendezvous (arr t)))) :
    s.lanesBy id f = s.updBlock s.cur.blk (fun _ => s.gathered b arr) := by
  rw [lanesBy_congr id h.block (g := fun _ t => .ok (t.hold s.cur (.rendezvous (arr t)))) fun t ht hr _ => hf t (State.mem_runners.2 ⟨ht, hr⟩),
    lanesBy_turn s _ b h.block]
  refine updBlock_congr _ _ _ _ b h.block ?_
  refine congrArg (fun l => ({ b with threads := l, progress := s.clock } : Block)) (List.map_congr_left fun t ht => ?_)
  by_cases hr : s.cur.tids.contains t.tid = true
  · rw [State.arrived, if_pos hr, if_pos hr, if_pos (h.each t (State.mem_runners.2 ⟨ht, hr⟩)).1]
  · rw [State.arrived, if_neg hr, if_neg hr]

end

/-- R178, R179: what a member arrives with under the mask `M`, `f` being its value, its selector and its predicate. -/
def State.arrivalOf (s : State) (op : Nat) (M : DWord) (d : Nat) (f : Thread → Word × Word × Bool) (t : Thread) : Arrival :=
  ⟨op, M, d, (f t).1, (f t).2.1, (f t).2.2, s.cur.next, s.cur.word⟩

/-! ## What completion writes, by the form (R182 to R185) -/

section
variable {ms : List (Nat × Arrival)} {j : Nat} {x : Arrival} {t : Thread}

theorem meetWrite_route (h : x.op ≤ 3) : meetWrite ms j x t =
    t.put x.d (((ms.find? (fun p => (p.1 : Int) == routeSource x.op j x.sel)).map (·.2.val)).getD x.val) := if_pos h

theorem meetWrite_any (h : x.op = 4) : meetWrite ms j x t = t.putPred x.d ((ms.map (·.2.pred)).any id) := by
  rw [meetWrite, if_neg (by omega), if_pos h, List.any_map]; rfl

theorem meetWrite_all (h : x.op = 5) : meetWrite ms j x t = t.putPred x.d ((ms.map (·.2.pred)).all id) := by
  rw [meetWrite, if_neg (by omega), if_neg (by omega), if_pos h, List.all_map]; rfl

theorem meetWrite_same (h : x.op = 6) :
    meetWrite ms j x t = t.putPred x.d ((ms.map (·.2.pred)).all id || !(ms.map (·.2.pred)).any id) := by
  rw [meetWrite, if_neg (by omega), if_neg (by omega), if_neg (by omega), if_pos h, List.not_any_eq_all_not, List.all_map, List.all_map]; rfl

theorem meetWrite_ballot (h : x.op = 7) :
    meetWrite ms j x t = t.put64 x.d (ms.foldl (fun y p => if p.2.pred then y ||| BitVec.twoPow 64 p.1 else y) 0) := by
  rw [meetWrite, if_neg (by omega), if_neg (by omega), if_neg (by omega), if_neg (by omega), if_pos h]

theorem meetWrite_scan (h : x.op = 0x13 ∨ x.op = 0x14) :
    meetWrite ms j x t = t.put x.d (reduceWords x.op ((ms.filter (fun p => p.1 ≤ j)).map (·.2.val))) := by
  rw [meetWrite, if_neg (by omega), if_neg (by omega), if_neg (by omega), if_neg (by omega), if_neg (by omega), if_pos h]

theorem meetWrite_reduce (h : 8 ≤ x.op ∧ x.op < 0x13) : meetWrite ms j x t = t.put x.d (reduceWords x.op (ms.map (·.2.val))) := by
  rw [meetWrite, if_neg (by omega), if_neg (by omega), if_neg (by omega), if_neg (by omega), if_neg (by omega), if_neg (by omega)]

end

section
variable {s : State} {b : Block} {m : Nat} {M : DWord} {v : Reg} (h : Meets s b m M v.toNat)
include h

/-- R182 to R185: a form whose members all run in the issue ends as its completion says of their arrivals. -/
theorem Meets.arrive {vs srcs : List Nat} (hf : ∀ t ∈ s.runners b, FieldsOk b t vs [v.toNat, v.toNat + 1] srcs) (op d : Nat)
    (f : Thread → Word × Word × Bool) : s.arrive op vs srcs v d f = .next (s.afterMeet b (fun t =>
      meetWrite ((s.runners b).map (fun u => (u.tid % 64, s.arrivalOf op M d f u))) (t.tid % 64) (s.arrivalOf op M d f t) t)) := by
  have hmask (t : Thread) : (s.arrivalOf op M d f t).mask = M := rfl
  have hop (t u : Thread) : (s.arrivalOf op M d f t).op = (s.arrivalOf op M d f u).op := rfl
  rw [State.arrive, h.lanesBy_arrive (arr := s.arrivalOf op M d f)]
  · simp only [h.groups, List.foldl_cons, List.foldl_nil, State.updBlock_cur]
    rw [h.resolveMeets_gathered hmask hop, h.finishMeets_gathered hmask hop fun _ => rfl]
    refine congrArg Host.Outcome.next (updBlock_congr _ _ _ _ b h.block ?_)
    refine congrArg (fun l => ({ b with threads := l, progress := s.clock } : Block)) (List.map_congr_left fun t ht => ?_)
    by_cases hr : s.cur.tids.contains t.tid = true
    · rw [if_pos hr, if_pos hr, if_pos (h.each t (State.mem_runners.2 ⟨ht, hr⟩)).1]
    · rw [if_neg hr, if_neg hr]
  · intro t ht
    obtain ⟨hregs, hpoison⟩ := hf t ht
    have heff : effMask (b.sget64 t v.toNat) t.tid = M := (h.each t ht).2.2
    have hregs' : checkRegs b t vs (upto v.toNat 1 2) = none := hregs
    simp only [hregs', hpoison, heff]
    rfl

/-- A completion that writes the same in every member leaves the same state. -/
theorem Meets.afterMeet_congr {f g : Thread → Thread} (e : ∀ t ∈ s.runners b, f t = g t) : s.afterMeet b f = s.afterMeet b g := by
  refine updBlock_congr _ _ _ _ b h.block ?_
  refine congrArg (fun l => ({ b with threads := l, progress := s.clock } : Block)) (List.map_congr_left fun t ht => ?_)
  by_cases hr : s.cur.tids.contains t.tid = true
  · simp only [e t (State.mem_runners.2 ⟨ht, hr⟩)]
  · rw [if_neg hr, if_neg hr]

/-- R182: a shuffle gives each member the value of its source, or its own where the source is no member. -/
theorem Meets.route {d a : Reg} {op : Nat} (src : Nat → Nat → Int)
    (hf : ∀ t ∈ s.runners b, FieldsOk b t [d.toNat, a.toNat] [v.toNat, v.toNat + 1] [d.toNat, a.toNat]) (hop : op ≤ 3)
    (e : ∀ (j : Nat) (x : Word), routeSource op j x = src j x.toNat) {i : Instr} (hi : exec i s = s.route op d a v) :
    exec i s = .next (s.afterMeet b (fun t => t.put d.toNat
      ((((s.runners b).find? (fun u => ((u.tid % 64 : Nat) : Int) == src (t.tid % 64) (t.get d.toNat).toNat)).map (fun u => u.get a.toNat)).getD
        (t.get a.toNat)))) := by
  rw [hi, State.route, h.arrive hf]
  refine congrArg Host.Outcome.next (h.afterMeet_congr fun t _ => (meetWrite_route hop).trans ?_)
  rw [← e, List.find?_map, Option.map_map]
  rfl

/-- R184: a reduction gives each member what the values of all come to. -/
theorem Meets.reduce {d a : Reg} {op : Nat} {f : List Word → Word}
    (hf : ∀ t ∈ s.runners b, FieldsOk b t [d.toNat, a.toNat] [v.toNat, v.toNat + 1] [a.toNat]) (hop : 8 ≤ op ∧ op < 0x13)
    (e : ∀ xs, reduceWords op xs = f xs) {i : Instr} (hi : exec i s = s.redux op d a v) :
    exec i s = .next (s.afterMeet b (fun t => t.put d.toNat (f ((s.runners b).map (fun u => u.get a.toNat))))) := by
  rw [hi, State.redux, h.arrive hf]
  refine congrArg Host.Outcome.next (h.afterMeet_congr fun t _ => (meetWrite_reduce hop).trans ?_)
  rw [← e, List.map_map]
  rfl

/-- R184: a scan gives each member what the values of the members up to it come to. -/
theorem Meets.scan {d a : Reg} {op : Nat} {f : List Word → Word}
    (hf : ∀ t ∈ s.runners b, FieldsOk b t [d.toNat, a.toNat] [v.toNat, v.toNat + 1] [a.toNat]) (hop : op = 0x13 ∨ op = 0x14)
    (e : ∀ xs, reduceWords op xs = f xs) {i : Instr} (hi : exec i s = s.redux op d a v) :
    exec i s = .next (s.afterMeet b (fun t => t.put d.toNat
      (f (((s.runners b).filter (fun u => u.tid ≤ t.tid)).map (fun u => u.get a.toNat))))) := by
  rw [hi, State.redux, h.arrive hf]
  refine congrArg Host.Outcome.next (h.afterMeet_congr fun t ht => (meetWrite_scan hop).trans ?_)
  have hle : ∀ u ∈ s.runners b, decide (u.tid ≤ t.tid) = decide (u.tid % 64 ≤ t.tid % 64) := fun u hu => by
    have hu := (h.member hu).1
    have ht := (h.member ht).1
    exact decide_eq_decide.2 (by omega)
  rw [← e, List.filter_map, List.map_map, List.filter_congr hle]
  rfl

/-- R183: a vote gives each member what the predicates of all come to. -/
theorem Meets.poll {p q : BitVec 3} {op : Nat} (f : List Bool → Bool) (hf : ∀ t ∈ s.runners b, FieldsOk b t [] [v.toNat, v.toNat + 1] [])
    (e : ∀ {ms : List (Nat × Arrival)} {j : Nat} {x : Arrival} {t : Thread}, x.op = op →
      meetWrite ms j x t = t.putPred x.d (f (ms.map (·.2.pred)))) {i : Instr} (hi : exec i s = s.poll op p q v) :
    exec i s = .next (s.afterMeet b (fun t => t.putPred p.toNat (f ((s.runners b).map (fun u => u.pred q.toNat))))) := by
  rw [hi, State.poll, h.arrive hf]
  refine congrArg Host.Outcome.next (h.afterMeet_congr fun t _ => (e rfl).trans ?_)
  rw [List.map_map]
  rfl

/-- R183: the ballot gives each member the bits of the members whose predicate holds. -/
theorem Meets.ballot {d : Reg} {q : BitVec 3}
    (hf : ∀ t ∈ s.runners b, FieldsOk b t [d.toNat, d.toNat + 1] [v.toNat, v.toNat + 1] []) :
    exec (.pgather d q v) s = .next (s.afterMeet b (fun t => t.put64 d.toNat
      (((s.runners b).filter (fun u => u.pred q.toNat)).foldl (fun x u => x ||| BitVec.twoPow 64 (u.tid % 64)) 0))) := by
  refine (h.arrive (vs := upto d.toNat 1 2) hf 7 d.toNat fun t => (0, 0, t.pred q.toNat)).trans ?_
  refine congrArg Host.Outcome.next (h.afterMeet_congr fun t _ => (meetWrite_ballot rfl).trans ?_)
  rw [List.foldl_map, List.foldl_filter]
  rfl

end

/-! ## What members receive (R75, R182 to R185) -/

/-- R182: the sources of the shuffles. -/
theorem routeSource_pick (j : Nat) (x : Word) : routeSource 0 j x = (x.toNat % 64 : Nat) := by
  simp [routeSource, fld]

theorem routeSource_rot (j : Nat) (x : Word) : routeSource 1 j x = ((j + x.toNat) % 64 : Nat) := by
  simp [routeSource, fld]

theorem routeSource_flip (j : Nat) (x : Word) : routeSource 3 j x = (Nat.xor j (x.toNat % 64) : Nat) := by
  simp [routeSource, fld]

theorem routeSource_shift (j : Nat) (x : Word) : routeSource 2 j x = (j : Int) + (BitVec.ofNat 7 x.toNat).toInt := by
  have hsext : sextI (fld x.toNat 7 0) 7 = (BitVec.ofNat 7 x.toNat).toInt := by
    rw [sextI, fld, BitVec.toInt_eq_toNat_cond, BitVec.toNat_ofNat]
    omega
  rw [← hsext]; rfl

/-- R184: values combined two at a time, in ascending member order. -/
def foldWords (f : Word → Word → Word) (xs : List Word) : Word := xs.tail.foldl f (xs.headD 0)

section
variable (xs : List Word)

theorem reduceWords_add : reduceWords 0x08 xs = foldWords (fun x y => x + y) xs := by cases xs <;> rfl
theorem reduceWords_min : reduceWords 0x09 xs = foldWords (fun x y => if x.toInt ≤ y.toInt then x else y) xs := by
  rw [← funext₂ minS_eq_ite]; cases xs <;> rfl
theorem reduceWords_max : reduceWords 0x0A xs = foldWords (fun x y => if x.toInt ≤ y.toInt then y else x) xs := by
  rw [← funext₂ maxS_eq_ite]; cases xs <;> rfl
theorem reduceWords_minu : reduceWords 0x0B xs = foldWords (fun x y => if x.toNat ≤ y.toNat then x else y) xs := by
  rw [← funext₂ minU_eq_ite]; cases xs <;> rfl
theorem reduceWords_maxu : reduceWords 0x0C xs = foldWords (fun x y => if x.toNat ≤ y.toNat then y else x) xs := by
  rw [← funext₂ maxU_eq_ite]; cases xs <;> rfl
theorem reduceWords_and : reduceWords 0x0D xs = foldWords (fun x y => x &&& y) xs := by cases xs <;> rfl
theorem reduceWords_or : reduceWords 0x0E xs = foldWords (fun x y => x ||| y) xs := by cases xs <;> rfl
theorem reduceWords_xor : reduceWords 0x0F xs = foldWords (fun x y => x ^^^ y) xs := by cases xs <;> rfl
theorem reduceWords_scanAdd : reduceWords 0x13 xs = foldWords (fun x y => x + y) xs := by cases xs <;> rfl

/-- R75: the last step makes the canonical NaN of one NaN. -/
theorem reduceWords_fmin : let pick (x y : Word) := BitVec.ofNat 32 (fp32.pick false false x.toNat y.toNat)
    reduceWords 0x11 xs = pick (foldWords pick xs) (foldWords pick xs) := by cases xs <;> rfl
theorem reduceWords_fmax : let pick (x y : Word) := BitVec.ofNat 32 (fp32.pick true false x.toNat y.toNat)
    reduceWords 0x12 xs = pick (foldWords pick xs) (foldWords pick xs) := by cases xs <;> rfl

end

/-- Settles O30: the members all arrive and complete, and each form writes what its completion says of their values. -/
theorem crossLaneResults : Obligations.CrossLaneResults := by
  refine ⟨fun s b m M d a v h => ?_, fun s b m M p q v h hf => ?_⟩
  · intro ms words routed reduced scanned folded picked
    refine ⟨fun hf => ⟨h.route (fun _ x => (x % 64 : Nat)) hf (by decide) routeSource_pick rfl,
      h.route (fun j x => ((j + x) % 64 : Nat)) hf (by decide) routeSource_rot rfl,
      h.route (fun j x => (j : Int) + (BitVec.ofNat 7 x).toInt) hf (by decide) routeSource_shift rfl,
      h.route (fun j x => (Nat.xor j (x % 64) : Nat)) hf (by decide) routeSource_flip rfl⟩, fun hf => ?_⟩
    exact ⟨h.reduce hf (by decide) reduceWords_add rfl, h.reduce hf (by decide) reduceWords_min rfl,
      h.reduce hf (by decide) reduceWords_max rfl, h.reduce hf (by decide) reduceWords_minu rfl,
      h.reduce hf (by decide) reduceWords_maxu rfl, h.reduce hf (by decide) reduceWords_and rfl,
      h.reduce hf (by decide) reduceWords_or rfl, h.reduce hf (by decide) reduceWords_xor rfl,
      h.reduce hf (op := 0x10) (by decide) (fun _ => rfl) rfl, h.reduce hf (by decide) reduceWords_fmin rfl,
      h.reduce hf (by decide) reduceWords_fmax rfl, h.scan hf (by decide) reduceWords_scanAdd rfl,
      h.scan hf (op := 0x14) (by decide) (fun _ => rfl) rfl⟩
  · exact ⟨h.poll (·.any id) hf meetWrite_any rfl, h.poll (·.all id) hf meetWrite_all rfl,
      h.poll (fun l => l.all id || !l.any id) hf meetWrite_same rfl, fun d hd => h.ballot hd⟩

end Sys2Proof.Machine
end


section
/-! SUPPORT. Compares, logic and shifts (R41, R91, R97, R98): shapes over register pairs, conditions as relations of numbers, and words. -/

namespace Sys2Proof.Machine

section
variable {i : Instr} {d a b : Reg} {sb : Bool}

theorem unaryPair_of {f g : DWord → DWord} (e : ∀ x, g x = f x) (h : ∀ s, exec i s = s.unPair d a g) : UnaryPair i d a f :=
  does_of _ _ _ _ _ _ h (fun _ _ t => congrArg (t.put64 d.toNat) (e _))

theorem ternaryPair_of {f g : DWord → DWord → DWord → DWord} (e : ∀ x y z, g x y z = f x y z) (h : ∀ s, exec i s = s.tern64 d a b sb g) :
    TernaryPair i d a b sb f :=
  does_of _ _ _ _ _ _ h (fun _ _ t => congrArg (t.put64 d.toNat) (e _ _ _))

theorem shiftPair_of {f g : DWord → Word → DWord} (e : ∀ x y, g x y = f x y) (h : ∀ s, exec i s = s.shift64 d a b sb g) :
    ShiftPair i d a b sb f :=
  does_of _ _ _ _ _ _ h (fun _ _ t => congrArg (t.put64 d.toNat) (e _ _))

theorem comparePair_of {p : BitVec 3} {f g : DWord → DWord → Bool} (e : ∀ x y, g x y = f x y) (h : ∀ s, exec i s = s.cmp64 p a b sb g) :
    ComparePair i p a b sb f :=
  does_of _ _ _ _ _ _ h (fun _ _ t => congrArg (t.putPred p.toNat) (e _ _))

/-- R49: the word of three register fields, SB and a code of class 0x2. -/
theorem encode_of_regs_class2 {code : Nat}
    (h : encodeNat i = some (0x20000000 + code + d.toNat * 2097152 + a.toNat * 16384 + b.toNat * 128 + sb.toNat * 64)) :
    encode i = some (BitVec.ofNat 32
      (2 * 2 ^ 28 + d.toNat * 2 ^ 21 + a.toNat * 2 ^ 14 + b.toNat * 2 ^ 7 + sb.toNat * 2 ^ 6 + code)) := by
  rw [encode_of_regs h]
  exact congrArg (fun n => some (BitVec.ofNat 32 n)) (by omega)

/-- R41, R49: the word of a condition, a predicate, two register fields, SB and a code of class 0x0. -/
theorem encode_of_compare {c p : BitVec 3} {code : Nat}
    (h : encodeNat i = some (code + c.toNat * 33554432 + p.toNat * 2097152 + a.toNat * 16384 + b.toNat * 128 + sb.toNat * 64)) :
    encode i = some (BitVec.ofNat 32
      (c.toNat * 2 ^ 25 + p.toNat * 2 ^ 21 + a.toNat * 2 ^ 14 + b.toNat * 2 ^ 7 + sb.toNat * 2 ^ 6 + code)) := by
  rw [encode, h, Option.map_some]
  exact congrArg (fun n => some (BitVec.ofNat 32 n)) (by omega)

end

section
variable {w : Nat} (x y : BitVec w)

/-! R41: the conditions that compare in an order. -/

theorem icond_lt : icond 2 x y = decide (x.toInt < y.toInt) := BitVec.slt_eq_decide
theorem icond_le : icond 3 x y = decide (x.toInt ≤ y.toInt) := BitVec.sle_eq_decide
theorem icond_gt : icond 4 x y = decide (y.toInt < x.toInt) := BitVec.slt_eq_decide
theorem icond_ge : icond 5 x y = decide (y.toInt ≤ x.toInt) := BitVec.sle_eq_decide
theorem icond_ltu : icond 6 x y = decide (x.toNat < y.toNat) := BitVec.ult_eq_decide
theorem icond_geu : icond 7 x y = decide (y.toNat ≤ x.toNat) := BitVec.ule_eq_decide

end

/-- Settles O5: each condition of the model is the relation of the numbers that the words stand for, at both widths. -/
theorem integerCompares : Obligations.IntegerCompares := by
  intro p a b sb
  exact ⟨⟨compare_of (fun _ _ => rfl) fun _ => rfl, comparePair_of (fun _ _ => rfl) fun _ => rfl⟩,
    ⟨compare_of (fun _ _ => rfl) fun _ => rfl, comparePair_of (fun _ _ => rfl) fun _ => rfl⟩,
    ⟨compare_of icond_lt fun _ => rfl, comparePair_of icond_lt fun _ => rfl⟩,
    ⟨compare_of icond_le fun _ => rfl, comparePair_of icond_le fun _ => rfl⟩,
    ⟨compare_of icond_gt fun _ => rfl, comparePair_of icond_gt fun _ => rfl⟩,
    ⟨compare_of icond_ge fun _ => rfl, comparePair_of icond_ge fun _ => rfl⟩,
    ⟨compare_of icond_ltu fun _ => rfl, comparePair_of icond_ltu fun _ => rfl⟩,
    ⟨compare_of icond_geu fun _ => rfl, comparePair_of icond_geu fun _ => rfl⟩,
    fun c => ⟨encode_of_compare rfl, encode_of_compare rfl⟩⟩

/-- Settles O8: shifts and rotates are products and quotients of the numbers by powers of two, and each word holds its fields and its code. -/
theorem logicAndShifts : Obligations.LogicAndShifts := by
  intro d a b sb coded
  have amount (y : Word) : y.toNat % 32 < 32 := Nat.mod_lt _ (by decide)
  refine ⟨binary_of (fun _ _ => rfl) fun _ => rfl, binary_of (fun _ _ => rfl) fun _ => rfl, binary_of (fun _ _ => rfl) fun _ => rfl,
    binary_of (fun _ _ => rfl) fun _ => rfl, binary_of (fun _ _ => rfl) fun _ => rfl, binary_of (fun _ _ => rfl) fun _ => rfl,
    unary_of (fun _ => rfl) fun _ => rfl,
    binary_of (fun x y => shiftLeft_eq_ofNat x _) fun _ => rfl, binary_of (fun x y => ushiftRight_eq_ofNat x _) fun _ => rfl,
    binary_of (fun x y => sshiftRight_eq_ofInt x _) fun _ => rfl,
    binary_of (fun x y => rotateLeft_eq_ofNat x (amount y)) fun _ => rfl, binary_of (fun x y => rotateRight_eq_ofNat x (amount y)) fun _ => rfl,
    shiftPair_of (fun x y => shiftLeft_eq_ofNat x _) fun _ => rfl, shiftPair_of (fun x y => ushiftRight_eq_ofNat x _) fun _ => rfl,
    shiftPair_of (fun x y => sshiftRight_eq_ofInt x _) fun _ => rfl,
    encode_of_regs_class2 rfl, encode_of_regs_class2 rfl, encode_of_regs_class2 rfl, encode_of_regs_class2 rfl,
    encode_of_regs_class2 rfl, encode_of_regs_class2 rfl, ?_,
    encode_of_regs_class2 rfl, encode_of_regs_class2 rfl, encode_of_regs_class2 rfl, encode_of_regs_class2 rfl,
    encode_of_regs_class2 rfl, encode_of_regs_class2 rfl, encode_of_regs_class2 rfl, encode_of_regs_class2 rfl,
    rfl, rfl, rfl⟩
  rintro rfl rfl
  exact encode_of_regs_class2 rfl

end Sys2Proof.Machine
end


section
/-! SUPPORT. Moves by a computed register number, selection and predicate operations (R92 to R94, R104). -/

namespace Sys2Proof.Machine

theorem checkPoison_append (t : Thread) (xs ys : List Nat) :
    checkPoison t (xs ++ ys) = none ↔ checkPoison t xs = none ∧ checkPoison t ys = none := by
  simp only [checkPoison, List.findSome?_append, Option.or_eq_none_iff]

/-- R94: the extra word of REG_BOUND for a register that a word names. -/
theorem regBound_word (x : Word) : Trap.regBound x.toNat = { cause := .regBound, extra := x.setWidth 64 } := by
  rw [Trap.regBound, Nat.mod_eq_of_lt x.isLt, BitVec.ofNat_toNat]

/-- The checks of the thread that issues alone, from those of its issue. -/
theorem fieldsOk_of_regsOk {s : State} {b : Block} {t : Thread} (h : Solo s b t) {vs ss srcs : List Nat} (hr : s.regsOk b vs ss srcs) :
    FieldsOk b t vs ss srcs :=
  hr t (List.mem_of_getElem? h.thread) (by simp [State.runs, h.alone]) h.guard

section
variable {s : State} {b : Block} {d a v : Reg} {sb : Bool}

theorem movri_ok (hb : s.issuing b) (hr : s.regsOk b (d.toNat :: s.vecA a.toNat 1) [] (s.vecA a.toNat 1))
    (hi : ∀ t ∈ b.threads, s.runs t → t.guardOk = true →
      (s.opA t a.toNat).toNat < t.f ∧ checkPoison t [(s.opA t a.toNat).toNat] = none) :
    exec (.movri d a) s = .next (s.afterEach (fun _ t => t.put d.toNat (t.get (s.opA t a.toNat).toNat))) := by
  refine congrArg Host.Outcome.next (State.lanesBy_ok s _ _ b hb fun t ht hrun hg => ?_)
  obtain ⟨hregs, hpoison⟩ := hr t ht hrun hg
  obtain ⟨hlt, hindexed⟩ := hi t ht hrun hg
  simp only [hregs, hpoison, hindexed, if_neg (Nat.not_le.2 hlt)]

theorem movwi_ok (hb : s.issuing b)
    (hr : s.regsOk b (s.vecA a.toNat 1 ++ s.vecB v.toNat 1 sb) (State.scaB v.toNat 1 sb) (s.vecA a.toNat 1 ++ s.vecB v.toNat 1 sb))
    (hi : ∀ t ∈ b.threads, s.runs t → t.guardOk = true → (s.opA t a.toNat).toNat < t.f) :
    exec (.movwi a v sb) s = .next (s.afterEach (fun blk t => t.put (s.opA t a.toNat).toNat (s.opB blk t v.toNat sb))) := by
  refine congrArg Host.Outcome.next (State.lanesBy_ok s _ _ b hb fun t ht hrun hg => ?_)
  obtain ⟨hregs, hpoison⟩ := hr t ht hrun hg
  obtain ⟨hpa, hpb⟩ := (checkPoison_append t _ _).1 hpoison
  simp only [hregs, hpa, hpb, if_neg (Nat.not_le.2 (hi t ht hrun hg))]

variable {t : Thread}

theorem movri_beyond (h : Solo s b t) (hr : s.regsOk b (d.toNat :: s.vecA a.toNat 1) [] (s.vecA a.toNat 1))
    (hi : t.f ≤ (s.opA t a.toNat).toNat) :
    exec (.movri d a) s = .next (s.progressed.takeTrap t.tid { cause := .regBound, extra := (s.opA t a.toNat).setWidth 64 }) := by
  obtain ⟨hregs, hpoison⟩ := fieldsOk_of_regsOk h hr
  refine congrArg Host.Outcome.next (lanesBy_solo_trap h _ _ _ ?_)
  simp only [hregs, hpoison, if_pos hi, regBound_word]

theorem movwi_beyond (h : Solo s b t)
    (hr : s.regsOk b (s.vecA a.toNat 1 ++ s.vecB v.toNat 1 sb) (State.scaB v.toNat 1 sb) (s.vecA a.toNat 1))
    (hi : t.f ≤ (s.opA t a.toNat).toNat) :
    exec (.movwi a v sb) s = .next (s.progressed.takeTrap t.tid { cause := .regBound, extra := (s.opA t a.toNat).setWidth 64 }) := by
  obtain ⟨hregs, hpoison⟩ := fieldsOk_of_regsOk h hr
  refine congrArg Host.Outcome.next (lanesBy_solo_trap h _ _ _ ?_)
  simp only [hregs, hpoison, if_pos hi, regBound_word]

end

/-- Settles O6: selections, moves and predicate operations are register operations, and the computed number is checked after the fields. -/
theorem selectMoveAndPredicates : Obligations.SelectMoveAndPredicates :=
  ⟨⟨fun _ _ _ _ _ => does_of _ _ _ _ _ _ (fun _ => rfl) (fun _ _ _ => rfl),
      fun _ _ => ⟨unary_of (fun _ => rfl) fun _ => rfl, unary_of (fun _ => signExtend_eq_ofInt 32 _) fun _ => rfl,
        unary_of (fun _ => signExtend_eq_ofInt 32 _) fun _ => rfl⟩,
      fun _ _ _ _ => movri_ok, fun _ _ _ _ _ => movwi_ok, fun _ _ _ _ _ => movri_beyond, fun _ _ _ _ _ _ => movwi_beyond⟩,
    fun _ _ _ _ => does_of _ _ _ _ _ _ (fun _ => rfl) (fun _ _ _ => rfl),
    fun d => does_of _ _ _ _ _ _ (fun _ => rfl) (fun _ _ t => congrArg (t.put d.toNat) (BitVec.ofNat_toNat ..).symm),
    fun _ => does_of _ _ _ _ _ _ (fun _ => rfl) (fun _ _ _ => by rw [BitVec.ofNat_toNat])⟩

end Sys2Proof.Machine
end


section
/-! SUPPORT. Bit operations (R99 to R103, R105): counts by powers of two, and each bit of fields, deposits, permutations and products. -/

namespace Sys2Proof.Machine

/-! ## Counts (R99) -/

theorem leadingZeros_bounds (n : Nat) : ∀ x < 2 ^ n,
    leadingZeros n x ≤ n ∧ x < 2 ^ (n - leadingZeros n x) ∧ (x ≠ 0 → 2 ^ (n - leadingZeros n x) ≤ 2 * x) := by
  induction n with
  | zero => intro x hx; simp_all [leadingZeros]
  | succ n ih =>
    intro x hx
    rw [leadingZeros]
    cases htop : x.testBit n with
    | true =>
      have hge : 2 ^ n ≤ x := Nat.ge_two_pow_of_testBit htop
      refine ⟨Nat.zero_le _, hx, fun _ => ?_⟩
      rw [if_pos rfl, Nat.sub_zero, Nat.pow_succ]
      omega
    | false =>
      have hlt : x < 2 ^ n := Nat.lt_pow_two_of_testBit x fun i hi => by
        obtain rfl | hi := hi.eq_or_lt
        · exact htop
        · exact Nat.testBit_lt_two_pow (hx.trans_le (Nat.pow_le_pow_right (by omega) hi))
      obtain ⟨hle, hub, hlb⟩ := ih x hlt
      rw [if_neg (by simp), Nat.add_sub_add_right]
      exact ⟨Nat.succ_le_succ hle, hub, hlb⟩

theorem trailingZeros_divides (n : Nat) : ∀ x < 2 ^ n, x ≠ 0 → 2 ^ trailingZeros n x ∣ x ∧ ¬ 2 ^ (trailingZeros n x + 1) ∣ x := by
  induction n with
  | zero => intro x hx h0; omega
  | succ n ih =>
    intro x hx h0
    rw [trailingZeros]
    split
    next hodd => exact ⟨by simp, by rw [Nat.zero_add, Nat.pow_one]; omega⟩
    next heven =>
      obtain ⟨y, rfl⟩ : 2 ∣ x := by omega
      have hy : 2 * y / 2 = y := by omega
      obtain ⟨hdvd, hnot⟩ := ih y (by omega) (by omega)
      rw [hy]
      constructor
      · rw [Nat.pow_succ, Nat.mul_comm]
        exact Nat.mul_dvd_mul_left 2 hdvd
      · rw [Nat.pow_succ, Nat.mul_comm]
        exact fun h => hnot (Nat.dvd_of_mul_dvd_mul_left (by decide) h)

theorem trailingZeros_zero (n : Nat) : trailingZeros n 0 = n := by
  induction n with
  | zero => rfl
  | succ n ih => rw [trailingZeros, if_neg (by decide), Nat.zero_div, ih]

theorem leadingZeros_zero (n : Nat) : leadingZeros n 0 = n := by
  induction n with
  | zero => rfl
  | succ n ih => rw [leadingZeros, Nat.zero_testBit, if_neg (by decide), ih]

/-- R99: the one bits of a word are those of its number. -/
theorem popcount_word {w : Nat} (n : Nat) (x : BitVec w) : popcount n x.toNat = ((List.range n).filter (fun i => x.getLsbD i)).length :=
  popcount_eq n x.toNat

/-! ## Signed numbers of n bits (R62) -/

/-- R62: the low n bits of a number, taken as signed. -/
theorem sextI_eq_toInt {n : Nat} (hn : 0 < n) (x : Nat) : sextI x n = (BitVec.ofNat n x).toInt := by
  obtain ⟨m, rfl⟩ : ∃ m, n = m + 1 := ⟨n - 1, by omega⟩
  rw [sextI, BitVec.toInt_eq_toNat_cond, BitVec.toNat_ofNat, Nat.add_sub_cancel]
  refine if_congr ?_ rfl rfl
  rw [Nat.pow_succ]
  omega

/-! ## Fields (R100) -/

theorem fieldOf_eq (y : Word) : let pos := y.toNat % 32
    fieldOf y = (pos, min (min (y.toNat / 2 ^ 8 % 64) 32) (32 - pos)) := by
  simp [fieldOf, fld]

/-- R100: the field ends within the word. -/
theorem fieldOf_fits (y : Word) : (fieldOf y).1 + (fieldOf y).2 ≤ 32 := by
  rw [fieldOf_eq]
  dsimp only
  omega

theorem bfx_getLsbD (x y : Word) (i : Nat) : (bfx x y).getLsbD i = (decide (i < (fieldOf y).2) && x.getLsbD ((fieldOf y).1 + i)) := by
  have hfits := fieldOf_fits y
  rw [bfx, BitVec.getLsbD_ofNat, Nat.testBit_mod_two_pow, Nat.testBit_div_two_pow, ← BitVec.getLsbD, Nat.add_comm i]
  by_cases hi : i < (fieldOf y).2
  · simp [hi, show i < 32 by omega]
  · simp [hi]

/-- R100: BFXS copies the top bit of the field to the bits above it. -/
theorem bfxs_getLsbD (x y : Word) (i : Nat) : (bfxs x y).getLsbD i =
    (decide ((fieldOf y).2 ≠ 0 ∧ i < 32) && x.getLsbD ((fieldOf y).1 + min i ((fieldOf y).2 - 1))) := by
  by_cases hw : (fieldOf y).2 = 0
  · simp [bfxs, hw]
  have hfield (k : Nat) (hk : k < (fieldOf y).2) : (BitVec.ofNat (fieldOf y).2 (bfx x y).toNat).getLsbD k = x.getLsbD ((fieldOf y).1 + k) := by
    rw [BitVec.ofNat_toNat, BitVec.getLsbD_setWidth, bfx_getLsbD]
    simp [hk]
  rw [bfxs, if_neg hw, sextI_eq_toInt (Nat.pos_of_ne_zero hw), ← signExtend_eq_ofInt, BitVec.getLsbD_signExtend, BitVec.msb_eq_getLsbD_last,
    hfield ((fieldOf y).2 - 1) (by omega)]
  by_cases hi : i < (fieldOf y).2
  · rw [if_pos hi, hfield i hi, Nat.min_eq_left (by omega)]
    simp [hw]
  · rw [if_neg hi, Nat.min_eq_right (by omega)]
    simp [hw]

/-- R100: the bits of the field that BFI replaces. -/
theorem fieldMask_getLsbD (y : Word) (i : Nat) :
    (BitVec.ofNat 32 ((2 ^ (fieldOf y).2 - 1) * 2 ^ (fieldOf y).1)).getLsbD i =
      decide ((fieldOf y).1 ≤ i ∧ i < (fieldOf y).1 + (fieldOf y).2) := by
  have hfits := fieldOf_fits y
  rw [BitVec.getLsbD_ofNat, Nat.testBit_mul_two_pow, Nat.testBit_two_pow_sub_one]
  simp only [← Bool.decide_and]
  exact decide_eq_decide.2 (by omega)

theorem bfi_getLsbD (x y z : Word) (i : Nat) : (bfi x y z).getLsbD i =
    if (fieldOf y).1 ≤ i ∧ i < (fieldOf y).1 + (fieldOf y).2 then x.getLsbD (i - (fieldOf y).1) else z.getLsbD i := by
  have hfits := fieldOf_fits y
  simp only [bfi, BitVec.getLsbD_or, BitVec.getLsbD_and, BitVec.getLsbD_not, fieldMask_getLsbD, BitVec.getLsbD_shiftLeft]
  split
  next hi => simp [hi, show i < 32 by omega]
  next hi =>
    by_cases h32 : i < 32
    · simp [hi, h32]
    · simp [hi, h32, BitVec.getLsbD_of_ge z i (by omega)]

/-- R100: what BFI inserts BFX finds again. -/
theorem bfx_bfi (x y z : Word) : bfx (bfi x y z) y = x &&& BitVec.ofNat 32 (2 ^ (fieldOf y).2 - 1) := by
  have hfits := fieldOf_fits y
  refine BitVec.eq_of_getLsbD_eq fun i hi => ?_
  rw [bfx_getLsbD, bfi_getLsbD, BitVec.getLsbD_and, BitVec.getLsbD_ofNat, Nat.testBit_two_pow_sub_one]
  by_cases hw : i < (fieldOf y).2
  · simp [hw, hi]
  · simp [hw]

/-! ## Deposit and extract (R101) -/

theorem two_pow_dvd_extract (a m : Nat) : ∀ n i j : Nat, 2 ^ j ∣ extract a m n i j := by
  intro n
  induction n with
  | zero => intro i j; exact Nat.dvd_zero _
  | succ n ih =>
    intro i j
    rw [extract]
    split
    · refine Nat.dvd_add ?_ ((Nat.pow_dvd_pow 2 (Nat.le_succ j)).trans (ih _ _))
      split
      · exact Nat.dvd_refl _
      · exact Nat.dvd_zero _
    · exact ih _ _

/-- R101: the first set bit of the mask gives the first bit extracted, and the further ones those above it. -/
theorem testBit_extract_set {a m n i j k : Nat} (hm : m.testBit i = true) (hk : j ≤ k) :
    (extract a m (n + 1) i j).testBit k = if k = j then a.testBit i else (extract a m n (i + 1) (j + 1)).testBit k := by
  obtain ⟨e, he⟩ := two_pow_dvd_extract a m n (i + 1) (j + 1)
  have hsum : extract a m (n + 1) i j = 2 ^ j * ((a.testBit i).toNat + 2 * e) := by
    rw [extract, if_pos hm, he, Nat.pow_succ]
    cases a.testBit i <;> simp <;> ring
  have hrest : extract a m n (i + 1) (j + 1) = 2 ^ j * (2 * e) := by rw [he, Nat.pow_succ, Nat.mul_assoc]
  obtain ⟨l, rfl⟩ := Nat.exists_eq_add_of_le hk
  rw [hsum, hrest, Nat.testBit_two_pow_mul, Nat.testBit_two_pow_mul, Nat.add_sub_cancel_left]
  cases l with
  | zero => cases a.testBit i <;> simp
  | succ l =>
    have hhalf (b : Bool) : (b.toNat + 2 * e) / 2 = 2 * e / 2 := by cases b <;> simp; omega
    rw [Nat.testBit_succ, Nat.testBit_succ, hhalf, if_neg (by omega)]

/-- R101: a number whose bits from j up are those extracted is deposited as the masked bits from i up. -/
theorem deposit_of_extract (a m : Nat) : ∀ n i j e : Nat, (∀ k ≥ j, e.testBit k = (extract a m n i j).testBit k) →
    deposit e m n i j = 2 ^ i * ((a &&& m) / 2 ^ i % 2 ^ n) := by
  intro n
  induction n with
  | zero => intro i j e _; simp [deposit, Nat.mod_one]
  | succ n ih =>
    intro i j e he
    have hstep : (a &&& m) / 2 ^ i % 2 ^ (n + 1) = ((a &&& m).testBit i).toNat + 2 * ((a &&& m) / 2 ^ (i + 1) % 2 ^ n) := by
      rw [Nat.pow_succ', Nat.mod_mul, Nat.div_div_eq_div_mul, Nat.toNat_testBit, Nat.pow_succ]
    rw [deposit, hstep, Nat.testBit_and]
    cases hm : m.testBit i with
    | true =>
      have hbit : e.testBit j = a.testBit i := by rw [he j le_rfl, testBit_extract_set hm le_rfl, if_pos rfl]
      have hrest := ih (i + 1) (j + 1) e fun k hk => by
        rw [he k (by omega), testBit_extract_set hm (by omega), if_neg (by omega)]
      rw [if_pos rfl, hbit, hrest, Nat.pow_succ]
      cases a.testBit i <;> simp <;> ring
    | false =>
      have hrest := ih (i + 1) j e fun k hk => by rw [he k hk, extract, hm, if_neg Bool.false_ne_true]
      rw [if_neg Bool.false_ne_true, hrest, Nat.pow_succ]
      simp
      ring

/-- R101: deposit puts back what extract took. -/
theorem deposit_extract (a m n : Nat) (hm : m < 2 ^ n) : deposit (extract a m n 0 0) m n 0 0 = a &&& m := by
  rw [deposit_of_extract a m n 0 0 _ fun _ _ => rfl, Nat.pow_zero, Nat.div_one, Nat.one_mul,
    Nat.mod_eq_of_lt (Nat.and_lt_two_pow a hm)]

/-! ## Permutations and products of bits (R102, R103) -/

theorem bitsFrom_succ (n : Nat) (f : Nat → Bool) : bitsFrom (n + 1) f = 2 ^ n * (f n).toNat + bitsFrom n f := by
  rw [bitsFrom, List.range_succ, List.foldl_append, bitsFrom]
  simp only [List.foldl_cons, List.foldl_nil]
  cases f n <;> simp [Nat.add_comm]

theorem bitsFrom_lt (n : Nat) (f : Nat → Bool) : bitsFrom n f < 2 ^ n := by
  induction n with
  | zero => simp [bitsFrom]
  | succ n ih =>
    rw [bitsFrom_succ, Nat.pow_succ]
    cases f n <;> simp <;> omega

theorem testBit_bitsFrom (n : Nat) (f : Nat → Bool) (i : Nat) : (bitsFrom n f).testBit i = (decide (i < n) && f i) := by
  induction n with
  | zero => simp [bitsFrom]
  | succ n ih =>
    rw [bitsFrom_succ, Nat.testBit_two_pow_mul_add _ (bitsFrom_lt n f), ih]
    obtain hi | rfl | hi := Nat.lt_trichotomy i n
    · simp [hi, show i < n + 1 by omega]
    · cases f i <;> simp
    · have hhigh : (f n).toNat.testBit (i - n) = false :=
        Nat.testBit_lt_two_pow ((f n).toNat_lt.trans_le (Nat.le_self_pow (by omega) 2))
      simp [hhigh, show ¬i < n by omega, show ¬i < n + 1 by omega]

theorem bperm_getLsbD (x y z : DWord) {i : Nat} (hi : i < 64) :
    (bperm x y z).getLsbD i = if i < 8 then x.getLsbD (y.toNat / 2 ^ (8 * i) % 64) else z.getLsbD (i - 8) := by
  rw [bperm, BitVec.getLsbD_or, BitVec.getLsbD_shiftLeft, BitVec.getLsbD_ofNat, testBit_bitsFrom]
  by_cases h8 : i < 8 <;> simp [hi, h8, fld]

theorem bmm8_getLsbD (tr : Bool) (x y : DWord) {i j : Nat} (hi : i < 8) (hj : j < 8) : (bmm8 tr x y).getLsbD (8 * i + j) =
    (List.range 8).foldl (fun c k => c != (x.getLsbD (8 * i + k) && y.getLsbD (if tr then 8 * j + k else 8 * k + j))) false := by
  have hrow : (8 * i + j) / 8 = i := by omega
  have hcol : (8 * i + j) % 8 = j := by omega
  rw [bmm8, BitVec.getLsbD_ofNat, testBit_bitsFrom, hrow, hcol]
  simp [show 8 * i + j < 64 by omega]

/-! ## Dot products of bytes (R105) -/

theorem fld_toNat (z : Word) (i : Nat) : fld z.toNat 8 (8 * i) = (z.extractLsb' (8 * i) 8).toNat := by
  rw [fld, BitVec.extractLsb'_toNat, Nat.shiftRight_eq_div_pow]

theorem sextI_fld (z : Word) (i : Nat) : sextI (fld z.toNat 8 (8 * i)) 8 = (z.extractLsb' (8 * i) 8).toInt := by
  rw [sextI_eq_toInt (by decide), fld_toNat, BitVec.ofNat_toNat, BitVec.setWidth_eq]

/-- Settles O9: each instruction is the model's function of its operands, and each function is known by its bits. -/
theorem bitOperations : Obligations.BitOperations := by
  refine ⟨fun d a b sb => ?_, leadingZeros_bounds, trailingZeros_divides, fun n => ⟨trailingZeros_zero n, leadingZeros_zero n⟩, fieldOf_eq,
    fun x y i => ⟨bfx_getLsbD x y i, bfxs_getLsbD x y i⟩, bfx_bfi, fun x y z i hi => ?_, fun a m hm => deposit_extract a m 32 hm,
    fun x y z i => bperm_getLsbD x y z, fun x y i j hi hj => ⟨bmm8_getLsbD false x y hi hj, bmm8_getLsbD true x y hi hj⟩, fun x y => ?_⟩
  · exact ⟨unary_of (fun _ => rfl) fun _ => rfl, unary_of (fun _ => rfl) fun _ => rfl,
      unary_of (fun x => congrArg (BitVec.ofNat 32) (popcount_word 32 x)) fun _ => rfl, unary_of (fun _ => rfl) fun _ => rfl,
      unaryOfPair_of (fun _ => rfl) fun _ => rfl, unaryOfPair_of (fun _ => rfl) fun _ => rfl,
      unaryOfPair_of (fun x => congrArg (BitVec.ofNat 32) (popcount_word 64 x)) fun _ => rfl, unaryPair_of (fun _ => rfl) fun _ => rfl,
      binary_of (fun _ _ => rfl) fun _ => rfl, binary_of (fun _ _ => rfl) fun _ => rfl, ternary_of (fun _ _ _ => rfl) fun _ => rfl,
      binary_of (fun _ _ => rfl) fun _ => rfl, binary_of (fun _ _ => rfl) fun _ => rfl,
      binaryPair_of (fun _ _ => rfl) fun _ => rfl, binaryPair_of (fun _ _ => rfl) fun _ => rfl,
      ternaryPair_of (fun _ _ _ => rfl) fun _ => rfl,
      binaryPair_of (fun _ _ => rfl) fun _ => rfl, binaryPair_of (fun _ _ => rfl) fun _ => rfl,
      ternary_of (fun _ _ _ => rfl) fun _ => rfl, ternary_of (fun _ _ _ => rfl) fun _ => rfl⟩
  · rw [bfi_getLsbD, if_neg (by omega)]
  · intro e
    have hsum (f : Nat → Int) : (List.range 4).foldl (fun acc i => acc + f i) 0 = f 0 + f 1 + f 2 + f 3 := by
      simp [List.range_succ]
    exact ⟨(hsum _).trans (by simp only [sextI_fld, if_true]; rfl), (hsum _).trans (by simp only [fld_toNat]; rfl)⟩

end Sys2Proof.Machine
end


section
/-! SUPPORT. Scratchpads (R171, R214, R216, R228, R270, R271, R301): what a store changes of them, and how a load or a store of the local spaces
ends, by the conditions that its bytes meet. -/

namespace Sys2Proof.Machine

/-! ## What a store changes (R216, R261, R270, R301) -/

theorem SMap.get_foldl_set {α : Type} (m : SMap α) (x : Nat) (g : Nat → α) (j n : Nat) :
    SMap.get ((List.range n).foldl (fun m i => SMap.set m (x + i) (g i)) m) j = if x ≤ j ∧ j < x + n then some (g (j - x)) else SMap.get m j := by
  induction n with
  | zero => simp
  | succ n ih =>
    rw [List.range_succ, List.foldl_append, List.foldl_cons, List.foldl_nil]
    by_cases hj : j = x + n
    · subst hj
      rw [SMap.get_set_same, if_pos (by omega), Nat.add_sub_cancel_left]
    · rw [SMap.get_set_other _ _ _ _ hj, ih]
      exact if_congr (by omega) rfl rfl

theorem scratchByte_putScratch (b : Block) (x : Nat) (bytes : List Byte) (j : Nat) :
    (b.putScratch x bytes).scratchByte j = if x ≤ j ∧ j < x + bytes.length then bytes.getD (j - x) 0 else b.scratchByte j := by
  simp only [Block.scratchByte, Block.putScratch, SMap.get_foldl_set]
  split <;> rfl

/-- R301: between two blocks nothing differs but which stores have spoilt their commands. -/
structure Block.SpoiltAlike (e e' : Block) : Prop where
  others : e' = { e with window := e'.window }
  commands : e'.window.map (fun x => { x with spoilt := [] }) = e.window.map (fun x => { x with spoilt := [] })

theorem Block.SpoiltAlike.refl (e : Block) : e.SpoiltAlike e := ⟨rfl, rfl⟩

theorem spoiltAlike_spoilWrites (b : Block) (space x n : Nat) : b.SpoiltAlike (b.spoilWrites space x n) := by
  refine ⟨rfl, ?_⟩
  rw [Block.spoilWrites, Block.spoilWhere, List.map_map]
  refine List.map_congr_left fun c _ => ?_
  rw [Function.comp_apply]
  split <;> rfl

/-- R214, R270, R301: a scratchpad after a store to it, with the tiles and the commands of its block that the store spoils. -/
def Block.stored (b : Block) (x : Nat) (bytes : List Byte) : Block :=
  ((b.putScratch x bytes).spoil x bytes.length).spoilWrites 0 x bytes.length

theorem scratchByte_stored (b : Block) (x : Nat) (bytes : List Byte) (j : Nat) :
    (b.stored x bytes).scratchByte j = if x ≤ j ∧ j < x + bytes.length then bytes.getD (j - x) 0 else b.scratchByte j :=
  scratchByte_putScratch b x bytes j

/-- A block after a change of one. -/
theorem updBlock_get? (s : State) (i : Nat) (f : Block → Block) (q : Nat) :
    (s.updBlock i f).blocks[q]? = (s.blocks[q]?).map (fun e => if q = i then f e else e) := by
  by_cases hq : q = i
  · subst hq
    cases hb : s.blocks[q]? <;> simp [State.updBlock, upd, hb]
  · simp [State.updBlock, upd_get_other _ _ _ _ (Ne.symm hq), hq]

/-- R301: beyond the block stored to, a store changes the block in issue alone, and of that only which of its commands are spoilt. -/
theorem afterStore_block (s : State) (p : Nat) (c : Block) (x : Nat) (bytes : List Byte) (q : Nat) :
    ∃ g : Block → Block, (∀ e : Block, e.SpoiltAlike (g e)) ∧ (q ≠ s.cur.blk → ∀ e, g e = e) ∧
      (s.afterStore p c x bytes).blocks[q]? = (s.blocks[q]?).map (fun e => g (if q = p then e.stored x bytes else e)) := by
  have hfirst := updBlock_get? (s.noteStale 1 c.uid (cellsAt x (c.scratchBytes x bytes.length))) p (fun b => b.stored x bytes) q
  rw [State.afterStore]
  cases c.windowAt x with
  | none => exact ⟨id, fun e => .refl e, fun _ _ => rfl, hfirst⟩
  | some y =>
    refine ⟨fun e => if q = s.cur.blk then e.spoilWrites 2 y bytes.length else e, fun e => ?_, fun hq e => if_neg hq, ?_⟩
    · dsimp only
      split
      · exact spoiltAlike_spoilWrites ..
      · exact .refl e
    · exact (updBlock_get? _ s.cur.blk _ q).trans ((congrArg (Option.map _) hfirst).trans (Option.map_map ..))

/-- R270: the block stored to, after the store. -/
theorem afterStore_home {s : State} {p : Nat} {c : Block} (hc : s.blocks[p]? = some c) (y : Nat) (bytes : List Byte) :
    ∃ c', (s.afterStore p c y bytes).blocks[p]? = some c' ∧ (c.stored y bytes).SpoiltAlike c' := by
  obtain ⟨g, halike, -, hget⟩ := afterStore_block s p c y bytes p
  exact ⟨_, by rw [hget, hc, Option.map_some, if_pos rfl], halike _⟩

theorem scratchBytes_stored (b : Block) (x : Nat) (bytes : List Byte) : (b.stored x bytes).scratchBytes x bytes.length = bytes := by
  refine List.ext_getElem (by simp [Block.scratchBytes]) fun i _ hi => ?_
  simp only [Block.scratchBytes, List.getElem_map, List.getElem_range, scratchByte_stored, Nat.add_sub_cancel_left]
  rw [if_pos (by omega), List.getD_eq_getElem _ _ hi]

theorem Block.SpoiltAlike.scratchByte {e e' : Block} (h : e.SpoiltAlike e') (x : Nat) : e'.scratchByte x = e.scratchByte x := by
  rw [h.others]; rfl

theorem Block.SpoiltAlike.scratchBytes {e e' : Block} (h : e.SpoiltAlike e') (x n : Nat) : e'.scratchBytes x n = e.scratchBytes x n :=
  List.map_congr_left fun _ _ => h.scratchByte _

/-- R301: what a block has besides its commands. -/
theorem Block.SpoiltAlike.kept {e e' : Block} (h : e.SpoiltAlike e') :
    e'.threads = e.threads ∧ e'.sregs = e.sregs ∧ e'.cregs = e.cregs ∧ e'.rows = e.rows ∧ e'.live = e.live ∧ e'.past = e.past := by
  have ho := h.others
  exact ⟨congrArg (·.threads) ho, congrArg (·.sregs) ho, congrArg (·.cregs) ho, congrArg (·.rows) ho, congrArg (·.live) ho,
    congrArg (·.past) ho⟩

/-- R270: what a store to a scratchpad leaves alone beside the blocks. -/
theorem afterStore_elsewhere (s : State) (p : Nat) (c : Block) (y : Nat) (bytes : List Byte) :
    (s.afterStore p c y bytes).dram = s.dram ∧ (s.afterStore p c y bytes).dramKey = s.dramKey ∧ (s.afterStore p c y bytes).l2 = s.l2 ∧
    (s.afterStore p c y bytes).sram = s.sram ∧ (s.afterStore p c y bytes).remains = s.remains ∧
    (s.afterStore p c y bytes).slices = s.slices ∧ (s.afterStore p c y bytes).sideLog = s.sideLog := by
  rw [State.afterStore]
  cases c.windowAt y with
  | none => simp [State.noteStale, State.noteStaleAt]
  | some x => simp [State.noteStale, State.noteStaleAt]

/-! ## Where an access lies (R270, R271) -/

section
variable {s : State} {b c : Block} {t : Thread} {win : Bool} {x w p y : Nat}

/-- R271: address x of an access of w bytes lies outside the scratchpad or the window. -/
def Block.Beyond (b : Block) (win : Bool) (x w : Nat) : Prop :=
  if win then recNrows b.record * recNcols b.record ≤ x / 262144 ∨ b.scratchSize < x % 262144 + w else b.scratchSize < x + w

theorem place_misaligned (h : x % w ≠ 0) : s.place b win x w = .error (.misalign w x) := if_pos h

theorem place_beyond (ha : x % w = 0) (h : b.Beyond win x w) : s.place b win x w = .error (.boundAt x) := by
  have hspot : s.spot s.cur.blk b win x w = none := by
    cases win with
    | false => exact if_neg (Nat.not_le.2 h)
    | true => exact if_pos h
  rw [State.place, if_neg (not_not.2 ha), hspot]

theorem place_at (h : LocalAt s b win x w p c y) : s.place b win x w = .ok (.here p y) := by
  have hspot : s.spot s.cur.blk b win x w = some (.here p y) := by
    cases win with
    | false =>
      obtain ⟨rfl, rfl, hfits⟩ := h.own rfl
      exact if_pos hfits
    | true =>
      obtain ⟨hblock, hinside, rfl, hfits⟩ := h.window rfl
      have hin : ¬(recNrows b.record * recNcols b.record ≤ x / 262144 ∨ b.scratchSize < x % 262144 + w) := by omega
      exact (if_neg hin).trans (by rw [hblock, Option.map_some])
  rw [State.place, if_neg (not_not.2 h.aligned), hspot]

/-! ## What a load gets (R214, R228, R301) -/

/-- R214, R230, R301: the syndrome that a load of n bytes at y meets, among the bytes that are defined. -/
def Block.loadSyndrome (b : Block) (t : Thread) (c : Block) (y n : Nat) : Option Nat :=
  if (List.range n).any (fun i => b.undefAt t c (y + i)) then
    (List.range n).findSome? (fun i => if b.undefAt t c (y + i) then none else c.scratchSyndrome (y + i) 1)
  else c.scratchSyndrome y n

theorem any_undefAt (b : Block) (t : Thread) (c : Block) (y n : Nat) :
    (List.range n).any (fun i => b.undefAt t c (y + i)) = true ↔ ¬b.Settled t c y n := by
  simp [Block.Settled]

theorem loadSyndrome_settled (h : b.Settled t c y w) : b.loadSyndrome t c y w = c.scratchSyndrome y w :=
  if_neg (by rw [any_undefAt]; exact not_not.2 h)

theorem loadSyndrome_clean (h : ¬b.Settled t c y w) (hs : ∀ i < w, b.undefAt t c (y + i) = false → c.scratchSyndrome (y + i) 1 = none) :
    b.loadSyndrome t c y w = none := by
  rw [Block.loadSyndrome, if_pos ((any_undefAt ..).2 h), List.findSome?_eq_none_iff]
  intro i hi
  split
  next => rfl
  next hdef => exact hs i (List.mem_range.1 hi) (by simpa using hdef)

/-- R230: the first defined byte that is poisoned. -/
theorem loadSyndrome_first {j syn : Nat} (h : ¬b.Settled t c y w) (hj : j < w) (hdef : b.undefAt t c (y + j) = false)
    (hsyn : c.scratchSyndrome (y + j) 1 = some syn)
    (hbefore : ∀ i < j, b.undefAt t c (y + i) = true ∨ c.scratchSyndrome (y + i) 1 = none) : b.loadSyndrome t c y w = some syn := by
  obtain ⟨k, rfl⟩ := Nat.exists_eq_add_of_lt hj
  rw [Block.loadSyndrome, if_pos ((any_undefAt ..).2 h), Nat.add_assoc, List.range_add, List.findSome?_append,
    List.findSome?_eq_none_iff.2, Option.none_or, List.range_succ_eq_map]
  · simp [hdef, hsyn]
  · intro i hi
    obtain hu | hn := hbefore i (List.mem_range.1 hi)
    · exact if_pos hu
    · split
      next => rfl
      next => exact hn

section
variable (hb : s.blocks[s.cur.blk]? = some b) (hc : s.blocks[p]? = some c)
include hb hc

theorem localLoad_poisoned {syn : Nat} (h : b.loadSyndrome t c y w = some syn) : s.localLoad t (.here p y) w = .error syn := by
  simp only [State.localLoad, hb, hc]
  split
  next syn' h' => exact congrArg Except.error (Option.some.inj (h'.symm.trans h))
  next h' => cases h'.symm.trans h

theorem localLoad_defined (h : b.Quiet t c y w) : s.localLoad t (.here p y) w = .ok (c.scratchBytes y w, s) := by
  obtain ⟨hset, hpoison⟩ := h
  have hsyn := (loadSyndrome_settled hset).trans hpoison
  simp only [State.localLoad, hb, hc]
  split
  next syn' h' => cases h'.symm.trans hsyn
  next => exact congrArg Except.ok (freeWhere_none fun i hi => hset i (by simpa [Block.scratchBytes] using hi))

theorem localLoad_undefined (h : ¬b.Settled t c y w) (hs : ∀ i < w, b.undefAt t c (y + i) = false → c.scratchSyndrome (y + i) 1 = none) :
    s.localLoad t (.here p y) w = .ok (s.drawn (fun i => b.undefAt t c (y + i)) (c.scratchBytes y w), s.drew) := by
  have hsyn := loadSyndrome_clean h hs
  obtain ⟨i, hi, hu⟩ := List.any_eq_true.1 ((any_undefAt b t c y w).2 h)
  simp only [State.localLoad, hb, hc]
  split
  next syn' h' => cases h'.symm.trans hsyn
  next => exact congrArg Except.ok (freeWhere_some ⟨i, by simpa [Block.scratchBytes] using hi, hu⟩)

/-! ## The fate of a store (R214, R216, R301) -/

theorem localStore_live {bytes : List Byte} {g : Nat} (h : c.liveIn y bytes.length = some g) :
    s.localStore t (.here p y) bytes = .error (16 * g) := by
  simp only [State.localStore, hb, hc, h]

theorem localStore_covered {bytes : List Byte} (hl : c.liveIn y bytes.length = none) (h : b.Covered t c y bytes.length) :
    s.localStore t (.here p y) bytes = .ok (s.afterStore p c y bytes) := by
  simp only [State.localStore, hb, hc, hl, freeWhere_none h]
  rfl

theorem localStore_uncovered {bytes : List Byte} (hl : c.liveIn y bytes.length = none) (h : ¬b.Covered t c y bytes.length) :
    s.localStore t (.here p y) bytes = .ok (s.drew.afterStore p c y (s.drawn (fun i => b.spUncovered t c (y + i)) bytes)) := by
  have hopen : ∃ i < bytes.length, b.spUncovered t c (y + i) = true := by simpa [Block.Covered] using h
  simp only [State.localStore, hb, hc, hl, freeWhere_some hopen]
  rfl

end

/-- R301: no wait is missing where every byte is defined. -/
theorem Block.Settled.covered (h : b.Settled t c y w) : b.Covered t c y w := by
  intro i hi
  have hu := h i hi
  rw [Block.undefAt, Block.spPending, Bool.or_eq_false_iff, Bool.or_eq_false_iff] at hu
  exact hu.2.2

end

end Sys2Proof.Machine
end


section
/-! SUPPORT. Loads, stores and atomics of scratchpads and of the window by a thread that issues alone (R107, R155, R214, R216, R270 to R274). -/

namespace Sys2Proof.Machine

theorem accessSize_ok (code : BitVec 3) : 2 ^ code.toNat ≤ 4 ∨ 2 ^ code.toNat % 4 = 0 := by
  have hcode := code.isLt
  interval_cases code.toNat <;> decide

section
variable {s : State} {b : Block} {t : Thread} (h : Solo s b t) {win : Bool} {d a k : Reg} {code w : Nat} (hw : w = 2 ^ code) {x : Nat}
  (hx : x = (t.get a.toNat).toNat + k.toNat * w) {tr : Trap} {sp : Spot}

section
variable (hf : FieldsOk b t (dataRegs d.toNat w ++ [a.toNat]) [] [a.toNat])
include h hw hx hf

theorem localLd_misplaced (hp : s.progressed.place (b.progressAt s.clock) win x w = .error tr) :
    s.localLd win d a k code = .next (s.progressed.takeTrap t.tid tr) := by
  subst hw hx
  exact congrArg _ (exec_fold h _ (.trap _ tr) ((lc _ _ _ _ hf _).trans (by simp only [localAddr, hp])))

theorem localLd_poisoned {syn : Nat} (hp : s.progressed.place (b.progressAt s.clock) win x w = .ok sp)
    (hl : s.progressed.localLoad t sp w = .error syn) :
    s.localLd win d a k code = .next (s.progressed.takeTrap t.tid (.poisonAt syn x)) := by
  subst hw hx
  exact congrArg _ (exec_fold h _ (.trap _ _) ((lc _ _ _ _ hf _).trans (by simp only [localAddr, hp, hl])))

theorem localLd_loaded {bytes : List Byte} {s' : State} (hp : s.progressed.place (b.progressAt s.clock) win x w = .ok sp)
    (hl : s.progressed.localLoad t sp w = .ok (bytes, s')) :
    s.localLd win d a k code = .next (s.progressed.closeLane t.tid (.done (s'.deliver t d.toNat bytes false))) := by
  subst hw hx
  exact congrArg _ (exec_fold h _ (.done _) ((lc _ _ _ _ hf _).trans (by simp only [localAddr, hp, hl])))

end

section
variable (hf : FieldsOk b t (dataRegs d.toNat w ++ [a.toNat]) [] (dataRegs d.toNat w ++ [a.toNat]))
include h hw hx hf

theorem localSt_misplaced (hp : s.progressed.place (b.progressAt s.clock) win x w = .error tr) :
    s.localSt win d a k code = .next (s.progressed.takeTrap t.tid tr) := by
  subst hw hx
  exact congrArg _ (exec_fold h _ (.trap _ tr) ((lc _ _ _ _ hf _).trans (by simp only [localAddr, hp])))

theorem localSt_live {g : Nat} (hp : s.progressed.place (b.progressAt s.clock) win x w = .ok sp)
    (hl : s.progressed.localStore t sp (t.dataBytes d.toNat w) = .error g) :
    s.localSt win d a k code = .next (s.progressed.takeTrap t.tid (.clobber win x g)) := by
  subst hw hx
  exact congrArg _ (exec_fold h _ (.trap _ _) ((lc _ _ _ _ hf _).trans (by simp only [localAddr, hp, hl])))

theorem localSt_stored {s' : State} (hp : s.progressed.place (b.progressAt s.clock) win x w = .ok sp)
    (hl : s.progressed.localStore t sp (t.dataBytes d.toNat w) = .ok s') :
    s.localSt win d a k code = .next (s'.retireLane t.tid) := by
  subst hw hx
  exact congrArg _ (exec_fold h _ (.done s') ((lc _ _ _ _ hf _).trans (by simp only [localAddr, hp, hl])))

end
end

/-- R274: the word that an atomic operation q leaves of `old`; `c` is what CAS puts in place of `v`. -/
def atomWord (old v c : Word) (q : Nat) : Word :=
  ([old + v, BitVec.ofInt 32 (min old.toInt v.toInt), BitVec.ofInt 32 (max old.toInt v.toInt),
    BitVec.ofNat 32 (min old.toNat v.toNat), BitVec.ofNat 32 (max old.toNat v.toNat), old &&& v, old ||| v, old ^^^ v, v,
    (if old = v then c else old), BitVec.ofNat 32 (fp32.add 0 old.toNat v.toNat)] : List Word).getD q 0

theorem atomNew_word (old v c : Word) {q : Nat} (hq : q ≤ 10) :
    atomNew (atomAdd fp32) q old (if q = 9 then c else v) v = atomWord old v c q := by
  rw [atomWord, ← minS_eq_ofInt, ← maxS_eq_ofInt, ← minU_eq_ofNat, ← maxU_eq_ofNat]
  interval_cases q <;> rfl

theorem atomBytes_word (t : Thread) (d old : Nat) {q : Nat} (hq : q ≤ 10) :
    atomBytes t d 1 q old = toBytes 4 (atomWord (BitVec.ofNat 32 old) (t.get d) (t.get (d + 1)) q).toNat :=
  congrArg (fun z : Word => toBytes 4 z.toNat) (atomNew_word _ _ _ hq)

/-- R273: four bytes brought to one register. -/
theorem putBytes_word (t : Thread) (d : Nat) {bytes : List Byte} (h : bytes.length = 4) :
    t.putBytes d bytes = t.put d (BitVec.ofNat 32 (ofBytes bytes)) := by
  simp [Thread.putBytes, h, Thread.putList, List.take_of_length_le h.le]

theorem localAtom_stored {s : State} {b : Block} {t : Thread} (h : Solo s b t) {win : Bool} {d a k : Reg} {q x : Nat}
    (hx : x = (t.get a.toNat).toNat + k.toNat * 4)
    (hf : FieldsOk b t (atomRegs d.toNat 1 q ++ [a.toNat]) [] (atomRegs d.toNat 1 q ++ [a.toNat])) {sp : Spot} {old : List Byte} {s' : State}
    (hp : s.progressed.place (b.progressAt s.clock) win x 4 = .ok sp) (hl : s.progressed.localLoad t sp 4 = .ok (old, s.progressed))
    (hs : s.progressed.localStore t sp (atomBytes t d.toNat 1 q (ofBytes old)) = .ok s') :
    s.localAtom win d a k q = .next (s.progressed.closeLane t.tid (.done (if win then s'.deliver t d.toNat old false
      else s'.updThread s.cur.blk t.tid (fun u => u.putBytes d.toNat old)))) := by
  subst hx
  exact congrArg _ (exec_fold h _ (.done _) ((lc _ _ _ _ hf _).trans (by simp only [localAddr, hp, hl, hs]; rfl)))

theorem exec_localLd (win : Bool) (d a k : Reg) (code : BitVec 3) (s : State) :
    exec (if win then Instr.nld d a k code else .sld d a k code) s = s.localLd win d a k code.toNat := by cases win <;> rfl

theorem exec_localSt (win : Bool) (d a k : Reg) (code : BitVec 3) (s : State) :
    exec (if win then Instr.nst d a k code else .sst d a k code) s = s.localSt win d a k code.toNat := by cases win <;> rfl

theorem exec_localAtom (win : Bool) (d a k : Reg) (q : BitVec 4) (s : State) :
    exec (if win then Instr.atomNb d a k q else .atomSp d a k q) s = s.localAtom win d a k q.toNat := by cases win <;> rfl

/-- Settles O36: an access is misplaced or at a place, and there the bytes decide what a load gets and a store leaves. -/
theorem localMemory : Obligations.LocalMemory := by
  refine ⟨⟨fun s t d bytes divide => ⟨fun hl => if_neg (by simp [hl]), fun hl => if_pos hl⟩, ?_⟩, ?_⟩
  · intro s b c t win d a k code p y h w x ld st S traps gets misaligned outside beyond here
    have hlen : (t.dataBytes d.toNat w).length = w := dataBytes_length t d.toNat w (accessSize_ok code)
    have hb : S.blocks[S.cur.blk]? = some (b.progressAt s.clock) := State.updBlock_get _ _ _ _ h.block
    refine ⟨fun hf => ?_, fun hf => ?_, ?_⟩
    · have hload : exec ld s = s.localLd win d a k code.toNat := exec_localLd win d a k code s
      simp only [traps, hload]
      refine ⟨fun ha => localLd_misplaced h rfl rfl hf (place_misaligned ha),
        fun ha hout => localLd_misplaced h rfl rfl hf (place_beyond ha hout), fun hat => ?_⟩
      have hplace := place_at hat
      exact ⟨fun hq => localLd_loaded h rfl rfl hf hplace (localLoad_defined hb hat.home hq),
        fun hu hs => localLd_loaded h rfl rfl hf hplace (localLoad_undefined (b := b.progressAt s.clock) hb hat.home hu hs),
        fun syn hd hs => localLd_poisoned h rfl rfl hf hplace (localLoad_poisoned hb hat.home ((loadSyndrome_settled hd).trans hs)),
        fun j syn hu hj hd hs hbefore =>
          localLd_poisoned h rfl rfl hf hplace (localLoad_poisoned hb hat.home (loadSyndrome_first hu hj hd hs hbefore))⟩
    · have hstore : exec st s = s.localSt win d a k code.toNat := exec_localSt win d a k code s
      simp only [traps, hstore]
      refine ⟨fun ha => localSt_misplaced h rfl rfl hf (place_misaligned ha),
        fun ha hout => localSt_misplaced h rfl rfl hf (place_beyond ha hout), fun hat => ?_⟩
      have hplace := place_at hat
      refine ⟨fun hl => ?_, fun g hl => localSt_live h rfl rfl hf hplace (localStore_live hb hat.home (hlen.symm ▸ hl))⟩
      exact ⟨fun hc => localSt_stored h rfl rfl hf hplace (localStore_covered hb hat.home (hlen.symm ▸ hl) (hlen.symm ▸ hc)),
        fun hc => localSt_stored h rfl rfl hf hplace (localStore_uncovered hb hat.home (hlen.symm ▸ hl) (hlen.symm ▸ hc))⟩
    · rintro q hq rfl hat hquiet hl hf old v new stored
      have hbytes : atomBytes t d.toNat 1 q.toNat (ofBytes (c.scratchBytes y 4)) = toBytes 4 new.toNat := atomBytes_word t _ _ hq
      have hsize : (toBytes 4 new.toNat).length = 4 := toBytes_length _ _
      have hcovered : (b.progressAt s.clock).Covered t c y 4 := Block.Settled.covered hquiet.1
      have hstored : S.localStore t (.here p y) (toBytes 4 new.toNat) = .ok stored :=
        localStore_covered hb hat.home (hsize.symm ▸ hl) (hsize.symm ▸ hcovered)
      rw [exec_localAtom, localAtom_stored h rfl hf (place_at hat) (localLoad_defined hb hat.home hquiet) (by rw [hbytes]; exact hstored)]
      cases win with
      | true => rfl
      | false =>
        have hold : (c.scratchBytes y 4).length = 4 := by simp [Block.scratchBytes]
        simp only [putBytes_word _ _ hold]
        rfl
  · intro s p y c bytes hc s' marked
    refine ⟨?_, fun p' e hp he => ?_, ?_⟩
    · obtain ⟨c', hget, halike⟩ := afterStore_home hc y bytes
      obtain ⟨hthreads, hsregs, hcregs, hrows, hlive, hpast⟩ := halike.kept
      exact ⟨c', hget, (halike.scratchBytes ..).trans (scratchBytes_stored ..),
        fun x hx => (halike.scratchByte x).trans ((scratchByte_stored ..).trans (if_neg (by omega))),
        hthreads, hsregs, hcregs, hrows, hlive, hpast,
        halike.commands.trans (spoiltAlike_spoilWrites ((c.putScratch y bytes).spoil y bytes.length) 0 y bytes.length).commands⟩
    · obtain ⟨g, halike, hother, hget⟩ := afterStore_block s p c y bytes p'
      rw [he, Option.map_some, if_neg hp] at hget
      exact ⟨g e, hget, (halike e).others, (halike e).commands, fun hcur => hother hcur e⟩
    · exact afterStore_elsewhere s p c y bytes

end Sys2Proof.Machine
end


section
/-! SUPPORT. Returns, gangs, bins and side logs between instructions (R107, R155, R161, R164, R250, R254, R258). -/

namespace Sys2Proof.Machine

variable {s : State}

/-! ## Returns (R107, R155, R434) -/

theorem takeReturn_found {b k i : Nat} {divide : Bool} {blk : Block} {r : Return} (hp : s.placeOfUid b = some i) (hb : s.blocks[i]? = some blk)
    (hr : blk.returns.find? (fun r => r.tid == k && r.divide == divide) = some r) :
    s.takeReturn b k divide = s.updBlock i (fun c => { c with
      returns := blk.returns.erase r
      gangs := blk.gangs.map (fun g => { g with board := g.board.erase r })
      threads := (blk.applyReturn r).threads }) := by
  rw [State.takeReturn, hp]
  refine updBlock_congr _ _ _ _ blk hb ?_
  rw [hr]
  rfl

theorem exec_return (b k : Nat) (divide : Bool) (s : State) :
    exec (if divide then Instr.divideCompletion b k else .loadDataReturn b k) s = .next (s.takeReturn b k divide) := by cases divide <;> rfl

/-! ## Accesses performed (R258, R264) -/

theorem accessPerformed_unknown {b k : Nat} (h : s.threadAt b k = none) : exec (.accessPerformed b k) s = .next s := by
  refine congrArg Host.Outcome.next ?_
  rw [h]

theorem accessPerformed_known {b k i : Nat} {blk : Block} {t : Thread} (h : s.threadAt b k = some (i, blk, t)) :
    exec (.accessPerformed b k) s =
      .next (if t.flushing then s.updThread i k (fun t => { t with posted := false, flushing := false }) else s) := by
  refine congrArg Host.Outcome.next ?_
  rw [h]

/-! ## The active set (R164) -/

section
variable {core p n : Nat} {g : Gang}
  (hready : s.longest Gang.since ((s.readyOf core).filter (fun x => !x.2.2.active)) = some (p, n, g))
include hready

theorem swapActive_room (h : ((s.gangsOf core).filter (fun x => x.2.2.active)).length < 8) :
    s.swapActive core = (s.updBlock p (fun b => { b with
      gangs := upd b.gangs n (fun g => { g with active := true, since := s.clock, last := none }) })).mergeBlock p := by
  simp only [State.swapActive, hready, if_pos h]

variable (hfull : 8 ≤ ((s.gangsOf core).filter (fun x => x.2.2.active)).length)
include hfull

theorem swapActive_leaves {p' n' : Nat} {g' : Gang} (h : ((s.gangsOf core).filter (fun x => x.2.2.active)).find?
      (fun x => x.2.2.since + 64 ≤ s.clock && x.2.2.last.isSome) = some (p', n', g')) :
    s.swapActive core = ((s.updBlock p' (fun b => { b with
        gangs := upd b.gangs n' (fun g => { g with active := false, since := s.clock, last := none }) })).updBlock p (fun b => { b with
      gangs := upd b.gangs n (fun g => { g with active := true, since := s.clock, last := none }) })).mergeBlock p := by
  simp only [State.swapActive, hready, if_neg (Nat.not_lt.2 hfull), h, State.updBlock_clock]

theorem swapActive_stays (h : ((s.gangsOf core).filter (fun x => x.2.2.active)).find?
      (fun x => x.2.2.since + 64 ≤ s.clock && x.2.2.last.isSome) = none) : s.swapActive core = s := by
  simp only [State.swapActive, hready, if_neg (Nat.not_lt.2 hfull), h]

end

/-! ## REFORM bins (R161) -/

/-- R161: a block whose quads `out` a bin releases at a clock, as one gang. -/
def Block.unfiled (b : Block) (out : List Nat) (clock : Nat) : Block := { b with
  gangs := b.gangs ++ [{ quads := (List.range (quadsOf b.threads.length)).filter out.contains, since := clock }]
  threads := b.threads.map (fun t => if out.contains (t.tid / 4) then { t with filed := false } else t) }

/-- R161: bin j keeps the quads `left`, and an empty bin is in use no longer. -/
def State.binKeeps (s : State) (j : Nat) (left : List (Nat × Nat)) : State :=
  { s with bins := if left = [] then s.bins.eraseIdx j else upd s.bins j (fun x => { x with quads := left }) }

theorem releaseBin_due {j p : Nat} {bin : Bin} {b : Block} (hbin : s.bins[j]? = some bin) (hp : s.placeOfUid bin.blk = some p)
    (hb : s.blocks[p]? = some b) (hh : b.halted = none)
    (hdue : (releaseOf b bin.quads).length = 16 ∨ (∃ q at', bin.quads.head? = some (q, at') ∧ at' + 256 ≤ s.clock) ∨
      (∀ q ∈ List.range (quadsOf b.threads.length), s.quadRunnable p b q = [])) :
    s.releaseBin j = (s.updBlock p (fun b' => b'.unfiled (releaseOf b bin.quads) s.clock)).binKeeps j
      (bin.quads.filter (fun q => !(releaseOf b bin.quads).contains q.1)) := by
  have hcond : (b.halted.isNone && ((releaseOf b bin.quads).length == 16 || bin.quads.head?.any (fun q => q.2 + 256 ≤ s.clock) ||
      (List.range (quadsOf b.threads.length)).all (fun q => (s.quadRunnable p b q).isEmpty))) = true := by
    obtain h | ⟨q, at', hq, hage⟩ | h := hdue
    · simp [hh, h]
    · simp [hh, hq, hage]
    · simp [hh, List.all_eq_true.2 fun q hq => List.isEmpty_iff.2 (h q hq)]
  simp only [State.releaseBin, hbin, hp, hb]
  rw [if_pos hcond]
  simp only [List.isEmpty_iff]
  rfl

theorem exec_reformBinRelease {core n j : Nat} {bin : Bin} (h : (s.bins.zipIdx.filter (fun x => x.1.core == core))[n]? = some (bin, j)) :
    exec (.reformBinRelease core n) s = .next (s.releaseBin j) := by
  refine congrArg Host.Outcome.next ?_
  rw [h]

/-! ## Side logs (R250, R254) -/

/-- R250: the log of a core as it is tried at a clock. -/
def State.logTriedNow (s : State) (core : Nat) : State := { s with logTried := SMap.set s.logTried core s.clock }

theorem sideLogRetry_due {core : Nat} (h : SMap.getD s.logTried core 0 + 4096 ≤ s.clock) :
    exec (.sideLogRetry core) s = .next (s.tryLog core) := congrArg Host.Outcome.next (if_pos (decide_eq_true h))

theorem sideLogRetry_early {core : Nat} (h : ¬SMap.getD s.logTried core 0 + 4096 ≤ s.clock) : exec (.sideLogRetry core) s = .next s :=
  congrArg Host.Outcome.next (if_neg (ne_true_of_eq_false (decide_eq_false h)))

theorem tryLog_empty {core : Nat} (h : s.sideLog.find? (fun e => e.core == core) = none) : s.tryLog core = s.logTriedNow core := by
  rw [State.tryLog]
  cases s.sideLog.length with
  | zero => rfl
  | succ n => simp only [State.retryLog, h]; rfl

section
variable {core : Nat} {e : LogEntry} (h : s.sideLog.find? (fun e => e.core == core) = some e)
include h

theorem sideLog_succ : ∃ n, s.sideLog.length = n + 1 :=
  Nat.exists_eq_succ_of_ne_zero (List.length_pos_of_mem (List.mem_of_find?_eq_some h)).ne'

theorem tryLog_stays (hr : (s.logTriedNow core).retryEntry e = none) : s.tryLog core = s.logTriedNow core := by
  have hfirst : (s.logTriedNow core).sideLog.find? (fun e => e.core == core) = some e := h
  obtain ⟨n, hn⟩ := sideLog_succ h
  rw [State.tryLog, ← State.logTriedNow, hn, State.retryLog]
  simp only [hfirst, hr]

theorem tryLog_next {s' : State} (hr : (s.logTriedNow core).retryEntry e = some s') :
    s.tryLog core = State.retryLog { s' with sideLog := s'.sideLog.erase e } core (s.sideLog.length - 1) := by
  have hfirst : (s.logTriedNow core).sideLog.find? (fun e => e.core == core) = some e := h
  obtain ⟨n, hn⟩ := sideLog_succ h
  rw [State.tryLog, ← State.logTriedNow, hn, State.retryLog, Nat.add_sub_cancel]
  simp only [hfirst, hr]

end

theorem retryEntry_behind {e older : LogEntry} {x : Xlated} (hx : s.translate e.req e.span.1 e.span.2 = .ok x) (hm : older ∈ s.sideLog)
    (hcore : older.core ≠ e.core) (howner : older.owner = e.owner) (hstamp : older.stamp < e.stamp) (hg : older.granule e.va x.gpa = true) :
    s.retryEntry e = none := by
  have hbefore : s.loggedBefore e x.gpa = true := List.any_eq_true.2 ⟨older, hm, by simp [hcore, howner, hstamp, hg]⟩
  simp only [State.retryEntry, hx, if_pos hbefore]

end Sys2Proof.Machine
end


section
/-! SUPPORT. Errors in storage (R228, R231, R434): what a soft error of each structure and a scrub leave. -/

namespace Sys2Proof.Machine

variable {s : State} {loc bits : Nat}

/-! ## Words on a core (R228) -/

theorem softError_word {struct : Nat} (hbits : 0 < bits) (hs : struct ≤ 2) :
    exec (.softError struct loc bits) s = .next (s.hitWord loc bits) := by
  interval_cases struct <;> exact congrArg Host.Outcome.next (if_neg hbits.ne')

/-- R228: bits of a word that the block at place i holds: one is corrected and counted for its owner, two poison it as `f` says. -/
def State.hitOwned (s : State) (i : Nat) (b : Block) (bits : Nat) (f : Block → Block) : State :=
  if 2 ≤ bits then s.updBlock i f else s.corrected b.owner

section
variable {i : Nat} {b : Block} (hb : s.blocks[i]? = some b)
include hb

theorem hitWord_reg {k n : Nat} (h : s.chipCell (loc / 4 * 4) = .reg i k n) :
    s.hitWord loc bits = s.hitOwned i b bits (fun b => b.updThread k (fun t => { t with poison := SMap.set t.poison n false })) := by
  simp only [State.hitWord, h, hb]
  rfl

theorem hitWord_scratch {x : Nat} (h : s.chipCell (loc / 4 * 4) = .scratch i x) :
    s.hitWord loc bits = s.hitOwned i b bits (fun b => { b with scratchPoison := SMap.set b.scratchPoison (x / 4) false }) := by
  simp only [State.hitWord, h, hb]
  rfl

theorem hitWord_acc {n row col : Nat} (h : s.chipCell (loc / 4 * 4) = .acc i n row col) :
    s.hitWord loc bits = s.hitOwned i b bits (fun b => { b with accPoison := SMap.set b.accPoison ((64 * n + row) * 128 + col / 2) false }) := by
  simp only [State.hitWord, h, hb]
  rfl

end

theorem hitOwned_one (i : Nat) (b : Block) (f : Block → Block) : s.hitOwned i b 1 f = s.corrected b.owner := if_neg (by decide)

theorem hitOwned_two (i : Nat) (b : Block) (f : Block → Block) (h : 2 ≤ bits) : s.hitOwned i b bits f = s.updBlock i f := if_pos h

theorem hitWord_idle (h : s.chipCell (loc / 4 * 4) = .idle) (hbits : 2 ≤ bits) :
    s.hitWord loc bits = { s with sramPoison := (checkedWords loc).foldl (fun m x => SMap.set m x false) s.sramPoison } := by
  simp only [State.hitWord, h]
  exact if_pos hbits

/-! ## Data on their way to a core (R434) -/

theorem spoilReturns_one (b : Block) (r : Return) :
    let spoilt (x : Return) : Return := if x = r then { x with bad := true } else x
    b.spoilReturns (fun x => x == r) =
      { b with returns := b.returns.map spoilt, gangs := b.gangs.map (fun g => { g with board := g.board.map spoilt }) } := by
  simp only [Block.spoilReturns, beq_iff_eq]

theorem softError_hop {struct : Nat} (hbits : 0 < bits) (hs : struct = 10 ∨ struct = 11) :
    exec (.softError struct loc bits) s = .next (s.hitHop loc bits) := by
  obtain rfl | rfl := hs <;> exact congrArg Host.Outcome.next (if_neg hbits.ne')

section
variable {i : Nat} {b : Block} {r : Return}
  (hi : s.blocks.findIdx? (fun b => b.core == loc && b.returns.any (fun r => !r.divide)) = some i) (hb : s.blocks[i]? = some b)
include hi hb

theorem hitHop_corrected : s.hitHop loc 1 = s.corrected b.owner := by
  simp only [State.hitHop, hi, hb]
  rfl

/-- R434: of the returns on their way, the first that is no quotient's is poisoned. -/
theorem hitHop_poisoned (hr : b.returns.find? (fun r => !r.divide) = some r) (hbits : 2 ≤ bits) :
    s.hitHop loc bits = (s.updBlock i (fun b => b.spoilReturns (fun x => x == r))).count b.owner
      (fun c => { c with uncorrectable := satAdd c.uncorrectable 1 }) := by
  simp only [State.hitHop, hi, hb, if_neg (show bits ≠ 1 by omega)]
  congr 1
  refine updBlock_congr _ _ _ _ b hb (congrArg b.spoilReturns (funext fun x => ?_))
  rw [hr, Bool.eq_iff_iff, beq_iff_eq, beq_iff_eq, Option.some.injEq, eq_comm]

end

/-! ## Ports, caches and DRAM (R228, R231, R434) -/

theorem softError_port (hbits : 0 < bits) (h : loc < s.ports.length) :
    exec (.softError 12 loc bits) s = .next { s with outbox := s.outbox ++ [.aer loc (bits == 1)] } :=
  congrArg Host.Outcome.next ((if_neg hbits.ne').trans (if_pos h))

theorem softError_l1 (hbits : 0 < bits) {b : Block} (h : s.blocks.find? (fun b => b.core == loc / 2 ^ 21) = some b) :
    exec (.softError 4 loc bits) s = .next (s.corrected b.owner) := by
  have hcounted : s.correctedOn (loc / 2 ^ 21) = s.corrected b.owner := by rw [State.correctedOn, h]
  exact congrArg Host.Outcome.next ((if_neg hbits.ne').trans hcounted)

/-- R228: a sector of L2 is corrected and counted for its owner, or becomes poison. -/
theorem softError_l2 (hbits : 0 < bits) {x : Sector} (h : SMap.get s.l2 loc = some x) :
    exec (.softError 5 loc bits) s = .next (if 2 ≤ bits then
      { s with l2 := SMap.set s.l2 loc { x with poison := some (x.poison.getD false) } } else s.corrected (loc / 2 ^ 47)) := by
  refine congrArg Host.Outcome.next ((if_neg hbits.ne').trans ?_)
  simp only [h]

theorem softError_tag_one {c : Nat × Sector} (h : (s.inSet (loc / 2 ^ 14) (loc / 16 % 1024)).find? (fun c => c.2.way == loc % 16) = some c) :
    exec (.softError 6 loc 1) s = .next (s.corrected (c.1 / 2 ^ 47)) := by
  refine congrArg Host.Outcome.next ((if_neg (by decide)).trans ((if_neg (by decide)).trans ?_))
  rw [h]

theorem softError_tag_two (hbits : 2 ≤ bits) :
    exec (.softError 6 loc bits) s = .next (s.hitTags (loc / 2 ^ 14) (loc / 16 % 1024) (loc % 16)) :=
  congrArg Host.Outcome.next ((if_neg (by omega)).trans (if_pos hbits))

theorem softError_dram {struct : Nat} (hbits : 0 < bits) (hs : struct ∈ [7, 8]) :
    exec (.softError struct loc bits) s = .next (s.hitDram loc bits) := by
  simp only [List.mem_cons, List.not_mem_nil, or_false] at hs
  obtain rfl | rfl := hs <;> exact congrArg Host.Outcome.next (if_neg hbits.ne')

/-! ## Scrubs (R228) -/

/-- R228: what a scrub does to sector `k` of DRAM. -/
def State.scrubSector (s : State) (k : Nat) : State :=
  if (SMap.get s.latent k).isSome then
    match s.dramOwner (32 * k) with
    | some o => State.corrected { s with latent := SMap.erase s.latent k } o
    | none => { s with latent := SMap.erase s.latent k }
  else s

theorem exec_scrub : exec (.scrub loc) s = .next ((List.range 4).foldl (fun s i => s.scrubSector (loc / 128 * 4 + i)) s) := rfl

theorem scrubSector_clean {k : Nat} (h : SMap.get s.latent k = none) : s.scrubSector k = s := if_neg (by simp [h])

theorem scrubSector_found {k o : Nat} (h : (SMap.get s.latent k).isSome = true) (ho : s.dramOwner (32 * k) = some o) :
    s.scrubSector k = State.corrected { s with latent := SMap.erase s.latent k } o := by
  rw [State.scrubSector, if_pos h, ho]

theorem scrub_clean (l : List Nat) (h : ∀ m ∈ l, SMap.get s.latent (loc / 128 * 4 + m) = none) :
    l.foldl (fun s i => s.scrubSector (loc / 128 * 4 + i)) s = s := by
  induction l with
  | nil => rfl
  | cons m l ih =>
    rw [List.foldl_cons, scrubSector_clean (h m List.mem_cons_self)]
    exact ih fun k hk => h k (List.mem_cons_of_mem m hk)

/-- R228: a scrub of a line with a wrong symbol in one sector alone. -/
theorem scrub_one {n o : Nat} (hn : n < 4) (h : (SMap.get s.latent (loc / 128 * 4 + n)).isSome = true)
    (hothers : ∀ m < 4, m ≠ n → SMap.get s.latent (loc / 128 * 4 + m) = none) (ho : s.dramOwner (32 * (loc / 128 * 4 + n)) = some o) :
    exec (.scrub loc) s = .next (State.corrected { s with latent := SMap.erase s.latent (loc / 128 * 4 + n) } o) := by
  obtain ⟨k, hk⟩ := Nat.exists_eq_add_of_lt hn
  have hsplit : List.range 4 = List.range n ++ n :: (List.range k).map (fun j => n + (j + 1)) := by
    rw [hk, Nat.add_assoc, List.range_add, List.range_succ_eq_map, List.map_cons, List.map_map]
    rfl
  rw [exec_scrub, hsplit, List.foldl_append, List.foldl_cons,
    scrub_clean _ fun m hm => hothers m (by have := List.mem_range.1 hm; omega) (by have := List.mem_range.1 hm; omega),
    scrubSector_found h ho, scrub_clean]
  intro m hm
  obtain ⟨j, hj, rfl⟩ := List.mem_map.1 hm
  have hj := List.mem_range.1 hj
  exact (SMap.get_erase_other _ _ _ (by omega)).trans (hothers _ (by omega) (by omega))

/-- Settles O50: each event is its operation, by the case that its hypotheses name. -/
theorem threadsAndStorageErrors : Obligations.ThreadsAndStorageErrors := by
  refine ⟨fun s => ⟨?returned, ?unknown, ?performed, ?swapped, ?released, ?retried⟩, ?errors⟩
  case returned =>
    intro b k i blk r divide hp hb hr
    exact (exec_return b k divide s).trans (congrArg _ (takeReturn_found hp hb hr))
  case unknown => exact fun b k => accessPerformed_unknown
  case performed =>
    exact fun b k i blk t ht => ⟨fun hf => (accessPerformed_known ht).trans (by rw [hf]; rfl),
      fun hf => (accessPerformed_known ht).trans (by rw [hf]; rfl)⟩
  case swapped =>
    intro core p n g gs hready enters
    exact ⟨fun h => congrArg _ (swapActive_room hready h), fun p' n' g' hfull h => congrArg _ (swapActive_leaves hready hfull h),
      fun hfull h => congrArg _ (swapActive_stays hready hfull h)⟩
  case released =>
    intro core n j p bin b hn hbin hp hb hh out all left hdue s1
    have hs1 : s.updBlock p (fun b' => b'.unfiled out s.clock) = s1 := updBlock_congr _ _ _ _ b hb rfl
    rw [exec_reformBinRelease hn, releaseBin_due hbin hp hb hh hdue, hs1]
    rfl
  case retried =>
    intro core due tried
    exact ⟨sideLogRetry_early, fun hd h => (sideLogRetry_due hd).trans (congrArg _ (tryLog_empty h)),
      fun e hd h => ⟨fun hr => (sideLogRetry_due hd).trans (congrArg _ (tryLog_stays h hr)),
        fun s' hr => (sideLogRetry_due hd).trans (congrArg _ (tryLog_next h hr))⟩,
      fun e older x => retryEntry_behind⟩
  case errors =>
    intro s loc bits hbits hit counted
    have hword {struct : Nat} (hs : struct ≤ 2) : hit struct = .next (s.hitWord loc bits) := softError_word hbits hs
    have howned {i : Nat} {b : Block} {f : Block → Block} {o : Outcome} (h : o = .next (s.hitOwned i b bits f)) :
        (bits = 1 → o = counted s b.owner) ∧ (2 ≤ bits → o = .next (s.updBlock i f)) := by
      subst h
      exact ⟨fun h1 => by subst h1; exact congrArg _ (hitOwned_one ..), fun h2 => congrArg _ (hitOwned_two _ _ _ h2)⟩
    refine ⟨fun struct i b hs hb => ⟨fun k n hc => howned ((hword hs).trans (congrArg _ (hitWord_reg hb hc))),
        fun x hc => howned ((hword hs).trans (congrArg _ (hitWord_scratch hb hc))),
        fun n row col hc => howned ((hword hs).trans (congrArg _ (hitWord_acc hb hc)))⟩,
      fun struct hs hc h2 => (hword hs).trans (congrArg _ (hitWord_idle hc h2)), fun struct i b r hs hi hb hr => ⟨?_, fun h2 => ?_⟩,
      softError_port hbits, fun b => softError_l1 hbits,
      fun x hx => ⟨fun h1 => (softError_l2 hbits hx).trans (congrArg _ (if_neg (by omega))),
        fun h2 => (softError_l2 hbits hx).trans (congrArg _ (if_pos h2))⟩,
      ⟨?_, softError_tag_two⟩,
      fun struct hs => ⟨fun h2 => (softError_dram hbits hs).trans (congrArg _ (if_pos h2)),
        fun h1 => (softError_dram hbits hs).trans (congrArg _ (if_neg (by omega)))⟩,
      fun n o => scrub_one⟩
    · rintro rfl
      exact (softError_hop hbits hs).trans (congrArg _ (hitHop_corrected hi hb))
    · refine (softError_hop hbits hs).trans (congrArg _ ?_)
      simp only [hitHop_poisoned hi hb hr h2, spoilReturns_one]
    · rintro c rfl hc
      exact softError_tag_one hc

end Sys2Proof.Machine
end


section
/-! SUPPORT. FP64 instructions (R119, R120): the magnitude of an encoding in a register pair. -/

namespace Sys2Proof.Machine

/-- R65: the bits below the sign of an FP64 encoding. -/
theorem and_magnitude64 (x : DWord) : x &&& 0x7FFFFFFFFFFFFFFF = BitVec.ofNat 64 (x.toNat % 2 ^ 63) := by
  apply BitVec.eq_of_toNat_eq
  rw [BitVec.toNat_and, BitVec.toNat_ofNat, show (0x7FFFFFFFFFFFFFFF : DWord).toNat = 2 ^ 63 - 1 from rfl, Nat.and_two_pow_sub_one_eq_mod]
  omega

/-- Settles O13: each form is its function of FP64 encodings on register pairs, and DABS keeps the bits below the sign. -/
theorem doublePrecision : Obligations.DoublePrecision :=
  ⟨fun _ _ _ _ _ => ⟨binaryPair_of (fun _ _ => rfl) fun _ => rfl, binaryPair_of (fun _ _ => rfl) fun _ => rfl,
      binaryPair_of (fun _ _ => rfl) fun _ => rfl, ternaryPair_of (fun _ _ _ => rfl) fun _ => rfl,
      binaryPair_of (fun _ _ => rfl) fun _ => rfl, binaryPair_of (fun _ _ => rfl) fun _ => rfl,
      binaryPair_of (fun _ _ => rfl) fun _ => rfl, binaryPair_of (fun _ _ => rfl) fun _ => rfl,
      unaryPair_of and_magnitude64 fun _ => rfl⟩,
    fun _ _ _ _ _ => comparePair_of (fun _ _ => rfl) fun _ => rfl⟩

end Sys2Proof.Machine
end


section
/-! SUPPORT. Packed precision (R67, R121 to R126): a function on both halves of words, and runs of words packed under a scale. -/

namespace Sys2Proof.Machine

/-! ## Halves (R67, R121, R122) -/

/-- R67: the high half is all that a word holds above its low half. -/
theorem fld_highHalf (x : Word) : fld x.toNat 16 (16 * 1) = x.toNat / 2 ^ 16 :=
  Nat.mod_eq_of_lt (Nat.div_lt_of_lt_mul x.isLt)

/-- R67, R121: a function of elements acts on the low halves and on the high halves. -/
theorem onH_eq (f : Nat → Nat → Nat → Nat) (x y z : Word) :
    onH f x y z = BitVec.ofNat 32 (f (x.toNat % 2 ^ 16) (y.toNat % 2 ^ 16) (z.toNat % 2 ^ 16) +
      65536 * f (x.toNat / 2 ^ 16) (y.toNat / 2 ^ 16) (z.toNat / 2 ^ 16)) := by
  simp only [onH, Nat.mul_zero, fld_low, fld_highHalf]

section
variable {i : Instr} {d a b : Reg} {sb : Bool}

/-- R121, R122: an operation on two elements, on each half by itself. -/
theorem binaryHalves_of {f : Nat → Nat → Nat} (h : ∀ s, exec i s = s.bin d a b sb (fun x y => onH (fun p q _ => f p q) x y 0)) :
    Binary i d a b sb (fun x y =>
      BitVec.ofNat 32 (f (x.toNat % 2 ^ 16) (y.toNat % 2 ^ 16) + 65536 * f (x.toNat / 2 ^ 16) (y.toNat / 2 ^ 16))) :=
  binary_of (fun x y => onH_eq (fun p q _ => f p q) x y 0) h

/-- R121: an operation on three elements, on each half by itself. -/
theorem ternaryHalves_of {f : Nat → Nat → Nat → Nat} (h : ∀ s, exec i s = s.tern d a b sb (onH f)) :
    Ternary i d a b sb (fun x y z => BitVec.ofNat 32 (f (x.toNat % 2 ^ 16) (y.toNat % 2 ^ 16) (z.toNat % 2 ^ 16) +
      65536 * f (x.toNat / 2 ^ 16) (y.toNat / 2 ^ 16) (z.toNat / 2 ^ 16))) :=
  ternary_of (onH_eq f) h

/-! ## Elements under a scale (R124) -/

/-- R124: a run of `n` words packed into elements of `w` bits under the scale in B's low byte. -/
theorem packRun_does {n w : Nat} {f : Fmt} (h : ∀ s, exec i s = s.packRun d a b sb n w f) :
    Does i (fun s => d.toNat :: (upto a.toNat 1 n ++ s.vecB b.toNat 1 sb)) (fun _ => State.scaB b.toNat 1 sb)
      (fun s => upto a.toNat 1 n ++ s.vecB b.toNat 1 sb)
      (fun s blk t => t.put d.toNat (BitVec.ofNat 32 ((List.range n).foldl (fun x j =>
        x + packMx f ((s.opB blk t b.toNat sb).toNat % 256) (t.get (a.toNat + j)).toNat * 2 ^ (w * j)) 0))) :=
  does_of _ _ _ _ _ _ h (fun _ _ _ => rfl)

end

/-- Settles O14: packed forms are their functions on both halves, a pack is two encodings or a run of elements, and an unpack is one element
read in its format. -/
theorem packedPrecision : Obligations.PackedPrecision := by
  refine ⟨fun d a b sb m => ⟨binaryHalves_of fun _ => rfl, binaryHalves_of fun _ => rfl, binaryHalves_of fun _ => rfl,
      ternaryHalves_of fun _ => rfl, binaryHalves_of fun _ => rfl, binaryHalves_of fun _ => rfl, binaryHalves_of fun _ => rfl,
      ternaryHalves_of fun _ => rfl, binaryHalves_of fun _ => rfl, binaryHalves_of fun _ => rfl, binaryHalves_of fun _ => rfl,
      binaryHalves_of fun _ => rfl, binary_of (fun _ _ => rfl) fun _ => rfl, binary_of (fun _ _ => rfl) fun _ => rfl⟩,
    fun c p a b sb q hq => ?compares,
    fun d a e1 e2 e3 => ⟨unary_of (fun _ => rfl) fun _ => rfl, unary_of (fun _ => rfl) fun _ => rfl, unary_of (fun _ => rfl) fun _ => rfl,
      unary_of (fun _ => rfl) fun _ => rfl, unary_of (fun _ => rfl) fun _ => rfl,
      unary_of (fun x => congrArg (fun n => BitVec.ofNat 32 (mxScale n x.toNat)) ?scaleFormat) fun _ => rfl⟩,
    fun d a b sb q hq => ?packs⟩
  case compares =>
    simp only [List.mem_cons, List.not_mem_nil, or_false] at hq
    obtain rfl | rfl := hq
    · exact does_of _ _ _ _ _ _ (fun _ => rfl) (fun _ _ _ => rfl)
    · exact does_of _ _ _ _ _ _ (fun _ => rfl) (fun _ _ _ => rfl)
  case scaleFormat => obtain _ | _ | _ | n := e2.toNat <;> rfl
  case packs =>
    simp only [List.mem_cons, List.not_mem_nil, or_false] at hq
    obtain rfl | rfl | rfl := hq
    · exact packRun_does fun _ => rfl
    · exact packRun_does fun _ => rfl
    · exact packRun_does fun _ => rfl

end Sys2Proof.Machine
end


section
/-! SUPPORT. Control flow: branches, and calls, jumps, returns and window moves that need no spill or fill (R131 to R137). -/

namespace Sys2Proof.Machine

theorem exec_bra (o : BitVec 22) (s : State) : exec (.bra o) s = execBra o s := rfl
theorem exec_brt (p : BitVec 3) (o : BitVec 22) (s : State) : exec (.brt p o) s = execBrt p o s := rfl
theorem exec_brf (p : BitVec 3) (o : BitVec 22) (s : State) : exec (.brf p o) s = execBrf p o s := rfl
theorem exec_brany (p : BitVec 3) (o : BitVec 22) (s : State) : exec (.brany p o) s = execBrany p o s := rfl
theorem exec_brall (p : BitVec 3) (o : BitVec 22) (s : State) : exec (.brall p o) s = execBrall p o s := rfl
theorem exec_jmpi (a : Reg) (s : State) : exec (.jmpi a) s = execJmpi a s := rfl

section
variable {s : State} {b : Block} (hb : s.issuing b) (hn : b.Numbered) (hk : ∀ k ∈ s.cur.tids, k < b.threads.length)
include hb hn hk

/-- R131: some thread of the issue whose guard passes meets a condition. -/
theorem passing_any (f : Thread → Bool) : s.passing.any f = b.threads.any (fun u => s.cur.tids.contains u.tid && u.guardOk && f u) := by
  rw [Bool.eq_iff_iff]
  simp only [List.any_eq_true, passing_mem s b hb hn hk, Bool.and_eq_true, and_assoc]

/-- R131: every thread of the issue whose guard passes meets a condition. -/
theorem passing_all (f : Thread → Bool) : s.passing.all f = b.threads.all (fun u => !(s.cur.tids.contains u.tid && u.guardOk) || f u) := by
  rw [Bool.eq_iff_iff]
  simp only [List.all_eq_true, passing_mem s b hb hn hk, Bool.or_eq_true, Bool.not_eq_true', Bool.and_eq_false_iff, and_imp]
  refine forall_congr' fun u => imp_congr_right fun _ => ?_
  cases s.cur.tids.contains u.tid <;> cases u.guardOk <;> simp

end

/-- Settles O16: each form is a branch by its own condition; BRANY's and BRALL's speak of the threads of the issue whose guards pass. -/
theorem branchTargets : Obligations.BranchTargets := by
  intro o p s b hb goes
  refine ⟨branch_eq s b hb o _, branch_eq s b hb o _, branch_eq s b hb o _, fun hn hk => ⟨?_, ?_⟩⟩
  · rw [exec_brany, execBrany, passing_any hb hn hk]
    exact branch_eq s b hb o _
  · rw [exec_brall, execBrall, passing_all hb hn hk]
    exact branch_eq s b hb o _

/-- R137: what an indirect target must not be. -/
theorem landCheck_bad {s : State} {b : Block} {t : Thread} {x : DWord}
    (h : 2 ^ 56 ≤ x.toNat ∨ x.toNat % 4 ≠ 0 ∨ (∃ w s', w ≠ landWord ∧ s.fetchAt b t.level x.toNat = .ok (w, s')) ∨
      (∃ va n, s.fetchAt b t.level x.toNat = .error (.page n, va)) ∨ (∃ va g n, s.fetchAt b t.level x.toNat = .error (.stage2 g n, va))) :
    s.landCheck b t x = some (.trap { cause := .jumpFault, addr := x }) := by
  by_cases hx : x.toNat ≥ 2 ^ 56 ∨ x.toNat % 4 ≠ 0
  · exact if_pos hx
  refine (if_neg hx).trans ?_
  obtain h | h | ⟨w, s', hw, hf⟩ | ⟨va, n, hf⟩ | ⟨va, g, n, hf⟩ := h
  · exact absurd (.inl h) hx
  · exact absurd (.inr h) hx
  · rw [hf]
    exact if_neg hw
  · rw [hf]
  · rw [hf]

section
variable {s : State} {b : Block} {t : Thread} (h : Solo s b t) {a : Reg} (hf : FieldsOk b t [a.toNat, a.toNat + 1] [] [a.toNat, a.toNat + 1])
include h hf

/-- R137: an indirect jump of a thread alone ends as the check of its target does. -/
theorem jmpi_solo : exec (.jmpi a) s = .next (s.progressed.closeLane t.tid
    (match s.progressed.landCheck b t (t.get64 a.toNat) with
      | some x => s.progressed.stopLane t.tid x
      | none => .moved (s.progressed.updThread s.cur.blk t.tid (fun u => u.jump (t.get64 a.toNat))))) := by
  rw [exec_jmpi, execJmpi, exec_fold h _ _ rfl, lc _ _ _ _ (show FieldsOk b t (upto a.toNat 1 2) [] (upto a.toNat 1 2) from hf)]
  rfl

theorem jmpi_bad (hx : s.progressed.landCheck b t (t.get64 a.toNat) = some (.trap { cause := .jumpFault, addr := t.get64 a.toNat })) :
    exec (.jmpi a) s = .next (s.progressed.takeTrap t.tid { cause := .jumpFault, addr := t.get64 a.toNat }) := by
  rw [jmpi_solo h hf, hx]
  rfl

theorem calli_bad (v : Reg) (hx : s.progressed.landCheck b t (t.get64 a.toNat) = some (.trap { cause := .jumpFault, addr := t.get64 a.toNat })) :
    exec (.calli a v) s = .next (s.progressed.takeTrap t.tid { cause := .jumpFault, addr := t.get64 a.toNat }) := by
  rw [exec_calli, execCalli, exec_fold h _ _ rfl, lc _ _ _ _ (show FieldsOk b t (upto a.toNat 1 2) [] (upto a.toNat 1 2) from hf)]
  rw [show s.progressed.landCheck (b.progressAt s.clock) t (t.get64 a.toNat) = _ from hx]
  rfl

end

/-- Settles O17: the target's check first; then the jump, or the call in the room that its window has. -/
theorem callsAndJumps : Obligations.CallsAndJumps := by
  refine ⟨fun s b t h => ⟨fun v i hr => ?_, fun a v s' hf hx h4 hl => ⟨?_, fun hr => ?_⟩⟩, fun s b t a v h hf hbad => ?_⟩
  · rw [call_solo h, call_eq h _ _ hr]
    rfl
  · rw [jmpi_solo h hf, landCheck_ok hx h4 hl]
    exact congrArg _ (becomes_of h _)
  · rw [calli_solo h hf hx h4 hl, call_eq h _ _ hr]
    rfl
  · exact ⟨jmpi_bad h hf (landCheck_bad hbad), calli_bad h hf v (landCheck_bad hbad)⟩

/-- R22: no move follows a commit that leaves the window resident. -/
theorem settleAfter_none {s : State} {k fuel : Nat} {b : Block} {t : Thread} (h : s.thread? s.cur.blk k = some (b, t)) (hlow : t.low ≤ t.wb)
    (hn : t.wb + t.f ≤ t.low + t.n) : s.settleAfter k fuel = s := by
  rw [State.settleAfter, settle_none _ _ _ _ _ _ h hlow hn]
  exact ite_self _

/-- R22: and none where positions of a resident window became undefined. -/
theorem settleAfter_undefined {s : State} {k fuel : Nat} {b : Block} {t : Thread} (h : s.thread? s.cur.blk k = some (b, t)) (hlow : t.low ≤ t.wb)
    (hn : t.wb + t.f ≤ t.low + t.n) (p : Prop) [Decidable p] (start n : Nat) :
    (if p then s.undefine s.cur.blk k start n else s).settleAfter k fuel = if p then s.undefine s.cur.blk k start n else s := by
  split
  · obtain ⟨b', t', ht', h1, h2, h3, h4⟩ := undefine_thread _ _ _ start n _ _ h
    exact settleAfter_none ht' (by rw [h1, h2]; exact hlow) (by rw [h1, h2, h3, h4]; exact hn)
  · exact settleAfter_none h hlow hn

/-- R135: RET through a link that fails its checks. -/
theorem ret_bad {s b t} (h : Solo s b t) (hf : FieldsOk b t [0, 1, 2] [] [0, 1, 2]) (hl : linkOk t = false) :
    exec .ret s = .next (s.progressed.takeTrap t.tid { cause := .jumpFault, addr := linkPc t }) := by
  rw [exec_ret, execRet, exec_fold h _ _ ((lc _ _ _ _ hf _).trans (if_pos (by simp [hl])))]
  rfl

/-- R135: RET through a good link, to a window that is resident. -/
theorem ret_resident {s b t} (h : Solo s b t) (hf : FieldsOk b t [0, 1, 2] [] [0, 1, 2]) (hl : linkOk t = true) {k f : Nat} {pc : DWord}
    (hk : fld (t.get 2).toNat 7 8 = k) (hfc : fld (t.get 2).toNat 8 0 = f) (hpc : linkPc t = pc) (hlow : t.low ≤ t.wb - k)
    (htop : t.wb - k + f ≤ t.low + t.n) :
    let s1 := s.becomes t (Thread.jump { t with wb := t.wb - k, f := f } pc)
    exec .ret s = .next (if t.wb + t.f < t.wb - k + f then s1.undefine s.cur.blk t.tid (t.wb + t.f) (t.wb - k + f - (t.wb + t.f)) else s1) := by
  intro s1
  rw [ret_solo h hf hl hk hfc hpc, min_eq_left (by omega)]
  exact congrArg _ (settleAfter_undefined (thr_becomes h (Thread.jump { t with wb := t.wb - k, f := f } pc)) hlow htop _ _ _)

/-- Settles O18: a link's checks decide between JUMP_FAULT and the caller's window, which here is resident. -/
theorem returns : Obligations.Returns := by
  intro s b t h hf l0 l1 l2 k f pc ok
  have hpc : linkPc t = pc := by rw [linkPc, fld_low]
  have hok : linkOk t = true ↔ ok := by
    rw [linkOk_iff, fld_low]
    exact Iff.rfl
  refine ⟨fun hbad => ?_, fun hgood hlow htop => ?_⟩
  · rw [ret_bad h hf (Bool.eq_false_iff.2 (hbad ∘ hok.1)), hpc]
  · exact ret_resident h hf (hok.2 hgood) rfl (fld_low _ _) hpc hlow htop

/-- R136: FRAME of a size that no thread, or not this one, may have. -/
theorem frame_beyond {s b t} (h : Solo s b t) (i : Reg) (hi : min t.n 128 < i.toNat + 1) :
    exec (.frame i) s = .next (s.progressed.takeTrap t.tid (.regBound (i.toNat + 1))) := by
  rw [exec_frame, execFrame, exec_fold h _ _ (if_pos hi)]
  rfl

/-- R136: WBASE below position 0. -/
theorem wbase_below {s b t} (h : Solo s b t) (i : Reg) (hw : (t.wb : Int) + i.toInt < 0) :
    exec (.wbase i) s = .next (s.progressed.takeTrap t.tid (.regBound (((t.wb : Int) + i.toInt) % 2 ^ 32).toNat)) := by
  rw [exec_wbase, execWbase, exec_fold h _ _ (if_pos hw)]
  rfl

/-- Settles O19: a size or a base out of range traps; otherwise the window moves in the room that it has. -/
theorem windowMoves : Obligations.WindowMoves := by
  intro s b t i h
  refine ⟨frame_beyond h i, fun hi hr => ?frame, wbase_below h i, fun hi hr => ?up, fun hi hlow htop => ?down⟩
  case frame =>
    rw [frame_solo h i hi, roomFor_none _ _ _ _ _ _ (solo_thread h) hr]
    rfl
  case up =>
    have hne : i.toNat ≠ 0 := fun h0 => by rw [BitVec.toInt_eq_toNat_cond, h0] at hi; simp at hi
    rw [wbase_solo_up h i (le_of_lt hi), roomFor_none _ _ _ _ _ _ (solo_thread h) (by omega)]
    simp only [if_neg hne]
    rfl
  case down =>
    rw [wbase_solo_down h i hi (by omega)]
    exact congrArg _ (settleAfter_none (thr_becomes h _) (by simp; omega) (by simp; omega))

end Sys2Proof.Machine
end


section
/-! SUPPORT. TRET of a frame whose window is resident (R146). -/

namespace Sys2Proof.Machine

/-- R146: TRET of a sound frame gives the thread that the frame names, where no position of its window moves or comes in. -/
theorem tret_resident {s s' : State} {b b' : Block} {t u : Thread} {frame : List Byte} (h : Solo s b t) (hl : t.level ≠ .u)
    (hr : s.progressed.devLoad (b.progressAt s.clock) t (b.loadReq t.level) false none (t.tsp t.level).toNat 64 = .ok frame s')
    (ht : s'.thread? s.cur.blk t.tid = some (b', t)) (hc : s'.cur = s.cur) (hok : frameFault s' t frame = none) (hu : t.ofFrame frame = u)
    (hlow : u.low ≤ u.wb) (hres : u.wb + u.f ≤ u.low + u.n) (htop : u.wb + u.f ≤ t.wb + t.f) :
    exec .tret s = .next (s'.updThread s.cur.blk t.tid (fun _ => u)) := by
  have hthr := State.updThread_get s' s.cur.blk t.tid (fun _ => u) b' t ht
  have hset : (s'.updThread s.cur.blk t.tid (fun _ => u)).settleAfter t.tid (moveFuel u) = s'.updThread s.cur.blk t.tid (fun _ => u) :=
    settleAfter_none (by rw [← hc] at hthr ⊢; exact hthr) hlow hres
  rw [tret_solo h hl, hr, State.tretLane, hok]
  simp only [hu, hc, if_neg (Nat.not_lt.2 htop), hset]
  rfl

/-- Settles O26: the frame passes its checks, and its fields are the thread's. -/
theorem trapReturn : Obligations.TrapReturn := by
  intro s s' b b' t frame p h hl hr ht hc at4 pc f hlevel hf0 hfn hswb hp hpc hpc56 hlow hres htop
  have hok : frameFault s' t frame = none :=
    (frameFault_whole ⟨hlevel, hf0, hfn, hswb, by rw [show numAt frame 36 4 = at4 36 from rfl, hp]; simp⟩).trans
      (if_neg fun hx => hx.elim (· hpc) (Nat.not_le.2 hpc56))
  obtain ⟨hl1, hn1⟩ := setTsp_low t t.level (t.tsp t.level + 64)
  exact tret_resident h hl hr ht hc hok (ofFrame_eq hp rfl rfl rfl) (by rw [hl1]; exact hlow) (by rw [hl1, hn1]; exact hres) htop

end Sys2Proof.Machine
end


section
/-! SUPPORT. A sector of device memory, stored and read back (R152, R225, R229). -/

namespace Sys2Proof.Machine

/-- A key written, or erased where there is no value: what a stored sector's marker does to the table of poison (R228). -/
def SMap.put {α : Type} (m : SMap α) (k : Nat) : Option α → SMap α
  | none => SMap.erase m k
  | some x => SMap.set m k x

@[simp] theorem SMap.get_put_same {α : Type} (m : SMap α) (k : Nat) (x : Option α) : SMap.get (SMap.put m k x) k = x := by
  cases x with
  | none => exact SMap.get_erase_same m k
  | some x => exact SMap.get_set_same m k x

theorem SMap.get_put_other {α : Type} (m : SMap α) (k j : Nat) (x : Option α) (h : j ≠ k) : SMap.get (SMap.put m k x) j = SMap.get m j := by
  cases x with
  | none => exact SMap.get_erase_other m k j h
  | some x => exact SMap.get_set_other m k j x h

section
variable {s : State} {owner slot k : Nat} (hk : s.keyFor owner slot = some k) (h : Nat) (bytes : List Byte) (poison : Option Bool)
include hk

/-- R225: the tables of keys, poison and latent errors after a sector was stored under a key. -/
theorem putDramSector_tables :
    (s.putDramSector owner slot h bytes poison).dramKey = SMap.set s.dramKey (h / 32) k ∧
    (s.putDramSector owner slot h bytes poison).latent = SMap.erase s.latent (h / 32) ∧
    (s.putDramSector owner slot h bytes poison).dramPoison = SMap.put s.dramPoison (h / 32) poison := by
  have hmoved (x : State) : (x.moved owner h 32).dramKey = x.dramKey ∧ (x.moved owner h 32).latent = x.latent ∧
      (x.moved owner h 32).dramPoison = x.dramPoison := by
    unfold State.moved
    split <;> exact ⟨rfl, rfl, rfl⟩
  unfold State.putDramSector
  rw [hk]
  obtain ⟨h1, h2, h3⟩ := hmoved { s with
    dram := Cells.writeList s.dram (h / 32 * 32) bytes, dramKey := SMap.set s.dramKey (h / 32) k, latent := SMap.erase s.latent (h / 32)
    dramPoison := SMap.put s.dramPoison (h / 32) poison }
  cases poison <;> exact ⟨h1, h2, h3⟩

/-- R225: device memory after a sector was stored under a key. -/
theorem putDramSector_bytes : (s.putDramSector owner slot h bytes poison).dram = Cells.writeList s.dram (h / 32 * 32) bytes := by
  rw [State.putDramSector_dram, hk]

end

/-- Settles O59: under a key the bytes and the sector's entry of each table are written, and no other; without one only the loss is counted. -/
theorem sectorsReadBack : Obligations.SectorsReadBack := by
  intro s owner slot h bytes poison hlen s'
  refine ⟨fun k hk => ?_, fun hk => by simp only [s', State.putDramSector, hk]⟩
  obtain ⟨hkey, hlatent, hpoison⟩ := putDramSector_tables hk h bytes poison
  rw [hkey, hlatent, hpoison, putDramSector_bytes hk]
  refine ⟨fun i hi => Cells.read_writeList_in _ _ _ _ (by omega), ?_, SMap.get_set_same _ _ _, SMap.get_erase_same _ _, SMap.get_put_same _ _ _,
    fun j hj => ⟨SMap.get_set_other _ _ _ _ hj, SMap.get_erase_other _ _ _ hj, SMap.get_put_other _ _ _ _ hj⟩⟩
  rintro a (ha | ha)
  · exact Cells.read_writeList_below _ _ _ _ ha
  · exact Cells.read_writeList_above _ _ _ _ (by omega)

end Sys2Proof.Machine
end


section
/-! SUPPORT. Threads that end, and quads that are filed to be formed again (R139, R160, R180, R196). -/

namespace Sys2Proof.Machine

theorem exec_exit (s : State) : exec .exit s = execExit s := rfl
theorem exec_reform (s : State) : exec .reform s = execReform s := rfl

/-! ## EXIT (R139, R180) -/

/-- R179: no thread of the block waits in a rendezvous, so none completes and none is failed. -/
theorem resolveMeets_idle {s : State} {i : Nat} {b : Block} (hb : s.blocks[i]? = some b) (hidle : b.NoMeeting) (m : Nat) : s.resolveMeets i m = s := by
  have hpend : b.pendingIn m = [] := by
    rw [Block.pendingIn, List.filterMap_eq_nil_iff]
    intro t ht
    rw [hidle t ht]
    exact ite_self _
  have hfinish : b.finishMeets m = b := by
    refine congrArg (fun l => ({ b with threads := l } : Block)) ?_
    refine (List.map_congr_left fun t ht => ?_).trans (List.map_id _)
    rw [hidle t ht]
    rfl
  rw [State.resolveMeets, hb]
  simp only [hpend, List.filter_nil, List.foldl_nil]
  exact (updBlock_congr s i _ (fun b => b) b hb hfinish).trans (State.updBlock_same s i)

theorem resolveMeets_idle_all {s : State} {b : Block} (hb : s.issuing b) (hidle : b.NoMeeting) (l : List Nat) :
    l.foldl (fun s m => s.resolveMeets s.cur.blk m) s = s := by
  induction l with
  | nil => rfl
  | cons m l ih => rw [List.foldl_cons, resolveMeets_idle hb hidle, ih]

/-- R139: EXIT ends the threads that execute it, and the rendezvous of their groups are looked at again. -/
theorem exit_eq {s : State} {b : Block} (hb : s.issuing b) : exec .exit s = .next (((s.cur.tids.map (· / 64)).eraseDups).foldl
    (fun s m => s.resolveMeets s.cur.blk m) (s.afterTurn (fun t => { t.jump s.cur.next with exited := true, pend := none }))) := by
  rw [exec_exit, execExit, lanesBy_turn s _ b hb]

/-- R131, R180: a turn in which threads go elsewhere leaves none in a rendezvous that was in none. -/
theorem noMeeting_afterTurn {b : Block} (h : b.NoMeeting) (s : State) (f : Thread → Thread) (hf : ∀ t, (f t).wait = .none) :
    Block.NoMeeting { b with
      threads := b.threads.map (fun t => if s.cur.tids.contains t.tid then (if t.guardOk then f t else t.retire s.cur) else t)
      progress := s.clock } := by
  intro u hu
  obtain ⟨t, ht, rfl⟩ := List.mem_map.1 hu
  split
  · split
    · rw [Thread.arrival, hf]
    · rw [Thread.arrival, Thread.retire_wait]
  · exact h t ht

theorem exit_idle {s : State} {b : Block} (hb : s.issuing b) (hidle : b.NoMeeting) :
    exec .exit s = .next (s.afterTurn (fun t => { t.jump s.cur.next with exited := true, pend := none })) := by
  rw [exit_eq hb]
  have hafter := State.updBlock_get s s.cur.blk (fun b => { b with
    threads := b.threads.map (fun t => if s.cur.tids.contains t.tid then
      (if t.guardOk then { t.jump s.cur.next with exited := true, pend := none } else t.retire s.cur) else t)
    progress := s.clock }) b hb
  exact congrArg _ (resolveMeets_idle_all hafter (noMeeting_afterTurn hidle s (fun t => { t.jump s.cur.next with exited := true, pend := none }) fun _ => rfl) _)

/-! ## REFORM (R160, R196) -/

/-- R196: quads, lowest lane group first. -/
def Block.byLaneGroup (b : Block) (qs : List Nat) : List Nat := (List.range 32).flatMap (fun g => qs.filter (fun q => b.laneGroupOf q == g))

theorem mem_byLaneGroup {b : Block} {qs : List Nat} {q : Nat} : q ∈ b.byLaneGroup qs ↔ q ∈ qs := by
  have hlt : b.laneGroupOf q < 32 := Nat.mod_lt _ (by decide)
  simp only [Block.byLaneGroup, List.mem_flatMap, List.mem_range, List.mem_filter, beq_iff_eq]
  exact ⟨fun ⟨_, _, hq, _⟩ => hq, fun hq => ⟨_, hlt, hq, rfl⟩⟩

theorem byLaneGroup_nodup (b : Block) {qs : List Nat} (h : qs.Nodup) : (b.byLaneGroup qs).Nodup := by
  refine List.pairwise_flatMap.2 ⟨fun g _ => h.filter _, List.Pairwise.imp ?_ List.pairwise_lt_range⟩
  intro g g' hg p hp q hq hpq
  rw [List.mem_filter, beq_iff_eq] at hp hq
  rw [hpq] at hp
  omega

theorem byLaneGroup_ascends (b : Block) (qs : List Nat) : (b.byLaneGroup qs).Pairwise (fun p q => b.laneGroupOf p ≤ b.laneGroupOf q) := by
  have hle {g g' : Nat} (hg : g ≤ g') : ∀ p ∈ qs.filter (fun q => b.laneGroupOf q == g), ∀ q ∈ qs.filter (fun q => b.laneGroupOf q == g'),
      b.laneGroupOf p ≤ b.laneGroupOf q := by
    intro p hp q hq
    rw [List.mem_filter, beq_iff_eq] at hp hq
    omega
  exact List.pairwise_flatMap.2 ⟨fun g _ => List.pairwise_of_forall_mem_list (hle le_rfl),
    List.Pairwise.imp (fun hg => hle (Nat.le_of_lt hg)) List.pairwise_lt_range⟩

/-- R196: the thread under whose key a quad is filed, after the active threads have gone on. -/
theorem find_active {tids : List Nat} {ts : List Thread} (pc : DWord) (q : Nat) :
    (ts.map (fun t => if tids.contains t.tid then t.jump pc else t)).find? (fun t => t.tid / 4 == q && tids.contains t.tid) =
      (ts.find? (fun t => t.tid / 4 == q && tids.contains t.tid)).map (fun t => t.jump pc) := by
  have hp : ((fun t : Thread => t.tid / 4 == q && tids.contains t.tid) ∘ fun t => if tids.contains t.tid then t.jump pc else t) =
      fun t => t.tid / 4 == q && tids.contains t.tid := by
    funext t
    rw [Function.comp_apply]
    split <;> rfl
  rw [List.find?_map, hp]
  cases hf : ts.find? (fun t => t.tid / 4 == q && tids.contains t.tid) with
  | none => rfl
  | some t =>
    have := List.find?_some hf
    rw [Bool.and_eq_true] at this
    exact congrArg some (if_pos this.2)

/-- What filing quads of the block at place p leaves as it is: the issue in hand, device memory, every other block, and of the block itself its
scalar registers and its window of commands. -/
structure Refiled (p : Nat) (s s' : State) : Prop where
  cur : s'.cur = s.cur
  dram : s'.dram = s.dram
  here : ∀ b, s.blocks[p]? = some b → ∃ b', s'.blocks[p]? = some b' ∧ b'.sregs = b.sregs ∧ b'.window = b.window
  elsewhere : ∀ j, j ≠ p → s'.blocks[j]? = s.blocks[j]?

theorem Refiled.refl (p : Nat) (s : State) : Refiled p s s := ⟨rfl, rfl, fun b hb => ⟨b, hb, rfl, rfl⟩, fun _ _ => rfl⟩

theorem Refiled.trans {p : Nat} {s s' s'' : State} (h : Refiled p s s') (h' : Refiled p s' s'') : Refiled p s s'' where
  cur := h'.cur.trans h.cur
  dram := h'.dram.trans h.dram
  here b hb := by
    obtain ⟨b', hb', hs, hw⟩ := h.here b hb
    obtain ⟨b'', hb'', hs', hw'⟩ := h'.here b' hb'
    exact ⟨b'', hb'', hs'.trans hs, hw'.trans hw⟩
  elsewhere j hj := (h'.elsewhere j hj).trans (h.elsewhere j hj)

theorem refiled_updBlock (p : Nat) (s : State) (f : Block → Block) (bins : List Bin) (hf : ∀ b, (f b).sregs = b.sregs ∧ (f b).window = b.window) :
    Refiled p s { s.updBlock p f with bins := bins } :=
  ⟨rfl, rfl, fun b hb => ⟨f b, State.updBlock_get s p f b hb, (hf b).1, (hf b).2⟩, fun _ hj => upd_get_other _ _ _ _ (Ne.symm hj)⟩

theorem refiled_foldl {α : Type} {p : Nat} {f : State → α → State} (hf : ∀ s x, Refiled p s (f s x)) (l : List α) (s : State) :
    Refiled p s (l.foldl f s) := by
  induction l generalizing s with
  | nil => exact Refiled.refl p s
  | cons x l ih => exact (hf s x).trans (ih _)

/-- R160: quad q leaves its gang, filed in a bin or not. -/
def Block.leaveGang (b : Block) (q : Nat) (v : Bool) : Block := { b with
  gangs := (b.gangs.map (fun g => { g with quads := g.quads.filter (· != q) })).filter (fun g => !g.quads.isEmpty)
  threads := b.threads.map (fun u => if u.tid / 4 = q then { u with filed := v } else u) }

theorem not_mem_leaveGang (b : Block) (q : Nat) (v : Bool) : ∀ g ∈ (b.leaveGang q v).gangs, q ∉ g.quads := by
  intro g hg hq
  obtain ⟨g', -, rfl⟩ := List.mem_map.1 (List.mem_of_mem_filter hg)
  exact absurd (List.mem_filter.1 hq).2 (by simp)

/-- R160: a bin of the block's core stands under the key of a thread and can take quad q now. -/
def Bin.awaits (b : Block) (clock q : Nat) (t : Thread) (x : Bin) : Bool :=
  x.core == b.core && x.blk == b.uid && x.pc == t.pc && x.level == t.level && x.swb == t.swb && x.takes b clock q

section
variable {s : State} {p q : Nat} {b : Block} {t : Thread} (n : Nat) (hb : s.blocks[p]? = some b)
include hb

/-- R160, log entry 105: a quad filed in a bin that takes it; what it puts out is filed after it. -/
theorem fileQuad_joins {i : Nat} {x : Bin} (hi : s.bins.findIdx? (Bin.awaits b s.clock q t) = some i) (hx : s.bins[i]? = some x) :
    s.fileQuad p q t (n + 1) = ((Bin.insert b s.clock q x.quads).drop 32).foldl (fun s y => s.fileQuad p y.1 t n)
      { s.updBlock p (fun b => b.leaveGang q true) with
        bins := s.bins.modify i (fun x => { x with quads := (Bin.insert b s.clock q x.quads).take 32 }) } := by
  have hbins : upd s.bins i (fun y => { y with quads := (Bin.insert b s.clock q x.quads).take 32 }) =
      s.bins.modify i (fun x => { x with quads := (Bin.insert b s.clock q x.quads).take 32 }) :=
    (upd_eq_set _ hx).trans (upd_eq_set (fun x => { x with quads := (Bin.insert b s.clock q x.quads).take 32 }) hx).symm
  unfold Bin.awaits at hi
  rw [State.fileQuad, hb]
  simp only [hi, hx, Option.map_some, Option.getD_some, hbins]
  rfl

/-- R160: a quad that no bin takes begins an unused bin. -/
theorem fileQuad_begins (hi : s.bins.findIdx? (Bin.awaits b s.clock q t) = none) (hused : (s.bins.filter (fun x => x.core == b.core)).length < 16) :
    s.fileQuad p q t (n + 1) = { s.updBlock p (fun b => b.leaveGang q true) with
      bins := s.bins ++ [⟨b.core, b.uid, t.pc, t.level, t.swb, [(q, s.clock)]⟩] } := by
  unfold Bin.awaits at hi
  rw [State.fileQuad, hb]
  simp only [hi, if_pos hused]
  rfl

/-- R160: with every bin of the core in use the quad forms a gang of its own. -/
theorem fileQuad_alone (hi : s.bins.findIdx? (Bin.awaits b s.clock q t) = none) (hused : ¬(s.bins.filter (fun x => x.core == b.core)).length < 16) :
    s.fileQuad p q t (n + 1) = s.updBlock p (fun b => { b.leaveGang q false with
      gangs := (b.leaveGang q false).gangs ++ [{ quads := [q], since := s.clock }] }) := by
  unfold Bin.awaits at hi
  rw [State.fileQuad, hb]
  simp only [hi, if_neg hused]
  rfl

end

/-- R160: filing a quad changes bins, gangs and what threads of the block are filed. -/
theorem fileQuad_refiled (p n : Nat) (s : State) (q : Nat) (t : Thread) : Refiled p s (s.fileQuad p q t n) := by
  induction n generalizing s q with
  | zero => exact Refiled.refl p s
  | succ n ih =>
    cases hb : s.blocks[p]? with
    | none =>
      rw [State.fileQuad, hb]
      exact Refiled.refl p s
    | some b =>
      cases hi : s.bins.findIdx? (Bin.awaits b s.clock q t) with
      | some i =>
        obtain ⟨hlt, -⟩ := List.findIdx?_eq_some_iff_getElem.1 hi
        rw [fileQuad_joins n hb hi (List.getElem?_eq_getElem hlt)]
        exact (refiled_updBlock p s (fun b => b.leaveGang q true) _ fun _ => ⟨rfl, rfl⟩).trans (refiled_foldl (fun s (y : Nat × Nat) => ih s y.1) _ _)
      | none =>
        by_cases hused : (s.bins.filter (fun x => x.core == b.core)).length < 16
        · rw [fileQuad_begins n hb hi hused]
          exact refiled_updBlock p s _ _ fun _ => ⟨rfl, rfl⟩
        · rw [fileQuad_alone n hb hi hused]
          exact refiled_updBlock p s _ s.bins fun _ => ⟨rfl, rfl⟩

/-! ## The order of a bin's quads (R160) -/

section
variable (b : Block) (clock q : Nat)

theorem mem_insert_bin (l : List (Nat × Nat)) (x : Nat × Nat) : x ∈ Bin.insert b clock q l ↔ x ∈ l ∨ x = (q, clock) := by
  induction l with
  | nil => simp [Bin.insert]
  | cons y l ih =>
    rw [Bin.insert]
    split
    · rw [List.mem_cons, or_comm]
    · rw [List.mem_cons, ih, List.mem_cons, or_assoc]

theorem length_insert_bin (l : List (Nat × Nat)) : (Bin.insert b clock q l).length = l.length + 1 := by
  induction l with
  | nil => rfl
  | cons y l ih =>
    rw [Bin.insert]
    split
    · rfl
    · rw [List.length_cons, ih, List.length_cons]

/-- R160: quads of a bin stand in the order of their clocks, and within a clock in ascending lane group. -/
def Block.filedBefore (x y : Nat × Nat) : Prop := x.2 < y.2 ∨ x.2 = y.2 ∧ b.laneGroupOf x.1 ≤ b.laneGroupOf y.1

theorem ordered_insert_bin (l : List (Nat × Nat)) (hclock : ∀ x ∈ l, x.2 ≤ clock) (h : l.Pairwise b.filedBefore) :
    (Bin.insert b clock q l).Pairwise b.filedBefore := by
  induction l with
  | nil => exact List.pairwise_singleton _ _
  | cons x l ih =>
    obtain ⟨hx, hl⟩ := List.pairwise_cons.1 h
    have hxc := hclock x List.mem_cons_self
    rw [Bin.insert]
    split
    next hlater =>
      rw [Bool.and_eq_true, beq_iff_eq, decide_eq_true_eq] at hlater
      refine List.pairwise_cons.2 ⟨fun y hy => ?_, h⟩
      rcases List.mem_cons.1 hy with rfl | hy
      · exact .inr ⟨hlater.1.symm, hlater.2.le⟩
      · have hyc := hclock y (List.mem_cons_of_mem _ hy)
        rcases hx y hy with hlt | ⟨he, hle⟩
        · omega
        · exact .inr ⟨hlater.1.symm.trans he, hlater.2.le.trans hle⟩
    next hearly =>
      rw [Bool.and_eq_true, beq_iff_eq, decide_eq_true_eq] at hearly
      refine List.pairwise_cons.2 ⟨fun y hy => ?_, ih (fun y hy => hclock y (List.mem_cons_of_mem _ hy)) hl⟩
      rcases (mem_insert_bin b clock q l y).1 hy with hy | rfl
      · exact hx y hy
      · rcases Nat.lt_or_eq_of_le hxc with hlt | he
        · exact .inl hlt
        · exact .inr ⟨he, Nat.le_of_not_lt fun hlt => hearly ⟨he, hlt⟩⟩

/-- R160: a bin whose last quad comes after this one keeps that quad for its last. -/
theorem getLast_insert_bin {y : Nat × Nat} (hy : (y.2 == clock && decide (b.laneGroupOf q < b.laneGroupOf y.1)) = true) (l : List (Nat × Nat))
    (h : l.getLast? = some y) : (Bin.insert b clock q l).getLast? = some y := by
  induction l with
  | nil => cases h
  | cons x l ih =>
    rw [Bin.insert]
    split
    · rw [List.getLast?_cons_cons, h]
    next hearly =>
      cases l with
      | nil => exact absurd hy (by cases h; exact hearly)
      | cons z l =>
        rw [List.getLast?_cons_cons] at h
        rw [List.getLast?_cons, ih h]
        rfl

end

/-- R160, log entry 105: where a bin has its 32 quads, the one that this one puts out is of this clock and comes after it. -/
theorem overflow_insert_bin {b : Block} {clock q : Nat} {t : Thread} {x : Bin} (h : x.awaits b clock q t = true) (hlen : x.quads.length = 32) :
    ∃ y, (Bin.insert b clock q x.quads).drop 32 = [y] ∧ (Bin.insert b clock q x.quads)[32]? = some y ∧
      (y.2 == clock && decide (b.laneGroupOf q < b.laneGroupOf y.1)) = true := by
  have hlast : x.quads.getLast?.any (fun y => y.2 == clock && b.laneGroupOf q < b.laneGroupOf y.1) = true := by
    simpa [Bin.takes, hlen] using (Bool.and_eq_true_iff.1 h).2
  obtain ⟨y, hy, hlater⟩ := (Option.any_eq_true _ _).1 hlast
  have hins := getLast_insert_bin b clock q hlater _ hy
  have h33 := length_insert_bin b clock q x.quads
  rw [List.getLast?_eq_getElem?, h33, hlen] at hins
  refine ⟨y, ?_, hins, hlater⟩
  have hlt : 32 < (Bin.insert b clock q x.quads).length := by omega
  rw [List.drop_eq_getElem_cons hlt, List.drop_of_length_le (by omega)]
  rw [List.getElem?_eq_getElem hlt] at hins
  rw [Option.some.inj hins]

/-! ## REFORM's order of work (R196) -/

/-- R196: REFORM sends every active thread on and files their quads, one after another. -/
theorem reform_eq {s : State} {b : Block} (hb : s.issuing b) :
    exec .reform s = .next ((b.byLaneGroup ((s.cur.tids.map (· / 4)).eraseDups)).foldl (fun s' q =>
        match b.threads.find? (fun t => t.tid / 4 == q && s.cur.tids.contains t.tid) with
        | some t => s'.fileQuad s.cur.blk q (t.jump s.cur.next) 17
        | none => s')
      (s.progressed.withActive (fun t => t.jump s.cur.next))) := by
  have hstate : s.progressed.withActive (fun t => t.jump s.cur.next) = s.updBlock s.cur.blk (fun b => { b with
      threads := b.threads.map (fun t => if s.cur.tids.contains t.tid then t.jump s.cur.next else t), progress := s.clock }) :=
    State.updBlock_updBlock _ _ _ _
  rw [hstate, exec_reform, execReform]
  simp only [State.updBlock_get _ _ _ _ hb]
  have hfold (l : List Nat) (s' : State) (hc : s'.cur = s.cur) :
      l.foldl (fun s' q => match (b.threads.map (fun t => if s.cur.tids.contains t.tid then t.jump s.cur.next else t)).find?
            (fun t => t.tid / 4 == q && s'.cur.tids.contains t.tid) with
          | some t => s'.fileQuad s'.cur.blk q t 17
          | none => s') s' =
        l.foldl (fun s' q => match b.threads.find? (fun t => t.tid / 4 == q && s.cur.tids.contains t.tid) with
          | some t => s'.fileQuad s.cur.blk q (t.jump s.cur.next) 17
          | none => s') s' := by
    induction l generalizing s' with
    | nil => rfl
    | cons q l ih =>
      rw [List.foldl_cons, List.foldl_cons, hc, find_active]
      cases b.threads.find? (fun t => t.tid / 4 == q && s.cur.tids.contains t.tid) with
      | none => exact ih _ hc
      | some t => exact ih _ ((fileQuad_refiled s.cur.blk 17 s' q _).cur.trans hc)
  exact congrArg _ (hfold _ _ rfl)

theorem nodup_eraseDups (l : List Nat) : l.eraseDups.Nodup := by
  match l with
  | [] => exact List.nodup_nil
  | a :: l =>
    rw [List.eraseDups_cons, List.nodup_cons]
    refine ⟨fun h => ?_, nodup_eraseDups _⟩
    simp [List.mem_eraseDups] at h
termination_by l.length
decreasing_by exact Nat.lt_succ_of_le (List.length_filter_le _ _)

/-- R196: the quads of active threads. -/
theorem mem_quads {tids : List Nat} {q : Nat} : q ∈ (tids.map (· / 4)).eraseDups ↔ ∃ k ∈ tids, k / 4 = q := by
  rw [List.mem_eraseDups, List.mem_map]

/-- Settles O21: EXIT is a turn; REFORM files its quads in the order of lane groups; and a filed quad goes into the bin that takes it. -/
theorem endAndReform : Obligations.EndAndReform := by
  refine ⟨fun s b hb => ⟨exit_eq hb, exit_idle hb⟩,
    fun s b hb => ⟨b.byLaneGroup _, byLaneGroup_nodup b (nodup_eraseDups _), fun q => mem_byLaneGroup.trans mem_quads, byLaneGroup_ascends b _,
      reform_eq hb⟩, fun s p q n b t hb => ?filed,
    fun b clock q l => ⟨mem_insert_bin b clock q l, length_insert_bin b clock q l, ordered_insert_bin b clock q l⟩⟩
  case filed =>
    intro later holds used r
    have hr : Refiled p s r := fileQuad_refiled p (n + 1) s q t
    obtain ⟨b', hb', hs, hw⟩ := hr.here b hb
    have hleft (f : Block → Block) : (s.updBlock p f).blocks[p]? = some (f b) := State.updBlock_get _ _ _ _ hb
    refine ⟨⟨b', hb', hs, hw, hr.dram, hr.elsewhere⟩, fun i x hi hx hroom => ?_, fun i x hi hx hfull => ?_, fun hi hused => ?_, fun hi hused => ?_⟩
    · have hlen := length_insert_bin b s.clock q x.quads
      have hjoin : r = _ := fileQuad_joins n hb hi hx
      rw [List.drop_of_length_le (by omega), List.foldl_nil] at hjoin
      rw [hjoin]
      refine ⟨_, hleft _, ?_, rfl, not_mem_leaveGang b q true⟩
      refine (upd_eq_set _ hx).trans (Eq.trans ?_ (upd_eq_set (fun x => { x with quads := Bin.insert b s.clock q x.quads }) hx).symm)
      rw [List.take_of_length_le (by omega)]
    · obtain ⟨hlt, htakes, -⟩ := List.findIdx?_eq_some_iff_getElem.1 hi
      rw [List.getElem?_eq_getElem hlt] at hx
      cases hx
      obtain ⟨y, hdrop, hy, hlater⟩ := overflow_insert_bin htakes hfull
      have hjoin : r = _ := fileQuad_joins n hb hi (List.getElem?_eq_getElem hlt)
      rw [hdrop] at hjoin
      exact ⟨_, y, hjoin, hy, hlater, rfl⟩
    · have hbegin : r = _ := fileQuad_begins n hb hi hused
      rw [hbegin]
      exact ⟨_, hleft _, rfl, rfl, not_mem_leaveGang b q true⟩
    · have halone : r = _ := fileQuad_alone n hb hi (Nat.not_lt.2 hused)
      rw [halone]
      exact ⟨rfl, _, _, hleft _, rfl, rfl, not_mem_leaveGang b q false⟩

end Sys2Proof.Machine
end


section
/-! SUPPORT. Queues: LAUNCH, QWAIT.DONE and QWAIT.TAKE of a thread that issues alone (R147, R150, R392). -/

namespace Sys2Proof.Machine

theorem exec_launch (d a v : Reg) (s : State) : exec (.launch d a v) s = execLaunch d a v s := rfl
theorem exec_qwaitDone (e : BitVec 6) (a v : Reg) (s : State) : exec (.qwaitDone e a v) s = execQwaitDone e a v s := rfl
theorem exec_qwaitTake (e : BitVec 6) (a v : Reg) (s : State) : exec (.qwaitTake e a v) s = execQwaitTake e a v s := rfl

/-! What a block's clock of progress is no matter to -/

@[simp] theorem Block.progressAt_owner (b : Block) (c : Nat) : (b.progressAt c).owner = b.owner := rfl
@[simp] theorem Block.progressAt_sget (b : Block) (c : Nat) (t : Thread) (k : Nat) : (b.progressAt c).sget t k = b.sget t k := rfl
@[simp] theorem Block.progressAt_sget64 (b : Block) (c : Nat) (t : Thread) (k : Nat) : (b.progressAt c).sget64 t k = b.sget64 t k := rfl

/-- R45: a pair names an address of 56 bits or more. -/
theorem fld_top_ne_zero (x : DWord) : fld x.toNat 8 56 ≠ 0 ↔ 2 ^ 56 ≤ x.toNat := by
  have := x.isLt
  rw [fld]
  omega

/-- The thread t of the block in issue is told x in register d. -/
def State.tell (s : State) (t : Thread) (d : Nat) (x : Word) : State := s.updThread s.cur.blk t.tid (fun u => u.put d x)

/-- It is told x, and goes on. -/
def State.telling (s : State) (t : Thread) (d : Nat) (x : Word) : State := (s.tell t d x).retireLane t.tid

/-! ## LAUNCH (R147, R150) -/

/-- R389, R390: a queue is full. -/
theorem enqueue_full {s : State} {o q desc : Nat} {rcd : List Byte}
    (hfull : 2 ^ descLog desc ≤ ((s.queueOf o q desc).tail - (s.queueOf o q desc).head).toNat) : s.enqueue o q desc rcd = none := if_pos hfull

/-- R389, R390: a record goes to the tail of a queue that has room. -/
theorem enqueue_room {s s2 : State} {o q desc : Nat} {rcd : List Byte}
    (hroom : ((s.queueOf o q desc).tail - (s.queueOf o q desc).head).toNat < 2 ^ descLog desc)
    (hw : s.devWrite o (entryAddr desc (s.queueOf o q desc).tail.toNat) rcd = some s2) : s.enqueue o q desc rcd =
      some (s2.putQueue { s.queueOf o q desc with tail := (s.queueOf o q desc).tail + 1, times := (s.queueOf o q desc).times ++ [s2.clock] }) := by
  rw [State.enqueue]
  refine (if_neg (by omega)).trans ?_
  rw [hw]
  rfl

/-- R250, R251: an entry of a ring whose granule has an entry in the side log. -/
theorem entryHeld_true {s : State} {o a : Nat} (h : s.gpaHeld o a 256 = true) : s.entryHeld o a = some (.load (2 ^ 63 + a) 256 false) := if_pos h

theorem entryHeld_false {s : State} {o a : Nat} (h : s.gpaHeld o a 256 = false) : s.entryHeld o a = none := if_neg (by simp [h])

/-- R150: the end of LAUNCH, in a state in which the launch record has been read. -/
def State.launchInto (s : State) (t : Thread) (o q desc d : Nat) (rcd : List Byte) : LaneRes :=
  match s.entryHeld o (entryAddr desc (s.queueOf o q desc).tail.toNat), s.enqueue o q desc rcd with
  | some w, some _ => .wait w
  | _, none => .done (s.tell t d 1)
  | none, some s' => .done ((s'.noteStale 0 o (cellsAt (entryAddr desc (s.queueOf o q desc).tail.toNat)
      ((s.devRead o (entryAddr desc (s.queueOf o q desc).tail.toNat) 256).toOption.getD []))).tell t d 0)

section
variable {s : State} {t : Thread} {o q desc d : Nat} {rcd : List Byte}

theorem launchInto_full (hfull : 2 ^ descLog desc ≤ ((s.queueOf o q desc).tail - (s.queueOf o q desc).head).toNat) :
    s.launchInto t o q desc d rcd = .done (s.tell t d 1) := by
  rw [State.launchInto, enqueue_full hfull]
  cases s.entryHeld o (entryAddr desc (s.queueOf o q desc).tail.toNat) <;> rfl

variable {s2 : State} (hroom : ((s.queueOf o q desc).tail - (s.queueOf o q desc).head).toNat < 2 ^ descLog desc)
  (hw : s.devWrite o (entryAddr desc (s.queueOf o q desc).tail.toNat) rcd = some s2)
include hroom hw

theorem launchInto_held (hg : s.gpaHeld o (entryAddr desc (s.queueOf o q desc).tail.toNat) 256 = true) :
    s.launchInto t o q desc d rcd = .wait (.load (2 ^ 63 + entryAddr desc (s.queueOf o q desc).tail.toNat) 256 false) := by
  rw [State.launchInto, enqueue_room hroom hw, entryHeld_true hg]

theorem launchInto_room {old : List Byte} (hg : s.gpaHeld o (entryAddr desc (s.queueOf o q desc).tail.toNat) 256 = false)
    (ho : s.devRead o (entryAddr desc (s.queueOf o q desc).tail.toNat) 256 = .ok old) :
    s.launchInto t o q desc d rcd = .done (((s2.putQueue { s.queueOf o q desc with
        tail := (s.queueOf o q desc).tail + 1, times := (s.queueOf o q desc).times ++ [s2.clock] }).noteStale 0 o
          (cellsAt (entryAddr desc (s.queueOf o q desc).tail.toNat) old)).tell t d 0) := by
  rw [State.launchInto, enqueue_room hroom hw, entryHeld_false hg, ho]
  rfl

end

section
variable {s : State} {b : Block} {t : Thread} (h : Solo s b t) {d a v : Reg}
  (hf : FieldsOk b t (d.toNat :: ([a.toNat, a.toNat + 1] ++ [v.toNat, v.toNat + 1])) [] ([a.toNat, a.toNat + 1] ++ [v.toNat, v.toNat + 1]))
include h hf

theorem launch_beyond (hx : 2 ^ 56 ≤ (t.get64 a.toNat).toNat) : exec (.launch d a v) s = .next (s.progressed.telling t d.toNat 3) :=
  congrArg _ (exec_fold h _ (.done _) ((lc _ _ _ _ hf _).trans (if_pos ((fld_top_ne_zero _).2 hx))))

variable (hx : (t.get64 a.toNat).toNat < 2 ^ 56)
include hx

theorem launch_refused (hq : s.progressed.handle b.owner (t.get64 v.toNat).toNat 0 = none) :
    exec (.launch d a v) s = .next (s.progressed.telling t d.toNat 2) := by
  refine congrArg _ (exec_fold h _ (.done _) ((lc _ _ _ _ hf _).trans ((if_neg (mt (fld_top_ne_zero _).1 (by omega))).trans ?_)))
  simp only [Block.progressAt_owner, hq]
  rfl

variable {q desc : Nat} (hq : s.progressed.handle b.owner (t.get64 v.toNat).toNat 0 = some (q, desc))
include hq

/-- R150: a host queue takes no record from LAUNCH. -/
theorem launch_host (hd : descHost desc = true) : exec (.launch d a v) s = .next (s.progressed.telling t d.toNat 2) := by
  refine congrArg _ (exec_fold h _ (.done _) ((lc _ _ _ _ hf _).trans ((if_neg (mt (fld_top_ne_zero _).1 (by omega))).trans ?_)))
  simp only [Block.progressAt_owner, hq]
  exact if_pos hd

variable (hd : descHost desc = false)
include hd

theorem launch_unaligned (ha : (t.get64 a.toNat).toNat % 256 ≠ 0) : exec (.launch d a v) s = .next (s.progressed.telling t d.toNat 3) := by
  refine congrArg _ (exec_fold h _ (.done _) ((lc _ _ _ _ hf _).trans ((if_neg (mt (fld_top_ne_zero _).1 (by omega))).trans ?_)))
  simp only [Block.progressAt_owner, hq]
  exact (if_neg (by simp [hd])).trans (if_pos ha)

variable (ha : (t.get64 a.toNat).toNat % 256 = 0) {rcd : List Byte} {s' : State}
  (hr : s.progressed.devLoad (b.progressAt s.clock) t (b.loadReq t.level) false none (t.get64 a.toNat).toNat 256 = .ok rcd s')
include ha hr

/-- R150: the launch record is read, and the rest is up to the queue. -/
theorem launch_read : exec (.launch d a v) s = .next (s.progressed.closeLane t.tid (s'.launchInto t b.owner q desc d.toNat rcd)) := by
  refine congrArg _ (exec_fold h _ _ ((lc _ _ _ _ hf _).trans ((if_neg (mt (fld_top_ne_zero _).1 (by omega))).trans ?_)))
  simp only [Block.progressAt_owner, hq]
  refine (if_neg (by simp [hd])).trans ((if_neg (by simp [ha])).trans ?_)
  simp only [loadReq_progressAt, hr]
  rfl

end

/-! ## QWAIT (R392) -/

/-- R392: the end of QWAIT.TAKE, whose handle and scratchpad address have passed their checks. -/
def State.takeFrom (s : State) (t : Thread) (o q desc h e X : Nat) : LaneRes :=
  let y := s.queueOf o q desc
  let entry := entryAddr desc y.head.toNat
  if y.tail = y.head then .wait (.queue h o q true 0)
  else match s.entryHeld o entry with
  | some w => .wait w
  | none =>
    let r := match s.devRead o entry 256 with
      | .ok bytes => (bytes, s.noteDev o entry 256)
      | .error _ => (s.noteDev o entry 256).freeBytes 256
    match r.2.localStore t (.here s.cur.blk X) r.1 with
    | .error g => .trap s (.clobber false X g)
    | .ok s' => .done ((s'.putQueue { y with head := y.head + 1, times := y.times.drop 1 }).updThread s.cur.blk t.tid (fun u => u.put e y.head))

section
variable {s : State} {b : Block} {t : Thread} (h : Solo s b t) {e : BitVec 6} {a v : Reg}
  (hf : FieldsOk b t [e.toNat, v.toNat] [a.toNat, a.toNat + 1] [v.toNat])
include h hf

theorem qwaitDone_refused (hq : s.progressed.handle b.owner (b.sget64 t a.toNat).toNat 2 = none) : exec (.qwaitDone e a v) s =
    .next (s.progressed.takeTrap t.tid (Trap.queueRefused (b.sget64 t a.toNat).toNat)) := by
  refine congrArg _ (exec_fold h _ (.trap _ _) ((lc _ _ _ _ hf _).trans ?_))
  simp only [Block.progressAt_owner, Block.progressAt_sget64, hq]

theorem qwaitTake_refused (hq : s.progressed.handle b.owner (b.sget64 t a.toNat).toNat 1 = none) : exec (.qwaitTake e a v) s =
    .next (s.progressed.takeTrap t.tid (Trap.queueRefused (b.sget64 t a.toNat).toNat)) := by
  refine congrArg _ (exec_fold h _ (.trap _ _) ((lc _ _ _ _ hf _).trans ?_))
  simp only [Block.progressAt_owner, Block.progressAt_sget64, hq]

section
variable {q desc : Nat} (hq : s.progressed.handle b.owner (b.sget64 t a.toNat).toNat 2 = some (q, desc))
include hq

/-- R392: DONE has reached the target. -/
theorem qwaitDone_reached (hd : ((s.progressed.queueOf b.owner q desc).done - t.get v.toNat).toNat < 2 ^ 31) :
    exec (.qwaitDone e a v) s = .next (s.progressed.telling t e.toNat (s.progressed.queueOf b.owner q desc).done) := by
  refine congrArg _ (exec_fold h _ (.done _) ((lc _ _ _ _ hf _).trans ?_))
  simp only [Block.progressAt_owner, Block.progressAt_sget64, hq]
  exact if_pos hd

theorem qwaitDone_waits (hd : ¬((s.progressed.queueOf b.owner q desc).done - t.get v.toNat).toNat < 2 ^ 31) : exec (.qwaitDone e a v) s =
    .next (s.becomes t (t.hold s.cur (.queue (b.sget64 t a.toNat).toNat b.owner q false (t.get v.toNat)))) := by
  refine congrArg _ ((exec_fold h _ (.wait _) ((lc _ _ _ _ hf _).trans ?_)).trans (becomes_of h _))
  simp only [Block.progressAt_owner, Block.progressAt_sget64, hq]
  exact if_neg hd

end

variable {q desc : Nat} (hq : s.progressed.handle b.owner (b.sget64 t a.toNat).toNat 1 = some (q, desc))
include hq

/-- R392: what QWAIT.TAKE of a good handle does, by its checks in their order. -/
theorem qwaitTake_handled : exec (.qwaitTake e a v) s = .next (s.progressed.closeLane t.tid
    (if (t.get v.toNat).toNat % 16 ≠ 0 then .trap s.progressed (.misalign 16 (t.get v.toNat).toNat)
      else if b.scratchSize < (t.get v.toNat).toNat + 256 then .trap s.progressed (.boundAt (t.get v.toNat).toNat)
      else match b.liveIn (t.get v.toNat).toNat 256 with
        | some g => .trap s.progressed (.clobber false (t.get v.toNat).toNat (16 * g))
        | none => s.progressed.takeFrom t b.owner q desc (b.sget64 t a.toNat).toNat e.toNat (t.get v.toNat).toNat)) := by
  refine congrArg _ (exec_fold h _ _ ((lc _ _ _ _ hf _).trans ?_))
  simp only [Block.progressAt_owner, Block.progressAt_sget64, hq]
  rfl

end

/-- R228, R423: counting the reads of a ring entry moves nothing of blocks. -/
theorem noteDev_held (s : State) (owner gpa n : Nat) : (s.noteDev owner gpa n).held = s.held :=
  foldl_keeps State.held _ (fun _ _ => State.noteGpa_held _ _ _) _ s

section
variable {s : State} {t : Thread} {o q desc hd e X : Nat}

theorem takeFrom_empty (hy : (s.queueOf o q desc).tail = (s.queueOf o q desc).head) :
    s.takeFrom t o q desc hd e X = .wait (.queue hd o q true 0) := if_pos hy

variable (hy : (s.queueOf o q desc).tail ≠ (s.queueOf o q desc).head)
include hy

theorem takeFrom_held (hg : s.gpaHeld o (entryAddr desc (s.queueOf o q desc).head.toNat) 256 = true) :
    s.takeFrom t o q desc hd e X = .wait (.load (2 ^ 63 + entryAddr desc (s.queueOf o q desc).head.toNat) 256 false) := by
  rw [State.takeFrom, entryHeld_true hg]
  exact if_neg hy

theorem takeFrom_stored {rcd : List Byte} {s' : State} (hg : s.gpaHeld o (entryAddr desc (s.queueOf o q desc).head.toNat) 256 = false)
    (hr : s.devRead o (entryAddr desc (s.queueOf o q desc).head.toNat) 256 = .ok rcd)
    (hs : (s.noteDev o (entryAddr desc (s.queueOf o q desc).head.toNat) 256).localStore t (.here s.cur.blk X) rcd = .ok s') :
    s.takeFrom t o q desc hd e X = .done ((s'.putQueue { s.queueOf o q desc with
        head := (s.queueOf o q desc).head + 1, times := (s.queueOf o q desc).times.drop 1 }).updThread s.cur.blk t.tid
      (fun u => u.put e (s.queueOf o q desc).head)) := by
  rw [State.takeFrom, entryHeld_false hg]
  refine (if_neg hy).trans ?_
  simp only [hr, hs]

end

/-- Settles O43: each instruction's checks in their order, then what the queue answers. -/
theorem queueInstructions : Obligations.QueueInstructions := by
  intro s s' b t d a v e rcd h P gives tells pair waits
  refine ⟨fun hf => ?launch, fun hf => ?qwait⟩
  case launch =>
    intro x hd
    refine ⟨launch_beyond h hf, fun hx hq => launch_refused h hf hx hq, fun q desc hx hq => ⟨launch_host h hf hx hq, launch_unaligned h hf hx hq,
      fun hhost ha hr => ?_⟩⟩
    intro y
    have hread := launch_read h hf hx hq hhost ha hr
    refine ⟨fun hfull => by rw [hread, launchInto_full hfull]; rfl, ?_⟩
    intro entry s2 hroom hw
    refine ⟨fun hg => ?_, fun hg old ho => ?_⟩
    · rw [hread, launchInto_held hroom hw hg]
      exact congrArg _ (becomes_of h _)
    · rw [hread, launchInto_room hroom hw hg ho]
      rfl
  case qwait =>
    intro hd x refused
    refine ⟨qwaitDone_refused h hf, qwaitTake_refused h hf, fun q desc hq => ⟨qwaitDone_reached h hf hq, fun hy => qwaitDone_waits h hf hq (Nat.not_lt.2 hy)⟩,
      fun q desc hq => ?_⟩
    intro X traps
    have htake := qwaitTake_handled h hf hq
    refine ⟨fun hX => ?_, fun hX hb => ?_, fun g hX hb hl => ?_, fun hX hb hl => ?_⟩
    · rw [htake, if_pos hX]
      rfl
    · rw [htake, if_neg (not_not.2 hX), if_pos hb]
      rfl
    · rw [htake, if_neg (not_not.2 hX), if_neg (Nat.not_lt.2 hb), hl]
      simp only [Trap.clobber, Bool.false_eq_true, if_false, Nat.zero_add]
      rfl
    · rw [if_neg (not_not.2 hX), if_neg (Nat.not_lt.2 hb), hl] at htake
      intro y entry
      refine ⟨fun hy => ?_, fun hy hg => ?_, ?_⟩
      · rw [htake, takeFrom_empty hy]
        exact congrArg _ (becomes_of h _)
      · rw [htake, takeFrom_held hy hg]
        exact congrArg _ (becomes_of h _)
      · intro taken N here bare hy hg hr hlen hhere
        have hN : N.cur = s.cur := (held_iff.1 (noteDev_held P b.owner entry 256)).2.1
        have hcur : N.blocks[N.cur.blk]? = some here := by rw [hN]; exact hhere
        rw [← hlen] at hl ⊢
        refine ⟨fun hc => ?_, fun hc => ?_⟩
        · rw [htake, takeFrom_stored hy hg hr (localStore_covered hcur hhere hl hc)]
          rfl
        · rw [htake, takeFrom_stored hy hg hr (localStore_uncovered hcur hhere hl hc)]
          rfl

end Sys2Proof.Machine
end


section
/-! SUPPORT. NICHEWAIT and CKPT of a thread that issues alone (R151, R153, R336). -/

namespace Sys2Proof.Machine

theorem exec_nichewait (a : Reg) (s : State) : exec (.nichewait a) s = execNichewait a s := rfl
theorem exec_ckpt (d : Reg) (s : State) : exec (.ckpt d) s = execCkpt d s := rfl

/-! ## NICHEWAIT (R336) -/

/-- R333, R336: a node that the launch does not have. -/
def Trap.noNode (n : Nat) : Trap := { cause := .bound, extra := BitVec.ofNat 64 n }

/-- R336: NICHEWAIT on node n, whose entry has been read. -/
def State.waitOnNode (s : State) (b : Block) (t : Thread) (n : Nat) (entry : List Byte) : LaneRes :=
  let e := NodeEntry.ofNat (ofBytes entry)
  if !e.valid || !e.ok then .trap s (.noNode n)
  else match s.devLoad b t (b.loadReq t.level) false none e.consumer 256 with
    | .wait w => .wait w
    | .trap tr => .trap s tr
    | .ok rcd s =>
      if !oneBlock (ofBytes rcd) then .trap s (.noNode n)
      else if s.nicheEmpty b.launch n then .done s
      else .wait (.niche b.launch n)

section
variable {s : State} {b : Block} {t : Thread} (h : Solo s b t) {a : Reg} (hf : FieldsOk b t [] [a.toNat] [])
include h hf

theorem nichewait_noNode (hn : 256 ≤ (b.sget t a.toNat).toNat ∨ recNodetab b.record = 0) :
    exec (.nichewait a) s = .next (s.progressed.takeTrap t.tid (.noNode (b.sget t a.toNat).toNat)) :=
  congrArg _ (exec_fold h _ (.trap _ _) ((lc _ _ _ _ hf _).trans (if_pos hn)))

theorem nichewait_entry {entry : List Byte} {s1 : State} (hn : (b.sget t a.toNat).toNat < 256) (htab : recNodetab b.record ≠ 0)
    (hr : s.progressed.devLoad (b.progressAt s.clock) t (b.loadReq t.level) false none (recNodetab b.record + 32 * (b.sget t a.toNat).toNat) 32 =
      .ok entry s1) :
    exec (.nichewait a) s = .next (s.progressed.closeLane t.tid (s1.waitOnNode (b.progressAt s.clock) t (b.sget t a.toNat).toNat entry)) := by
  refine congrArg _ (exec_fold h _ _ ((lc _ _ _ _ hf _).trans ((if_neg ?_).trans ?_)))
  · exact not_or.2 ⟨Nat.not_le.2 hn, htab⟩
  · simp only [loadReq_progressAt, Block.progressAt_sget, show (b.progressAt s.clock).record = b.record from rfl, hr]
    rfl

end

section
variable {s s2 : State} {b : Block} {t : Thread} {n : Nat} {entry rcd : List Byte}

theorem waitOnNode_bad (h : (NodeEntry.ofNat (ofBytes entry)).valid = false ∨ (NodeEntry.ofNat (ofBytes entry)).ok = false) :
    s.waitOnNode b t n entry = .trap s (.noNode n) := if_pos (by simpa using h)

/-- R333, R336: a sound entry, whose consumer's record has been read. -/
theorem waitOnNode_good (hv : (NodeEntry.ofNat (ofBytes entry)).valid = true) (ho : (NodeEntry.ofNat (ofBytes entry)).ok = true)
    (hr : s.devLoad b t (b.loadReq t.level) false none (NodeEntry.ofNat (ofBytes entry)).consumer 256 = .ok rcd s2) :
    s.waitOnNode b t n entry = if 1 < recBlocks (ofBytes rcd) then .trap s2 (.noNode n)
      else if s2.nicheEmpty b.launch n then .done s2 else .wait (.niche b.launch n) := by
  refine (if_neg (by simp [hv, ho])).trans ?_
  have hone : (!oneBlock (ofBytes rcd)) = true ↔ 1 < recBlocks (ofBytes rcd) := by simp [oneBlock]
  simp only [hr, hone]

end

/-! ## CKPT (R151, R153, R388) -/

section
variable {s : State} {b : Block} {t : Thread} (h : Solo s b t) {d : Reg} (hf : FieldsOk b t [d.toNat] [] [])
include h hf

theorem ckpt_passing : s.passing.any (fun t => (checkRegs b t [d.toNat] []).isNone) = true := by
  rw [passing_solo h, List.any_cons, hf.1]
  rfl

/-- R153: a slice without a checkpoint area, or none. -/
theorem ckpt_noArea (harea : ¬(b.owner < Config.nSlices ∧ s.sliceWord b.owner 8 ≠ 0)) : exec (.ckpt d) s = .next (s.done t (t.put d.toNat 0)) := by
  have ha : (decide (b.owner < Config.nSlices) && s.sliceWord b.owner 8 != 0) = false := by simpa [Bool.eq_false_iff] using harea
  rw [exec_ckpt, execCkpt, show s.blocks[s.cur.blk]? = some b from h.block]
  simp only [ha, Bool.and_false, Bool.false_eq_true, if_false, Bool.not_false, Bool.true_or, if_true]
  exact congrArg _ (lanesBy_solo_ok h id _ _ (by simp only [hf.1]; rfl))

variable (harea : b.owner < Config.nSlices ∧ s.sliceWord b.owner 8 ≠ 0)
include harea

/-- R153: nothing is done where a stop may find the thread waiting. -/
theorem ckpt_later (hl : s.later = true) : exec (.ckpt d) s = .next (s.becomes t (t.hold s.cur .none)) := by
  have ha : (decide (b.owner < Config.nSlices) && s.sliceWord b.owner 8 != 0) = true := by simpa using harea
  rw [exec_ckpt, execCkpt, show s.blocks[s.cur.blk]? = some b from h.block]
  simp only [ha, hl, Bool.and_self, Bool.or_true, if_true]
  exact congrArg _ (lanesBy_solo_ok h id _ _ (by simp only [hf.1]; rfl))

/-- R151, R388: the launch's next checkpoint, of the block as it is after the group. -/
theorem ckpt_now {l : Launch} {s2 : State} {b' : Block} (hl : s.later = false) (hlaunch : s.launches.find? (fun l => l.uid == b.launch) = some l)
    (hs2 : ({ s.done t (t.put d.toNat (BitVec.ofNat 32 (l.ckpts + 1))) with
      launches := s.launches.map (fun (x : Launch) => if x.uid = b.launch then { x with ckpts := l.ckpts + 1 } else x) } : State) = s2)
    (hb' : s2.blocks[s.cur.blk]? = some b') :
    exec (.ckpt d) s = .next (s2.checkpoint b.owner 1 (l.ckpts + 1) (fun _ => l.ckpts + 1) [b']) := by
  have ha : (decide (b.owner < Config.nSlices) && s.sliceWord b.owner 8 != 0) = true := by simpa using harea
  rw [exec_ckpt, execCkpt, show s.blocks[s.cur.blk]? = some b from h.block]
  subst hs2
  simp only [ha, hl, ckpt_passing h hf, hlaunch, Option.map_some, Option.getD_some, Bool.and_self, Bool.false_and, Bool.or_false,
    Bool.not_true, Bool.false_eq_true, if_false, if_true]
  rw [lanesBy_solo_ok h id _ ((t.put d.toNat (BitVec.ofNat 32 (l.ckpts + 1))).retire s.cur) (by simp only [hf.1]), id_eq]
  rw [show (s.becomes t ((t.put d.toNat (BitVec.ofNat 32 (l.ckpts + 1))).retire s.cur)).blocks[s.cur.blk]? = some b' from hb']
  rfl

end

/-- Settles O44: NICHEWAIT's checks in their order, then the niche; CKPT by whether the slice has an area and whether a stop may come. -/
theorem nicheWaitAndCheckpoint : Obligations.NicheWaitAndCheckpoint := by
  intro s s1 s2 b t a d entry rcd h
  refine ⟨fun hf => ?niche, fun hf => ?ckpt⟩
  case niche =>
    intro n tab P e bound
    refine ⟨nichewait_noNode h hf, fun hn htab hr => ?_⟩
    have hentry := nichewait_entry h hf hn htab hr
    refine ⟨fun hbad => by rw [hentry, waitOnNode_bad hbad]; rfl, fun hv ho hr2 => ?_⟩
    rw [waitOnNode_good hv ho hr2] at hentry
    refine ⟨fun hblocks => by rw [hentry, if_pos hblocks]; rfl, fun hblocks hempty => ?_, fun hblocks hfull => ?_⟩
    · rw [hentry, if_neg (Nat.not_lt.2 hblocks)]
      refine congrArg _ (congrArg _ (if_pos hempty))
    · rw [hentry, if_neg (Nat.not_lt.2 hblocks)]
      refine congrArg _ ((congrArg _ (if_neg (Bool.eq_false_iff.1 hfull))).trans (becomes_of h _))
  case ckpt =>
    intro area
    refine ⟨ckpt_noArea h hf, ckpt_later h hf, fun l ha hl hlaunch => ?_⟩
    intro s1 s2
    have hb' : s2.blocks[s.cur.blk]? = _ := State.updBlock_get _ _ _ _ (State.updBlock_get _ _ _ _ h.block)
    exact ⟨_, hb', ckpt_now h hf ha hl hlaunch rfl hb'⟩

end Sys2Proof.Machine
end


section
/-! SUPPORT. Invalidations of translations, key slots and statements, of a thread that issues alone (R147 to R153, R236, R237, R439 to R449). -/

namespace Sys2Proof.Machine

theorem storeReq_progressAt (b : Block) (c : Nat) (l : Level) : (b.progressAt c).storeReq l = b.storeReq l := rfl

/-! ## How a lane's operation ends (R153, log entry 95) -/

/-- The operation is performed: its thread goes on, or, where a stop may find it, stands at its group. -/
theorem endOp_ends {s s' : State} {i : Instr} {k : Nat} (e : exec i s = .next (s.progressed.closeLane k (s'.endOp s.later k))) :
    (s.later = false → exec i s = .next (s'.retireLane k)) ∧
    (s.later = true → exec i s = .next (s'.updThread s'.cur.blk k (fun u => u.hold s'.cur .none))) :=
  ⟨fun hl => by rw [e, hl]; rfl, fun hl => by rw [e, hl]; rfl⟩

/-- And where it goes on, it is told a status. -/
theorem status_ends {s s' : State} {i : Instr} {t : Thread} {d : Reg} {x : Nat}
    (e : exec i s = .next (s.progressed.closeLane t.tid (s'.status s.later t d x))) :
    (s.later = true → exec i s = .next (s'.updThread s'.cur.blk t.tid (fun u => u.hold s'.cur .none))) ∧
    (s.later = false → exec i s = .next ((s'.updThread s'.cur.blk t.tid (fun u => u.put d.toNat (BitVec.ofNat 32 x))).retireLane t.tid)) :=
  ⟨fun hl => by rw [e, hl]; rfl, fun hl => by rw [e, hl]; rfl⟩

/-- R147: an address operand of fewer than 57 bits. -/
theorem addrOk_iff (x : DWord) : addrOk x = true ↔ x.toNat < 2 ^ 56 := by
  have := fld_top_ne_zero x
  rw [addrOk, beq_iff_eq]
  omega

/-! ## Translations (R236, R237) -/

section
variable {s : State} {b : Block} {t : Thread} (h : Solo s b t) {d a v : Reg}
include h

section
variable (hl : t.level.ge .s = true)
include hl

theorem tinva_solo : exec .tinva s = .next (s.progressed.closeLane t.tid (((s.progressed.dropTlb1 b.owner).retryOwner b.owner).endOp s.later t.tid)) := by
  rw [exec_tinva, execTinva, need_solo h, if_pos hl, exec_fold h _ _ rfl]
  rfl

variable (hf : FieldsOk b t [a.toNat, a.toNat + 1] [] [a.toNat, a.toNat + 1])
include hf

theorem tinv_address (hx : (t.get64 a.toNat).toNat < 2 ^ 56) : exec (.tinv a) s = .next (s.progressed.closeLane t.tid
    ((State.retryOwner { s.progressed with tlb1 := s.progressed.tlb1.filter (fun e => !(e.owner == b.owner && e.va ≤ (t.get64 a.toNat).toNat &&
      (t.get64 a.toNat).toNat < e.va + e.size)) } b.owner).endOp s.later t.tid)) := by
  rw [exec_tinv, execTinv, need_solo h, if_pos hl]
  exact congrArg _ (exec_fold h _ _ ((lc _ _ _ _ hf _).trans (if_neg (by simp [(addrOk_iff _).2 hx]))))

theorem tinv_beyond (hx : ¬(t.get64 a.toNat).toNat < 2 ^ 56) : exec (.tinv a) s =
    .next (s.progressed.takeTrap t.tid { cause := .illegalOp, extra := s.cur.word.setWidth 64 }) := by
  rw [exec_tinv, execTinv, need_solo h, if_pos hl]
  exact congrArg _ (exec_fold h _ (.trap _ _) ((lc _ _ _ _ hf _).trans (if_pos (by simpa using mt (addrOk_iff _).1 hx))))

end

section
variable (hl : t.level.ge .h = true)
include hl

/-- R147, R148: PINV's checks in their order. -/
theorem pinv_solo (hf : FieldsOk b t [d.toNat, a.toNat, a.toNat + 1, v.toNat] [] [a.toNat, a.toNat + 1, v.toNat]) :
    exec (.pinv d a v) s = .next (s.progressed.closeLane t.tid
      (if ¬(t.get64 a.toNat).toNat < 2 ^ 56 then s.progressed.status s.later t d 3
        else if 47 < (t.get v.toNat).toNat then s.progressed.status s.later t d 1
        else ((s.progressed.dropTlb2 (t.get v.toNat).toNat (fun g n => g ≤ (t.get64 a.toNat).toNat && (t.get64 a.toNat).toNat < g + n)).retryOwner
          (t.get v.toNat).toNat).status s.later t d 0)) := by
  have ha : (!addrOk (t.get64 a.toNat)) = true ↔ ¬(t.get64 a.toNat).toNat < 2 ^ 56 := by rw [← addrOk_iff]; simp
  rw [exec_pinv, execPinv, need_solo h, if_pos hl]
  refine congrArg _ (exec_fold h _ _ ((lc _ _ _ _ hf _).trans ?_))
  simp only [ha]
  rfl

theorem pinva_solo (hf : FieldsOk b t [d.toNat, v.toNat] [] [v.toNat]) : exec (.pinva d v) s = .next (s.progressed.closeLane t.tid
    (if 47 < (t.get v.toNat).toNat then s.progressed.status s.later t d 1
      else ((s.progressed.dropTlb2 (t.get v.toNat).toNat (fun _ _ => true)).retryOwner (t.get v.toNat).toNat).status s.later t d 0)) := by
  rw [exec_pinva, execPinva, need_solo h, if_pos hl]
  exact congrArg _ (exec_fold h _ _ (lc _ _ _ _ hf _))

end
end

/-! ## Key slots (R439 to R444) -/

section
variable {s : State} {n : Nat} {k : KeyObject} {x : KeySlot} (hx : s.keySlots[n]? = some x)
include hx

/-- R441 steps 1 and 2: slots of the firmware and the hypervisor, and slots of another owner. -/
theorem keyset_refused (h : n = 254 ∨ n = 255 ∨ (x.state ≠ .empty ∧ x.owner ≠ k.owner)) : s.keyset n k = (s, 1) := by
  simp only [State.keyset, hx]
  exact if_pos h

variable (h : ¬(n = 254 ∨ n = 255 ∨ (x.state ≠ .empty ∧ x.owner ≠ k.owner)))
include h

theorem keyset_outOfRange (hbad : s.keyFieldsBad k = true) : s.keyset n k = (s, 3) := by
  simp only [State.keyset, hx]
  exact (if_neg h).trans (if_pos hbad)

/-- R441, R442: plain material makes an EMPTY or LIVE slot LIVE. -/
theorem keyset_plain (hok : s.keyFieldsBad k = false) (hk : k.kind = 0) (hs : x.state = .empty ∨ x.state = .live) :
    s.keyset n k = ((s.internKey (s.plainKey n { x with state := .live, owner := k.owner } ((k.bytes.drop 64).take 64))).1.updSlot n (fun _ =>
      { x with state := .live, owner := k.owner
               key := some (s.internKey (s.plainKey n { x with state := .live, owner := k.owner } ((k.bytes.drop 64).take 64))).2 }), 0) := by
  simp only [State.keyset, hx]
  refine (if_neg h).trans ((if_neg (by simp [hok])).trans ((if_pos hk).trans ?_))
  rcases hs with hs | hs <;> rw [hs]

end

section
variable {s : State} {b : Block} {t : Thread} (h : Solo s b t) {d a v : Reg} (hl : t.level.ge .h = true)
include h hl

section
variable (hf : FieldsOk b t [d.toNat, a.toNat, v.toNat, v.toNat + 1] [] [a.toNat, v.toNat, v.toNat + 1])
include hf

theorem keyset_badAddress (hx : 2 ^ 56 ≤ (t.get64 v.toNat).toNat ∨ (t.get64 v.toNat).toNat % 64 ≠ 0) : exec (.keyset d a v) s =
    .next (s.progressed.closeLane t.tid (s.progressed.status s.later t d 3)) := by
  have hbad : (!addrOk (t.get64 v.toNat) || (t.get64 v.toNat).toNat % 64 != 0) = true := by
    rw [Bool.or_eq_true, Bool.not_eq_true', Bool.eq_false_iff, bne_iff_ne, ne_eq, addrOk_iff, Nat.not_lt]
    exact hx
  rw [exec_keyset, execKeyset, need_solo h, if_pos hl]
  exact congrArg _ (exec_fold h _ _ ((lc _ _ _ _ hf _).trans (if_pos hbad)))

/-- R441: KEYSET of a readable object. -/
theorem keyset_read {bytes : List Byte} {s' : State} {r : State × Nat} (hx : (t.get64 v.toNat).toNat < 2 ^ 56) (ha : (t.get64 v.toNat).toNat % 64 = 0)
    (hr : s.progressed.devLoad (b.progressAt s.clock) t (b.loadReq t.level) false none (t.get64 v.toNat).toNat 2048 = .ok bytes s')
    (e : s'.keyset ((t.get a.toNat).toNat % 256) (KeyObject.of bytes) = r) :
    exec (.keyset d a v) s = .next (s.progressed.closeLane t.tid (r.1.status s.later t d r.2)) := by
  have hgood : ¬(!addrOk (t.get64 v.toNat) || (t.get64 v.toNat).toNat % 64 != 0) = true := by simp [(addrOk_iff _).2 hx, ha]
  rw [exec_keyset, execKeyset, need_solo h, if_pos hl]
  refine congrArg _ (exec_fold h _ _ ((lc _ _ _ _ hf _).trans ((if_neg hgood).trans ?_)))
  simp only [loadReq_progressAt, hr, fld_low, ← e]
  rfl

end

theorem keyerase_solo (hf : FieldsOk b t [a.toNat] [] [a.toNat]) : exec (.keyerase a) s = .next (s.progressed.closeLane t.tid
    ((s.progressed.eraseSlot ((t.get a.toNat).toNat % 256)).endOp s.later t.tid)) := by
  rw [exec_keyerase, execKeyerase, need_solo h, if_pos hl, exec_fold h _ _ (lc _ _ _ _ hf _), fld_low]
  rfl

end

/-! ## Statements (R446 to R449) -/

section
variable {s : State} {b : Block} {t : Thread} (h : Solo s b t) {d a v : Reg} (hl : t.level.ge .s = true)
  (hf : FieldsOk b t [d.toNat, a.toNat, a.toNat + 1, v.toNat, v.toNat + 1] [] [a.toNat, a.toNat + 1, v.toNat, v.toNat + 1])

/-- R446: the addresses that a USTAT may name. -/
theorem ustat_addresses (x y : DWord) : (!addrOk x || !addrOk y || x.toNat % 64 != 0) = true ↔
    ¬(x.toNat < 2 ^ 56 ∧ y.toNat < 2 ^ 56 ∧ x.toNat % 64 = 0) := by
  rw [← addrOk_iff, ← addrOk_iff]
  cases addrOk x <;> cases addrOk y <;> simp

include h hl hf

theorem ustat_badAddress (hx : ¬((t.get64 a.toNat).toNat < 2 ^ 56 ∧ (t.get64 v.toNat).toNat < 2 ^ 56 ∧ (t.get64 a.toNat).toNat % 64 = 0)) :
    exec (.ustat d a v) s = .next (s.progressed.closeLane t.tid (s.progressed.status s.later t d 3)) := by
  rw [exec_ustat, execUstat, need_solo h, if_pos hl]
  exact congrArg _ (exec_fold h _ _ ((lc _ _ _ _ hf _).trans (if_pos ((ustat_addresses _ _).2 hx))))

variable (hx : (t.get64 a.toNat).toNat < 2 ^ 56 ∧ (t.get64 v.toNat).toNat < 2 ^ 56 ∧ (t.get64 a.toNat).toNat % 64 = 0)
include hx

/-- R153: USTAT has done nothing yet where a stop may find its thread waiting. -/
theorem ustat_later (hlater : s.later = true) : exec (.ustat d a v) s =
    .next (s.progressed.updThread s.progressed.cur.blk t.tid (fun u => u.hold s.progressed.cur .none)) := by
  rw [exec_ustat, execUstat, need_solo h, if_pos hl]
  exact congrArg _ (exec_fold h _ (.moved _) ((lc _ _ _ _ hf _).trans ((if_neg (not_not.2 hx ∘ (ustat_addresses _ _).1)).trans (if_pos hlater))))

/-- R446, R447: the nonce is read, and the statement is written under a fresh session key. -/
theorem ustat_written {bytes : List Byte} {s' s2 : State} {hit : Bool} {subject : Nat} (hlater : s.later = false)
    (hsub : (if t.level = .s then b.owner else Config.ownerHv) = subject)
    (hr : s.progressed.devLoad (b.progressAt s.clock) t (b.loadReq t.level) false none (t.get64 v.toNat).toNat 32 = .ok bytes s')
    (hwait : ∀ x ∈ [(t.get64 a.toNat).toNat, (t.get64 a.toNat).toNat + 4096, (t.get64 a.toNat).toNat + 8191],
      s.progressed.hostWaits (b.progressAt s.clock) t.tid (b.storeReq t.level) x = false)
    (hw : (s'.newSession subject).writeVa (b.storeReq t.level) false (t.get64 a.toNat).toNat
      ((s'.newSession subject).statement subject s'.fresh bytes) = ((s2, hit), none)) :
    exec (.ustat d a v) s = .next (s.progressed.closeLane t.tid (([(t.get64 a.toNat).toNat, (t.get64 a.toNat).toNat + 4096,
      (t.get64 a.toNat).toNat + 8191].foldl (fun s x => s.postsAt s.cur.blk t.tid (b.storeReq t.level) x) s2).status false t d 0)) := by
  have hposted : [0, 4096, 8191].any (fun i => s.progressed.hostWaits (b.progressAt s.clock) t.tid (b.storeReq t.level)
      ((t.get64 a.toNat).toNat + i)) = false := by
    rw [List.any_eq_false]
    intro i hi
    rw [hwait ((t.get64 a.toNat).toNat + i) (List.mem_map_of_mem (f := fun i => (t.get64 a.toNat).toNat + i) hi)]
    decide
  rw [exec_ustat, execUstat, need_solo h, if_pos hl]
  refine congrArg _ (exec_fold h _ _ ((lc _ _ _ _ hf _).trans ((if_neg (not_not.2 hx ∘ (ustat_addresses _ _).1)).trans ((if_neg ?_).trans ?_))))
  · rw [show s.progressed.later = s.later from rfl, hlater]
    decide
  · subst hsub
    simp only [loadReq_progressAt, hr, Block.progressAt_owner, storeReq_progressAt, hw]
    exact if_neg (Bool.eq_false_iff.1 hposted)

end

/-- Settles O46: each instruction's checks in their order, its operation, and how that ends; a lapse is the slot's. -/
theorem invalidationsAndKeys : Obligations.InvalidationsAndKeys := by
  refine ⟨fun s b t d a v h => ?translations, fun s s' b t d a v bytes h => ?keys⟩
  case translations =>
    intro P stays ends tells x o dropped
    refine ⟨fun hl hf => ⟨fun hx => endOp_ends (tinv_address h hl hf hx), fun hx => tinv_beyond h hl hf (Nat.not_lt.2 hx)⟩,
      fun hl => endOp_ends (tinva_solo h hl), fun hl hf => ?pinv, fun hl hf => ?pinva⟩
    case pinv =>
      have hpinv := pinv_solo h hl hf
      refine ⟨fun hx => status_ends ?_, fun hx ho => status_ends ?_, fun hx ho => status_ends ?_⟩
      · rw [hpinv, if_pos (Nat.not_lt.2 hx)]
      · rw [hpinv, if_neg (not_not.2 hx), if_pos ho]
      · rw [hpinv, if_neg (not_not.2 hx), if_neg (Nat.not_lt.2 ho)]
        rfl
    case pinva =>
      have hpinva := pinva_solo h hl hf
      refine ⟨fun ho => status_ends ?_, fun ho => status_ends ?_⟩
      · rw [hpinva, if_pos ho]
      · rw [hpinva, if_neg (Nat.not_lt.2 ho)]
        rfl
  case keys =>
    intro P stays gives tells ends read n
    refine ⟨fun hl hf => ?keyset, fun hl hf => ?keyerase, fun hl hf => ?ustat, fun slot => rfl⟩
    case keyset =>
      intro at' k
      have mayset {x : KeySlot} (hn : n < 254) (ho : x.state = .empty ∨ x.owner = k.owner) :
          ¬(n = 254 ∨ n = 255 ∨ (x.state ≠ .empty ∧ x.owner ≠ k.owner)) := by
        rintro (h' | h' | ⟨h1, h2⟩)
        · omega
        · omega
        · exact ho.elim h1 h2
      refine ⟨fun hx => (status_ends (keyset_badAddress h hl hf hx)).symm, fun x hx ha hr hslot => ⟨fun hno => ?_, fun hn ho hbad => ?_,
        fun hn ho hok hk hs => ?_⟩⟩
      · have hn : n < 256 := Nat.mod_lt _ (by decide)
        exact (status_ends (keyset_read h hl hf hx ha hr (keyset_refused hslot (hno.elim (fun h254 => by omega) fun h' => .inr (.inr h'))))).symm
      · exact (status_ends (keyset_read h hl hf hx ha hr (keyset_outOfRange hslot (mayset hn ho) hbad))).symm
      · exact (status_ends (keyset_read h hl hf hx ha hr (keyset_plain hslot (mayset hn ho) hok hk hs))).symm
    case keyerase =>
      have herase := keyerase_solo h hl hf
      refine ⟨fun hn => endOp_ends ?_, fun hn => endOp_ends ?_⟩
      · rw [herase, State.eraseSlot, if_pos hn]
        rfl
      · rw [herase, State.eraseSlot, if_neg (Nat.not_lt.2 hn)]
    case ustat =>
      intro dst src subject good
      refine ⟨fun hx => (status_ends (ustat_badAddress h hl hf hx)).symm, fun hx hlater => ustat_later h hl hf hx hlater,
        fun s2 hit hx hlater hr => ?_⟩
      intro at' hwait hw
      exact ustat_written h hl hf hx hlater rfl hr hwait hw

end Sys2Proof.Machine
end


section
/-! SUPPORT. PREF, CWB, CINV and SAMPLE of a thread that issues alone (R155, R221, R280 to R283, R423). -/

namespace Sys2Proof.Machine

theorem exec_pref (l : Bool) (a : Reg) (k : BitVec 5) (s : State) : exec (.pref l a k) s = execPref l a k s := rfl
theorem exec_cwb (a : Reg) (k : BitVec 5) (s : State) : exec (.cwb a k) s = s.writeBackLine a k false := rfl
theorem exec_cinv (a : Reg) (k : BitVec 5) (s : State) : exec (.cinv a k) s = s.writeBackLine a k true := rfl
theorem exec_sample (d a : Reg) (k : BitVec 5) (s : State) : exec (.sample d a k) s = execSample d a k s := rfl

/-- A thread alone that only goes on. -/
theorem retireLane_solo {s b t} (h : Solo s b t) : s.progressed.retireLane t.tid = s.done t t := becomes_of h _

/-! ## PREF (R280, R423) -/

section
variable {s : State} {q : Req} {va h slot : Nat} {g : Bool} {x : Xlated}

/-- R280: a prefetch whose translation fails counts its walks. -/
theorem prefetchLine_fails {f : MemFault} (hx : s.translate q (va / 128 * 128) 128 = .error f) : s.prefetchLine q va = s.noteWalks q va := by
  rw [State.prefetchLine, hx]

variable (hx : s.translate q (va / 128 * 128) 128 = .ok x) (hp : x.place = .dram h slot g)
include hx hp

/-- R280: the four sectors of the line come into its home cache slice. -/
theorem prefetchLine_reached (hr : s.homeReach q x.gpa = true ∧
      (s.cached q.owner x.gpa = false ∨ s.holds q.owner x.gpa 128 = true ∨ s.routeOk q.owner x.gpa h = true)) :
    s.prefetchLine q va = [0, 32, 64, 96].foldl (fun s i => s.fetchSector x.t2 (x.gpa + i) (h + i) slot) (s.noteXl x) := by
  obtain ⟨hhome, hcached⟩ := hr
  simp only [State.prefetchLine, hx, hp]
  refine if_neg ?_
  rw [hhome]
  rcases hcached with hc | hc | hc <;> simp [hc]

/-- R423: a request that no die port lets through. -/
theorem prefetchLine_refused (hr : ¬(s.homeReach q x.gpa = true ∧
      (s.cached q.owner x.gpa = false ∨ s.holds q.owner x.gpa 128 = true ∨ s.routeOk q.owner x.gpa h = true))) :
    s.prefetchLine q va = { s.noteXl x with refused := s.refused + 1 } := by
  simp only [State.prefetchLine, hx, hp]
  refine if_pos ?_
  cases hh : s.homeReach q x.gpa
  · rfl
  · simpa [hh, and_assoc] using hr

end

section
variable {s : State} {b : Block} {t : Thread} (h : Solo s b t) {a : Reg} {k : BitVec 5}
  (hf : FieldsOk b t [a.toNat] [4 * k.toNat, 4 * k.toNat + 1, 4 * k.toNat + 2, 4 * k.toNat + 3] [a.toNat]) (hok : bufOk (b.recOf t k.toNat) = true)
include h hf hok

/-- R280: a record that lets nothing be read. -/
theorem pref_unreadable (l : Bool) (hr : (b.recOf t k.toNat).testBit 63 = false) : exec (.pref l a k) s = .next (s.done t t) := by
  refine congrArg _ ((exec_fold h _ (.done _) ((lc _ _ _ _ hf _).trans ((if_neg ?_).trans (if_pos ?_)))).trans (retireLane_solo h))
  · simp [recOf_progressAt, hok]
  · simp [recOf_progressAt, bit_eq_testBit, hr]

theorem pref_readable (l : Bool) {va : Nat} (hr : (b.recOf t k.toNat).testBit 63 = true)
    (ha : bufAddr (b.recOf t k.toNat) k.toNat (t.get a.toNat).toNat 0 1 false false = .ok (some va)) :
    exec (.pref l a k) s = .next ((s.progressed.prefetchLine (b.prefetchReq t.level) va).retireLane t.tid) := by
  refine congrArg _ (exec_fold h _ (.done _) ((lc _ _ _ _ hf _).trans ((if_neg ?_).trans ((if_neg ?_).trans ?_))))
  · simp [recOf_progressAt, hok]
  · simp [recOf_progressAt, bit_eq_testBit, hr]
  · simp only [recOf_progressAt, ha]
    rfl

/-! ## CWB and CINV (R280) -/

theorem writeBackLine_denied (inv : Bool) (hr : (b.recOf t k.toNat).testBit 62 = false) : s.writeBackLine a k inv =
    .next (s.progressed.takeTrap t.tid { cause := .permDenied, extra := BitVec.ofNat 64 k.toNat }) := by
  refine congrArg _ (exec_fold h _ (.trap _ _) ((lc _ _ _ _ hf _).trans ((if_neg ?_).trans (if_pos ?_))))
  · simp [recOf_progressAt, hok]
  · simp [recOf_progressAt, bit_eq_testBit, hr]

variable {va : Nat} (hr : (b.recOf t k.toNat).testBit 62 = true)
  (ha : bufAddr (b.recOf t k.toNat) k.toNat (t.get a.toNat).toNat 0 1 false false = .ok (some va))
include hr ha

theorem writeBackLine_fault (inv : Bool) {f : MemFault} (hx : s.progressed.translate (b.writeBackReq t.level) va = .error f) :
    s.writeBackLine a k inv = .next (s.progressed.takeTrap t.tid (f.trap (b.writeBackReq t.level) va)) := by
  refine congrArg _ (exec_fold h _ (.trap _ _) ((lc _ _ _ _ hf _).trans ((if_neg ?_).trans ((if_neg ?_).trans ?_))))
  · simp [recOf_progressAt, hok]
  · simp [recOf_progressAt, bit_eq_testBit, hr]
  · simp only [recOf_progressAt, ha, show (b.progressAt s.clock).writeBackReq t.level = b.writeBackReq t.level from rfl, hx]

/-- R280: the line of an address that translates: what keeps CWB and CINV from it, and what they do. -/
theorem writeBackLine_translated (inv : Bool) {x : Xlated} (hx : s.progressed.translate (b.writeBackReq t.level) va = .ok x) :
    s.writeBackLine a k inv = .next (s.progressed.closeLane t.tid
      (if s.progressed.granuleHeld (b.writeBackReq t.level).owner va x.gpa then .wait (.load va 1 false)
        else if x.place.device.isNone then .done s.progressed
        else if !s.progressed.homeReach (b.writeBackReq t.level) x.gpa then .done { s.progressed with refused := s.refused + 1 }
        else if inv then .done ([0, 32, 64, 96].foldl (fun s' i => s'.flushSector (l2Key (b.writeBackReq t.level).owner (x.gpa / 128 * 128 + i)))
          (s.progressed.noteXl x))
        else .done ([0, 32, 64, 96].foldl (fun s' i => s'.cleanSector (l2Key (b.writeBackReq t.level).owner (x.gpa / 128 * 128 + i)))
          (s.progressed.noteXl x)))) := by
  refine congrArg _ (exec_fold h _ _ ((lc _ _ _ _ hf _).trans ((if_neg ?_).trans ((if_neg ?_).trans ?_))))
  · simp [recOf_progressAt, hok]
  · simp [recOf_progressAt, bit_eq_testBit, hr]
  · simp only [recOf_progressAt, ha, show (b.progressAt s.clock).writeBackReq t.level = b.writeBackReq t.level from rfl, hx]
    rfl

end

/-- R280: what CWB and CINV do alike. -/
theorem forall_writeBack {s : State} {a : Reg} {k : BitVec 5} {o : Outcome} (h : ∀ inv, s.writeBackLine a k inv = o) :
    ∀ i ∈ [Instr.cwb a k, .cinv a k], exec i s = o := by
  simp only [List.forall_mem_cons, List.not_mem_nil, false_implies, implies_true, and_true]
  exact ⟨h false, h true⟩

/-! ## SAMPLE (R281 to R283) -/

/-- R281: a record and a sampler that SAMPLE may use. -/
structure SampleOk (r sm : Nat) : Prop where
  good : bufOk r = true
  readable : r.testBit 63 = true
  low : sm % 2 ^ 6 = 0
  middle : sm / 2 ^ 16 % 2 ^ 32 = 0
  high : sm / 2 ^ 80 % 2 ^ 48 = 0
  format : sm / 2 ^ 12 % 2 ^ 4 < 4
  filter : sm / 2 ^ 10 % 4 < 2
  texel : texelBytes (sm / 2 ^ 12 % 2 ^ 4) ≤ bufEsize r

/-- R281: SAMPLE's checks of its sampler, passed. -/
theorem SampleOk.checks {r sm : Nat} (h : SampleOk r sm) : ¬(fld sm 48 80 ≠ 0 ∨ fld sm 32 16 ≠ 0 ∨ fld sm 6 0 ≠ 0 ∨ 4 ≤ fld sm 4 12 ∨ 2 ≤ fld sm 2 10 ∨
    bufEsize r < texelBytes (fld sm 4 12)) := by
  have hlow : fld sm 6 0 = 0 := (fld_low _ _).trans h.low
  rintro (h' | h' | h' | h' | h' | h')
  · exact h' h.high
  · exact h' h.middle
  · exact h' hlow
  · exact Nat.not_le.2 h.format h'
  · exact Nat.not_le.2 h.filter h'
  · exact Nat.not_lt.2 h.texel h'

section
variable {s : State} {b : Block} {t : Thread} (h : Solo s b t) {d a : Reg} {k : BitVec 5}
  (hf : FieldsOk b t [d.toNat, d.toNat + 1, d.toNat + 2, d.toNat + 3, a.toNat, a.toNat + 1]
    [4 * k.toNat, 4 * k.toNat + 1, 4 * k.toNat + 2, 4 * k.toNat + 3, 4 * k.toNat + 4, 4 * k.toNat + 5, 4 * k.toNat + 6, 4 * k.toNat + 7]
    [a.toNat, a.toNat + 1])
  (hok : SampleOk (b.recOf t k.toNat) (b.recOf t (k.toNat + 1)))
include h hf hok

/-- R282: two coordinates, and the texels of their taps. -/
theorem sample_coordinates {n1 n2 : Bool} {m1 m2 : Nat} {e1 e2 : Int} {cs : List (List Num × Nat)} {s' : State}
    (h1 : fp32.decode (t.get a.toNat).toNat = .fin n1 m1 e1) (h2 : fp32.decode (t.get (a.toNat + 1)).toNat = .fin n2 m2 e2)
    (hr : s.progressed.readTaps (b.progressAt s.clock) t (b.recOf t k.toNat) k.toNat (b.recOf t (k.toNat + 1))
      (taps (fld (b.recOf t (k.toNat + 1)) 2 10 == 1) (n1, m1, e1) (n2, m2, e2) (fld (b.recOf t (k.toNat + 1)) 16 48 + 1)
        (fld (b.recOf t (k.toNat + 1)) 16 64 + 1)) = .ok (cs, s')) :
    exec (.sample d a k) s = .next ((s'.deliver t d.toNat (((List.range 4).map (fun c => sampleChannel (fld (b.recOf t (k.toNat + 1)) 4 12)
      (cs.map (fun x => (x.1.getD c (.fin false 0 0), x.2))))).flatMap (toBytes 4)) false).retireLane t.tid) := by
  refine congrArg _ (exec_fold h _ (.done _) ((lc _ _ _ _ hf _).trans ((if_neg ?_).trans ((if_neg ?_).trans ((if_neg hok.checks).trans ?_)))))
  · simp [recOf_progressAt, hok.good]
  · simp [recOf_progressAt, bit_eq_testBit, hok.readable]
  · simp only [recOf_progressAt, h1, h2, hr]

/-- R282: a coordinate that is no number. -/
theorem sample_noCoordinate (hn : (∀ n m e, fp32.decode (t.get a.toNat).toNat ≠ .fin n m e) ∨
      (∀ n m e, fp32.decode (t.get (a.toNat + 1)).toNat ≠ .fin n m e)) :
    exec (.sample d a k) s = .next ((s.progressed.deliver t d.toNat ((List.replicate 4 0x7FC00000).flatMap (toBytes 4)) false).retireLane t.tid) := by
  refine congrArg _ (exec_fold h _ (.done _) ((lc _ _ _ _ hf _).trans ((if_neg ?_).trans ((if_neg ?_).trans ((if_neg hok.checks).trans ?_)))))
  · simp [recOf_progressAt, hok.good]
  · simp [recOf_progressAt, bit_eq_testBit, hok.readable]
  · cases h1 : fp32.decode (t.get a.toNat).toNat with
    | nan => rfl
    | inf n => rfl
    | fin n1 m1 e1 =>
      cases h2 : fp32.decode (t.get (a.toNat + 1)).toNat with
      | nan => rfl
      | inf n => rfl
      | fin n2 m2 e2 => exact (hn.elim (· _ _ _ h1) (· _ _ _ h2)).elim

end

/-- Settles O38: each instruction's checks in their order, then what its line, or its taps, come to. -/
theorem cachesAndSampler : Obligations.CachesAndSampler := by
  refine ⟨fun s b t a k x va h hf => ?caches, fun s s' b t d a k h hf => ?sampler⟩
  case caches =>
    intro r S pf wb four refused line hok ha
    refine ⟨fun l => ⟨fun hr => ⟨fun h' slot g hx hp => ?_, fun f hx => ?_⟩, fun hr => pref_unreadable h hf hok l hr⟩, fun hr f hx => ?_, fun hr hx => ?_,
      fun hr => ?_⟩
    · intro reached
      rw [pref_readable h hf hok l hr ha]
      exact ⟨fun hreach => by rw [prefetchLine_reached hx hp hreach]; rfl, fun hreach => by rw [prefetchLine_refused hx hp hreach]; rfl⟩
    · rw [pref_readable h hf hok l hr ha, prefetchLine_fails hx]
    · exact forall_writeBack fun inv => writeBackLine_fault h hf hok hr ha inv hx
    · have hline (inv : Bool) := writeBackLine_translated h hf hok hr ha inv hx
      refine ⟨fun hg => forall_writeBack fun inv => ?_, fun hg => ⟨fun hd => forall_writeBack fun inv => ?_, fun hd hhome => forall_writeBack fun inv => ?_,
        fun hd hhome => ?_⟩⟩
      · rw [hline, if_pos hg]
        exact congrArg _ (becomes_of h _)
      · rw [hline, if_neg (Bool.eq_false_iff.1 hg), hd]
        exact congrArg _ (retireLane_solo h)
      · rw [hline, if_neg (Bool.eq_false_iff.1 hg), if_neg (by simp [Option.isSome_iff_ne_none.1 hd]), hhome]
        rfl
      · have hnone : ¬x.place.device.isNone = true := by simp [Option.isSome_iff_ne_none.1 hd]
        refine ⟨?_, ?_⟩
        · rw [exec_cwb, hline, if_neg (Bool.eq_false_iff.1 hg), if_neg hnone, hhome]
          rfl
        · rw [exec_cinv, hline, if_neg (Bool.eq_false_iff.1 hg), if_neg hnone, hhome]
          rfl
    · exact forall_writeBack fun inv => writeBackLine_denied h hf hok inv hr
  case sampler =>
    intro r sm fmt gets hbuf hr hlow hmid hhigh hfmt hfilter htexel
    have hok : SampleOk r sm := ⟨hbuf, hr, hlow, hmid, hhigh, hfmt, hfilter, htexel⟩
    exact ⟨fun n1 m1 e1 n2 m2 e2 cs h1 h2 hread => sample_coordinates h hf hok h1 h2 hread, fun hn => sample_noCoordinate h hf hok hn⟩

end Sys2Proof.Machine
end


section
/-! SUPPORT. Pre-emption, casts, notices, admission, dispatch and quanta (R139, R173, R295, R335, R375 to R399). -/

namespace Sys2Proof.Machine

theorem exec_preemptionRequest (l : List Nat) (k : Nat) (s : State) : exec (.preemptionRequest l k) s = execPreemptionRequest l k s := rfl
theorem exec_castWrite (u : Nat) (s : State) : exec (.castWrite u) s = execCastWrite u s := rfl
theorem exec_restore (u c : Nat) (s : State) : exec (.restore u c) s = execRestore u c s := rfl
theorem exec_blockRetire (u : Nat) (s : State) : exec (.blockRetire u) s = execBlockRetire u s := rfl
theorem exec_hang (u : Nat) (s : State) : exec (.hang u) s = execHang u s := rfl
theorem exec_preemptionNotice (o m t : Nat) (s : State) : exec (.preemptionNotice o m t) s = execPreemptionNotice o m t s := rfl
theorem exec_noticeTimeReached (o : Nat) (s : State) : exec (.noticeTimeReached o) s = execNoticeTimeReached o s := rfl
theorem exec_admission (o : Nat) (s : State) : exec (.admission o) s = execAdmission o s := rfl
theorem exec_dispatchDecision (o : Nat) (s : State) : exec (.dispatchDecision o) s = execDispatchDecision o s := rfl
theorem exec_quantumExpiry (q : Nat) (s : State) : exec (.quantumExpiry q) s = execQuantumExpiry q s := rfl

variable {s : State}

/-! ## Requests and notices (R377, R388) -/

/-- R377: what a request leaves of the blocks. -/
theorem haltBlocks_eq (kind : Nat) (f : Block → Bool) : s.haltBlocks kind f = { s with blocks := s.blocks.map (fun b =>
    if b.halted = none ∧ (∃ x ∈ s.blocks.filter f, x.unitOf b = true) then { b with halted := some kind, haltTime := s.devTime } else b) } := by
  simp only [State.haltBlocks, Bool.and_eq_true, Option.isNone_iff_eq_none, List.any_eq_true]

/-- R377: blocks of one slice, named with a KIND of 0 or 3, halt. -/
theorem preemptionRequest_halts {blks : List Nat} {kind o : Nat}
    (ho : ((s.blocks.filter (fun b => blks.contains b.uid)).map (·.owner)).eraseDups = [o]) (hl : o < Config.nSlices) (hk : kind = 0 ∨ kind = 3) :
    exec (.preemptionRequest blks kind) s = .next (s.haltBlocks kind (fun b => blks.contains b.uid)) := by
  rw [exec_preemptionRequest]
  refine congrArg Host.Outcome.next (if_pos ?_)
  rw [ho]
  simp [hl, hk]

/-- R388: a notice that names quadrants of a running slice is given. -/
theorem preemptionNotice_given {o mask time : Nat} (hd : s.dispatches o = true) (h0 : mask ≠ 0) (hlt : mask < 2 ^ 32)
    (hq : ∀ q ∈ bitsOf 32 mask, q ∈ s.quadsOfSlice o) : exec (.preemptionNotice o mask time) s = .next (s.giveNotice o mask time) := by
  rw [exec_preemptionNotice]
  refine congrArg Host.Outcome.next (if_pos ?_)
  simp only [hd, hlt, bne_iff_ne.mpr h0, decide_true, Bool.and_true, Bool.true_and]
  simpa using hq

/-- R388: at the time of a notice the blocks that it found running halt. -/
theorem noticeTimeReached_halts {o : Nat} {n : Notice} (hn : (s.slice o).notices.find? (fun x => x.time ≤ s.devTime) = some n) :
    exec (.noticeTimeReached o) s = .next ((s.haltBlocks 0 (fun b => b.owner == o && n.blks.contains b.uid)).updSlice o
      (fun x => { x with notices := x.notices.erase n })) := by
  rw [exec_noticeTimeReached, execNoticeTimeReached, hn]

/-! ## Casts (R379, R385, R386) -/

/-- R379: the cast of a halted block is written. -/
theorem castWrite_halted {uid k : Nat} {b : Block} (hb : s.blocks.find? (fun x => x.uid == uid) = some b) (hk : b.halted = some k) :
    exec (.castWrite uid) s = .next (s.castOut b k) := by
  rw [exec_castWrite]
  simp only [execCastWrite, hb, hk]

/-- R385: a block whose cast finds no room stays. -/
theorem castOut_full {b : Block} {k : Nat}
    (hf : firstFit ((s.casts.filter (fun c => c.blk.owner == b.owner)).map (fun c => (c.addr - s.sliceWord b.owner 6, c.bytes.length)))
      (s.castImage (b.leaving s.clock) k b.haltTime 0 (s.logOfBlock b.uid)).length 64 (s.sliceWord b.owner 7) = none) : s.castOut b k = s := by
  have huid : (b.leaving s.clock).uid = b.uid := rfl
  have htime : (b.leaving s.clock).haltTime = b.haltTime := rfl
  simp only [State.castOut, huid, htime, hf]

/-- R379: the cast goes to the lowest place with room, and its block leaves its core. -/
theorem castOut_room {b : Block} {k a : Nat} {s' : State}
    (hf : firstFit ((s.casts.filter (fun c => c.blk.owner == b.owner)).map (fun c => (c.addr - s.sliceWord b.owner 6, c.bytes.length)))
      (s.castImage (b.leaving s.clock) k b.haltTime 0 (s.logOfBlock b.uid)).length 64 (s.sliceWord b.owner 7) = some a)
    (hw : s.writeMarked b.owner (s.sliceWord b.owner 6 + a) (s.castImage (b.leaving s.clock) k b.haltTime 0 (s.logOfBlock b.uid)) = some s') :
    s.castOut b k = State.updSlice { (((b.window.filterMap (fun c => c.helper)).foldl State.clearAcc s').leaveCore b).keepView b with
      blocks := s'.blocks.filter (fun x => x.uid != b.uid)
      casts := s'.casts ++ [{ blk := b.leaving s.clock, kind := k, time := b.haltTime, addr := s.sliceWord b.owner 6 + a
                              bytes := (s.castImage (b.leaving s.clock) k b.haltTime 0 (s.logOfBlock b.uid)).map (·.1), log := s.logOfBlock b.uid }]
      bins := s'.bins.filter (fun x => x.blk != b.uid)
      sideLog := s'.sideLog.filter (fun e => e.blk != b.uid) } b.owner (fun x => { x with decideDue := true }) := by
  have huid : (b.leaving s.clock).uid = b.uid := rfl
  have htime : (b.leaving s.clock).haltTime = b.haltTime := rfl
  simp only [State.castOut, huid, htime, hf, hw]

/-- R386: a valid cast of a running slice is restored where it can be. -/
theorem restore_eq {uid core : Nat} {c : Cast} (hc : s.casts.find? (fun c => c.blk.uid == uid && c.valid) = some c)
    (hd : s.dispatches c.blk.owner = true) : exec (.restore uid core) s = .next ((s.restoreUnit c (some core)).getD s) := by
  rw [exec_restore]
  simp only [execRestore, hc, if_pos hd]

/-- R173, R175: nothing is restored while a block that comes back with the cast still halts. -/
theorem restoreUnit_halting {c : Cast} {first : Option Nat} (hh : s.stillHalting c = true) : s.restoreUnit c first = none := if_pos hh

/-- R386: a cast that is restored alone and fails step 1 is dropped. -/
theorem restoreUnit_bad {c : Cast} {first : Option Nat} (hb : s.castBlock c = none) (hw : s.castsWith c = [c]) (hh : s.stillHalting c = false) :
    s.restoreUnit c first = some (s.castBad c) := by
  have hfind : (s.castsWith c).find? (fun x => (s.castBlock x).isNone) = some c := by simp [hw, hb]
  simp only [State.restoreUnit, hh, hfind, Bool.false_eq_true, if_false]

/-! ## The end of a block (R139, R295, R335) -/

/-- R139: a block has ended when all its threads have and its commands have retired. -/
theorem ended_iff (b : Block) : b.ended = true ↔ (∀ t ∈ b.threads, t.exited = true) ∧ b.window = [] := by
  simp [Block.ended]

/-- R139, R173, R295: when a block may retire. -/
theorem mayRetire_iff (b : Block) : s.mayRetire b = true ↔
    b.ended = true ∧ b.halted = none ∧ ∀ y ∈ (s.blocks ++ s.casts.map (·.blk)).filter b.neighbours, y.ended = true := by
  simp only [State.mayRetire, Bool.and_eq_true, Option.isNone_iff_eq_none, List.all_eq_true, Bool.or_eq_true, Bool.not_eq_true',
    List.mem_filter, and_assoc]
  refine and_congr_right fun _ => and_congr_right fun _ => forall_congr' fun y => ?_
  cases b.neighbours y <;> simp

/-- R139: a block that may not retire stays. -/
theorem blockRetire_stays {uid : Nat} {x : Block} (hx : s.blocks.find? (fun y => y.uid == uid) = some x) (hm : ¬s.mayRetire x = true) :
    exec (.blockRetire uid) s = .next s := by
  rw [exec_blockRetire]
  simp only [execBlockRetire, hx, if_neg hm]

/-- R139, R335: a block that may retire leaves its core, and the records of its batch are released. -/
theorem blockRetire_leaves {uid : Nat} {x : Block} (hx : s.blocks.find? (fun y => y.uid == uid) = some x) (hm : s.mayRetire x = true) :
    exec (.blockRetire uid) s = .next (State.updSlice { (match x.batch with | some r => s.releaseBatch r | none => s).leaveCore x with
      blocks := s.blocks.filter (fun y => y.uid != uid), bins := s.bins.filter (fun y => y.blk != uid) } x.owner
        (fun y => { y with decideDue := true })) := by
  rw [exec_blockRetire]
  simp only [execBlockRetire, hx, if_pos hm]
  cases x.batch <;> rfl

/-! ## Hang detection (R375) -/

/-- R375: a block without progress for HANGLIMIT clocks. -/
theorem hang_raised {uid i : Nat} {x : Block} (hx : s.blocks.zipIdx.find? (fun y => y.1.uid == uid) = some (x, i)) (hh : x.halted = none)
    (ho : x.owner < Config.nSlices) (hp : x.progress + s.hangLimit x.owner ≤ s.clock) :
    exec (.hang uid) s = .next ((((s.updBlock i (s.hung i)).count x.owner
      (fun c => { c with hangs := satAdd c.hangs (x.threads.filter (s.stuck i x)).length }))).postEvent x.owner 2 0 0 x.num
        ((s.updBlock i (s.hung i)).launchId x.launch)) := by
  rw [exec_hang]
  have hin : (x.halted.isNone && x.owner < Config.nSlices && x.progress + s.hangLimit x.owner ≤ s.clock) = true := by simp [hh, ho, hp]
  simp only [execHang, hx, if_pos hin]

/-! ## Counting a read does not take time -/

theorem moved_clock (s : State) (owner h n : Nat) : (s.moved owner h n).clock = s.clock := by
  unfold State.moved; split <;> rfl

theorem correctRead_clock (s : State) (owner h : Nat) : (s.correctRead owner h).clock = s.clock := by
  unfold State.correctRead; split <;> rfl

theorem noteWalk2_clock (s : State) (owner gpa : Nat) : (s.noteWalk2 owner gpa).clock = s.clock := by
  unfold State.noteWalk2
  dsimp only
  split
  · rfl
  · exact foldl_keeps State.clock _ (fun _ _ => (correctRead_clock _ _ _).trans (moved_clock _ _ _ _)) _ _

theorem noteSector_clock (s : State) (owner gpa h : Nat) : (s.noteSector owner gpa h).clock = s.clock := by
  unfold State.noteSector
  split
  · rfl
  split
  · exact (correctRead_clock _ _ _).trans (moved_clock _ _ _ _)
  · rfl

theorem noteGpa_clock (s : State) (owner gpa : Nat) : (s.noteGpa owner gpa).clock = s.clock := by
  unfold State.noteGpa
  dsimp only
  split
  · exact noteWalk2_clock s owner gpa
  split
  · exact (noteSector_clock _ _ _ _).trans (noteWalk2_clock s owner gpa)
  · exact noteWalk2_clock s owner gpa

theorem noteDev_clock (s : State) (owner gpa n : Nat) : (s.noteDev owner gpa n).clock = s.clock :=
  foldl_keeps State.clock _ (fun _ _ => noteGpa_clock _ _ _) _ s

/-! ## Admission (R393, R394) -/

/-- R393: an admission takes the head of its choice. -/
theorem admission_admits {o : Nat} {h : Head} (hd : s.dispatches o = true) (hr : (s.readyLaunches o).length < 8) (hk : s.keyHeld o = false)
    (hc : chooseHead ((s.slice o).admissions % 16 == 15) (s.heads o) = some h) : exec (.admission o) s = .next (s.admitHead o h) := by
  rw [exec_admission]
  simp only [execAdmission, hd, hr, hk, hc, decide_true, Bool.not_false, Bool.and_self, if_true]

/-- R393: a queue's head that is admitted is taken from its queue, and its launch stands in the module. -/
theorem admitHead_queue {o : Nat} {h : Head} (hq : h.q < 64) : s.admitHead o h =
    let s1 := (s.noteDev o (entryAddr h.desc (s.queueOf o h.q h.desc).head.toNat) 256).updSlice o (fun x => { x with admissions := x.admissions + 1 })
    let x := s1.queueOf o h.q h.desc
    let r := h.rcd.getD 0
    let l : Launch := { uid := s1.uids, owner := o, q := h.q, seq := x.head.toNat, record := r, nblocks := recBlocks r, unplaced := List.range (recBlocks r)
                        enqueuedAt := h.since, admitted := true, admittedAt := s.clock, lastPlaced := s.clock }
    let s2 : State := { s1.putQueue { x with head := x.head + 1, times := x.times.drop 1 } with uids := s1.uids + 1, launches := s1.launches ++ [l] }
    match s2.refusal l h.rcd.isSome false with
    | some reason => s2.refuse l reason
    | none => s2.updSlice o (fun x => { x with decideDue := true }) := by
  have hne : ¬h.q = 64 := by omega
  have hb : (h.q == 64) = false := beq_false_of_ne hne
  simp only [State.admitHead, State.noteHead, if_pos hq, if_neg hne, hb, State.updSlice_clock, noteDev_clock] <;> rfl

/-! ## Decisions (R395 to R397) -/

/-- R395 to R397: a decision of a running slice; every sixteenth is by age. -/
theorem dispatchDecision_decides {o : Nat} (hd : s.dispatches o = true) : exec (.dispatchDecision o) s = .next
    (if (s.slice o).decisions % 16 = 15 then
      (s.updSlice o (fun x => { x with decisions := (s.slice o).decisions + 1, decidedAt := s.clock, decideDue := false })).decideAging o
    else (s.updSlice o (fun x => { x with decisions := (s.slice o).decisions + 1, decidedAt := s.clock, decideDue := false })).decideEdf o) := by
  rw [exec_dispatchDecision]
  exact congrArg Host.Outcome.next (if_pos hd)

/-! ## Quanta (R399) -/

/-- A sharer's standing for a quadrant's next quantum: its ratio of quanta to weight, and then its function number. -/
def State.standing (s : State) (quad : Nat) (x : Nat × Nat) : ℚ ×ₗ ℕ := toLex ((s.quantaOf quad x.1 : ℚ) / x.2, s.vfOf x.1)

/-- Ratios compared as the model compares them, across. -/
theorem standing_lt_iff (quad : Nat) {x y : Nat × Nat} (hx : 0 < x.2) (hy : 0 < y.2) : s.standing quad y < s.standing quad x ↔
    s.quantaOf quad y.1 * x.2 < s.quantaOf quad x.1 * y.2 ∨ s.quantaOf quad y.1 * x.2 = s.quantaOf quad x.1 * y.2 ∧ s.vfOf y.1 < s.vfOf x.1 := by
  have hx' : (0 : ℚ) < x.2 := by exact_mod_cast hx
  have hy' : (0 : ℚ) < y.2 := by exact_mod_cast hy
  rw [State.standing, State.standing, Prod.Lex.toLex_lt_toLex, div_lt_div_iff₀ hy' hx', div_eq_div_iff hy'.ne' hx'.ne']
  norm_cast

/-- The least of a list by `<` of a key, the first of equals. -/
theorem foldl_least {α β : Type} [LinearOrder β] (key : α → β) (pick : α → α → α) (P : α → Prop)
    (hpick : ∀ x y, P x → P y → pick x y = if key y < key x then y else x) (l : List α) (c : α) (hc : P c) (hl : ∀ y ∈ l, P y) :
    P (l.foldl pick c) ∧ ∀ y ∈ c :: l, key (l.foldl pick c) ≤ key y := by
  induction l generalizing c with
  | nil => exact ⟨hc, by simp⟩
  | cons a l ih =>
    have ha : P a := hl a (by simp)
    have hn : P (pick c a) ∧ key (pick c a) ≤ key c ∧ key (pick c a) ≤ key a := by
      rw [hpick c a hc ha]
      split
      next h => exact ⟨ha, h.le, le_rfl⟩
      next h => exact ⟨hc, le_rfl, not_lt.mp h⟩
    obtain ⟨hP, hle⟩ := ih (pick c a) hn.1 (fun y hy => hl y (by simp [hy]))
    refine ⟨hP, fun y hy => ?_⟩
    rcases List.mem_cons.mp hy with rfl | hy
    · exact (hle _ (by simp)).trans hn.2.1
    rcases List.mem_cons.mp hy with rfl | hy
    · exact (hle _ (by simp)).trans hn.2.2
    · exact hle y (by simp [hy])

/-- R399: the sharers of a quadrant that have work. -/
def State.sharers (s : State) (quad : Nat) : List (Nat × Nat) :=
  (List.range Config.nSlices).filterMap (fun o => (SMap.get (s.slice o).shares quad).bind (fun w =>
    if s.dispatches o && s.hasWork o then some (o, w) else none))

theorem mem_sharers {quad : Nat} {x : Nat × Nat} : x ∈ s.sharers quad ↔
    x.1 < Config.nSlices ∧ SMap.get (s.slice x.1).shares quad = some x.2 ∧ s.dispatches x.1 = true ∧ s.hasWork x.1 = true := by
  obtain ⟨o, w⟩ := x
  simp only [State.sharers, List.mem_filterMap, List.mem_range, Option.bind_eq_some_iff, Option.ite_none_right_eq_some, Bool.and_eq_true,
    Option.some.injEq, Prod.mk.injEq]
  constructor
  · rintro ⟨a, ha, v, hv, ⟨hd, hw⟩, rfl, rfl⟩
    exact ⟨ha, hv, hd, hw⟩
  · rintro ⟨ha, hv, hd, hw⟩
    exact ⟨o, ha, w, hv, ⟨hd, hw⟩, rfl, rfl⟩

/-- R399: where every share is positive, the next quantum's function stands before every other sharer. -/
theorem nextSharer_least {quad : Nat} {r : Nat × Nat} (hr : s.nextSharer quad = some r)
    (hpos : ∀ y ∈ s.sharers quad, 0 < y.2) : ∀ y ∈ s.sharers quad, s.standing quad r ≤ s.standing quad y := by
  have hdef : s.nextSharer quad = match s.sharers quad with
      | [] => none
      | c :: rest => some (rest.foldl (fun x y => if s.quantaOf quad y.1 * x.2 < s.quantaOf quad x.1 * y.2 ||
          s.quantaOf quad y.1 * x.2 == s.quantaOf quad x.1 * y.2 && s.vfOf y.1 < s.vfOf x.1 then y else x) c) := rfl
  rw [hdef] at hr
  cases hcs : s.sharers quad with
  | nil => simp
  | cons c rest =>
    rw [hcs] at hr hpos
    obtain rfl := Option.some.inj hr
    refine (foldl_least (s.standing quad) _ (fun y => 0 < y.2) (fun x y hx hy => ?_) rest c (hpos c (by simp))
      (fun y hy => hpos y (by simp [hy]))).2
    refine if_congr ?_ rfl rfl
    rw [standing_lt_iff quad hx hy]
    simp

/-- R399: the sharer that `nextSharer` names has the least ratio, and of those with it the lowest function number. -/
theorem nextSharer_first {quad sl w o' w' : Nat} (hr : s.nextSharer quad = some (sl, w)) (ho : o' < Config.nSlices)
    (hs : SMap.get (s.slice o').shares quad = some w') (hd : s.dispatches o' = true) (hw : s.hasWork o' = true) (h0 : 0 < w) (h0' : 0 < w')
    (hpos : ∀ u x, u < Config.nSlices → SMap.get (s.slice u).shares quad = some x → 0 < x) :
    s.quantaOf quad sl * w' < s.quantaOf quad o' * w ∨ s.quantaOf quad sl * w' = s.quantaOf quad o' * w ∧ s.vfOf sl ≤ s.vfOf o' := by
  have hle := nextSharer_least hr (fun y hy => hpos y.1 y.2 (mem_sharers.mp hy).1 (mem_sharers.mp hy).2.1) (o', w')
    (mem_sharers.mpr ⟨ho, hs, hd, hw⟩)
  have hnot := (standing_lt_iff (s := s) quad (x := (sl, w)) (y := (o', w')) h0 h0').not.mp hle.not_gt
  dsimp only at hnot
  omega

/-- R399: at the end of a quantum, within a round, the quadrant goes to its next sharer. -/
theorem quantumExpiry_switches {quad ql sl w : Nat} (hq : SMap.get s.qlog quad = some ql) (hover : SMap.getD s.quantumAt quad 0 + 2 ^ ql ≤ s.clock)
    (hn : s.nextSharer quad = some (sl, w)) (hround : ((List.range Config.nSlices).map (s.quantaOf quad)).foldl (· + ·) 0 < 64) :
    let s1 := if SMap.get s.onQuad quad = some sl then s
      else s.haltBlocks 0 (fun b => SMap.get s.onQuad quad == some b.owner && quadOfCore b.core == quad)
    exec (.quantumExpiry quad) s = .next (State.updSlice { s1 with
      onQuad := SMap.set s1.onQuad quad sl, quantumAt := SMap.set s1.quantumAt quad s1.clock
      quanta := SMap.set s1.quanta (64 * quad + sl) (s1.quantaOf quad sl + 1) } sl (fun x => { x with decideDue := true })) := by
  have hdue : (!(decide (SMap.getD s.quantumAt quad 0 + 2 ^ ql ≤ s.clock) || !(SMap.get s.onQuad quad).any s.hasWork)) = false := by simp [hover]
  rw [exec_quantumExpiry]
  simp only [execQuantumExpiry, hq, hdue, Bool.false_eq_true, if_false, if_neg (Nat.not_le.mpr hround), hn]

/-- Settles O51: casts, dispatch, quanta and the end of blocks, by an equation for each of their steps. -/
theorem preemptionAndDispatch : Obligations.PreemptionAndDispatch := by
  unfold Obligations.PreemptionAndDispatch
  refine ⟨fun s => ⟨?request, ?cast, ?restore, ?retire, ?hang, ?notice, ?due⟩, fun s o => ⟨?admission, ?decision, ?quantum⟩⟩
  case request =>
    intro blks kind o ho hl hk
    exact (preemptionRequest_halts ho hl hk).trans (congrArg _ (haltBlocks_eq _ _))
  case cast =>
    intro uid k a b s' hb hk
    exact ⟨fun hf => (castWrite_halted hb hk).trans (congrArg _ (castOut_full hf)),
      fun hf hw => (castWrite_halted hb hk).trans (congrArg _ (castOut_room hf hw))⟩
  case restore =>
    intro uid core c hc hd
    have heq := restore_eq (core := core) hc hd
    refine ⟨fun hu => ?_, fun s' hu => ?_, fun hh => ?_, fun hb hw hh => ?_⟩
    · rw [heq, hu, Option.getD_none]
    · rw [heq, hu, Option.getD_some]
    · rw [heq, restoreUnit_halting hh, Option.getD_none]
    · rw [heq, restoreUnit_bad hb hw hh, Option.getD_some]
  case retire =>
    intro uid x hx ht hwin hh
    have hended : x.ended = true := (ended_iff x).2 ⟨ht, hwin⟩
    refine ⟨fun ⟨y, hy, hns⟩ => blockRetire_stays hx fun hm => hns ((ended_iff y).1 (((mayRetire_iff x).1 hm).2.2 y hy)), fun hall => ?_⟩
    exact blockRetire_leaves hx ((mayRetire_iff x).2 ⟨hended, hh, fun y hy => (ended_iff y).2 (hall y hy)⟩)
  case hang =>
    intro uid i x hx hh ho hp
    exact hang_raised hx hh ho hp
  case notice =>
    intro sl mask time hd h0 hlt hq
    exact preemptionNotice_given hd h0 hlt hq
  case due =>
    intro sl n hn
    exact noticeTimeReached_halts hn
  case admission =>
    intro h hd hr hk hc hq
    have hadm := admission_admits hd hr hk hc
    rw [admitHead_queue hq] at hadm
    intro s1 x r l s2
    refine ⟨fun hn => hadm.trans (congrArg _ ?_), fun reason hn => hadm.trans (congrArg _ ?_)⟩
    · simp only [s2, l, r, x, s1] at hn
      simp only [hn, s2, l, r, x, s1]
    · simp only [s2, l, r, x, s1] at hn
      simp only [hn, s2, l, r, x, s1]
      rfl
  case decision =>
    exact dispatchDecision_decides
  case quantum =>
    intro quad ql sl w hq hover hn
    exact ⟨fun o' w' ho hs hd hw h0 h0' hpos => nextSharer_first hn ho hs hd hw h0 h0' hpos, quantumExpiry_switches hq hover hn⟩

end Sys2Proof.Machine
end


section
/-! SUPPORT. The module's clock, the rollback count and the restarts (R163, R451, R453): one lemma per function of the model says that it leaves
the three counts, or that what it comes to does; only a start of the module and the passing of time raise them. -/

namespace Sys2Proof.Machine

open State

/-- The counts that the passing of time and a start of the module alone raise: the module's clock, the rollback count and the restarts. -/
def State.era (s : State) : Nat × Nat × Nat := (s.clock, s.boot.rollback, s.boot.boots)

/-- What a lane comes to keeps the counts of `s`. -/
def LaneRes.Keeps (s : State) : LaneRes → Prop
  | .done s' | .moved s' | .trap s' _ => s'.era = s.era
  | .wait _ => True

/-- A piece of engine work keeps the counts of `s`. -/
def Eng.Keeps {α : Type} (s : State) : Eng α → Prop
  | .ok _ s' | .fail _ _ _ s' => s'.era = s.era
  | .wait => True

/-- The answer to a slice request keeps the counts of `s`. -/
def Answer.Keeps (s : State) : Answer → Prop
  | .status s' _ | .again s' => s'.era = s.era

/-- An outcome keeps the counts of `s`. -/
def Outcome.Keeps (s : State) : Outcome → Prop
  | .next s' => s'.era = s.era
  | .fault _ | .refused _ => True

theorem ite_era {p : Prop} [Decidable p] {s s1 s2 : State} (h1 : s1.era = s.era) (h2 : s2.era = s.era) : (if p then s1 else s2).era = s.era := by
  split
  · exact h1
  · exact h2

theorem foldl_era {α : Type} {f : State → α → State} (h : ∀ s x, (f s x).era = s.era) (l : List α) (s : State) :
    (l.foldl f s).era = s.era := foldl_keeps State.era f h l s

theorem foldl_fst_era {α β : Type} {f : State × β → α → State × β} (h : ∀ y x, (f y x).1.era = y.1.era) (l : List α) (y : State × β) :
    (l.foldl f y).1.era = y.1.era := foldl_keeps (fun y : State × β => y.1.era) f h l y

theorem foldl_snd_era {α β : Type} {f : β × State → α → β × State} (h : ∀ y x, (f y x).2.era = y.2.era) (l : List α) (y : β × State) :
    (l.foldl f y).2.era = y.2.era := foldl_keeps (fun y : β × State => y.2.era) f h l y

/-- A fold whose every step keeps a property keeps it. -/
theorem foldl_holds {α β : Type} {P : β → Prop} {f : β → α → β} (h : ∀ b x, P b → P (f b x)) (l : List α) {b : β} (hb : P b) :
    P (l.foldl f b) := List.foldlRecOn l f hb fun b hb x _ => h b x hb

/-- An answer that keeps the counts goes on from a state with the counts of `s`. -/
theorem Answer.Keeps.congr {s s' : State} {x : Answer} (h : x.Keeps s') (hs : s'.era = s.era) : x.Keeps s := by
  cases x with
  | status s1 n | again s1 => exact Eq.trans h hs

/-- Pieces that may fail, each of which keeps the counts. -/
theorem foldl_bind_era {α : Type} {f : State → α → Option State} (hf : ∀ s x s', f s x = some s' → s'.era = s.era) {l : List α} {s s' : State}
    (h : l.foldl (fun acc x => acc.bind (fun s => f s x)) (some s) = some s') : s'.era = s.era :=
  foldl_holds (P := fun acc : Option State => ∀ s', acc = some s' → s'.era = s.era)
    (fun acc x ih s' e => by
      obtain ⟨s1, e1, e2⟩ := Option.bind_eq_some_iff.mp e
      exact (hf s1 x s' e2).trans (ih s1 e1))
    l (fun _ e => Option.some.inj e ▸ rfl) s' h

theorem next_keeps {s s' : State} (h : s'.era = s.era) : Outcome.Keeps s (.next s') := h

/-- Engine work that keeps the counts goes on from a state with the counts of `s`. -/
theorem Eng.Keeps.congr {α : Type} {s s' : State} {x : Eng α} (h : x.Keeps s') (hs : s'.era = s.era) : x.Keeps s := by
  cases x with
  | ok a s1 => exact Eq.trans h hs
  | fail c d a s1 => exact Eq.trans h hs
  | wait => trivial

theorem Eng.Keeps.of_ok {α : Type} {s s' : State} {x : Eng α} {a : α} (h : x.Keeps s) (e : x = .ok a s') : s'.era = s.era := by
  subst e; exact h

theorem Eng.Keeps.of_fail {α : Type} {s s' : State} {x : Eng α} {c d a : Nat} (h : x.Keeps s) (e : x = .fail c d a s') : s'.era = s.era := by
  subst e; exact h

theorem LaneRes.Keeps.congr {s s' : State} {r : LaneRes} (h : r.Keeps s') (hs : s'.era = s.era) : r.Keeps s := by
  cases r with
  | done s1 | moved s1 | trap s1 tr => exact Eq.trans h hs
  | wait w => trivial

theorem Eng.andThen_keeps {α β : Type} {s : State} {x : Eng α} {f : α → State → Eng β} (hx : x.Keeps s) (hf : ∀ a s, (f a s).Keeps s) :
    (x.andThen f).Keeps s := by
  cases x with
  | ok a s' => exact (hf a s').congr hx
  | fail c d a s' => exact hx
  | wait => trivial

/-- Engine work in pieces, each of which keeps the counts. -/
theorem foldl_andThen_keeps {α β : Type} {s : State} {f : α → β → State → Eng β} (h : ∀ x b s, (f x b s).Keeps s) (l : List α) (b : β) :
    (l.foldl (fun acc x => Eng.andThen acc (f x)) (Eng.ok b s)).Keeps s :=
  foldl_holds (P := Eng.Keeps s) (f := fun acc x => acc.andThen (f x)) (fun _ x ih => Eng.andThen_keeps ih (h x)) l (b := .ok b s) rfl

/-! ### Records and slices -/

theorem State.updSlice_era (s : State) (o : Nat) (f : Slice → Slice) : (s.updSlice o f).era = s.era := rfl

theorem State.count_era (s : State) (o : Nat) (f : Counters → Counters) : (s.count o f).era = s.era := rfl

/-! ### Translations -/

theorem State.moved_era (s : State) (owner h n : Nat) : (s.moved owner h n).era = s.era := by
  unfold State.moved
  split <;> rfl

theorem State.correctRead_era (s : State) (owner h : Nat) : (s.correctRead owner h).era = s.era := by
  unfold State.correctRead
  split <;> rfl

theorem State.putDramSector_era (s : State) (owner slot h : Nat) (bytes : List Byte) (poison : Option Bool) :
    (s.putDramSector owner slot h bytes poison).era = s.era := by
  unfold State.putDramSector
  grind only [State.count_era, State.moved_era, State.era]

theorem State.noteWalk2_era (s : State) (owner gpa : Nat) : (s.noteWalk2 owner gpa).era = s.era := by
  grind +splitImp only [State.noteWalk2, State.correctRead_era, State.moved_era, foldl_era]

theorem State.noteSector_era (s : State) (owner gpa h : Nat) : (s.noteSector owner gpa h).era = s.era := by
  grind only [State.noteSector, State.correctRead_era, State.moved_era, State.era]

theorem State.routeSector_era (s : State) (owner gpa slot h : Nat) (bytes : List Byte) (poison : Option Bool) :
    (s.routeSector owner gpa slot h bytes poison).era = s.era := by
  grind only [State.routeSector, State.putDramSector_era, State.era]

theorem State.flushSector_era (s : State) (key : Nat) : (s.flushSector key).era = s.era := by
  unfold State.flushSector
  grind only [State.routeSector_era, State.era]

theorem State.fillSector_era (s : State) (t : Tlb2) (gpa : Nat) (bytes : List Byte) (poison : Option Bool) (dirty : Bool) :
    (s.fillSector t gpa bytes poison dirty).era = s.era := by
  grind +splitImp only [State.fillSector, State.flushSector_era, State.era, foldl_era]

theorem State.fetchSector_era (s : State) (t : Tlb2) (gpa h slot : Nat) : (s.fetchSector t gpa h slot).era = s.era := by
  grind only [State.fetchSector, State.fillSector_era, State.correctRead_era, State.moved_era]

theorem State.takeSector_era (s : State) (t : Tlb2) (gpa h slot : Nat) : (s.takeSector t gpa h slot).era = s.era := by
  grind only [State.takeSector, State.fetchSector_era, State.noteSector_era]

theorem State.putSector_era (s : State) (t : Tlb2) (gpa h slot : Nat) (cells : List (Nat × Byte)) (rmw : Bool) :
    (s.putSector t gpa h slot cells rmw).era = s.era := by
  grind only [State.putSector, State.fillSector_era, State.noteSector_era, State.routeSector_era]

theorem State.flushL2_era (s : State) (p : Nat → Nat → Bool) : (s.flushL2 p).era = s.era := by
  grind +splitImp only [State.flushL2, State.flushSector_era, foldl_era]

theorem State.discardL2_era (s : State) (p : Nat → Nat → Bool) : (s.discardL2 p).era = s.era := rfl

theorem State.noteGpa_era (s : State) (owner gpa : Nat) : (s.noteGpa owner gpa).era = s.era := by
  grind only [State.noteGpa, State.noteWalk2_era, State.noteSector_era]

theorem State.noteWalk1_era (s : State) (owner va : Nat) : (s.noteWalk1 owner va).era = s.era := by
  grind +splitImp only [State.noteWalk1, State.noteGpa_era, foldl_era]

theorem State.noteWalks_era (s : State) (q : Req) (va : Nat) : (s.noteWalks q va).era = s.era := by
  grind only [State.noteWalks, State.noteWalk1_era, State.noteWalk2_era]

theorem State.notePoison_era (s : State) (q : Req) (va : Nat) : (s.notePoison q va).era = s.era := by
  grind only [State.notePoison, State.noteWalks_era, State.takeSector_era, State.era]

theorem State.noteXl_era (s : State) (x : Xlated) : (s.noteXl x).era = s.era := by
  grind only [State.noteXl, State.noteWalk1_era, State.noteWalk2_era, State.era]

/-! ### Memory as addresses reach it -/

theorem State.updBlock_era (s : State) (i : Nat) (f : Block → Block) : (s.updBlock i f).era = s.era := rfl

theorem State.leaveCore_era (s : State) (b : Block) : (s.leaveCore b).era = s.era := rfl

theorem State.takeRegions_era (s : State) (b : Block) : (s.takeRegions b).era = s.era := rfl

theorem State.chipWrite_era (s : State) (owner a : Nat) (v : Word) {s' z} (h : (s.chipWrite owner a v) = some (s', z)) : s'.era = s.era := by
  grind only [State.chipWrite, State.updBlock_era, State.era]

theorem State.noteStaleAt_era (s : State) (stamp space key : Nat) (olds : List (Nat × Byte)) :
    (s.noteStaleAt stamp space key olds).era = s.era := rfl

theorem State.noteStale_era (s : State) (space key : Nat) (olds : List (Nat × Byte)) : (s.noteStale space key olds).era = s.era := rfl

theorem State.noteTile_era (s : State) (bi t : Nat) (cells : List (Nat × Nat)) : (s.noteTile bi t cells).era = s.era := by
  unfold State.noteTile
  split <;> rfl

theorem State.engineSees_era (s : State) (space key addr : Nat) (bytes : List Byte) : (s.engineSees space key addr bytes).2.era = s.era := by
  grind only [State.engineSees, State.era]

theorem State.traced_era (s : State) (space key addr n : Nat) : (s.traced space key addr n).era = s.era := by
  unfold State.traced
  split <;> rfl

theorem State.engineWrote_era (s : State) (space key addr n : Nat) : (s.engineWrote space key addr n).era = s.era := by
  grind only [State.engineWrote, State.traced_era, State.era]

theorem State.noteChip_era (s : State) (owner : Nat) (words : List Nat) : (s.noteChip owner words).era = s.era := by
  grind +splitImp only [State.noteChip, State.noteStale_era, foldl_era]

theorem State.chipSees_era (s : State) (a : Nat) (bytes : List Byte) : (s.chipSees a bytes).2.era = s.era := by
  grind +splitImp only [State.chipSees, State.engineSees_era, foldl_snd_era]

theorem State.chipWrote_era (s : State) (a n : Nat) : (s.chipWrote a n).era = s.era := by
  grind +splitImp only [State.chipWrote, State.engineWrote_era, State.traced_era, foldl_era]

theorem State.noteFence_era (s : State) (b : Block) (x : Nat) : (s.noteFence b x).era = s.era := rfl

theorem State.readPiece_era (s : State) (q : Req) (engine : Bool) (va n : Nat) {z s'} (h : s.readPiece q engine va n = .ok (z, s')) :
    s'.era = s.era := by
  unfold State.readPiece at h
  split at h
  · cases h
  split at h
  · cases h
  next x _ =>
  dsimp only at h
  rw [← s.noteXl_era x]
  split at h
  · cases h
  split at h
  · grind only
  · grind only [State.takeSector_era]
  · split at h <;> cases h
    rfl
  · split at h
    · cases h
    split at h
    · cases h
    exact foldl_except_keeps (fun r : List Byte × State => r.2.era) _ (fun _ _ => rfl) (fun y i y' hy => by grind only) _ _ _ h

theorem State.readVa_era (s : State) (q : Req) (engine : Bool) (va n : Nat) {z s'} (h : s.readVa q engine va n = .ok (z, s')) : s'.era = s.era :=
  foldl_except_keeps (fun r : List Byte × State => r.2.era) _ (fun _ _ => rfl) (fun y p y' hy => by grind only [State.readPiece_era]) _ _ _ h

theorem State.clearChipPairs_era (s : State) (words : List Nat) : (s.clearChipPairs words).era = s.era := by
  grind +splitImp only [State.clearChipPairs, State.updBlock_era, State.era, foldl_era]

theorem State.writeCells_era (s : State) (q : Req) (engine : Bool) (x : Xlated) (va : Nat) (cells : List (Nat × Byte)) (rmw : Bool)
    (stamp : Option Nat) {s' z} (h : s.writeCells q engine x va cells rmw stamp = .ok (s', z)) : s'.era = s.era := by
  have sectors (at' slot : Nat) (gcells : List (Nat × Byte)) (s : State) : ((sectorsOf gcells).foldl (fun s k =>
      s.putSector x.t2 (32 * k) (at' / 128 * 128 + (32 * k) % 128) slot (gcells.filter (fun c => c.1 / 32 == k)) rmw) s).era = s.era :=
    foldl_era (fun s k => putSector_era ..) _ _
  unfold State.writeCells at h
  dsimp only at h
  split at h
  · cases h; rfl
  split at h
  · cases h; rw [sectors]; grind only [State.noteStale_era, State.noteStaleAt_era]
  · cases h; rw [sectors]; grind only [State.noteStale_era, State.noteStaleAt_era]
  · split at h <;> cases h <;> rfl
  · split at h
    · cases h
    split at h
    · cases h; rfl
    split at h
    · cases h
    next s1 cl hf =>
    cases h
    have hs := foldl_except_keeps (fun r : State × Bool => r.1.era) _ (fun _ _ => rfl) (fun y i y' hy => by
      grind only [State.chipWrite_era]) _ _ _ hf
    grind only [State.clearChipPairs_era, State.noteChip_era]

theorem State.writeVa_era (s : State) (q : Req) (engine : Bool) (va : Nat) (bytes : List Byte) : (s.writeVa q engine va bytes).1.1.era = s.era :=
  foldl_holds (P := fun acc : (State × Bool) × Option (MemFault × Nat) => acc.1.1.era = s.era)
    (fun acc p ih => by grind only [State.writeCells_era, State.noteXl_era]) _ rfl

theorem State.era_of_writeVa {s s' : State} {q : Req} {engine c : Bool} {va : Nat} {bytes : List Byte} {r : Option (MemFault × Nat)}
    (h : s.writeVa q engine va bytes = ((s', c), r)) : s'.era = s.era := by
  simpa only [h] using s.writeVa_era q engine va bytes

theorem State.noteDev_era (s : State) (owner gpa n : Nat) : (s.noteDev owner gpa n).era = s.era := by
  grind +splitImp only [State.noteDev, State.noteGpa_era, foldl_era]

theorem State.devWrite_era (s : State) (owner gpa : Nat) (bytes : List Byte) {s'} (h : s.devWrite owner gpa bytes = some s') : s'.era = s.era :=
  foldl_holds (P := fun acc : Option State => ∀ s', acc = some s' → s'.era = s.era)
    (fun acc p ih => by grind only [State.noteWalk2_era, State.putSector_era, State.era]) _ (by grind only) s' h

theorem State.devWrite_getD_era (s : State) (owner gpa : Nat) (bytes : List Byte) : ((s.devWrite owner gpa bytes).getD s).era = s.era := by
  cases h : s.devWrite owner gpa bytes with
  | none => rfl
  | some s' => exact devWrite_era _ _ _ _ h

theorem State.postRing_era (s : State) (owner ring : Nat) (rec : List Byte) : (s.postRing owner ring rec).era = s.era := by
  have counted (s : State) (f : Counters → Counters) : (s.count owner f).era = s.era := s.count_era ..
  have noted (n : Nat) : (s.noteDev owner (fld ring 40 12 * 4096) n).era = s.era := s.noteDev_era ..
  unfold State.postRing
  dsimp only
  split
  · exact counted ..
  split
  · exact (counted ..).trans (noted _)
  split
  · exact (counted ..).trans (noted _)
  split
  · exact (counted ..).trans (noted _)
  next s1 h1 =>
  refine Eq.trans ?_ ((devWrite_era _ _ _ _ h1).trans (noted _))
  cases h2 : s1.devWrite .. with
  | none => rfl
  | some s2 => exact devWrite_era _ _ _ _ h2

theorem State.postHv_era (s : State) (rec : List Byte) : (s.postHv rec).era = s.era := by
  grind only [State.postHv, State.postRing_era]

theorem State.msix_era (s : State) (o v : Nat) : (s.msix o v).era = s.era := by
  unfold State.msix
  split <;> rfl

theorem State.updCmdLink_era (s : State) (quad : Nat) (f : CmdLink → CmdLink) : (s.updCmdLink quad f).era = s.era := rfl

theorem State.armatureMessage_era (s : State) (core : Nat) (data : List Byte) : (s.armatureMessage core data).era = s.era := by
  unfold State.armatureMessage
  split <;> rfl

theorem State.tellQuads_era (s : State) (quads : List Nat) (data : Nat → List Byte) : (s.tellQuads quads data).era = s.era := by
  grind +splitImp only [State.tellQuads, State.updCmdLink_era, foldl_era]

theorem State.postDeferred_era (s : State) (e : LogEntry) : (s.postDeferred e).era = s.era := by
  grind only [State.postDeferred, State.postHv_era, State.postRing_era, State.msix_era, State.armatureMessage_era]

theorem State.enterLog_era (s : State) (e : LogEntry) (np : Bool) {s'} (h : (s.enterLog e np) = some s') : s'.era = s.era := by
  grind only [State.enterLog, State.postDeferred_era, State.era]

/-! ### What operations share -/

theorem State.poisonVa_era (s : State) (q : Req) (va : Nat) : (s.poisonVa q va).era = s.era := by
  grind only [State.poisonVa, State.era]

theorem State.readBack_era (s : State) (q : Req) (va n : Nat) {z s'} (h : (s.readBack q va n) = .ok (z, s')) : s'.era = s.era := by
  grind only [State.readBack, State.readVa_era, State.notePoison_era]

theorem State.updThread_era (s : State) (i k : Nat) (f : Thread → Thread) : (s.updThread i k f).era = s.era := rfl

theorem State.postsAt_era (s : State) (i k : Nat) (q : Req) (va : Nat) : (s.postsAt i k q va).era = s.era := by
  unfold State.postsAt
  split <;> rfl

theorem State.spillOne_era (s : State) (i k : Nat) {s'} (h : s.spillOne i k = .ok s') : s'.era = s.era := by
  unfold State.spillOne at h
  split at h
  · cases h; rfl
  dsimp only at h
  split at h
  · cases h
  split at h
  · cases h
  split at h
  · cases h
  next tag s1 h1 =>
  split at h
  · cases h
  next old s2 h2 =>
  split at h
  · cases h
  next s3 _ h3 =>
  split at h
  · cases h
  next s4 _ h4 =>
  cases h
  calc _ = s4.era := by
        rw [updThread_era, postsAt_era, postsAt_era]
        split
        · exact poisonVa_era ..
        · rfl
    _ = s3.era := era_of_writeVa h4
    _ = s2.era := era_of_writeVa h3
    _ = s1.era := readBack_era _ _ _ _ h2
    _ = s.era := readBack_era _ _ _ _ h1

theorem State.fillOne_era (s : State) (i k : Nat) {s'} (h : s.fillOne i k = .ok s') : s'.era = s.era := by
  unfold State.fillOne at h
  split at h
  · cases h; rfl
  dsimp only at h
  split at h
  · cases h
  split at h
  · cases h
  next tag s1 h1 =>
  split at h
  · cases h
  split at h
  · cases h
  next old s2 h2 =>
  split at h
  · cases h
  next s3 _ h3 =>
  cases h
  calc _ = s3.era := (updThread_era ..).trans (postsAt_era ..)
    _ = s2.era := era_of_writeVa h3
    _ = s1.era := readVa_era _ _ _ _ _ h2
    _ = s.era := readVa_era _ _ _ _ _ h1

theorem State.undefine_era (s : State) (i k start n : Nat) : (s.undefine i k start n).era = s.era := rfl

theorem State.makeRoom_era (i k top n : Nat) (s : State) : (s.makeRoom i k top n).1.era = s.era := by
  induction n generalizing s with
  | zero => rfl
  | succ n ih => grind only [State.makeRoom, State.spillOne_era]

theorem State.roomFor_era (s : State) (i k top : Nat) : (s.roomFor i k top).1.era = s.era := by
  grind only [State.roomFor, State.makeRoom_era]

theorem State.era_of_roomFor {s s' : State} {i k top : Nat} {r : Option Stop} (h : s.roomFor i k top = (s', r)) : s'.era = s.era := by
  simpa only [h] using s.roomFor_era i k top

theorem State.moveOne_era (s : State) (i k : Nat) {s'} (h : (s.moveOne i k) = some (.ok s')) : s'.era = s.era := by
  grind only [State.moveOne, State.fillOne_era, State.spillOne_era, State.undefine_era]

theorem State.settle_era (i k n : Nat) (s : State) : (s.settle i k n).1.era = s.era := by
  induction n generalizing s with
  | zero => rfl
  | succ n ih => grind only [State.settle, State.moveOne_era]

theorem State.undefineIn_era (s : State) (i k start n : Nat) : (s.undefineIn i k start n).era = s.era := by
  unfold State.undefineIn
  split <;> rfl

theorem State.fetchAt_era (s : State) (b : Block) (l : Level) (pc : Nat) {z s'} (h : (s.fetchAt b l pc) = .ok (z, s')) : s'.era = s.era := by
  grind only [State.fetchAt, State.readVa_era]

theorem State.stopThread_era (s : State) (i k : Nat) : (s.stopThread i k).era = s.era := by
  grind only [State.stopThread, State.updThread_era, State.armatureMessage_era]

theorem State.noteVector_era (s : State) (b : Block) (t : Thread) (l : Level) (c : Cause) : (s.noteVector b t l c).era = s.era := by
  grind only [State.noteVector, State.readVa_era, State.notePoison_era]

theorem State.handlerRoom_era (s : State) (i k top : Nat) (t : Thread) : (s.handlerRoom i k top t).1.era = s.era := by
  grind only [State.handlerRoom, State.roomFor_era, State.makeRoom_era]

theorem State.enterAt_era (i k : Nat) (orig : Cause) (n : Nat) (s : State) (e : Entry) (l : Level) : (s.enterAt i k e orig n l).era = s.era := by
  induction n generalizing s e l with
  | zero => rfl
  | succ n ih =>
    unfold State.enterAt
    dsimp only
    (repeat' split) <;> grind -ring -lia -linarith -order only [State.stopThread_era, State.noteVector_era, State.writeVa_era,
      State.era_of_writeVa, State.postsAt_era,
      State.handlerRoom_era, State.undefine_era, State.updThread_era]

theorem State.pending_era (s : State) (i k : Nat) (e : Entry) : (s.pending i k e).era = s.era := rfl

theorem State.noteUncorrectable_era (s : State) (b : Block) (l : Level) (tr : Trap) : (s.noteUncorrectable b l tr).era = s.era := by
  grind only [State.noteUncorrectable, State.count_era, State.notePoison_era]

theorem State.noteCause_era (s : State) (b : Block) (l : Level) (tr : Trap) : (s.noteCause b l tr).era = s.era := by
  grind only [State.noteCause, State.noteUncorrectable_era, State.noteWalks_era]

theorem State.takeTrapAt_era (s : State) (i k : Nat) (tr : Trap) (pc : DWord) (word : Word) : (s.takeTrapAt i k tr pc word).era = s.era := by
  grind only [State.takeTrapAt, State.noteCause_era, State.pending_era, State.enterAt_era]

theorem State.takeTrap_era (s : State) (k : Nat) (tr : Trap) : (s.takeTrap k tr).era = s.era := by
  grind only [State.takeTrap, State.takeTrapAt_era]

theorem State.lanesBy_era (s : State) (close : Thread → Thread) (f : Block → Thread → Except Trap Thread) : (s.lanesBy close f).era = s.era := by
  grind +splitImp only [State.lanesBy, State.takeTrap_era, State.updBlock_era, foldl_era]

theorem State.lanes_era (s : State) (f : Block → Thread → Except Trap Thread) : (s.lanes f).era = s.era := by
  grind only [State.lanes, State.lanesBy_era]

theorem State.alu_era (s : State) (vs ss srcs : List Nat) (f : Block → Thread → Thread) : Outcome.Keeps s (s.alu vs ss srcs f) := by
  grind only [State.alu, State.lanes_era, next_keeps]

theorem State.retireLane_era (s : State) (k : Nat) : (s.retireLane k).era = s.era := rfl

theorem State.stopLane_era (s : State) (k : Nat) (x0 : Stop) : LaneRes.Keeps s (s.stopLane k x0) := by
  unfold State.stopLane
  split <;> rfl

theorem State.closeLane_era {s : State} {k : Nat} {r : LaneRes} (h : r.Keeps s) : (s.closeLane k r).era = s.era := by
  cases r with
  | done s' => exact h
  | moved s' => exact h
  | trap s' tr => exact (s'.takeTrap_era k tr).trans h
  | wait w => rfl

theorem State.foldLanes_era {s : State} {f : State → Block → Thread → LaneRes} (h : ∀ s b t, (f s b t).Keeps s) : (s.foldLanes f).era = s.era := by
  grind +splitImp only [State.foldLanes, foldl_era, State.updBlock_era, State.retireLane_era, State.closeLane_era]

theorem State.deliver_era (s : State) (t : Thread) (d : Nat) (bytes : List Byte) (divide : Bool) : (s.deliver t d bytes divide).era = s.era := by
  unfold State.deliver
  split <;> rfl

theorem laneChecked_keeps {b : Block} {t : Thread} {vs ss srcs : List Nat} {s : State} {f : Unit → LaneRes} (h : (f ()).Keeps s) :
    (laneChecked b t vs ss srcs s f).Keeps s := by
  grind only [laneChecked, LaneRes.Keeps]

theorem State.trapAll_era (s : State) (tr : Trap) : (s.trapAll tr).era = s.era := by
  grind +splitImp only [State.trapAll, State.takeTrap_era, foldl_era]

theorem State.needLevel_keeps {s : State} {l : Level} {f : Unit → Outcome} (h : Outcome.Keeps s (f ())) : Outcome.Keeps s (s.needLevel l f) := by
  grind only [State.needLevel, next_keeps, State.trapAll_era]

/-! ### Operands -/

theorem State.bin_era (s : State) (d a b : Reg) (sb : Bool) (f : Word → Word → Word) : Outcome.Keeps s (s.bin d a b sb f) := by
  grind only [State.bin, State.alu_era, next_keeps]

/-! ### Waits -/

theorem State.barRead_era (s : State) (blk : Block) (l : Level) (x0 : BarLoc) {z s'} (h : (s.barRead blk l x0) = .ok (z, s')) : s'.era = s.era := by
  unfold State.barRead at h
  grind only [State.readVa_era]

theorem State.barRelease_era (s : State) (owner : Nat) (l : BarLoc) (o : Barrier) : (s.barRelease owner l o).era = s.era := rfl

theorem State.barWrite_era (s : State) (blk : Block) (l : Level) (o : Barrier) (loc : BarLoc) {s'} (h : (s.barWrite blk l o loc) = .ok s') :
    s'.era = s.era := by
  unfold State.barWrite at h
  grind only [State.barRelease_era, State.updBlock_era, State.writeVa_era, State.era_of_writeVa]

/-! ### Scratch memory and niches -/

theorem State.spoilDevice_era (s : State) (bi : Nat) (q : Req) (va n : Nat) : (s.spoilDevice bi q va n).era = s.era := rfl

theorem State.setSlot_era (s : State) (a : Nat) (v : Word) : (s.setSlot a v).era = s.era := by
  unfold State.setSlot
  split <;> rfl

theorem State.blurSlots_era (s : State) (q : Req) (ws : List (Nat × Nat × Nat)) : (s.blurSlots q ws).1.era = s.era := by
  grind +splitImp only [State.blurSlots, State.setSlot_era, State.era, foldl_era]

theorem State.hideSlots_era (s s0 : State) (late : List Late) : (s.hideSlots s0 late).1.era = s.era := by
  grind +splitImp only [State.hideSlots, foldl_fst_era, State.setSlot_era, State.era]

theorem State.showSlots_era (s : State) (late : List Late) : (s.showSlots late).era = s.era := by
  grind +splitImp only [State.showSlots, State.setSlot_era, State.era, foldl_era]

theorem State.cover_era (s : State) (bi k : Nat) (f : Nat → Bool) : (s.cover bi k f).era = s.era := by
  grind only [State.cover, State.updBlock_era, State.showSlots_era]

theorem State.freeBytes_era (s : State) (n : Nat) : (s.freeBytes n).2.era = s.era := rfl

theorem State.freeWhere_era (s : State) (f : Nat → Bool) (bytes : List Byte) : (s.freeWhere f bytes).2.era = s.era := by
  unfold State.freeWhere
  split <;> rfl

theorem State.localLoad_era (s : State) (t : Thread) (sp : Spot) (n : Nat) {z s'} (h : (s.localLoad t sp n) = .ok (z, s')) : s'.era = s.era := by
  unfold State.localLoad at h
  grind only [State.freeWhere_era, State.freeBytes_era]

theorem State.localStore_era (s : State) (t : Thread) (sp : Spot) (bytes : List Byte) {s'} (h : (s.localStore t sp bytes) = .ok s') :
    s'.era = s.era := by
  unfold State.localStore at h
  grind only [State.freeWhere_era, State.updBlock_era, State.noteStale_era]

/-! ### Loads, stores and atomics -/

theorem State.localLd_era (s : State) (win : Bool) (d a b : Reg) (c : Nat) : Outcome.Keeps s (s.localLd win d a b c) := by
  unfold State.localLd
  refine next_keeps (foldLanes_era fun s b t => laneChecked_keeps ?_)
  grind +splitImp only [State.localLoad_era, State.deliver_era, LaneRes.Keeps, next_keeps]

theorem State.localSt_era (s : State) (win : Bool) (d a b : Reg) (c : Nat) : Outcome.Keeps s (s.localSt win d a b c) := by
  unfold State.localSt
  refine next_keeps (foldLanes_era fun s b t => laneChecked_keeps ?_)
  grind +splitImp only [State.localStore_era, LaneRes.Keeps, next_keeps]

theorem State.localAtom_era (s : State) (win : Bool) (d a b : Reg) (q : Nat) : Outcome.Keeps s (s.localAtom win d a b q) := by
  refine next_keeps (foldLanes_era fun s b t => laneChecked_keeps ?_)
  dsimp only
  split
  · rfl
  split
  · rfl
  next h1 =>
  have e1 := localLoad_era _ _ _ _ h1
  split
  · rfl
  next h2 =>
  have e2 := (localStore_era _ _ _ _ h2).trans e1
  split
  · exact (deliver_era ..).trans e2
  · exact (updThread_era ..).trans e2

theorem State.devLoad_era (s : State) (b : Block) (t : Thread) (q : Req) (dramOnly : Bool) (view : Option Nat) (va n : Nat) {z s'}
    (h : s.devLoad b t q dramOnly view va n = .ok z s') : s'.era = s.era := by
  unfold State.devLoad at h
  split at h
  · cases h
  split at h
  · cases h
  split at h
  · cases h
  split at h
  · cases h
  dsimp only at h
  split at h
  · cases h; exact freeBytes_era ..
  split at h
  · cases h
  next s1 h1 =>
  have e1 := readVa_era _ _ _ _ _ h1
  split at h
  · cases h; exact (engineSees_era ..).trans e1
  · cases h; exact (freeWhere_era ..).trans e1

theorem State.evictLine_era (s : State) (owner gpa : Nat) : (s.evictLine owner gpa).era = s.era := by
  grind +splitImp only [State.evictLine, State.flushSector_era, foldl_era]

theorem State.cleanSector_era (s : State) (key : Nat) : (s.cleanSector key).era = s.era := by
  grind only [State.cleanSector, State.flushSector_era, State.era]

theorem State.rmwHolder_era (s : State) (q : Req) (x : Xlated) {s' y z} (h : (s.rmwHolder q x) = .ok (s', y, z)) : s'.era = s.era := by
  grind only [State.rmwHolder, State.evictLine_era]

theorem State.rmwCells_era (s : State) (q : Req) (x : Xlated) (va : Nat) (cells : List (Nat × Byte)) (keep : Bool) (stamp : Option Nat)
    {s'} (h : s.rmwCells q x va cells keep stamp = .ok s') : s'.era = s.era := by
  unfold State.rmwCells at h
  split at h
  · cases h
  next s1 x1 ctl h1 =>
  have e1 := rmwHolder_era _ _ _ h1
  split at h
  · next =>
    cases h2 : s1.writeCells q false x1 va cells keep stamp with
    | error f => rw [h2] at h; cases h
    | ok r => rw [h2] at h; cases h; exact (writeCells_era _ _ _ _ _ _ _ _ h2).trans e1
  split at h
  · cases h; exact e1
  cases h
  rw [foldl_era (fun s k => routeSector_era ..)]
  split
  · exact (noteStaleAt_era ..).trans e1
  · exact (noteStale_era ..).trans e1

theorem execLd_era (d a : Reg) (k : BitVec 5) (w : BitVec 2) (o : BitVec 6) (s : State) : Outcome.Keeps s (execLd d a k w o s) := by
  unfold execLd
  refine next_keeps (foldLanes_era fun s b t => laneChecked_keeps ?_)
  grind +splitImp only [State.deliver_era, State.devLoad_era, LaneRes.Keeps, next_keeps]

theorem State.storedBytes_era (s : State) (b : Block) (q : Req) (lanes : List StoreReq) : (s.storedBytes b q lanes).2.era = s.era := by
  grind +splitImp only [State.storedBytes, State.freeWhere_era, foldl_snd_era]

theorem State.addCell_era (s : State) (b : Block) (q : Req) (x : Xlated) (va : Nat) (lanes : List StoreReq) (sum : CellTerms) :
    (s.addCell b q x va lanes sum).2.era = s.era := by
  grind only [State.addCell, State.noteSector_era, State.freeWhere_era]

theorem State.storeLine_era (s : State) (b : Block) (q : Req) (rmw add : Bool) (lanes : List StoreReq) :
    (s.storeLine b q rmw add lanes).1.era = s.era := by
  have h1 := s.storedBytes_era b q lanes
  have closed {s0 : State} (r : Except MemFault State) (va : Nat) (h0 : s0.era = s.era) (h : ∀ s', r = .ok s' → s'.era = s.era) :
      (match r with | .ok s' => (s', LineOut.done) | .error f => (s0, .fault f va)).1.era = s.era := by
    cases r with
    | ok s' => exact h s' rfl
    | error f => exact h0
  have logged (s0 : State) (va : Nat) (e : LogEntry) (np : Bool) (h0 : s0.era = s.era) :
      (match (s0.noteWalks q va).enterLog e np with | some s' => (s', LineOut.done) | none => (s0, .wait (.load va 1 true))).1.era = s.era := by
    cases h : (s0.noteWalks q va).enterLog e np with
    | some s' => exact (enterLog_era _ _ _ h).trans ((noteWalks_era ..).trans h0)
    | none => exact h0
  have spoilt (s0 : State) (x : Xlated) (l : List StoreReq) (w : StoreReq → Nat) (h0 : s0.era = s.era) : (l.foldl (fun s l =>
      (s.spoilDevice s.cur.blk q l.2.1 (w l)).updThread s.cur.blk l.1
        (fun t => { t with posted := t.posted || x.place.inHost })) (s0.noteXl x)).era = s.era := by
    rw [foldl_era (fun s l => (updThread_era ..).trans (spoilDevice_era ..)), noteXl_era, h0]
  unfold State.storeLine
  dsimp only
  split
  · exact logged _ _ _ _ h1
  · exact logged _ _ _ _ h1
  · exact h1
  split
  · exact h1
  split
  · exact h1
  split
  · exact h1
  split
  · refine closed _ _ h1 fun s' h => ?_
    exact (rmwCells_era _ _ _ _ _ _ _ h).trans ((addCell_era ..).trans (spoilt _ _ _ _ h1))
  split
  · exact closed _ _ h1 fun s' h => (rmwCells_era _ _ _ _ _ _ _ h).trans (spoilt _ _ _ _ h1)
  · refine closed _ _ h1 fun s' h => ?_
    generalize hw : State.writeCells _ _ _ _ _ _ _ = w at h
    cases w with
    | error f => cases h
    | ok r => cases h; exact (writeCells_era _ _ _ _ _ _ _ _ hw).trans (spoilt _ _ _ _ h1)

theorem State.storeIssue_era (s : State) (q : Block → Level → Req) (rmw add : Bool) (unit : Nat) (lane : Block → Thread → StoreLane) :
    Outcome.Keeps s (s.storeIssue q rmw add unit lane) := by
  unfold State.storeIssue
  split
  · rfl
  dsimp only
  split
  · exact lanesBy_era ..
  refine (foldl_era (fun s' k => ?_) _ _).trans (foldl_fst_era (fun acc g => ?_) _ _)
  case refine_2 => exact storeLine_era ..
  split
  · exact retireLane_era ..
  · exact retireLane_era ..
  · exact takeTrap_era ..
  split
  · exact takeTrap_era ..
  · exact updThread_era ..
  · exact retireLane_era ..

theorem execRcrd_era (d a : Reg) (k : BitVec 5) (s : State) : Outcome.Keeps s (execRcrd d a k s) := by
  unfold execRcrd
  refine next_keeps (foldLanes_era fun s b t => laneChecked_keeps ?_)
  grind +splitImp only [State.deliver_era, State.devLoad_era, LaneRes.Keeps, next_keeps]

theorem State.recordAtom_era (s : State) (d a : Reg) (k : BitVec 5) (w q : Nat) : Outcome.Keeps s (s.recordAtom d a k w q) := by
  unfold State.recordAtom
  refine next_keeps (foldLanes_era fun s b t => laneChecked_keeps ?_)
  dsimp only
  (repeat' split) <;> grind +splitImp only [State.deliver_era, State.devLoad_era, State.freeWhere_era, State.spoilDevice_era, State.rmwCells_era,
    LaneRes.Keeps, next_keeps]

theorem State.prefetchLine_era (s : State) (q : Req) (va : Nat) : (s.prefetchLine q va).era = s.era := by
  grind +splitImp only [State.prefetchLine, State.noteWalks_era, State.noteXl_era, State.fetchSector_era, State.era, foldl_era]

theorem execPref_era (_l : Bool) (a : Reg) (k : BitVec 5) (s : State) : Outcome.Keeps s (execPref _l a k s) := by
  grind +splitImp only [execPref, State.foldLanes_era, laneChecked_keeps, State.prefetchLine_era, LaneRes.Keeps, next_keeps]

theorem State.writeBackLine_era (s : State) (a : Reg) (k : BitVec 5) (inv : Bool) : Outcome.Keeps s (s.writeBackLine a k inv) := by
  unfold State.writeBackLine
  refine next_keeps (foldLanes_era fun s b t => laneChecked_keeps ?_)
  grind +splitImp only [State.evictLine_era, State.noteXl_era, State.cleanSector_era, LaneRes.Keeps, next_keeps, State.era, foldl_era]

theorem State.readTaps_era (s : State) (b : Block) (t : Thread) (r k sm : Nat) (ts : List (Int × Int × Nat)) {z s'}
    (h : s.readTaps b t r k sm ts = .ok (z, s')) : s'.era = s.era := by
  induction ts generalizing s z s' with
  | nil => grind only [State.readTaps]
  | cons p ts ih =>
    obtain ⟨i, j, w⟩ := p
    unfold State.readTaps at h
    grind only [State.devLoad_era]

theorem execSample_era (d a : Reg) (k : BitVec 5) (s : State) : Outcome.Keeps s (execSample d a k s) := by
  unfold execSample
  refine next_keeps (foldLanes_era fun s b t => laneChecked_keeps ?_)
  grind +splitImp only [State.deliver_era, State.readTaps_era, LaneRes.Keeps, next_keeps]

/-! ### Engine commands at their issue -/

theorem State.countColl_era (s : State) (owner gid rank : Nat) : (s.countColl owner gid rank).1.era = s.era := rfl

theorem State.atIssue_era (s : State) (b : Block) (l : Level) (op : Nat) (pb : List Word) (writes : List (Nat × Nat × Nat)) :
    (s.atIssue b l op pb writes).1.era = s.era := by
  grind only [State.atIssue, State.blurSlots_era, State.readVa_era, State.countColl_era]

theorem State.issueCmd_era (s : State) (op : Nat) (id p q : BitVec 6) (k : BitVec 5) : Outcome.Keeps s (s.issueCmd op id p q k) := by
  grind +splitImp only [State.issueCmd, State.lanes_era, State.lanesBy_era, State.atIssue_era, State.updBlock_era, next_keeps, State.era]

/-! ### Engine work -/

theorem State.engAt_era (s : State) (q : Req) (m : EngMode) (va : Nat) : Eng.Keeps s (s.engAt q m va) := by
  grind only [State.engAt, Eng.Keeps]

theorem State.engRead_era (s : State) (q : Req) (m : EngMode) (va n : Nat) : Eng.Keeps s (s.engRead q m va n) :=
  foldl_andThen_keeps (fun p bytes s => Eng.andThen_keeps (engAt_era ..) fun x s => by
    grind only [State.readPiece_era, State.chipSees_era, State.engineSees_era, State.notePoison_era, Eng.Keeps]) _ _

theorem State.engWrite_era (s : State) (q : Req) (m : EngMode) (va : Nat) (bytes : List Byte) : Eng.Keeps s (s.engWrite q m va bytes) :=
  foldl_andThen_keeps (fun p cl s => Eng.andThen_keeps (engAt_era ..) fun x s => by
    grind only [State.writeCells_era, State.noteXl_era, State.chipWrote_era, State.traced_era, State.engineWrote_era, Eng.Keeps]) _ _

theorem State.spRead_era (s : State) (place x n : Nat) : Eng.Keeps s (s.spRead place x n) := by
  grind +splitImp only [State.spRead, State.engineSees_era, Eng.Keeps, foldl_snd_era]

theorem State.spWrite_era (s : State) (place x : Nat) (bytes : List Byte) : Eng.Keeps s (s.spWrite place x bytes) := by
  grind +splitImp only [State.spWrite, State.engineWrote_era, State.updBlock_era, Eng.Keeps]

theorem State.accRead_era (s : State) (b : Block) (t row lo n : Nat) : (s.accRead b t row lo n).2.era = s.era := by
  grind +splitImp only [State.accRead, State.engineSees_era, foldl_snd_era]

theorem State.accWrite_era (s : State) (p t row lo : Nat) (ws : List Word) : (s.accWrite p t row lo ws).era = s.era := by
  grind +splitImp only [State.accWrite, State.updBlock_era, State.engineWrote_era]

theorem State.updCmdOf_era (s : State) (uid : Nat) (f : Cmd → Cmd) : (s.updCmdOf uid f).era = s.era := rfl

theorem State.opened_era (s : State) (c : Cmd) : (s.opened c).era = s.era := rfl

theorem State.closed_era (s s0 : State) (c : Cmd) : (s.closed s0 c).era = s.era := by
  grind only [State.closed, State.hideSlots_era, State.updCmdOf_era, State.era]

theorem State.seeing_era {s : State} {c : Cmd} {f : State → State} (h : ∀ s, (f s).era = s.era) : (s.seeing c f).era = s.era := by
  grind only [State.seeing, State.opened_era, State.closed_era]

theorem State.updCmd_era (s : State) (p uid : Nat) (f : Cmd → Cmd) : (s.updCmd p uid f).era = s.era := rfl

theorem State.undefTiles_era (s : State) (p : Nat) (c : Cmd) : (s.undefTiles p c).era = s.era := by
  grind +splitImp only [State.undefTiles, State.updBlock_era, State.era, foldl_era]

theorem State.finish_era (s : State) (p : Nat) (c : Cmd) (code detail aux : Nat) : (s.finish p c code detail aux).era = s.era := by
  grind only [State.finish, State.undefTiles_era, State.updCmd_era]

theorem State.endPiece_era {α : Type} {s : State} {p : Nat} {c : Cmd} {x : Eng α} {f : α → State → State} (hx : x.Keeps s)
    (hf : ∀ a s, (f a s).era = s.era) : (s.endPiece p c x f).era = s.era := by
  cases x with
  | ok a s' => exact (hf a s').trans hx
  | fail code d aux s' => exact (State.finish_era ..).trans hx
  | wait => rfl

theorem State.advance_era (s : State) (p : Nat) (c : Cmd) (n total : Nat) (clob : Option Nat) (detail : Nat) :
    (s.advance p c n total clob detail).era = s.era := by
  unfold State.advance
  grind only [State.updCmd_era, State.finish_era]

theorem State.clearAcc_era (s : State) (core : Nat) : (s.clearAcc core).era = s.era := rfl

theorem State.settleByte_era (s : State) (p : Nat) (q : Req) (c : Cmd) (space x : Nat) : (s.settleByte p q c space x).era = s.era := by
  grind only [State.settleByte, State.freeBytes_era, State.writeVa_era, State.era_of_writeVa, State.updBlock_era]

theorem State.settleSpoilt_era (s : State) (p : Nat) (c : Cmd) : (s.settleSpoilt p c).era = s.era := by
  grind +splitImp only [State.settleSpoilt, State.updBlock_era, State.settleByte_era, State.era, foldl_era]

theorem State.retireCmd_era (s : State) (p : Nat) (c : Cmd) : (s.retireCmd p c).era = s.era := by
  unfold State.retireCmd
  split
  · extract_lets w soff write clob code c1 s1 c2 s2 s3 s4 s5 s6 s7
    have h1 : s1.era = s.era := ite_era (undefTiles_era ..) rfl
    have h2 : s2.era = s.era := ite_era ((count_era ..).trans h1) h1
    have h3 : s3.era = s.era := ite_era ((updBlock_era ..).trans ((engineWrote_era ..).trans h2)) h2
    have h4 : s4.era = s.era := (settleSpoilt_era ..).trans h3
    have h5 : s5.era = s.era := by
      unfold s5
      split
      · exact (clearAcc_era ..).trans h4
      · exact h4
    have h6 : s6.era = s.era := ite_era ((engineWrote_era ..).trans h5) h5
    exact (updBlock_era ..).trans ((updBlock_era ..).trans h6)
  · rfl

/-! ### The matrix engine -/

theorem State.areaRead_era (s : State) (q : Req) (a : Area) (o n : Nat) : Eng.Keeps s (s.areaRead q a o n) := by
  unfold State.areaRead
  grind only [State.engRead_era, State.spRead_era, Eng.Keeps]

theorem State.areaWrite_era (s : State) (q : Req) (a : Area) (o : Nat) (bytes : List Byte) : Eng.Keeps s (s.areaWrite q a o bytes) := by
  unfold State.areaWrite
  grind only [State.engWrite_era, State.spWrite_era, Eng.Keeps]

theorem State.startChecked_era {s : State} {p : Nat} {c : Cmd} {params : Bool} {fault : Option (Nat × Nat)} {go : State → State}
    (h : ∀ s, (go s).era = s.era) : (s.startChecked p c params fault go).era = s.era := by
  unfold State.startChecked
  split
  · exact State.finish_era ..
  split
  · exact State.finish_era ..
  · exact h s

theorem State.startTry_era {s s' : State} {p : Nat} {c : Cmd} {params : Bool} {fault : Option (Nat × Nat)} {go : State → Option State}
    (h : ∀ s s', go s = some s' → s'.era = s.era) (hs : s.startTry p c params fault go = some s') : s'.era = s.era := by
  unfold State.startTry at hs
  split at hs
  · exact Option.some.inj hs ▸ State.finish_era ..
  split at hs
  · exact Option.some.inj hs ▸ State.finish_era ..
  · exact h s s' hs

theorem State.endStart_era {α : Type} {s s0 s' : State} {p : Nat} {c : Cmd} {x : Eng α} {f : α → State → Option State} (hx : x.Keeps s)
    (hf : ∀ a s s', f a s = some s' → s'.era = s.era) (hs : s0.endStart p c x f = some s') : s'.era = s.era := by
  cases x with
  | ok a s1 => exact (hf a s1 s' hs).trans hx
  | fail code d aux s1 => exact (Option.some.inj hs ▸ State.finish_era ..).trans hx
  | wait => exact nomatch hs

theorem State.startBload_era (s : State) (p : Nat) (b : Block) (c : Cmd) : (s.startBload p b c).era = s.era := by
  grind +splitImp only [State.startBload, State.updBlock_era, State.startChecked_era]

theorem State.moveBload_era (s : State) (p : Nat) (b : Block) (c : Cmd) : (s.moveBload p b c).era = s.era := by
  grind only [State.moveBload, State.areaRead_era, State.finish_era, State.updBlock_era, State.advance_era, Eng.Keeps]

theorem State.startMma_era (s : State) (p : Nat) (b : Block) (c : Cmd) : (s.startMma p b c).era = s.era := by
  grind +splitImp only [State.startMma, State.startChecked_era, State.updBlock_era]

theorem State.stageB_era (s : State) (p : Nat) (b : Block) (c : Cmd) : Eng.Keeps s (s.stageB p b c) :=
  foldl_andThen_keeps (fun i l s => Eng.andThen_keeps (areaRead_era ..) fun vals s => Eng.andThen_keeps (areaRead_era ..) fun scales s =>
    Eng.andThen_keeps (areaRead_era ..) fun masks s => by grind only [State.updBlock_era, Eng.Keeps]) _ _

theorem State.mmaRowInto_era (s : State) (p : Nat) (m : MmaParams) (slots : List BSlot) (i : Nat) (av asb : List Byte) :
    (s.mmaRowInto p m slots i av asb).era = s.era := by
  grind +splitImp only [State.mmaRowInto, State.accRead_era, State.accWrite_era, foldl_era]

theorem State.moveMma_era (s : State) (p : Nat) (b : Block) (c : Cmd) : (s.moveMma p b c).era = s.era := by
  have dropped {s' : State} (g : Block → Block) (h : s'.era = s.era) : (if (mmaParams c.pb).bstr then s'.updBlock p g else s').era = s.era := by
    split
    · exact (updBlock_era ..).trans h
    · exact h
  have staged {c1 c2 : Prop} [Decidable c1] [Decidable c2] (l : List BSlot) :
      Eng.Keeps s (if c1 then s.stageB p b c else if c2 then .ok l s else .fail 9 0 0 s) := by
    split
    · exact stageB_era ..
    · split <;> rfl
  have read (s : State) (ar : Area) (o n o' n' : Nat) : Eng.Keeps s ((s.areaRead (c.req b false) ar o n).andThen (fun av s =>
      (s.areaRead (c.req b false) ar o' n').andThen (fun asb s => Eng.ok (av, asb) s))) :=
    Eng.andThen_keeps (areaRead_era ..) fun _ _ => Eng.andThen_keeps (areaRead_era ..) fun _ _ => rfl
  unfold State.moveMma
  dsimp only
  generalize (if (mmaParams c.pb).n1024 then _ else _ : List Nat) = tiles
  split
  · exact dropped _ ((finish_era ..).trans (updBlock_era ..))
  split
  · rfl
  · next code d aux s' h1 =>
    have e1 : Eng.Keeps s (.fail code d aux s') := h1 ▸ staged _
    exact dropped _ ((finish_era ..).trans e1)
  · next slots s' h1 =>
    have e1 : Eng.Keeps s (.ok slots s') := h1 ▸ staged _
    split
    · rfl
    · next code d aux s2 h2 =>
      have e2 : Eng.Keeps s' (.fail code d aux s2) := h2 ▸ read ..
      exact dropped _ ((finish_era ..).trans (e2.trans e1))
    · next av asb s2 h2 =>
      have e2 : Eng.Keeps s' (.ok (av, asb) s2) := h2 ▸ read ..
      split
      · exact dropped _ ((finish_era ..).trans (e2.trans e1))
      have e3 (f g) := (advance_era (s2.mmaRowInto p (mmaParams c.pb) slots c.cursor av asb) p c 1 (mmaParams c.pb).rows f g).trans
        ((mmaRowInto_era ..).trans (e2.trans e1))
      split
      · exact e3 ..
      · exact dropped _ (e3 ..)

theorem State.startTzero_era (s : State) (p : Nat) (b : Block) (c : Cmd) : (s.startTzero p b c).era = s.era :=
  startChecked_era fun _ => rfl

theorem State.moveTzero_era (s : State) (p : Nat) (b : Block) (c : Cmd) : (s.moveTzero p b c).era = s.era := by
  grind +splitImp only [State.moveTzero, State.endPiece_era, State.spWrite_era, State.advance_era, State.accWrite_era, Eng.Keeps]

theorem State.startTfill_era (s : State) (p : Nat) (b : Block) (c : Cmd) : (s.startTfill p b c).era = s.era := by
  unfold State.startTfill
  dsimp only
  split <;> exact startChecked_era fun _ => rfl

theorem State.moveDeclare_era (s : State) (p : Nat) (c : Cmd) : (s.moveDeclare p c).era = s.era := rfl

theorem State.moveFill_era (s : State) (p : Nat) (b : Block) (c : Cmd) : (s.moveFill p b c).era = s.era := by
  grind +splitImp only [State.moveFill, State.endPiece_era, Eng.andThen_keeps, State.areaRead_era, State.spWrite_era, State.advance_era,
    State.accWrite_era, Eng.Keeps]

theorem State.moveRelease_era (s : State) (p : Nat) (b : Block) (c : Cmd) : (s.moveRelease p b c).era = s.era := rfl

theorem State.startTdrain_era (s : State) (p : Nat) (b : Block) (c : Cmd) : (s.startTdrain p b c).era = s.era :=
  startChecked_era fun _ => rfl

theorem State.moveTdrain_era (s : State) (p : Nat) (b : Block) (c : Cmd) : (s.moveTdrain p b c).era = s.era := by
  grind +splitImp only [State.moveTdrain, State.endPiece_era, Eng.andThen_keeps, State.spRead_era, State.areaWrite_era, State.advance_era,
    State.finish_era, State.accRead_era, Eng.Keeps]

/-! ### The copy engine -/

theorem State.noteProgress_era (s : State) (uid : Nat) : (s.noteProgress uid).era = s.era := rfl

theorem State.finishOf_era (s : State) (uid code detail aux : Nat) : (s.finishOf uid code detail aux).era = s.era := rfl

theorem State.spaceRead_era (s : State) (p : Nat) (b : Block) (c : Cmd) (space k o n : Nat) : Eng.Keeps s (s.spaceRead p b c space k o n) := by
  unfold State.spaceRead
  split
  · exact engRead_era ..
  · exact spRead_era ..
  · refine foldl_andThen_keeps (fun i bytes s => ?_) _ _
    split
    · rfl
    · exact Eng.andThen_keeps (spRead_era ..) fun _ _ => rfl

theorem State.spaceWrite_era (s : State) (p : Nat) (b : Block) (c : Cmd) (space k o : Nat) (bytes : List Byte) :
    Eng.Keeps s (s.spaceWrite p b c space k o bytes) := by
  unfold State.spaceWrite
  split
  · exact engWrite_era ..
  · exact spWrite_era ..
  · refine foldl_andThen_keeps (fun i cl s => ?_) _ _
    split
    · rfl
    · exact Eng.andThen_keeps (spWrite_era ..) fun _ _ => rfl

theorem State.startCopy_era (s : State) (p : Nat) (b : Block) (c : Cmd) : (s.startCopy p b c).era = s.era :=
  startChecked_era fun _ => rfl

theorem State.moveCopy_era (s : State) (p : Nat) (b : Block) (c : Cmd) : (s.moveCopy p b c).era = s.era :=
  endPiece_era (Eng.andThen_keeps (spaceRead_era ..) fun _ _ => (spaceWrite_era ..).congr rfl) fun _ _ => advance_era ..

theorem State.startScatter_era (s : State) (p : Nat) (b : Block) (c : Cmd) : (s.startScatter p b c).era = s.era :=
  startChecked_era fun _ => rfl

theorem State.moveScatter_era (s : State) (p : Nat) (b : Block) (c : Cmd) : (s.moveScatter p b c).era = s.era := by
  grind +splitImp only [State.moveScatter, State.endPiece_era, Eng.andThen_keeps, State.spRead_era, State.spaceRead_era, State.spaceWrite_era,
    State.advance_era, Eng.Keeps]

theorem State.writeEntry_era (s : State) (owner gpa size h e : Nat) : (s.writeEntry owner gpa size h e).era = s.era := by
  grind only [State.writeEntry, State.putDramSector_era, State.era]

theorem State.startRestripe_era (s : State) (p : Nat) (b : Block) (c : Cmd) : (s.startRestripe p b c).era = s.era := by
  unfold State.startRestripe
  dsimp only
  generalize (!_ : Bool) = bad
  (repeat' split) <;> grind only [State.finish_era, State.noteWalks_era, State.writeEntry_era, State.era]

theorem State.moveLine_era (s : State) (m : Moving) : (s.moveLine m).era = s.era := by
  grind +splitImp only [State.moveLine, State.flushSector_era, State.putDramSector_era, State.correctRead_era, State.moved_era, foldl_era]

theorem State.moveRestripe_era (s : State) (c : Cmd) : (s.moveRestripe c).era = s.era := by
  grind only [State.moveRestripe, State.noteProgress_era, State.moveLine_era, State.writeEntry_era, State.finishOf_era, State.era]

theorem execRestripeLineMove_era (b i : Nat) (s : State) : Outcome.Keeps s (execRestripeLineMove b i s) := by
  grind only [execRestripeLineMove, State.moveRestripe_era, next_keeps]

/-! ### Queues -/

theorem State.postEvent_era (s : State) (o ty reason q arg detail : Nat) : (s.postEvent o ty reason q arg detail).era = s.era := by
  grind only [State.postEvent, State.postRing_era, State.msix_era]

theorem State.postHvEvent_era (s : State) (ty arg detail : Nat) : (s.postHvEvent ty arg detail).era = s.era := by
  grind only [State.postHvEvent, State.postHv_era]

theorem State.putQueue_era (s : State) (x : Queue) : (s.putQueue x).era = s.era :=
  (devWrite_getD_era ..).trans (updSlice_era ..)

theorem State.dropQueues_era (s : State) : s.dropQueues.era = s.era := rfl

theorem State.holdQueues_era (s : State) : s.holdQueues.era = s.era := by
  refine foldl_era (fun s o => ?_) _ s
  split
  · rfl
  refine foldl_era (fun s q => ?_) _ s
  split
  · split <;> rfl
  · rfl

theorem State.enqueue_era (s : State) (o q d : Nat) (rec : List Byte) {s'} (h : s.enqueue o q d rec = some s') : s'.era = s.era := by
  unfold State.enqueue at h
  dsimp only at h
  split at h
  · cases h
  obtain ⟨s1, h1, rfl⟩ := Option.map_eq_some_iff.mp h
  exact (putQueue_era ..).trans (devWrite_era _ _ _ _ h1)

theorem execLaunch_era (d a b : Reg) (s : State) : Outcome.Keeps s (execLaunch d a b s) := by
  refine next_keeps (foldLanes_era fun s b t => laneChecked_keeps ?_)
  have put {s0 : State} (x : Nat) (h : s0.era = s.era) :
      (LaneRes.done (s0.updThread s.cur.blk t.tid (fun u => u.put d.toNat (BitVec.ofNat 32 x)))).Keeps s := (updThread_era ..).trans h
  dsimp only
  split
  · exact put _ rfl
  split
  · exact put _ rfl
  split
  · exact put _ rfl
  split
  · exact put _ rfl
  split
  · trivial
  · exact put _ rfl
  next h1 =>
  have e1 := devLoad_era _ _ _ _ _ _ _ _ h1
  split
  · trivial
  · exact put 1 e1
  · next h2 => exact put 0 ((noteStale_era ..).trans ((enqueue_era _ _ _ _ _ h2).trans e1))

theorem execQwaitDone_era (d : BitVec 6) (a b : Reg) (s : State) : Outcome.Keeps s (execQwaitDone d a b s) := by
  grind +splitImp only [execQwaitDone, State.foldLanes_era, laneChecked_keeps, State.updThread_era, LaneRes.Keeps, next_keeps]

theorem execQwaitTake_era (d : BitVec 6) (a b : Reg) (s : State) : Outcome.Keeps s (execQwaitTake d a b s) := by
  unfold execQwaitTake
  refine next_keeps (foldLanes_era fun s b t => laneChecked_keeps ?_)
  grind +splitImp only [State.noteDev_era, State.freeBytes_era, State.localStore_era, State.updThread_era, State.putQueue_era, LaneRes.Keeps,
    next_keeps]

theorem State.refuseNotify_era (s : State) (o q : Nat) (v : Word) : (s.refuseNotify o q v).era = s.era := by
  grind only [State.refuseNotify, State.postEvent_era, State.count_era]

theorem execNotifyWrite_era (port vf q : Nat) (v : Word) (s : State) : Outcome.Keeps s (execNotifyWrite port vf q v s) := by
  grind only [execNotifyWrite, State.count_era, State.refuseNotify_era, State.putQueue_era, State.devWrite_era, State.devWrite_getD_era, next_keeps]

/-! ### Niches and task control blocks -/

theorem State.updNiche_era (s : State) (launch node : Nat) (f : Niche → Niche) : (s.updNiche launch node f).era = s.era := rfl

theorem State.openNiche_era (s : State) (b : Block) (c : Cmd) (m : EngMode) (node : Nat) : Eng.Keeps s (s.openNiche b c m node) := by
  grind +splitImp only [State.openNiche, Eng.andThen_keeps, State.engRead_era, Eng.Keeps, State.era]

theorem State.launchBatch_era (s : State) (launch node k : Nat) : (s.launchBatch launch node k).era = s.era := by
  grind only [State.launchBatch, State.updNiche_era, State.updSlice_era, State.era]

theorem State.nichePut_era (s : State) (q : Req) (m : EngMode) (n : Niche) (rec : List Byte) : Eng.Keeps s (s.nichePut q m n rec) := by
  grind +splitImp only [State.nichePut, Eng.andThen_keeps, State.engWrite_era, State.updNiche_era, State.launchBatch_era, Eng.Keeps]

theorem State.releaseBatch_era (s : State) (r : BatchRef) : (s.releaseBatch r).era = s.era := rfl

theorem execNicheTimerExpiry_era (launch node : Nat) (s : State) : Outcome.Keeps s (execNicheTimerExpiry launch node s) := by
  grind only [execNicheTimerExpiry, State.launchBatch_era, next_keeps]

theorem execNichewait_era (a : Reg) (s : State) : Outcome.Keeps s (execNichewait a s) := by
  refine next_keeps (foldLanes_era fun s b t => laneChecked_keeps ?_)
  dsimp only
  split
  · rfl
  split
  · trivial
  · rfl
  next h1 =>
  have e1 := devLoad_era _ _ _ _ _ _ _ _ h1
  split
  · exact e1
  split
  · trivial
  · exact e1
  next h2 =>
  have e2 := (devLoad_era _ _ _ _ _ _ _ _ h2).trans e1
  split
  · exact e2
  split
  · exact e2
  · trivial

theorem State.startEmit_era (s : State) (p : Nat) (b : Block) (c : Cmd) {s'} (h : (s.startEmit p b c) = some s') : s'.era = s.era := by
  grind +splitImp only [State.startEmit, State.startTry_era, State.endStart_era, State.openNiche_era, Eng.Keeps]

theorem State.moveEmit_era (s : State) (p : Nat) (b : Block) (c : Cmd) : (s.moveEmit p b c).era = s.era := by
  grind +splitImp only [State.moveEmit, State.endPiece_era, Eng.andThen_keeps, State.openNiche_era, State.spRead_era, State.nichePut_era,
    State.advance_era, Eng.Keeps]

theorem State.ndoneRel_era (s : State) (b : Block) : (s.ndoneRel b).era = s.era := by
  unfold State.ndoneRel
  split <;> rfl

theorem State.startNdone_era (s : State) (p : Nat) (b : Block) (c : Cmd) {s'} (h : (s.startNdone p b c) = some s') : s'.era = s.era := by
  grind +splitImp only [State.startNdone, State.ndoneRel_era, State.startTry_era, State.endStart_era, State.openNiche_era, State.finish_era,
    State.launchBatch_era, Eng.Keeps]

theorem State.tcbRead_era (s : State) (o : Nat) (l : Level) (a : Nat) : Eng.Keeps s (s.tcbRead o l a) := by
  unfold State.tcbRead
  split
  · rfl
  · exact Eng.andThen_keeps ((engRead_era ..).congr rfl) fun _ _ => rfl

theorem State.tcbPut_era (s : State) (o : Nat) (l : Level) (a off : Nat) (bytes : List Byte) : (s.tcbPut o l a off bytes).era = s.era := by
  grind only [State.tcbPut, State.engWrite_era, Eng.Keeps]

theorem State.tcbWord_era (s : State) (o : Nat) (l : Level) (a x pred state err : Nat) : (s.tcbWord o l a x pred state err).era = s.era := by
  grind only [State.tcbWord, State.tcbPut_era]

theorem State.tcbLater_era (s : State) (r : TcbRetry) : (s.tcbLater r).era = s.era := rfl

theorem State.tcbSubmit_era (s : State) (o : Nat) (l : Level) (a x : Nat) : (s.tcbSubmit o l a x).era = s.era := by
  unfold State.tcbSubmit
  dsimp only
  split
  · exact tcbWord_era ..
  split
  · exact tcbWord_era ..
  split
  · exact tcbWord_era ..
  split
  · exact tcbLater_era ..
  · exact tcbWord_era ..
  split
  · exact tcbWord_era ..
  split
  · next h => exact (enqueue_era _ _ _ _ _ h :)
  · exact tcbLater_era ..

theorem State.tcbArm_era (s : State) (o : Nat) (l : Level) (a : Nat) : Eng.Keeps s (s.tcbArm o l a) := by
  grind +splitImp only [State.tcbArm, Eng.andThen_keeps, State.tcbRead_era, State.tcbWord_era, State.tcbSubmit_era, Eng.Keeps]

theorem State.tcbDecrement_era (s : State) (o : Nat) (l : Level) (a : Nat) {s'} (h : (s.tcbDecrement o l a) = some s') : s'.era = s.era := by
  grind only [State.tcbDecrement, State.tcbRead_era, State.tcbWord_era, State.tcbSubmit_era, Eng.Keeps]

theorem State.tcbSuccs_era (s : State) (o : Nat) (l : Level) (a succs k i : Nat) : (s.tcbSuccs o l a succs k i).era = s.era := by
  induction k generalizing s i with
  | zero => rfl
  | succ k ih =>
    unfold State.tcbSuccs
    dsimp only
    (repeat' split) <;> grind only [State.tcbLater_era, State.tcbDecrement_era]

theorem State.tcbRetire_era (s : State) (o : Nat) (l : Level) (a now : Nat) {s'} (h : (s.tcbRetire o l a now) = some s') : s'.era = s.era := by
  grind only [State.tcbRetire, State.tcbRead_era, State.tcbWord_era, State.tcbPut_era, State.tcbSuccs_era, Eng.Keeps, State.era]

theorem State.tcbRetireNow_era (s : State) (o : Nat) (l : Level) (a : Nat) : (s.tcbRetireNow o l a).era = s.era := by
  unfold State.tcbRetireNow
  cases h : s.tcbRetire o l a s.devTime with
  | none => exact tcbLater_era ..
  | some s' => exact tcbRetire_era _ _ _ _ _ h

theorem State.startTcbarm_era (s : State) (p : Nat) (b : Block) (c : Cmd) {s'} (h : (s.startTcbarm p b c) = some s') : s'.era = s.era := by
  grind +splitImp only [State.startTcbarm, State.startTry_era, State.endStart_era, State.tcbArm_era, State.finish_era, Eng.Keeps]

theorem State.startTcbret_era (s : State) (p : Nat) (b : Block) (c : Cmd) {s'} (h : s.startTcbret p b c = some s') : s'.era = s.era := by
  unfold State.startTcbret at h
  refine startTry_era (fun s s' h => endStart_era (tcbRead_era ..) (fun x s s' h => ?_) h) h
  split at h
  · cases h; exact finish_era ..
  obtain ⟨s1, h1, rfl⟩ := Option.map_eq_some_iff.mp h
  exact (finish_era ..).trans (tcbRetire_era _ _ _ _ _ h1)

theorem State.tcbRetry_era (s : State) (r : TcbRetry) : (s.tcbRetry r).era = s.era := by
  unfold State.tcbRetry
  dsimp only
  split
  · cases h : State.tcbRetire _ _ _ _ _ with
    | none => exact tcbLater_era ..
    | some s' => exact (tcbRetire_era _ _ _ _ _ h :)
  split
  · next h =>
    have e := Eng.Keeps.of_ok (tcbRead_era ..) h
    split
    · exact (tcbSuccs_era ..).trans e
    split
    · exact (tcbSubmit_era ..).trans e
    · exact e
  · exact tcbLater_era ..
  · rfl

theorem execTcbSubmitRetry_era (owner addr : Nat) (s : State) : Outcome.Keeps s (execTcbSubmitRetry owner addr s) := by
  grind only [execTcbSubmitRetry, State.tcbRetry_era, next_keeps]

theorem State.completeLaunch_era (s : State) (l : Launch) : (s.completeLaunch l).era = s.era := by
  grind only [State.completeLaunch, State.msix_era, State.putQueue_era, State.releaseBatch_era, State.tcbRetireNow_era, State.postEvent_era,
    State.era]

theorem execLaunchCompletion_era (uid : Nat) (s : State) : Outcome.Keeps s (execLaunchCompletion uid s) := by
  grind only [execLaunchCompletion, State.completeLaunch_era, next_keeps]

/-! ### The traversal engine -/

theorem State.readElem_era (s : State) (q : Req) (d : Nat) (isRay : Bool) (r : Nat) : Eng.Keeps s (s.readElem q d isRay r) := by
  grind +splitImp only [State.readElem, Eng.andThen_keeps, State.engRead_era, Eng.Keeps]

theorem State.splitKids_era (s : State) (q : Req) (d : Nat) (z w : Elem) (zr : Nat) (wLeaf : Bool) (mk : Nat → Nat × Nat) :
    Eng.Keeps s (s.splitKids q d z w zr wLeaf mk) := by
  refine foldl_andThen_keeps (fun k l s => ?_) _ _
  grind +splitImp only [Eng.andThen_keeps, State.readElem_era, Eng.Keeps]

theorem State.takePair_era (s : State) (q : Req) (t : Trav) (x y : Nat) : Eng.Keeps s (s.takePair q t x y) := by
  grind +splitImp only [State.takePair, Eng.andThen_keeps, State.readElem_era, State.splitKids_era, Eng.Keeps]

theorem State.setTrav_era (s : State) (p : Nat) (c : Cmd) (t : Trav) : (s.setTrav p c t).era = s.era := rfl

theorem State.endTrav_era (s : State) (p : Nat) (b : Block) (c : Cmd) (t : Trav) (code detail aux : Nat) :
    (s.endTrav p b c t code detail aux).era = s.era := by
  grind +splitImp only [State.endTrav, State.engWrite_era, State.finish_era, State.freeBytes_era, Eng.Keeps, foldl_era]

theorem State.stopTrav_era (s : State) (p : Nat) (c : Cmd) (t : Trav) (code detail aux : Nat) :
    (s.stopTrav p c t code detail aux).era = s.era := rfl

theorem State.placeRecord_era (s : State) (p : Nat) (b : Block) (c : Cmd) (t : Trav) (r : Nat) : (s.placeRecord p b c t r).era = s.era := by
  unfold State.placeRecord
  split
  · exact stopTrav_era ..
  next n hn =>
  have put : Eng.Keeps s (if t.ovrCnt = 0 ∧ !n.full then s.nichePut (c.req b true) 2 n (toBytes 16 r)
      else if t.ovrHead + t.ovrCnt < bufCount c.ovr then
        (s.engWrite (c.req b true) 2 (bufBase c.ovr + 16 * (t.ovrHead + t.ovrCnt)) (toBytes 16 r)).andThen (fun _ s => .ok () s)
      else .fail 11 0 0 s) := by
    split
    · exact nichePut_era ..
    split
    · exact Eng.andThen_keeps (engWrite_era ..) fun _ _ => rfl
    · rfl
  dsimp only
  split
  · next h => exact (setTrav_era ..).trans (put.of_ok h)
  · next h => exact (stopTrav_era ..).trans (put.of_fail h)
  · split
    · rfl
    · exact setTrav_era ..

theorem State.drainOne_era (s : State) (p : Nat) (b : Block) (c : Cmd) (t : Trav) : (s.drainOne p b c t).era = s.era := by
  unfold State.drainOne
  split
  · rfl
  next n _ =>
  have put : Eng.Keeps s ((s.engRead (c.req b false) 2 (bufBase c.ovr + 16 * t.ovrHead) 16).andThen
      (fun r s => s.nichePut (c.req b true) 2 n r)) := Eng.andThen_keeps (engRead_era ..) fun _ _ => nichePut_era ..
  split
  · rfl
  split
  · rfl
  · next h => exact (setTrav_era ..).trans (put.of_ok h)
  · next h => exact (finish_era ..).trans (put.of_fail h)
  · next h => exact (endTrav_era ..).trans (put.of_fail h)

theorem execOverflowDrain_era (b i : Nat) (s : State) : Outcome.Keeps s (execOverflowDrain b i s) := by
  grind +splitImp only [execOverflowDrain, State.seeing_era, State.drainOne_era, next_keeps]

theorem State.readDescs_era (s : State) (b : Block) (c : Cmd) : Eng.Keeps s (s.readDescs b c) := by
  grind +splitImp only [State.readDescs, Eng.andThen_keeps, State.engRead_era, Eng.Keeps]

theorem Eng.emitted_keeps {α : Type} {s : State} {x : Eng α} {n : Nat} (h : x.Keeps s) : (x.emitted n).Keeps s := by
  cases x with
  | ok a s' => exact h
  | fail c d a s' => exact h
  | wait => trivial

theorem State.readToken_era (s : State) (b : Block) (c : Cmd) : Eng.Keeps s (s.readToken b c) := by
  grind +splitImp only [State.readToken, Eng.andThen_keeps, State.engRead_era, Eng.emitted_keeps, Eng.Keeps]

theorem State.startTrav_era (s : State) (p : Nat) (b : Block) (c : Cmd) {s'} (h : s.startTrav p b c = some s') : s'.era = s.era := by
  unfold State.startTrav at h
  split at h
  · cases h; exact finish_era ..
  refine startTry_era (fun s s' h => endStart_era (Eng.andThen_keeps ?_ fun t s => ?_) (fun t s s' h => ?_) h) h
  · split
    · exact Eng.andThen_keeps (readToken_era ..) fun _ _ => rfl
    · rfl
  · exact Eng.emitted_keeps (Eng.andThen_keeps (openNiche_era ..) fun _ _ => Eng.andThen_keeps (readDescs_era ..) fun _ _ => rfl)
  · cases h; exact setTrav_era ..

theorem State.moveTrav_era (s : State) (p : Nat) (b : Block) (c : Cmd) : (s.moveTrav p b c).era = s.era := by
  unfold State.moveTrav
  (repeat' split) <;> grind only [State.drainOne_era, State.endTrav_era, State.setTrav_era, State.placeRecord_era, State.stopTrav_era,
    State.takePair_era, Eng.Keeps]

/-! ### Links -/

theorem State.updLink_era (s : State) (k : Nat) (f : Link → Link) : (s.updLink k f).era = s.era := rfl

theorem State.sendFlit_era (s : State) (k type : Nat) (payload : List Byte) : (s.sendFlit k type payload).era = s.era := by
  unfold State.sendFlit
  split <;> rfl

theorem State.requestReplay_era (s : State) (k : Nat) : (s.requestReplay k).era = s.era := by
  grind only [State.requestReplay, State.updLink_era, State.era]

/-! ### Collectives -/

theorem State.startColl_era (s : State) (p : Nat) (b : Block) (c : Cmd) {s'} (h : (s.startColl p b c) = some s') : s'.era = s.era := by
  grind +splitImp only [State.startColl, State.startTry_era, State.endStart_era, State.engRead_era, State.finish_era, State.count_era,
    State.finishOf_era, State.countColl_era, State.updCmd_era, Eng.Keeps]

theorem State.endColl_era (s : State) (ms : List (Block × Cmd)) (code : Nat) : (s.endColl ms code).era = s.era := by
  grind +splitImp only [State.endColl, State.finishOf_era, foldl_era]

theorem State.readSource_era (s : State) (x : Block × Cmd) (n : Nat) : Eng.Keeps s (s.readSource x n) := (engRead_era ..).congr rfl

theorem State.gather_era (s : State) (ms : List (Block × Cmd)) (n : Nat) : Eng.Keeps s (s.gather ms n) := by
  refine foldl_andThen_keeps (fun x l s => ?_) _ _
  split
  · rfl
  split
  · next h => exact (readSource_era ..).of_ok h
  · next h => exact (finishOf_era ..).trans ((readSource_era ..).of_fail h)
  · trivial

theorem State.deliverColl_era (s : State) (x : Block × Cmd) (n code : Nat) (bytes : List Byte) {s'} (h : (s.deliverColl x n code bytes) = some s') :
    s'.era = s.era := by
  grind only [State.deliverColl, State.finishOf_era, State.engWrite_era, State.opened_era, State.closed_era, Eng.Keeps]

theorem State.finishColl_era (s : State) (ms : List (Block × Cmd)) (m : CollParams) (n : Nat) (got : SMap (List Byte)) (aborted : Bool) :
    (s.finishColl ms m n got aborted).era = s.era := by
  unfold State.finishColl
  dsimp only
  generalize h : List.foldl _ _ ms = r
  cases r with
  | none => rfl
  | some s' => exact (foldl_bind_era (fun s x s' h => deliverColl_era _ _ _ _ _ h) h).trans rfl

theorem State.beginSending_era (s : State) (ms : List (Block × Cmd)) (n : Nat) : (s.beginSending ms n).era = s.era := by
  grind +splitImp only [State.beginSending, State.gather_era, State.updCmdOf_era, Eng.Keeps, State.era, foldl_era]

theorem State.sendNext_era (s : State) (x : Block × Cmd) : (s.sendNext x).era = s.era := by
  grind only [State.sendNext, State.updCmdOf_era, State.updLink_era, State.sendFlit_era, State.updSlice_era]

theorem State.settleColl_era (s : State) (ms : List (Block × Cmd)) (m : CollParams) (g : CollGroup) : (s.settleColl ms m g).era = s.era := by
  grind only [State.settleColl, State.endColl_era, State.gather_era, State.finishColl_era, Eng.Keeps, State.era]

theorem State.moveColl_era (s : State) (b : Block) (c : Cmd) : (s.moveColl b c).era = s.era := by
  grind only [State.moveColl, State.endColl_era, State.gather_era, State.closed_era, State.finishColl_era, State.beginSending_era,
    State.sendNext_era, State.settleColl_era, Eng.Keeps]

theorem State.linkFails_era (s : State) (k : Nat) : (s.linkFails k).era = s.era := by
  grind only [State.linkFails, State.updLink_era, State.endColl_era]

theorem State.collEvent_era (s : State) (op b i : Nat) : (s.collEvent op b i).era = s.era := by
  grind only [State.collEvent, State.moveColl_era]

/-! ### The encoder -/

theorem State.startEnc_era (s : State) (p : Nat) (b : Block) (c : Cmd) {s'} (h : (s.startEnc p b c) = some s') : s'.era = s.era := by
  grind +splitImp only [State.startEnc, State.startTry_era, State.endStart_era, State.engRead_era, State.finish_era, Eng.Keeps]

theorem State.touchWork_era (s : State) (b : Block) (c : Cmd) (v : Session) : Eng.Keeps s (s.touchWork b c v) :=
  Eng.andThen_keeps ((engWrite_era ..).congr (freeBytes_era s v.workBytes)) fun _ _ => rfl

theorem State.encodeOne_era (s : State) (b : Block) (c : Cmd) (v : Session) : Eng.Keeps s (s.encodeOne b c v) := by
  refine Eng.andThen_keeps (engRead_era ..) fun data s => ?_
  dsimp only
  split
  · have e := engWrite_era (({ s with fresh := s.fresh + 1 } : State).freeBytes (recBytes c.stream - pbw c.pb 4)).2 (c.req b true) 0
      (bufBase c.stream + pbw c.pb 4) (({ s with fresh := s.fresh + 1 } : State).freeBytes (recBytes c.stream - pbw c.pb 4)).1
    have e' := e.congr ((freeBytes_era ..).trans rfl)
    split
    · next h => exact e'.of_ok h
    · next h => exact e'.of_fail h
    · trivial
  · exact Eng.andThen_keeps ((engWrite_era ..).congr rfl) fun _ _ => Eng.andThen_keeps (touchWork_era ..) fun _ _ => updSlice_era ..

theorem State.moveEnc_era (s : State) (b : Block) (c : Cmd) : (s.moveEnc b c).era = s.era := by
  unfold State.moveEnc
  split
  · rfl
  dsimp only
  generalize h : Eng.andThen _ _ = work
  have e : work.Keeps s := by
    rw [← h]
    refine Eng.andThen_keeps (engRead_era ..) fun bytes s => ?_
    split
    · rfl
    split
    · exact Eng.andThen_keeps (touchWork_era ..) fun _ _ => rfl
    · exact encodeOne_era ..
    · rfl
  cases work with
  | ok d s' => exact (finishOf_era ..).trans e
  | fail code d a s' => exact (finishOf_era ..).trans e
  | wait => rfl

theorem State.encEvent_era (s : State) (op b i : Nat) : (s.encEvent op b i).era = s.era := by
  grind +splitImp only [State.encEvent, State.seeing_era, State.moveEnc_era]

/-! ### Scalar instructions -/

theorem State.scalarUnit_keeps {s : State} {vs ss : List Nat} {act : State → Block → Thread → Except Trap State} {each : Block → Thread → Thread}
    (h : ∀ s b t s', act s b t = .ok s' → s'.era = s.era) : Outcome.Keeps s (s.scalarUnit vs ss act each) := by
  grind only [State.scalarUnit, next_keeps, State.lanes_era]

theorem State.setScalar_era (s : State) (t : Thread) (d : Nat) (x : Word) : (s.setScalar t d x).era = s.era := rfl

theorem State.sbin_era (s : State) (d a b : Reg) (f : Word → Word → Word) : Outcome.Keeps s (s.sbin d a b f) := by
  grind +splitImp only [State.sbin, State.scalarUnit_keeps, State.setScalar_era, next_keeps]

theorem State.sun_era (s : State) (d a : Reg) (f : Word → Word) : Outcome.Keeps s (s.sun d a f) := by
  grind +splitImp only [State.sun, State.scalarUnit_keeps, State.setScalar_era, next_keeps]

theorem execSshl_era (d a b : Reg) (s : State) : Outcome.Keeps s (execSshl d a b s) := by
  grind only [execSshl, State.sbin_era, next_keeps]

theorem execSshr_era (d a b : Reg) (s : State) : Outcome.Keeps s (execSshr d a b s) := by
  grind only [execSshr, State.sbin_era, next_keeps]

theorem execSsar_era (d a b : Reg) (s : State) : Outcome.Keeps s (execSsar d a b s) := by
  grind only [execSsar, State.sbin_era, next_keeps]

theorem execSaddi_era (d a i : Reg) (s : State) : Outcome.Keeps s (execSaddi d a i s) := by
  grind only [execSaddi, State.sun_era, next_keeps]

theorem execSshli_era (d a : Reg) (n : BitVec 5) (s : State) : Outcome.Keeps s (execSshli d a n s) := by
  grind only [execSshli, State.sun_era, next_keeps]

theorem execSshri_era (d a : Reg) (n : BitVec 5) (s : State) : Outcome.Keeps s (execSshri d a n s) := by
  grind only [execSshri, State.sun_era, next_keeps]

theorem execSsari_era (d a : Reg) (n : BitVec 5) (s : State) : Outcome.Keeps s (execSsari d a n s) := by
  grind only [execSsari, State.sun_era, next_keeps]

theorem execScmp_era (c p : BitVec 3) (a b : Reg) (s : State) : Outcome.Keeps s (execScmp c p a b s) := by
  grind +splitImp only [execScmp, State.scalarUnit_keeps, next_keeps]

theorem execV2s_era (d a : Reg) (s : State) : Outcome.Keeps s (execV2s d a s) := by
  grind +splitImp only [execV2s, State.scalarUnit_keeps, State.setScalar_era, next_keeps]

theorem execS2v_era (d a : Reg) (s : State) : Outcome.Keeps s (execS2v d a s) := by
  grind +splitImp only [execS2v, State.scalarUnit_keeps, next_keeps]

theorem execSadd64_era (d a b : Reg) (s : State) : Outcome.Keeps s (execSadd64 d a b s) := by
  grind +splitImp only [execSadd64, State.scalarUnit_keeps, State.setScalar_era, next_keeps]

theorem execSld32_era (d a b : Reg) (s : State) : Outcome.Keeps s (execSld32 d a b s) := by
  grind +splitImp only [execSld32, State.scalarUnit_keeps, State.localLoad_era, State.setScalar_era, next_keeps]

theorem execSst32_era (d a b : Reg) (s : State) : Outcome.Keeps s (execSst32 d a b s) := by
  grind +splitImp only [execSst32, State.scalarUnit_keeps, State.localStore_era, next_keeps]

/-! ### Barriers, waits and tiles -/

theorem State.barObject_era (s : State) (b : Block) (t : Thread) (win live : Bool) (addr : Nat) {s' y z} (h : (s.barObject b t win live addr) = .ok
    (y, z, s')) :
    s'.era = s.era := by
  grind only [State.barObject, State.barRead_era]

theorem State.barPut_era (s : State) (b : Block) (t : Thread) (l : BarLoc) (o : Barrier) {s'} (h : (s.barPut b t l o) = .ok s') :
    s'.era = s.era := by
  grind only [State.barPut, State.barWrite_era]

theorem State.noteReset_era (s : State) (key : Nat) : (s.noteReset key).era = s.era := rfl

theorem execBarinit_era (a b : Reg) (s : State) : Outcome.Keeps s (execBarinit a b s) := by
  grind +splitImp only [execBarinit, State.lanesBy_era, State.scalarUnit_keeps, State.barObject_era, State.noteReset_era, State.barPut_era,
    next_keeps]

theorem State.joinView_era (s : State) (k key : Nat) : (s.joinView k key).era = s.era := by
  unfold State.joinView
  split <;> rfl

theorem State.barArrive_keeps {s : State} {b : Block} {t : Thread} {win : Bool} {addr : Nat} {k : State → Nat → LaneRes}
    (h : ∀ s' n, s'.era = s.era → (k s' n).Keeps s) : (s.barArrive b t win addr k).Keeps s := by
  unfold State.barArrive
  split
  · trivial
  split
  · trivial
  split
  · rfl
  next h1 =>
  split
  · rfl
  next h2 => exact h _ _ ((updBlock_era ..).trans ((barPut_era _ _ _ _ _ h2).trans (barObject_era _ _ _ _ _ _ h1)))

theorem State.barArv_era (s : State) (win : Bool) (d a : Reg) : Outcome.Keeps s (s.barArv win d a) := by
  grind +splitImp only [State.barArv, State.foldLanes_era, laneChecked_keeps, State.barArrive_keeps, State.updThread_era, LaneRes.Keeps, next_keeps]

theorem State.barWaitOn_era (s : State) (b : Block) (t : Thread) (win : Bool) (addr : Nat) (token : Word) (freed : Bool) :
    LaneRes.Keeps s (s.barWaitOn b t win addr token freed) := by
  grind only [State.barWaitOn, State.joinView_era, State.updThread_era, State.barRead_era, LaneRes.Keeps]

theorem State.barWait_era (s : State) (win : Bool) (a b : Reg) : Outcome.Keeps s (s.barWait win a b) := by
  grind +splitImp only [State.barWait, State.foldLanes_era, laneChecked_keeps, State.barWaitOn_era, State.barObject_era, State.joinView_era,
    LaneRes.Keeps, next_keeps]

theorem State.barSync_era (s : State) (win : Bool) (a : Reg) : Outcome.Keeps s (s.barSync win a) := by
  refine next_keeps (foldLanes_era fun s b t => laneChecked_keeps ?_)
  dsimp only
  split
  · exact barWaitOn_era ..
  · split
    · exact (updThread_era ..).trans (updThread_era ..)
    · exact (barWaitOn_era ..).congr (updThread_era ..)
  · refine barArrive_keeps fun s' n h => ?_
    split
    · exact (joinView_era ..).trans h
    · exact (updThread_era ..).trans h

theorem execCinit_era (n : BitVec 4) (a : Reg) (s : State) : Outcome.Keeps s (execCinit n a s) := by
  grind +splitImp only [execCinit, State.scalarUnit_keeps, State.updBlock_era, State.noteReset_era, next_keeps]

theorem execMsign_era (d : Reg) (n : BitVec 4) (s : State) : Outcome.Keeps s (execMsign d n s) := by
  grind +splitImp only [execMsign, State.foldLanes_era, laneChecked_keeps, State.updThread_era, State.updBlock_era, LaneRes.Keeps, next_keeps]

theorem execCwait_era (n : BitVec 4) (b : Reg) (s : State) : Outcome.Keeps s (execCwait n b s) := by
  grind +splitImp only [execCwait, State.foldLanes_era, laneChecked_keeps, State.joinView_era, State.updThread_era, LaneRes.Keeps, next_keeps]

theorem State.flushHost_era (s : State) (b : Block) (t : Thread) : (s.flushHost b t).era = s.era := by
  unfold State.flushHost
  split <;> rfl

theorem State.fence_era (s : State) (x : Nat) (host : Bool) : Outcome.Keeps s (s.fence x host) := by
  grind +splitImp only [State.fence, State.flushHost_era, State.updThread_era, State.updBlock_era, State.foldLanes_era, State.noteFence_era,
    State.count_era, LaneRes.Keeps, next_keeps, foldl_era]

theorem State.coverBatches_era (s : State) (k : Nat) : (s.coverBatches k).era = s.era := by
  grind only [State.coverBatches, State.cover_era]

theorem execCommit_era (s : State) : Outcome.Keeps s (execCommit s) := by
  grind +splitImp only [execCommit, State.foldLanes_era, State.updThread_era, LaneRes.Keeps, next_keeps]

theorem execWaitb_era (n : BitVec 4) (s : State) : Outcome.Keeps s (execWaitb n s) := by
  grind +splitImp only [execWaitb, State.foldLanes_era, State.updThread_era, State.coverBatches_era, LaneRes.Keeps, next_keeps]

theorem State.coverSeq_era (s : State) (k kind n : Nat) : (s.coverSeq k kind n).era = s.era := by
  grind only [State.coverSeq, State.cover_era]

theorem State.coverTile_era (s : State) (k n : Nat) : (s.coverTile k n).era = s.era := by
  grind only [State.coverTile, State.cover_era]

theorem execWaitseq_era (a : Reg) (e : BitVec 3) (s : State) : Outcome.Keeps s (execWaitseq a e s) := by
  unfold execWaitseq
  refine next_keeps (foldLanes_era fun s b t => laneChecked_keeps ?_)
  dsimp only
  (repeat' split) <;> grind +splitImp only [State.coverSeq_era, LaneRes.Keeps, next_keeps]

theorem execTwait_era (t : BitVec 5) (s : State) : Outcome.Keeps s (execTwait t s) := by
  grind +splitImp only [execTwait, State.foldLanes_era, State.coverTile_era, LaneRes.Keeps, next_keeps]

theorem State.tmov_keeps {s : State} {t : BitVec 3} {b : Reg} {o : BitVec 6} {lim : Nat} {vs srcs : List Nat}
    {act : State → Block → Thread → Nat → Nat → LaneRes} (h : ∀ s b t j x, (act s b t j x).Keeps s) :
    Outcome.Keeps s (s.tmov t b o lim vs srcs act) := by
  refine next_keeps (foldLanes_era fun s b u => laneChecked_keeps ?_)
  split
  · rfl
  split
  · rfl
  dsimp only
  split
  · trivial
  split
  · rfl
  · exact (h ..).congr (coverTile_era ..)

theorem State.tmovOut_era (s : State) (blk : Block) (u : Thread) (t d : Nat) (cells : List (Nat × Nat)) :
    LaneRes.Keeps s (s.tmovOut blk u t d cells) := by
  unfold State.tmovOut
  split <;> rfl

theorem State.tmovIn_era (s : State) (u : Thread) (t d : Nat) (cells : List (Nat × Nat)) : LaneRes.Keeps s (s.tmovIn u t d cells) := by
  grind +splitImp only [State.tmovIn, State.updBlock_era, State.noteTile_era, LaneRes.Keeps]

theorem execTmovTr_era (d : Reg) (t : BitVec 3) (b : Reg) (o : BitVec 6) (s : State) : Outcome.Keeps s (execTmovTr d t b o s) := by
  grind +splitImp only [execTmovTr, State.tmov_keeps, State.tmovOut_era, LaneRes.Keeps, next_keeps]

theorem execTmovTc_era (d : Reg) (t : BitVec 3) (b : Reg) (o : BitVec 6) (s : State) : Outcome.Keeps s (execTmovTc d t b o s) := by
  grind +splitImp only [execTmovTc, State.tmov_keeps, State.tmovOut_era, LaneRes.Keeps, next_keeps]

theorem execTmovRt_era (d : Reg) (t : BitVec 3) (b : Reg) (o : BitVec 6) (s : State) : Outcome.Keeps s (execTmovRt d t b o s) := by
  grind +splitImp only [execTmovRt, State.tmov_keeps, State.tmovIn_era, LaneRes.Keeps, next_keeps]

theorem execTmovCt_era (d : Reg) (t : BitVec 3) (b : Reg) (o : BitVec 6) (s : State) : Outcome.Keeps s (execTmovCt d t b o s) := by
  grind +splitImp only [execTmovCt, State.tmov_keeps, State.tmovIn_era, LaneRes.Keeps, next_keeps]

/-! ### The start and the retirement of commands -/

theorem execMigration_era (b i core : Nat) (s : State) : Outcome.Keeps s (execMigration b i core s) := by
  grind only [execMigration, State.updCmd_era, next_keeps]

theorem State.reclaim_era (s : State) (f : Block → Nat → Bool) : (s.reclaim f).era = s.era := by
  grind +splitImp only [State.reclaim, State.clearAcc_era, State.era, foldl_era]

theorem State.endLease_era (s : State) (o : Nat) : (s.endLease o).era = s.era := by
  grind only [State.endLease, State.updSlice_era, State.reclaim_era]

theorem execLeaseLapse_era (o : Nat) (s : State) : Outcome.Keeps s (execLeaseLapse o s) := by
  grind only [execLeaseLapse, State.endLease_era, next_keeps]

theorem State.noteArrivals_era (s : State) : s.noteArrivals.era = s.era := rfl

theorem State.startCmd_era (s : State) (p : Nat) (b : Block) (c : Cmd) {s'} (h : (s.startCmd p b c) = some s') : s'.era = s.era := by
  grind only [State.startCmd, State.finish_era, State.updBlock_era, State.updCmd_era, State.startBload_era, State.startMma_era,
    State.startTzero_era, State.startTdrain_era, State.startTfill_era, State.startTrav_era, State.startCopy_era, State.startScatter_era,
    State.startRestripe_era, State.startColl_era, State.startEnc_era, State.startEmit_era, State.startNdone_era, State.startTcbarm_era,
    State.startTcbret_era]

theorem State.startEvent_era (s : State) (b i : Nat) (f : Cmd → Bool) : (s.startEvent b i f).era = s.era := by
  grind only [State.startEvent, State.updCmd_era, State.startCmd_era, State.opened_era, State.closed_era]

theorem State.moveTfill_era (s : State) (p : Nat) (b : Block) (c : Cmd) : (s.moveTfill p b c).era = s.era := by
  grind only [State.moveTfill, State.moveDeclare_era, State.moveFill_era, State.moveRelease_era]

theorem State.moveCmd_era (s : State) (p : Nat) (b : Block) (c : Cmd) : (s.moveCmd p b c).era = s.era := by
  grind only [State.moveCmd, State.moveBload_era, State.moveMma_era, State.moveTzero_era, State.moveTdrain_era, State.moveTfill_era,
    State.moveTrav_era, State.moveCopy_era, State.moveScatter_era, State.moveEmit_era]

theorem State.moveAny_era (s : State) (b : Block) (c : Cmd) : (s.moveAny b c).era = s.era := by
  grind only [State.moveAny, State.moveRestripe_era, State.moveEnc_era]

theorem execCommandCursorAdvance_era (b i : Nat) (s : State) : Outcome.Keeps s (execCommandCursorAdvance b i s) := by
  grind +splitImp only [execCommandCursorAdvance, State.moveColl_era, State.seeing_era, State.moveAny_era, State.moveCmd_era, next_keeps]

theorem execCommandRetire_era (b i : Nat) (s : State) : Outcome.Keeps s (execCommandRetire b i s) := by
  grind only [execCommandRetire, State.retireCmd_era, next_keeps]

theorem State.tfillEvent_era {s : State} {mode b i : Nat} {f : State → Nat → Block → Cmd → State} (h : ∀ s p b c, (f s p b c).era = s.era) :
    (s.tfillEvent mode b i f).era = s.era := by
  grind +splitImp only [State.tfillEvent, State.seeing_era]

theorem execTfillDeclare_era (b i : Nat) (s : State) : Outcome.Keeps s (execTfillDeclare b i s) := by
  grind +splitImp only [execTfillDeclare, State.tfillEvent_era, State.moveDeclare_era, next_keeps]

theorem execTfillFill_era (b i : Nat) (s : State) : Outcome.Keeps s (execTfillFill b i s) := by
  grind +splitImp only [execTfillFill, State.tfillEvent_era, State.moveFill_era, next_keeps]

theorem execTfillRelease_era (b i : Nat) (s : State) : Outcome.Keeps s (execTfillRelease b i s) := by
  grind +splitImp only [execTfillRelease, State.tfillEvent_era, State.moveRelease_era, next_keeps]

/-! ### Placing blocks -/

theorem State.standsOn_era (s : State) (b : Block) : (s.standsOn b).era = s.era := rfl

theorem State.placeBlock_era (s : State) (draw : Option Nat) (l : Launch) (num core : Nat) {s'} (h : s.placeBlock draw l num core = some s') :
    s'.era = s.era := by
  obtain ⟨x, _, rfl⟩ := Option.map_eq_some_iff.mp h
  exact (standsOn_era s (newBlock s l num core x .u) :)

theorem eachOf_era {α : Type} {s s' : State} {xs : List α} {f : State → α → Option State} (hf : ∀ s x s', f s x = some s' → s'.era = s.era)
    (h : eachOf s xs f = some s') : s'.era = s.era := foldl_bind_era hf h

theorem State.seatNbhds_era {s s' : State} {draw : Option Nat} {r : Nat} {put : State → Nat → Nat → Option State} {quads nums : List Nat}
    (hp : ∀ s n c s', put s n c = some s' → s'.era = s.era) (h : s.seatNbhds draw r put quads nums = some s') : s'.era = s.era := by
  unfold State.seatNbhds at h
  dsimp only at h
  split at h
  · refine eachOf_era (fun s n s' h => ?_) h
    obtain ⟨c, _, hc⟩ := List.exists_of_findSome?_eq_some h
    exact hp _ _ _ _ hc
  · refine eachOf_era (fun s ch s' h => ?_) h
    obtain ⟨c, _, hc⟩ := List.exists_of_findSome?_eq_some h
    obtain ⟨cs, _, hcs⟩ := Option.bind_eq_some_iff.mp hc
    refine eachOf_era (fun s n s' h => ?_) hcs
    obtain ⟨c', _, hc'⟩ := Option.bind_eq_some_iff.mp h
    exact hp _ _ _ _ hc'

theorem State.seatWithin_era {s s' : State} {l : Launch} {d : Nat} {part : Nat → Nat} {quads nums : List Nat}
    {go : State → List Nat → List Nat → Option State} (hg : ∀ s q n s', go s q n = some s' → s'.era = s.era)
    (h : s.seatWithin l d part quads nums go = some s') : s'.era = s.era := by
  unfold State.seatWithin at h
  split at h
  · exact hg _ _ _ _ h
  · refine eachOf_era (fun s ch s' h => ?_) h
    obtain ⟨p, _, hp⟩ := List.exists_of_findSome?_eq_some h
    exact hg _ _ _ _ hp

theorem State.seatAll_era {s s' : State} {draw : Option Nat} {l : Launch} {put : State → Nat → Nat → Option State} {quads nums : List Nat}
    (hp : ∀ s n c s', put s n c = some s' → s'.era = s.era) (h : s.seatAll draw l put quads nums = some s') : s'.era = s.era :=
  seatWithin_era (fun _ _ _ _ h => seatWithin_era (fun _ _ _ _ h => seatNbhds_era hp h) h) h

/-! ### Casts and restores -/

theorem State.poisonGpa_era (s : State) (owner gpa : Nat) : (s.poisonGpa owner gpa).era = s.era := by
  grind only [State.poisonGpa, State.era]

theorem State.writeMarked_era (s : State) (owner gpa : Nat) (bs : Marked) {s'} (h : s.writeMarked owner gpa bs = some s') : s'.era = s.era := by
  obtain ⟨s1, h1, rfl⟩ := Option.map_eq_some_iff.mp h
  exact (foldl_era (fun s i => poisonGpa_era ..) _ _).trans (devWrite_era _ _ _ _ h1)

theorem State.keepView_era (s : State) (b : Block) : (s.keepView b).era = s.era := rfl

theorem State.castOut_era (s : State) (b : Block) (kind : Nat) : (s.castOut b kind).era = s.era := by
  grind +splitImp only [State.castOut, State.writeMarked_era, State.updSlice_era, State.keepView_era, State.leaveCore_era, State.clearAcc_era,
    State.era, foldl_era]

theorem execCastWrite_era (b : Nat) (s : State) : Outcome.Keeps s (execCastWrite b s) := by
  grind only [execCastWrite, State.castOut_era, next_keeps]

theorem State.haltBlocks_era (s : State) (kind : Nat) (f : Block → Bool) : (s.haltBlocks kind f).era = s.era := rfl

theorem execPreemptionRequest_era (blks : List Nat) (kind : Nat) (s : State) : Outcome.Keeps s (execPreemptionRequest blks kind s) := by
  grind only [execPreemptionRequest, State.haltBlocks_era, next_keeps]

theorem State.replaySlot_era (s : State) (p : Nat) (b : Block) (pb : List Word) (record mask : Nat) :
    Eng.Keeps s (s.replaySlot p b pb record mask) := by
  refine foldl_andThen_keeps (fun m l s => ?_) _ _
  split
  · rfl
  refine Eng.andThen_keeps (areaRead_era ..) fun vals s => Eng.andThen_keeps (areaRead_era ..) fun scales s =>
    Eng.andThen_keeps (areaRead_era ..) fun masks s => ?_
  dsimp only
  split <;> rfl

theorem State.replaySlots_era (s : State) (p : Nat) (secs : List (Nat × Nat × List Byte)) {s'} (h : s.replaySlots p secs = some s') :
    s'.era = s.era := by
  refine foldl_bind_era (fun s e s' h => ?_) h
  split at h
  · cases h; rfl
  have e1 := replaySlot_era
  split at h
  · cases h
  · next h1 => cases h; exact (replaySlot_era ..).of_fail h1
  · next h1 => cases h; exact (updBlock_era ..).trans ((replaySlot_era ..).of_ok h1)

theorem State.relog_era (s : State) (core : Nat) (log : List LogEntry) : (s.relog core log).era = s.era := rfl

theorem State.restoreOn_era (s : State) (draw : Option Nat) (c : Cast) (b : Block) (log : List LogEntry) (secs : List (Nat × Nat × List Byte))
    (core : Nat) {s'} (h : s.restoreOn draw c b log secs core = some s') : s'.era = s.era := by
  unfold State.restoreOn at h
  split at h
  · cases h
  next x hx =>
  obtain ⟨s1, h1, rfl⟩ := Option.map_eq_some_iff.mp h
  have e1 := replaySlots_era _ _ _ h1
  calc _ = s1.era := by
        rw [updBlock_era, foldl_era (fun s d => retireCmd_era ..), relog_era]
    _ = _ := e1
    _ = ((s.noteDev b.owner c.addr c.bytes.length).takeRegions (b.seated s core x)).era := rfl
    _ = s.era := (takeRegions_era ..).trans (noteDev_era ..)

theorem State.castBad_era (s : State) (c : Cast) : (s.castBad c).era = s.era := by
  grind only [State.castBad, State.postEvent_era, State.era]

theorem State.looseHomes_era (s : State) (l : Launch) : (s.looseHomes l).era = s.era := rfl

theorem State.restoreUnit_era (s : State) (c : Cast) (first : Option Nat) {s'} (h : s.restoreUnit c first = some s') : s'.era = s.era := by
  unfold State.restoreUnit at h
  dsimp only at h
  split at h
  · cases h
  split at h
  · cases h; exact castBad_era ..
  split at h
  · cases h
  next l _ =>
  split at h
  · cases h
  obtain h | ⟨-, h⟩ := Option.or_eq_some_iff.mp h
  all_goals
    refine Eq.trans (seatAll_era (fun s n core s' h => ?_) h) (looseHomes_era s l)
    split at h
    · cases h
    split at h
    · cases h
    obtain ⟨y, _, hy⟩ := Option.bind_eq_some_iff.mp h
    exact restoreOn_era _ _ _ _ _ _ _ hy

theorem execRestore_era (b core : Nat) (s : State) : Outcome.Keeps s (execRestore b core s) := by
  refine next_keeps ?_
  split
  · rfl
  split
  · cases h : s.restoreUnit _ (some core) with
    | none => rfl
    | some s' => exact restoreUnit_era _ _ _ h
  · rfl

/-! ### Instructions across lanes -/

theorem State.resolveMeets_era (s : State) (bi m : Nat) : (s.resolveMeets bi m).era = s.era := by
  grind +splitImp only [State.resolveMeets, State.takeTrapAt_era, State.updThread_era, State.updBlock_era, foldl_era]

theorem State.arrive_era (s : State) (op : Nat) (vs : List Nat) (srcs : List Nat) (b : Reg) (d : Nat) (f : Thread → Word × Word × Bool) :
    Outcome.Keeps s (s.arrive op vs srcs b d f) := by
  grind +splitImp only [State.arrive, State.lanesBy_era, State.resolveMeets_era, next_keeps, foldl_era]

theorem State.route_era (s : State) (op : Nat) (d a b : Reg) : Outcome.Keeps s (s.route op d a b) := by
  grind only [State.route, State.arrive_era, next_keeps]

theorem State.poll_era (s : State) (op : Nat) (d a : BitVec 3) (b : Reg) : Outcome.Keeps s (s.poll op d a b) := by
  grind only [State.poll, State.arrive_era, next_keeps]

theorem State.redux_era (s : State) (op : Nat) (d a b : Reg) : Outcome.Keeps s (s.redux op d a b) := by
  grind only [State.redux, State.arrive_era, next_keeps]

theorem execPgather_era (d : Reg) (a : BitVec 3) (b : Reg) (s : State) : Outcome.Keeps s (execPgather d a b s) := by
  grind only [execPgather, State.arrive_era, next_keeps]

/-! ### Gangs and quads -/

theorem State.mergeBlock_era (s : State) (bi : Nat) : (s.mergeBlock bi).era = s.era := by
  unfold State.mergeBlock
  split <;> rfl

theorem State.regang_era (s : State) (bi : Nat) : (s.regang bi).era = s.era := by
  unfold State.regang
  split <;> rfl

theorem State.regangAll_era (s : State) : s.regangAll.era = s.era := by
  grind +splitImp only [State.regangAll, State.regang_era, foldl_era]

theorem State.swapActive_era (s : State) (core : Nat) : (s.swapActive core).era = s.era := by
  grind only [State.swapActive, State.updBlock_era, State.mergeBlock_era]

theorem State.ageQuads_era (s : State) (bi : Nat) (g : Gang) (tids : List Nat) : (s.ageQuads bi g tids).era = s.era := rfl

theorem State.noteFetch_era (s : State) (b : Block) (l : Level) (pc : Nat) : (s.noteFetch b l pc).era = s.era := by
  grind only [State.noteFetch, State.fetchAt_era]

theorem State.targetWord_era (s : State) (b : Block) (t : Thread) : (s.targetWord b t).2.era = s.era := by
  unfold State.targetWord
  split <;> rfl

theorem State.stopBefore_era (s : State) (bi k : Nat) (x : Stop) : (s.stopBefore bi k x).era = s.era := by
  grind only [State.stopBefore, State.targetWord_era, State.takeTrapAt_era, State.updThread_era]

theorem State.settleAll_era (s : State) (bi : Nat) (tids : List Nat) : (s.settleAll bi tids).1.era = s.era := by
  grind +splitImp only [State.settleAll, State.settle_era, State.moveOne_era, State.stopBefore_era, foldl_fst_era]

/-! ### Flow of control -/

theorem State.latch_era (s : State) (f : Pfx → Pfx) : (s.latch f).era = s.era := rfl

theorem State.branch_era (s : State) (o : BitVec 22) (take : Thread → Bool) : Outcome.Keeps s (s.branch o take) := by
  grind only [State.branch, State.lanesBy_era, next_keeps]

theorem State.callTo_era (s : State) (t : Thread) (k : Nat) (target : DWord) : LaneRes.Keeps s (s.callTo t k target) := by
  unfold State.callTo
  dsimp only
  split
  · next h => exact (stopLane_era ..).congr (era_of_roomFor h)
  · next h => exact (updThread_era ..).trans (era_of_roomFor h)

theorem execCall_era (v : Reg) (i : BitVec 21) (s : State) : Outcome.Keeps s (execCall v i s) := by
  grind +splitImp only [execCall, State.foldLanes_era, State.callTo_era, LaneRes.Keeps, next_keeps]

theorem execCalli_era (a b : Reg) (s : State) : Outcome.Keeps s (execCalli a b s) := by
  grind +splitImp only [execCalli, State.foldLanes_era, laneChecked_keeps, State.stopLane_era, State.callTo_era, LaneRes.Keeps, next_keeps]

theorem execJmpi_era (a : Reg) (s : State) : Outcome.Keeps s (execJmpi a s) := by
  grind +splitImp only [execJmpi, State.foldLanes_era, laneChecked_keeps, State.stopLane_era, State.updThread_era, LaneRes.Keeps, next_keeps]

theorem State.settleAfter_era (s : State) (k fuel : Nat) : (s.settleAfter k fuel).era = s.era := by
  grind only [State.settleAfter, State.settle_era, State.stopBefore_era]

theorem execRet_era (s : State) : Outcome.Keeps s (execRet s) := by
  grind +splitImp only [execRet, State.foldLanes_era, laneChecked_keeps, State.updThread_era, State.undefineIn_era, State.settleAfter_era,
    LaneRes.Keeps, next_keeps]

theorem execFrame_era (b : Reg) (s : State) : Outcome.Keeps s (execFrame b s) := by
  refine next_keeps (foldLanes_era fun s _ t => ?_)
  split
  · rfl
  split
  · next h => exact (stopLane_era ..).congr (era_of_roomFor h)
  · next h =>
    refine (updThread_era ..).trans (Eq.trans ?_ (era_of_roomFor h))
    split
    · exact undefine_era ..
    · rfl

theorem execWbase_era (b : Reg) (s : State) : Outcome.Keeps s (execWbase b s) := by
  refine next_keeps (foldLanes_era fun s _ t => ?_)
  dsimp only
  split
  · rfl
  split
  · split
    · next h => exact (stopLane_era ..).congr (era_of_roomFor h)
    · next h =>
      refine (updThread_era ..).trans (Eq.trans ?_ (era_of_roomFor h))
      split
      · rfl
      · exact undefine_era ..
  · exact (settleAfter_era ..).trans (updThread_era ..)

theorem execExit_era (s : State) : Outcome.Keeps s (execExit s) := by
  grind +splitImp only [execExit, State.lanesBy_era, State.resolveMeets_era, next_keeps, foldl_era]

theorem execTrap_era (i : BitVec 14) (s : State) : Outcome.Keeps s (execTrap i s) := by
  grind +splitImp only [execTrap, State.foldLanes_era, State.takeTrapAt_era, State.updThread_era, LaneRes.Keeps, next_keeps]

theorem State.fileQuad_era (bi q : Nat) (t : Thread) (n : Nat) (s : State) : (s.fileQuad bi q t n).era = s.era := by
  induction n generalizing s q with
  | zero => rfl
  | succ n ih =>
    unfold State.fileQuad
    dsimp only
    split
    · rfl
    split
    · exact (foldl_era (fun s (y : Nat × Nat) => ih y.1 s) _ _).trans rfl
    split <;> rfl

theorem execReform_era (s : State) : Outcome.Keeps s (execReform s) := by
  grind +splitImp only [execReform, State.updBlock_era, State.fileQuad_era, next_keeps, foldl_era]

/-! ### Traps, events and counters -/

theorem execSrd_era (d : Reg) (n : BitVec 14) (s : State) : Outcome.Keeps s (execSrd d n s) := by
  grind +splitImp only [execSrd, State.needLevel_keeps, State.alu_era, next_keeps]

theorem execSwr_era (d : Reg) (n : BitVec 14) (s : State) : Outcome.Keeps s (execSwr d n s) := by
  grind +splitImp only [execSwr, State.needLevel_keeps, State.lanes_era, State.updBlock_era, next_keeps]

theorem execTret_era (s : State) : Outcome.Keeps s (execTret s) := by
  refine needLevel_keeps (next_keeps (foldLanes_era fun s b t => ?_))
  split
  · trivial
  · rfl
  next h1 =>
  have e1 := devLoad_era _ _ _ _ _ _ _ _ h1
  split
  · exact e1
  dsimp only
  refine (settleAfter_era ..).trans (Eq.trans ?_ e1)
  split
  · exact undefineIn_era ..
  · exact updThread_era ..

theorem State.notePosted_era (s : State) (e : LogEntry) : (s.notePosted e).era = s.era := rfl

theorem State.retryEntry_era (s : State) (e : LogEntry) {s'} (h : s.retryEntry e = some s') : s'.era = s.era := by
  have closed {r : Except MemFault State} {s' : State} (h : (match r with | .ok s' => some s' | .error _ => none) = some s') : r = .ok s' := by
    cases r with
    | ok s1 => cases h; rfl
    | error f => cases h
  unfold State.retryEntry at h
  dsimp only at h
  split at h
  · cases h
  split at h
  · cases h
  split at h
  · split at h
    · cases h
    split at h
    · exact (rmwCells_era _ _ _ _ _ _ _ (closed h)).trans ((noteSector_era ..).trans ((noteSector_era ..).trans (noteXl_era ..)))
    · exact (rmwCells_era _ _ _ _ _ _ _ (closed h)).trans (noteXl_era ..)
  · generalize hw : State.writeCells _ _ _ _ _ _ _ _ = w at h
    cases w with
    | error f => cases h
    | ok r =>
      cases h
      refine (writeCells_era _ _ _ _ _ _ _ _ hw).trans ?_
      split
      · exact (notePosted_era ..).trans (noteXl_era ..)
      · exact noteXl_era ..

theorem State.retryLog_era (s : State) (core n : Nat) : (s.retryLog core n).era = s.era := by
  induction n generalizing s with
  | zero => rfl
  | succ n ih =>
    unfold State.retryLog
    split
    · rfl
    split
    · rfl
    · next h =>
      have e := retryEntry_era _ _ h
      exact (ih _).trans e

theorem State.tryLog_era (s : State) (core : Nat) : (s.tryLog core).era = s.era := by
  grind only [State.tryLog, State.retryLog_era, State.era]

theorem State.retryOwner_era (s : State) (o : Nat) : (s.retryOwner o).era = s.era := by
  grind +splitImp only [State.retryOwner, State.tryLog_era, foldl_era]

theorem execSideLogRetry_era (core : Nat) (s : State) : Outcome.Keeps s (execSideLogRetry core s) := by
  grind only [execSideLogRetry, State.tryLog_era, next_keeps]

theorem State.endOp_era (s : State) (later : Bool) (k : Nat) : LaneRes.Keeps s (s.endOp later k) := by
  unfold State.endOp
  split <;> rfl

theorem State.status_era (s : State) (later : Bool) (t : Thread) (d : Reg) (x : Nat) : LaneRes.Keeps s (s.status later t d x) := by
  grind only [State.status, State.endOp_era, State.updThread_era, LaneRes.Keeps]

theorem execTinv_era (a : Reg) (s : State) : Outcome.Keeps s (execTinv a s) := by
  refine needLevel_keeps (next_keeps (foldLanes_era fun s b t => laneChecked_keeps ?_))
  dsimp only
  split
  · rfl
  · exact (endOp_era ..).congr ((retryOwner_era ..).trans rfl)

theorem State.dropTlb1_era (s : State) (o : Nat) : (s.dropTlb1 o).era = s.era := rfl

theorem execTinva_era (s : State) : Outcome.Keeps s (execTinva s) :=
  needLevel_keeps (next_keeps (foldLanes_era fun _ _ _ => (endOp_era ..).congr ((retryOwner_era ..).trans (dropTlb1_era ..))))

theorem State.dropTlb2_era (s : State) (o : Nat) (p : Nat → Nat → Bool) : (s.dropTlb2 o p).era = s.era := by
  grind +splitImp only [State.dropTlb2, State.flushSector_era, State.era, foldl_era]

theorem execPinv_era (d a b : Reg) (s : State) : Outcome.Keeps s (execPinv d a b s) := by
  refine needLevel_keeps (next_keeps (foldLanes_era fun s b t => laneChecked_keeps ?_))
  dsimp only
  split
  · exact status_era ..
  split
  · exact status_era ..
  · exact (status_era ..).congr ((retryOwner_era ..).trans (dropTlb2_era ..))

theorem execPinva_era (d b : Reg) (s : State) : Outcome.Keeps s (execPinva d b s) := by
  refine needLevel_keeps (next_keeps (foldLanes_era fun s b t => laneChecked_keeps ?_))
  dsimp only
  split
  · exact status_era ..
  · exact (status_era ..).congr ((retryOwner_era ..).trans (dropTlb2_era ..))

theorem State.checkpoint_era (s : State) (o kind seq : Nat) (seqOf : Block → Nat) (blks : List Block) :
    (s.checkpoint o kind seq seqOf blks).era = s.era := by
  unfold State.checkpoint
  dsimp only
  split
  · rfl
  next s1 h1 =>
  have e1 := devWrite_era _ _ _ _ h1
  split
  · exact e1
  next s2 n h2 =>
  have e2 : s2.era = s.era := by
    refine foldl_holds (P := fun acc : Option (State × Nat) => ∀ x, acc = some x → x.1.era = s.era) (fun acc b ih x hx => ?_) blks
      (fun x hx => Option.some.inj hx ▸ e1) _ h2
    obtain ⟨y, hy, hx⟩ := Option.bind_eq_some_iff.mp hx
    split at hx
    · cases hx
    obtain ⟨s3, h3, rfl⟩ := Option.map_eq_some_iff.mp hx
    exact (writeMarked_era _ _ _ _ h3).trans (ih y hy)
  split
  · exact e2
  next h3 => exact (postEvent_era ..).trans ((devWrite_era _ _ _ _ h3).trans e2)

theorem execCkpt_era (d : Reg) (s : State) : Outcome.Keeps s (execCkpt d s) := by
  grind only [execCkpt, State.lanesBy_era, State.checkpoint_era, next_keeps, State.era]

theorem execTrapEntry_era (b k : Nat) (s : State) : Outcome.Keeps s (execTrapEntry b k s) := by
  grind only [execTrapEntry, State.enterAt_era, next_keeps]

theorem State.moveStep_era (s : State) (i k : Nat) : (s.moveStep i k).era = s.era := by
  grind only [State.moveStep, State.moveOne_era, State.stopBefore_era]

theorem execSpill_era (b k : Nat) (s : State) : Outcome.Keeps s (execSpill b k s) := by
  grind only [execSpill, State.moveStep_era, next_keeps]

theorem execFill_era (b k : Nat) (s : State) : Outcome.Keeps s (execFill b k s) := by
  grind only [execFill, State.moveStep_era, next_keeps]

theorem State.takeReturn_era (s : State) (b k : Nat) (divide : Bool) : (s.takeReturn b k divide).era = s.era := by
  unfold State.takeReturn
  split <;> rfl

theorem execAccessPerformed_era (b k : Nat) (s : State) : Outcome.Keeps s (execAccessPerformed b k s) := by
  grind only [execAccessPerformed, State.updThread_era, next_keeps]

theorem State.releaseBin_era (s : State) (i : Nat) : (s.releaseBin i).era = s.era := by
  unfold State.releaseBin
  grind only [State.updBlock_era, State.era]

theorem execReformBinRelease_era (core bin : Nat) (s : State) : Outcome.Keeps s (execReformBinRelease core bin s) := by
  grind only [execReformBinRelease, State.releaseBin_era, next_keeps]

theorem State.corrected_era (s : State) (o : Nat) : (s.corrected o).era = s.era := rfl

theorem State.correctedOn_era (s : State) (core : Nat) : (s.correctedOn core).era = s.era := by
  unfold State.correctedOn
  split <;> rfl

theorem State.hitWord_era (s : State) (a bits : Nat) : (s.hitWord a bits).era = s.era := by
  grind +splitImp only [State.hitWord, State.updBlock_era, State.corrected_era, State.correctedOn_era, State.era]

theorem State.hitDram_era (s : State) (h symbols : Nat) : (s.hitDram h symbols).era = s.era := by
  grind only [State.hitDram, State.era]

theorem State.reportTag_era (s : State) (cs o : Nat) : (s.reportTag cs o).era = s.era := by
  grind only [State.reportTag, State.count_era, State.stopBefore_era, State.era]

theorem State.hitTags_era (s : State) (cs set way : Nat) : (s.hitTags cs set way).era = s.era := by
  grind +splitImp only [State.hitTags, State.reportTag_era, State.era, foldl_era]

theorem State.hitHop_era (s : State) (core bits : Nat) : (s.hitHop core bits).era = s.era := by
  grind only [State.hitHop, State.corrected_era, State.count_era, State.updBlock_era]

theorem execSoftError_era (struct loc bits : Nat) (s : State) : Outcome.Keeps s (execSoftError struct loc bits s) := by
  unfold execSoftError
  grind only [State.hitWord_era, State.correctedOn_era, State.corrected_era, State.hitTags_era, State.hitDram_era, State.hitHop_era, next_keeps,
    State.era]

theorem execScrub_era (line : Nat) (s : State) : Outcome.Keeps s (execScrub line s) := by
  grind +splitImp only [execScrub, State.corrected_era, next_keeps, State.era, foldl_era]

/-! ### Keys and statements -/

theorem State.internKey_era (s : State) (x : List Byte) : (s.internKey x).1.era = s.era := by
  unfold State.internKey
  split <;> rfl

theorem State.updSlot_era (s : State) (n : Nat) (f : KeySlot → KeySlot) : (s.updSlot n f).era = s.era := rfl

theorem State.ripen_era (s : State) (n world : Nat) : (s.ripen n world).era = s.era := by
  grind only [State.ripen, State.internKey_era, State.updSlot_era]

theorem State.keyset_era (s : State) (n : Nat) (k : KeyObject) : (s.keyset n k).1.era = s.era := by
  unfold State.keyset
  (repeat' split) <;> grind only [State.internKey_era, State.updSlot_era, State.ripen_era]

theorem execKeyset_era (d a b : Reg) (s : State) : Outcome.Keeps s (execKeyset d a b s) := by
  refine needLevel_keeps (next_keeps (foldLanes_era fun s b t => laneChecked_keeps ?_))
  dsimp only
  split
  · exact status_era ..
  split
  · trivial
  · exact status_era ..
  · next h => exact (status_era ..).congr ((keyset_era ..).trans (devLoad_era _ _ _ _ _ _ _ _ h))

theorem State.eraseSlot_era (s : State) (n : Nat) : (s.eraseSlot n).era = s.era := by
  unfold State.eraseSlot
  split <;> rfl

theorem execKeyerase_era (a : Reg) (s : State) : Outcome.Keeps s (execKeyerase a s) :=
  needLevel_keeps (next_keeps (foldLanes_era fun _ _ _ => laneChecked_keeps ((endOp_era ..).congr (eraseSlot_era ..))))

theorem State.newSession_era (s : State) (o : Nat) : (s.newSession o).era = s.era := by
  unfold State.newSession
  split <;> rfl

theorem execUstat_era (d a b : Reg) (s : State) : Outcome.Keeps s (execUstat d a b s) := by
  refine needLevel_keeps (next_keeps (foldLanes_era fun s b t => laneChecked_keeps ?_))
  dsimp only
  split
  · exact status_era ..
  split
  · exact endOp_era ..
  split
  · trivial
  · exact status_era ..
  next h1 =>
  split
  · trivial
  split
  · trivial
  · exact status_era ..
  · next h2 =>
    exact (status_era ..).congr ((foldl_era (fun s i => postsAt_era ..) _ _).trans ((era_of_writeVa h2).trans ((newSession_era ..).trans
      (devLoad_era _ _ _ _ _ _ _ _ h1))))

/-! ### Scheduling -/

theorem State.refuse_era (s : State) (l : Launch) (reason : Nat) : (s.refuse l reason).era = s.era := by
  grind only [State.refuse, State.postEvent_era, State.completeLaunch_era]

theorem State.noteHead_era (s : State) (o : Nat) (h : Head) : (s.noteHead o h).era = s.era := by
  grind only [State.noteHead, State.noteDev_era, State.readVa_era, State.noteWalks_era]

theorem State.admitHead_era (s : State) (o : Nat) (h : Head) : (s.admitHead o h).era = s.era := by
  grind only [State.admitHead, State.noteHead_era, State.updSlice_era, State.putQueue_era, State.refuse_era, State.era]

theorem execAdmission_era (sl : Nat) (s : State) : Outcome.Keeps s (execAdmission sl s) := by
  grind only [execAdmission, State.admitHead_era, next_keeps]

theorem State.yieldHelpers_era (s : State) : s.yieldHelpers.era = s.era := by
  grind only [State.yieldHelpers, State.reclaim_era]

theorem State.placeUnit_era (s : State) (l : Launch) {s'} (h : s.placeUnit l = some s') : s'.era = s.era := by
  unfold State.placeUnit at h
  split at h
  · obtain ⟨s1, h1, rfl⟩ := Option.map_eq_some_iff.mp h
    exact (yieldHelpers_era ..).trans (restoreUnit_era _ _ _ h1)
  dsimp only at h
  split at h
  · cases h
  obtain ⟨s1, h1, rfl⟩ := Option.map_eq_some_iff.mp h
  refine (yieldHelpers_era ..).trans ?_
  obtain h | ⟨-, h⟩ := Option.or_eq_some_iff.mp h1
  all_goals exact (seatAll_era (fun _ _ _ _ h => placeBlock_era _ _ _ _ _ h) h :)

theorem State.takeUnit_era (s : State) (u : List Block) : (s.takeUnit u).era = s.era := by
  grind +splitImp only [State.takeUnit, State.haltBlocks_era, State.castOut_era, foldl_era]

theorem State.placeTaking_era (s : State) (l : Launch) (vs : List (List Block)) {s'} (h : s.placeTaking l vs = some s') : s'.era = s.era := by
  unfold State.placeTaking at h
  dsimp only at h
  split at h
  · cases h
  obtain ⟨us, _, rfl⟩ := Option.map_eq_some_iff.mp h
  refine Eq.trans ?_ (foldl_era takeUnit_era us s)
  cases h : State.placeUnit _ l with
  | none => rfl
  | some s' => exact placeUnit_era _ _ h

theorem State.placeWith_era (s : State) (l : Launch) (vs : List (List Block)) {s'} (h : (s.placeWith l vs) = some s') : s'.era = s.era := by
  grind only [State.placeWith, State.placeUnit_era, State.placeTaking_era, State.reclaim_era]

theorem State.decideEdf_era (s : State) (o : Nat) : (s.decideEdf o).era = s.era := by
  unfold State.decideEdf
  dsimp only
  cases h : List.findSome? _ _ with
  | none => rfl
  | some s' =>
    obtain ⟨l, _, hl⟩ := List.exists_of_findSome?_eq_some h
    exact placeWith_era _ _ _ hl

theorem State.decideAging_era (s : State) (o : Nat) : (s.decideAging o).era = s.era := by
  unfold State.decideAging
  dsimp only
  split
  · rfl
  next s' h =>
  obtain ⟨l, _, hl⟩ := List.exists_of_findSome?_eq_some h
  obtain hl | ⟨-, hl⟩ := Option.or_eq_some_iff.mp hl
  all_goals exact (placeWith_era _ _ _ hl :)

theorem execDispatchDecision_era (sl : Nat) (s : State) : Outcome.Keeps s (execDispatchDecision sl s) := by
  grind only [execDispatchDecision, State.updSlice_era, State.decideAging_era, State.decideEdf_era, next_keeps]

theorem execQuantumExpiry_era (quad : Nat) (s : State) : Outcome.Keeps s (execQuantumExpiry quad s) := by
  grind +splitImp only [execQuantumExpiry, State.haltBlocks_era, State.updSlice_era, next_keeps, State.era]

theorem execBlockRetire_era (b : Nat) (s : State) : Outcome.Keeps s (execBlockRetire b s) := by
  grind only [execBlockRetire, State.releaseBatch_era, State.updSlice_era, State.leaveCore_era, next_keeps, State.era]

theorem execHang_era (b : Nat) (s : State) : Outcome.Keeps s (execHang b s) := by
  grind only [execHang, State.updBlock_era, State.postEvent_era, State.count_era, next_keeps]

theorem State.giveNotice_era (s : State) (o mask time : Nat) : (s.giveNotice o mask time).era = s.era := by
  grind +splitImp only [State.giveNotice, State.postEvent_era, State.updSlice_era, State.checkpoint_era, State.era]

theorem execPreemptionNotice_era (sl mask time : Nat) (s : State) : Outcome.Keeps s (execPreemptionNotice sl mask time s) := by
  grind only [execPreemptionNotice, State.giveNotice_era, next_keeps]

theorem execNoticeTimeReached_era (sl : Nat) (s : State) : Outcome.Keeps s (execNoticeTimeReached sl s) := by
  grind only [execNoticeTimeReached, State.updSlice_era, State.haltBlocks_era, next_keeps]

/-! ### Slices -/

theorem State.sendReady_era (s : State) (o : Nat) : (s.sendReady o).era = s.era := by
  unfold State.sendReady
  split <;> rfl

theorem State.clearCores_era (s : State) (cores : List Nat) : (s.clearCores cores).era = s.era := rfl

theorem State.forget_era (s : State) (o : Nat) : (s.forget o).era = s.era := by
  grind +splitImp only [State.forget, State.endLease_era, State.updSlice_era, State.era, foldl_era]

theorem State.resetSteps_era (s : State) (o : Nat) : (s.resetSteps o).era = s.era := by
  grind only [State.resetSteps, State.dropTlb1_era, State.forget_era, State.discardL2_era, State.updSlice_era, State.clearCores_era, State.era]

theorem State.beginReset_era (s : State) (o : Nat) (prior : SliceState) (ready : Bool) : (s.beginReset o prior ready).era = s.era := rfl

theorem State.finishReset_era (s : State) (o : Nat) : (s.finishReset o).era = s.era := by
  grind only [State.finishReset, State.updSlice_era, State.resetSteps_era, State.sendReady_era]

theorem State.beginSliceReset_era (s : State) (o : Nat) : (s.beginSliceReset o).era = s.era := rfl

theorem State.sliceReset_era (s : State) (o : Nat) : (s.sliceReset o).era = s.era := by
  grind only [State.sliceReset, State.finishReset_era, State.beginSliceReset_era]

theorem State.beginFunctionReset_era (s : State) (o : Nat) : (s.beginFunctionReset o).era = s.era := by
  grind only [State.beginFunctionReset, State.updSlice_era, State.beginReset_era]

theorem State.functionReset_era (s : State) (o : Nat) : (s.functionReset o).era = s.era := by
  grind only [State.functionReset, State.beginFunctionReset_era, State.finishReset_era]

theorem State.castAll_era (s : State) (kind : Nat) (named : List Nat) : (s.castAll kind named).era = s.era := by
  grind +splitImp only [State.castAll, State.haltBlocks_era, State.castOut_era, foldl_era]

theorem State.flushOwners_era (s : State) (named : List Nat) : (s.flushOwners named).era = s.era := by
  grind only [State.flushOwners, State.flushL2_era]

theorem State.setWays_era (s : State) (o quad w : Nat) : (s.setWays o quad w).era = s.era := rfl

theorem State.leaveQuad_era (s : State) (o q : Nat) : (s.leaveQuad o q).era = s.era := by
  grind only [State.leaveQuad, State.updSlice_era, State.setWays_era, State.era]

theorem State.joinHard_era (s : State) (o q : Nat) : (s.joinHard o q).era = s.era := rfl

theorem State.joinShare_era (s : State) (o q w : Nat) : (s.joinShare o q w).era = s.era := by
  unfold State.joinShare
  split <;> rfl

theorem State.dropQlogs_era (s : State) : s.dropQlogs.era = s.era := rfl

theorem State.tellHolders_era (s : State) (quads : List Nat) : (s.tellHolders quads).era = s.era := by
  grind only [State.tellHolders, State.tellQuads_era]

theorem State.reassign_era {s : State} {move : State → State} {cleared : List Nat} (h : ∀ s, (move s).era = s.era) :
    (s.reassign move cleared).era = s.era := by
  grind only [State.reassign, State.dropQlogs_era, State.clearCores_era, State.tellHolders_era, State.era]

theorem State.resumeSlices_era (s : State) (named : List Nat) : (s.resumeSlices named).era = s.era := by
  grind +splitImp only [State.resumeSlices, State.updSlice_era, State.functionReset_era, foldl_era]

theorem State.answered_era (s : State) : s.answered.era = s.era := rfl

theorem State.reseat_era (s : State) (uid : Nat) : (s.reseat uid).era = s.era := rfl

theorem State.slRequest_keeps {s : State} {d : Reg} {regs : List Nat} {named : Thread → List Nat} {waits : Bool} {f : State → Thread → Bool →
    Answer}
    (h : ∀ s t mine, (f s t mine).Keeps s) : Outcome.Keeps s (s.slRequest d regs named waits f) := by
  unfold State.slRequest
  dsimp only
  split
  · exact next_keeps (trapAll_era ..)
  refine needLevel_keeps (next_keeps (foldLanes_era fun s b t => laneChecked_keeps ?_))
  split
  · split
    · exact updThread_era ..
    · exact updThread_era ..
  split
  · exact updThread_era ..
  have e := h s t (s.request == some (b.uid, t.tid))
  split
  · next s' x h1 =>
    rw [h1] at e
    have e' : ((s'.reseat b.uid).updThread (s'.reseat b.uid).cur.blk t.tid (fun u => (u.put d.toNat (BitVec.ofNat 32 x)).retire (s'.reseat
      b.uid).cur)).era
      = s.era := (updThread_era ..).trans ((reseat_era ..).trans e)
    split
    · exact (reseat_era ..).trans ((answered_era ..).trans e')
    · exact e'
  · next s' h1 =>
    rw [h1] at e
    exact (updThread_era ..).trans ((reseat_era ..).trans e)

theorem execSlnew_era (d a b : Reg) (s : State) : Outcome.Keeps s (execSlnew d a b s) := by
  grind +splitImp only [execSlnew, State.slRequest_keeps, State.readVa_era, State.updSlice_era, next_keeps, Answer.Keeps]

theorem execSldel_era (d a : Reg) (s : State) : Outcome.Keeps s (execSldel d a s) := by
  grind +splitImp only [execSldel, State.slRequest_keeps, State.discardL2_era, State.forget_era, State.updSlice_era, next_keeps, Answer.Keeps,
    State.era]

theorem State.partition_keeps {s : State} {mine : Bool} {st : Nat} {named : List Nat} {move : State → State} {cleared : List Nat}
    (h : ∀ s, (move s).era = s.era) : (s.partition mine st named move cleared).Keeps s := by
  have go (s : State) : Answer.Keeps s (if (s.castAll 3 named).drained named
      then .status ((((s.castAll 3 named).flushOwners named).reassign move cleared).resumeSlices named) 0 else .again (s.castAll 3 named)) := by
    split
    · exact (resumeSlices_era ..).trans ((reassign_era h).trans ((flushOwners_era ..).trans (castAll_era ..)))
    · exact castAll_era ..
  unfold State.partition
  dsimp only
  split
  · exact go s
  split
  · rfl
  · exact (go _).congr (foldl_era (fun s o => updSlice_era ..) named s)

theorem execSlassign_era (d a b : Reg) (s : State) : Outcome.Keeps s (execSlassign d a b s) := by
  refine slRequest_keeps fun s t mine => partition_keeps fun s => ?_
  dsimp only
  refine (foldl_era (fun s q => ?_) _ _).trans ?_
  · split
    · exact joinHard_era ..
    · exact joinShare_era ..
  · split <;> rfl

theorem State.passQuads_era (s : State) (o u : Nat) (quads : List Nat) : (s.passQuads o u quads).era = s.era := by
  grind +splitImp only [State.passQuads, State.leaveQuad_era, State.joinShare_era, State.joinHard_era, foldl_era]

theorem execSlsplit_era (d a b : Reg) (s : State) : Outcome.Keeps s (execSlsplit d a b s) :=
  slRequest_keeps fun _ _ _ => partition_keeps fun _ => passQuads_era ..

theorem execSlfuse_era (d a : Reg) (s : State) : Outcome.Keeps s (execSlfuse d a s) :=
  slRequest_keeps fun _ _ _ => partition_keeps fun _ => passQuads_era ..

theorem execSlquiesce_era (d a b : Reg) (s : State) : Outcome.Keeps s (execSlquiesce d a b s) := by
  grind +splitImp only [execSlquiesce, State.slRequest_keeps, State.giveNotice_era, State.castAll_era, State.updSlice_era, next_keeps, Answer.Keeps]

theorem execSlresume_era (d a : Reg) (s : State) : Outcome.Keeps s (execSlresume d a s) := by
  grind +splitImp only [execSlresume, State.slRequest_keeps, State.updSlice_era, State.sendReady_era, next_keeps, Answer.Keeps]

theorem State.changeWays_era (s : State) (o cs w : Nat) : (s.changeWays o cs w).era = s.era := by
  grind +splitImp only [State.changeWays, State.flushSector_era, State.era, foldl_era]

theorem execSlways_era (d a b : Reg) (s : State) : Outcome.Keeps s (execSlways d a b s) := by
  grind +splitImp only [execSlways, State.slRequest_keeps, State.changeWays_era, next_keeps, Answer.Keeps, foldl_era]

theorem execSlplace_era (d a b : Reg) (s : State) : Outcome.Keeps s (execSlplace d a b s) := by
  grind +splitImp only [execSlplace, State.slRequest_keeps, State.updSlice_era, next_keeps, Answer.Keeps]

theorem State.setPool_era (s : State) (w : Nat) : (s.setPool w).era = s.era := by
  unfold State.setPool
  split <;> rfl

theorem State.clearLent_era (s : State) (w : Nat) : (s.clearLent w).era = s.era := by
  grind only [State.clearLent, State.reclaim_era]

theorem execSlquota_era (d a b : Reg) (s : State) : Outcome.Keeps s (execSlquota d a b s) := by
  grind +splitImp only [execSlquota, State.slRequest_keeps, State.setPool_era, State.clearLent_era, State.endLease_era, State.updSlice_era,
    next_keeps, Answer.Keeps, State.era]

theorem execSlreset_era (d a : Reg) (s : State) : Outcome.Keeps s (execSlreset d a s) := by
  grind +splitImp only [execSlreset, State.slRequest_keeps, State.finishReset_era, State.beginSliceReset_era, State.sliceReset_era, next_keeps,
    Answer.Keeps]

theorem execSlstat_era (d a b : Reg) (s : State) : Outcome.Keeps s (execSlstat d a b s) := by
  grind +splitImp only [execSlstat, State.slRequest_keeps, State.writeVa_era, State.era_of_writeVa, State.updSlice_era, next_keeps, Answer.Keeps]

/-! ### Host interface -/

theorem State.sendImages_era (s : State) : s.sendImages.era = s.era := by
  grind only [State.sendImages, State.tellQuads_era]

theorem State.endWork_era (s : State) : s.endWork.era = s.era := rfl

theorem State.updPort_era (s : State) (p : Nat) (f : Port → Port) : (s.updPort p f).era = s.era := rfl

theorem execMailboxDone_era (port : Nat) (s : State) : Outcome.Keeps s (execMailboxDone port s) := by
  grind only [execMailboxDone, State.updPort_era, next_keeps, State.era]

theorem execVfEnableWrite_era (port num : Nat) (en : Bool) (s : State) : Outcome.Keeps s (execVfEnableWrite port num en s) := by
  grind +splitImp only [execVfEnableWrite, State.updPort_era, State.sendReady_era, next_keeps, foldl_era]

theorem execFunctionLevelReset_era (port vf : Nat) (s : State) : Outcome.Keeps s (execFunctionLevelReset port vf s) := by
  grind only [execFunctionLevelReset, State.finishReset_era, State.beginFunctionReset_era, State.functionReset_era, next_keeps]

theorem State.discardKernel_era (s : State) (port : Nat) : (s.discardKernel port).era = s.era := by
  grind only [State.discardKernel, State.updPort_era, State.era]

theorem State.pfReset_era (s : State) (port : Nat) : (s.pfReset port).era = s.era := by
  grind +splitImp only [State.pfReset, State.updPort_era, State.discardKernel_era, State.functionReset_era, foldl_era]

theorem execPfFunctionLevelReset_era (port : Nat) (s : State) : Outcome.Keeps s (execPfFunctionLevelReset port s) := by
  grind only [execPfFunctionLevelReset, State.pfReset_era, next_keeps, State.era]

theorem State.unsupported_era (s : State) (o : Option Nat) (port vf off : Nat) : (s.unsupported o port vf off).era = s.era := by
  unfold State.unsupported
  split <;> rfl

theorem execBar2Access_era (port vf off : Nat) (wr : Bool) (data : List Byte) (s : State) :
    Outcome.Keeps s (execBar2Access port vf off wr data s) := by
  refine next_keeps ?_
  dsimp only
  split
  · exact unsupported_era ..
  split
  · exact unsupported_era ..
  split
  · split
    · rfl
    · exact unsupported_era ..
  split
  · cases h : s.devWrite _ off data with
    | none => rw [Option.getD_none]; exact unsupported_era ..
    | some s' => exact devWrite_era _ _ _ _ h
  split
  · exact (noteDev_era .. :)
  · exact (unsupported_era ..).trans (noteDev_era ..)

theorem State.setControls_era (s : State) (port n : Nat) : (s.setControls port n).era = s.era := rfl

theorem execCqtailWrite_era (port : Nat) (v : Word) (s : State) : Outcome.Keeps s (execCqtailWrite port v s) := by
  grind only [execCqtailWrite, State.setControls_era, State.updPort_era, State.postHvEvent_era, next_keeps]

theorem State.startControl_era (s : State) (l : Launch) : (s.startControl l).era = s.era := by
  unfold State.startControl
  split <;> rfl

theorem State.takeControl_era (s : State) (port : Nat) : (s.takeControl port).era = s.era := by
  grind only [State.takeControl, State.updPort_era, State.noteDev_era, State.startControl_era, State.era]

theorem execControlKernelStart_era (s : State) : Outcome.Keeps s (execControlKernelStart s) := by
  grind only [execControlKernelStart, State.startControl_era, State.takeControl_era, next_keeps]

theorem State.reportHv_era (s : State) (arg : Nat) : (s.reportHv arg).era = s.era := by
  grind only [State.reportHv, State.postHvEvent_era, State.era]

theorem State.failReset_era (s : State) (o : Nat) : (s.failReset o).era = s.era := by
  grind only [State.failReset, State.updSlice_era, State.resetSteps_era, State.sliceReset_era]

theorem execQuadrantControllerFailure_era (quad : Nat) (s : State) : Outcome.Keeps s (execQuadrantControllerFailure quad s) := by
  grind +splitImp only [execQuadrantControllerFailure, State.failReset_era, State.reassign_era, State.leaveQuad_era, State.reportHv_era,
    next_keeps, State.era, foldl_era]

theorem State.stopModule_era (s : State) : s.stopModule.era = s.era := rfl

theorem execArmatureStop_era (s : State) : Outcome.Keeps s (execArmatureStop s) := by
  grind only [execArmatureStop, State.stopModule_era, next_keeps]

theorem execDieOvertemperature_era (die : Nat) (s : State) : Outcome.Keeps s (execDieOvertemperature die s) := by
  grind only [execDieOvertemperature, State.stopModule_era, next_keeps]

theorem execInletOvertemperature_era (pool : Nat) (s : State) : Outcome.Keeps s (execInletOvertemperature pool s) := by
  grind only [execInletOvertemperature, next_keeps, State.era]

theorem execInletTemperatureRecovery_era (s : State) : Outcome.Keeps s (execInletTemperatureRecovery s) := by
  grind only [execInletTemperatureRecovery, next_keeps, State.era]

theorem State.spoilInFlight_era (s : State) : s.spoilInFlight.era = s.era := by
  grind +splitImp only [State.spoilInFlight, State.count_era, State.era, foldl_era]

theorem execDiePortReplay_era (pair : Nat) (ok : Bool) (s : State) : Outcome.Keeps s (execDiePortReplay pair ok s) := by
  grind only [execDiePortReplay, State.spoilInFlight_era, next_keeps, State.era]

theorem execLinkTraining_era (link : Nat) (verified : Bool) (s : State) : Outcome.Keeps s (execLinkTraining link verified s) := by
  grind only [execLinkTraining, State.updLink_era, State.reportHv_era, State.linkFails_era, next_keeps]

theorem execLinkDataFlit_era (link head gen : Nat) (crcOk tagOk : Bool) (s : State) :
    Outcome.Keeps s (execLinkDataFlit link head gen crcOk tagOk s) := by
  grind only [execLinkDataFlit, State.requestReplay_era, State.updLink_era, State.reportHv_era, State.linkFails_era, next_keeps]

theorem execLinkReplayRequest_era (link seq : Nat) (s : State) : Outcome.Keeps s (execLinkReplayRequest link seq s) := by
  grind only [execLinkReplayRequest, next_keeps, State.era]

theorem State.sendHeld_era (s : State) (link gen : Nat) (held : List (Nat × List Byte)) : (s.sendHeld link gen held).era = s.era := by
  grind +splitImp only [State.sendHeld, State.updCmdOf_era, State.sendFlit_era, foldl_era]

theorem execLinkRekey_era (link : Nat) (s : State) : Outcome.Keeps s (execLinkRekey link s) := by
  grind only [execLinkRekey, State.updLink_era, State.sendHeld_era, State.sendFlit_era, next_keeps, State.era]

theorem execDeviceLinkDown_era (link : Nat) (s : State) : Outcome.Keeps s (execDeviceLinkDown link s) := by
  grind only [execDeviceLinkDown, State.updLink_era, State.linkFails_era, next_keeps]

/-! ### What the passing of time does -/

theorem State.postRefused_era (s : State) (n : Nat) : (s.postRefused n).era = s.era := by
  induction n generalizing s with
  | zero => rfl
  | succ n ih => exact (ih _).trans (reportHv_era ..)

theorem State.freeMessages_era (s : State) : s.freeMessages.era = s.era := rfl

/-! ### Integers -/

theorem State.divide_era (s : State) (d a b : Reg) (sb : Bool) (f : Word → Word → Word) : Outcome.Keeps s (s.divide d a b sb f) := by
  grind +splitImp only [State.divide, State.foldLanes_era, laneChecked_keeps, State.deliver_era, State.bin_era, LaneRes.Keeps, next_keeps]

/-! ### Runs -/

theorem State.illegalAll_era (s : State) (bi : Nat) (tids : List Nat) (pc : Nat) (w : Word) : (s.illegalAll bi tids pc w).era = s.era := by
  grind +splitImp only [State.illegalAll, State.takeTrapAt_era, foldl_era]

theorem State.fetchFaultAll_era (s : State) (bi : Nat) (tids : List Nat) (tr : Trap) : (s.fetchFaultAll bi tids tr).era = s.era := by
  grind +splitImp only [State.fetchFaultAll, State.takeTrapAt_era, State.era, foldl_era]

theorem State.fetchHeld_era (s : State) (bi : Nat) (tids : List Nat) (va n : Nat) : (s.fetchHeld bi tids va n).era = s.era := by
  grind +splitImp only [State.fetchHeld, State.stopBefore_era, foldl_era]

/-! ### Starts of the module, arms, and steps -/

/-- An outcome lowers no count of `s`. -/
def Outcome.Grows (s : State) : Outcome → Prop
  | .next s' => s.era ≤ s'.era
  | .fault _ | .refused _ => True

theorem Outcome.Keeps.grows {s : State} {o : Outcome} (h : Outcome.Keeps s o) : Outcome.Grows s o := by
  cases o with
  | next s' => exact h.ge
  | fault x | refused x => trivial

theorem next_grows {s s' : State} (h : s.era ≤ s'.era) : Outcome.Grows s (.next s') := h

/-- What comes of a later state comes of an earlier one. -/
theorem Outcome.Grows.after {s s' : State} {o : Outcome} (h : Outcome.Grows s' o) (hs : s.era ≤ s'.era) : Outcome.Grows s o := by
  cases o with
  | next s1 => exact hs.trans h
  | fault x | refused x => trivial

theorem thenDo_grows {s : State} {o : Outcome} {f : State → Outcome} (ho : Outcome.Grows s o) (hf : ∀ s, Outcome.Grows s (f s)) :
    Outcome.Grows s (thenDo o f) := by
  cases o with
  | next s' => exact (hf s').after ho
  | fault x | refused x => trivial

theorem State.bootUp_grows {s s' : State} (h : s.era ≤ s'.era) : s.era ≤ s'.bootUp.era := by
  refine h.trans ?_
  unfold State.bootUp
  dsimp only
  split
  · exact le_rfl
  · exact (Prod.mk_le_mk.mpr ⟨le_rfl, Prod.mk_le_mk.mpr ⟨le_max_left .., le_rfl⟩⟩).trans (sendImages_era _).ge

theorem State.restart_grows (s : State) : s.era ≤ s.restart.era :=
  bootUp_grows (Prod.mk_le_mk.mpr ⟨le_rfl, Prod.mk_le_mk.mpr ⟨le_rfl, Nat.le_succ _⟩⟩)

theorem State.reboot_grows (s : State) : s.era ≤ s.reboot.era := by
  unfold State.reboot
  generalize hx : State.bootUp _ = x
  have h : s.era ≤ x.era := hx ▸ bootUp_grows (le_of_eq rfl)
  dsimp only
  split
  · exact h
  · exact h

theorem State.mailbox_grows (s : State) (port n : Nat) : s.era ≤ (s.mailbox port n).era := by
  have set (st cmd : Nat) : (s.updPort port (fun p => { p with mbStat := st, mbCmd := cmd })).era = s.era := updPort_era ..
  unfold State.mailbox
  dsimp only
  split
  · exact le_rfl
  split
  · exact le_rfl
  split
  · split
    · exact (set 2 0).ge.trans (reboot_grows _)
    · exact (set 3 0).ge
  split
  · exact (set 3 0).ge
  split
  · exact (set 3 0).ge
  · exact (set 1 n).ge

theorem execConventionalReset_grows (port : Nat) (s : State) : Outcome.Grows s (execConventionalReset port s) := by
  refine next_grows ?_
  split
  · exact le_rfl
  split
  · refine le_of_eq ?_
    grind only [State.pfReset_era, State.updPort_era, State.era]
  · exact restart_grows s

theorem execPowerUp_grows (s : State) : Outcome.Grows s (execPowerUp s) := by
  refine next_grows ?_
  split
  · exact le_rfl
  · exact restart_grows s

theorem execRegisterWrite_grows (port off : Nat) (v : DWord) (s : State) : Outcome.Grows s (execRegisterWrite port off v s) := by
  have upd (f : Port → Port) : (s.updPort port f).era = s.era := updPort_era ..
  have mail (s' : State) (n : Nat) : s'.era ≤ (s'.mailbox port n).era := mailbox_grows ..
  refine next_grows ?_
  grind only

/-- R450, R452: the arms that may start the module again. -/
def mayRestart : Instr → Bool
  | .powerUp | .conventionalReset _ | .registerWrite .. | .mailboxWriteSlotA _ | .mailboxWriteSlotB _ | .mailboxRestartBoot _ => true
  | _ => false

theorem exec_keeps (i : Instr) (s : State) (h : mayRestart i = false) : Outcome.Keeps s (exec i s) := by
  cases i
  case iadd | isub | imul | imulhi | imulhiu | imad | iabs | imin | imax | iminu | imaxu | iadds | isubs | iaddus | isubus | iadd64 | isub64 |
    imulw | imulwu | icmp | icmp64 | iaddsh1 | iaddsh2 | iaddsh3 | iaddsh4 | sel | mov | sext8 | sext16 | iaddi | imuli | andi | ori | xori |
    icmpi | shli | shri | sari | roli | rori | and | or | xor | andn | orn | xnor | not | shl | shr | sar | rol | ror | shl64 | shr64 | sar64 |
    clz | ctz | popc | brev | clz64 | ctz64 | popc64 | brev64 | bfx | bfxs | bfi | pdep | pext | pdep64 | pext64 | bperm | bmm8 | bmm8t | v2p |
    fadd | fmul | ffma | fsub | fmin | fmax | fminnm | fmaxnm | fcmp | fabs | fneg | fcopysign | frint | fclass | frcp | frsq | fexp2 | flog2 |
    fsin | fcos | f2i | f2u | i2f | u2f | f2h | h2f | f2d | d2f | dadd | dmul | dfma | dsub | dmin | dmax | dminnm | dmaxnm | dcmp | d2i | i2d |
    dabs | hadd2 | hmul2 | hfma2 | hsub2 | badd2 | bmul2 | bfma2 | bsub2 | hmin2 | hmax2 | bmin2 | bmax2 | hcmp2 | bcmp2 | pkh2 | pkb2 | upkh |
    upkb | pke4m | pke5m | pkf4m | upke4 | upke5 | upkf4 | mxscale | idp4 | idp4u =>
    exact alu_era ..
  case idiv | idivu | irem | iremu =>
    exact divide_era ..
  case movri | movwi | movi | plop | p2v | land | nop | ofence | tstat | swin =>
    exact next_keeps (lanes_era ..)
  case st | faddx | rcclr =>
    exact storeIssue_era ..
  case atomSp | atomNb =>
    exact localAtom_era ..
  case sld | nld =>
    exact localLd_era ..
  case sst | nst =>
    exact localSt_era ..
  case atomRec | atom64 =>
    exact recordAtom_era ..
  case cwb | cinv =>
    exact writeBackLine_era ..
  case bra | brt | brf | brany | brall =>
    exact branch_era ..
  case routePick | routeRot | routeShift | routeFlip =>
    exact route_era ..
  case pollOr | pollAnd | pollSame =>
    exact poll_era ..
  case reduxAdd | reduxMin | reduxMax | reduxMinu | reduxMaxu | reduxAnd | reduxOr | reduxXor | reduxFadd | reduxFmin | reduxFmax | scanAdd |
    scanFadd =>
    exact redux_era ..
  case bararv | nbararv =>
    exact barArv_era ..
  case barwait | nbarwait =>
    exact barWait_era ..
  case barsync | nbarsync =>
    exact barSync_era ..
  case fenceB | fenceN | fenceQ | fenceT | fenceS =>
    exact fence_era ..
  case bload | mma | mmas | tzero | tdrain | tfill | xtrav | xtravRes | copy | scatter | restripe | coll | enc | emit | ndone | tcbarm | tcbret =>
    exact issueCmd_era ..
  case collAllreduce | collReduce | collBroadcast | collAllgather | collReducescatter =>
    exact next_keeps (collEvent_era ..)
  case encStart | encFrame | encEnd =>
    exact next_keeps (encEvent_era ..)
  case ndoneRel | ndoneFlush | commandStart =>
    exact next_keeps (startEvent_era ..)
  case sadd | ssub | smul | sand | sor | sxor | smin | smax | sminu | smaxu =>
    exact sbin_era ..
  case smov =>
    exact sun_era ..
  case rep | ifp | limm =>
    exact next_keeps (latch_era ..)
  case divideCompletion | loadDataReturn =>
    exact next_keeps (takeReturn_era ..)
  case activeSetSwap =>
    exact next_keeps (swapActive_era ..)
  case keyLapse =>
    exact next_keeps (updSlot_era ..)
  case linkIdleFlit | linkRekeyMarker | linkOldGenerationExpiry =>
    exact next_keeps (updLink_era ..)
  case powerDown =>
    exact next_keeps (endWork_era ..)
  case ld => exact execLd_era ..
  case rcrd => exact execRcrd_era ..
  case pref l a k => exact execPref_era l a k s
  case sample => exact execSample_era ..
  case call => exact execCall_era ..
  case ret => exact execRet_era ..
  case jmpi => exact execJmpi_era ..
  case calli => exact execCalli_era ..
  case frame => exact execFrame_era ..
  case wbase => exact execWbase_era ..
  case reform => exact execReform_era ..
  case exit => exact execExit_era ..
  case trap => exact execTrap_era ..
  case pgather => exact execPgather_era ..
  case barinit => exact execBarinit_era ..
  case cinit => exact execCinit_era ..
  case msign => exact execMsign_era ..
  case cwait => exact execCwait_era ..
  case commit => exact execCommit_era ..
  case waitb => exact execWaitb_era ..
  case waitseq => exact execWaitseq_era ..
  case qwaitDone => exact execQwaitDone_era ..
  case qwaitTake => exact execQwaitTake_era ..
  case nichewait => exact execNichewait_era ..
  case tmovTr => exact execTmovTr_era ..
  case tmovTc => exact execTmovTc_era ..
  case tmovRt => exact execTmovRt_era ..
  case tmovCt => exact execTmovCt_era ..
  case twait => exact execTwait_era ..
  case tfillDeclare => exact execTfillDeclare_era ..
  case tfillFill => exact execTfillFill_era ..
  case tfillRelease => exact execTfillRelease_era ..
  case sshl => exact execSshl_era ..
  case sshr => exact execSshr_era ..
  case ssar => exact execSsar_era ..
  case scmp => exact execScmp_era ..
  case saddi => exact execSaddi_era ..
  case sshli => exact execSshli_era ..
  case sshri => exact execSshri_era ..
  case ssari => exact execSsari_era ..
  case v2s => exact execV2s_era ..
  case s2v => exact execS2v_era ..
  case sld32 => exact execSld32_era ..
  case sst32 => exact execSst32_era ..
  case sadd64 => exact execSadd64_era ..
  case srd => exact execSrd_era ..
  case swr => exact execSwr_era ..
  case tret => exact execTret_era ..
  case tinv => exact execTinv_era ..
  case tinva => exact execTinva_era ..
  case pinv => exact execPinv_era ..
  case pinva => exact execPinva_era ..
  case launch => exact execLaunch_era ..
  case ckpt => exact execCkpt_era ..
  case keyset => exact execKeyset_era ..
  case keyerase => exact execKeyerase_era ..
  case ustat => exact execUstat_era ..
  case slnew => exact execSlnew_era ..
  case sldel => exact execSldel_era ..
  case slassign => exact execSlassign_era ..
  case slquiesce => exact execSlquiesce_era ..
  case slresume => exact execSlresume_era ..
  case slsplit => exact execSlsplit_era ..
  case slfuse => exact execSlfuse_era ..
  case slways => exact execSlways_era ..
  case slplace => exact execSlplace_era ..
  case slquota => exact execSlquota_era ..
  case slreset => exact execSlreset_era ..
  case slstat => exact execSlstat_era ..
  case trapEntry => exact execTrapEntry_era ..
  case spill => exact execSpill_era ..
  case fill => exact execFill_era ..
  case reformBinRelease => exact execReformBinRelease_era ..
  case sideLogRetry => exact execSideLogRetry_era ..
  case scrub => exact execScrub_era ..
  case restripeLineMove => exact execRestripeLineMove_era ..
  case commandRetire => exact execCommandRetire_era ..
  case migration => exact execMigration_era ..
  case leaseLapse => exact execLeaseLapse_era ..
  case overflowDrain => exact execOverflowDrain_era ..
  case nicheTimerExpiry => exact execNicheTimerExpiry_era ..
  case tcbSubmitRetry => exact execTcbSubmitRetry_era ..
  case launchCompletion => exact execLaunchCompletion_era ..
  case blockRetire => exact execBlockRetire_era ..
  case preemptionRequest => exact execPreemptionRequest_era ..
  case castWrite => exact execCastWrite_era ..
  case restore => exact execRestore_era ..
  case hang => exact execHang_era ..
  case preemptionNotice => exact execPreemptionNotice_era ..
  case noticeTimeReached => exact execNoticeTimeReached_era ..
  case quantumExpiry => exact execQuantumExpiry_era ..
  case notifyWrite => exact execNotifyWrite_era ..
  case admission => exact execAdmission_era ..
  case dispatchDecision => exact execDispatchDecision_era ..
  case functionLevelReset => exact execFunctionLevelReset_era ..
  case pfFunctionLevelReset => exact execPfFunctionLevelReset_era ..
  case vfEnableWrite => exact execVfEnableWrite_era ..
  case bar2Access => exact execBar2Access_era ..
  case cqtailWrite => exact execCqtailWrite_era ..
  case controlKernelStart => exact execControlKernelStart_era ..
  case mailboxDone => exact execMailboxDone_era ..
  case quadrantControllerFailure => exact execQuadrantControllerFailure_era ..
  case armatureStop => exact execArmatureStop_era ..
  case linkTraining => exact execLinkTraining_era ..
  case linkDataFlit => exact execLinkDataFlit_era ..
  case linkReplayRequest => exact execLinkReplayRequest_era ..
  case linkRekey => exact execLinkRekey_era ..
  case diePortReplay => exact execDiePortReplay_era ..
  case inletOvertemperature => exact execInletOvertemperature_era ..
  case dieOvertemperature => exact execDieOvertemperature_era ..
  case commandCursorAdvance => exact execCommandCursorAdvance_era ..
  case accessPerformed => exact execAccessPerformed_era ..
  case softError => exact execSoftError_era ..
  case deviceLinkDown => exact execDeviceLinkDown_era ..
  case inletTemperatureRecovery => exact execInletTemperatureRecovery_era ..
  case powerUp | conventionalReset | registerWrite | mailboxWriteSlotA | mailboxWriteSlotB | mailboxRestartBoot => cases h

/-- R163, R451, R453: no arm lowers a count. -/
theorem exec_grows (i : Instr) (s : State) : Outcome.Grows s (exec i s) := by
  cases h : mayRestart i with
  | false => exact (exec_keeps i s h).grows
  | true =>
    unfold mayRestart at h
    split at h
    · exact execPowerUp_grows s
    · exact execConventionalReset_grows _ s
    · exact execRegisterWrite_grows _ _ _ s
    · exact next_grows (mailbox_grows ..)
    · exact next_grows (mailbox_grows ..)
    · exact next_grows (mailbox_grows ..)
    · cases h

theorem runWords_grows (ws : List (Nat × Word)) (s : State) : Outcome.Grows s (runWords s ws) := by
  induction ws generalizing s with
  | nil => exact le_rfl
  | cons w ws ih =>
    unfold runWords
    split
    · exact thenDo_grows (exec_grows _ s) ih
    · exact ih s

theorem runRepeat_grows (s : State) : Outcome.Grows s (runRepeat s) := by
  have trapped : Outcome.Grows s (.next (s.trapAll (s.wordTrap .illegalOp))) := (trapAll_era ..).ge
  unfold runRepeat
  split
  · exact le_rfl
  dsimp only
  split
  · split
    · exact exec_grows _ s
    · exact trapped
  split
  · exact trapped
  split
  · exact (lanes_era ..).ge
  · exact exec_grows _ s

theorem runIssue_grows (s : State) (bi gi : Nat) (g : Gang) : Outcome.Grows s (runIssue s bi gi g) := by
  unfold runIssue
  split
  · exact le_rfl
  next b _ =>
  dsimp only
  generalize hs1 : State.updBlock (State.ageQuads _ bi g _) bi _ = s1
  have aged : s1.era = s.era := hs1 ▸ (updBlock_era ..).trans ((ageQuads_era ..).trans (settleAll_era ..))
  split
  · exact aged.ge
  split
  · exact ((fetchHeld_era ..).trans aged).ge
  · exact ((fetchFaultAll_era ..).trans aged).ge
  · exact ((illegalAll_era ..).trans aged).ge
  split
  · exact ((illegalAll_era ..).trans ((noteFetch_era ..).trans aged)).ge
  · exact Outcome.Grows.after (thenDo_grows (runWords_grows _ _) runRepeat_grows) ((noteFetch_era ..).trans aged).ge

theorem runThreads_grows {s : State} {o : Outcome} (h : runThreads s = some o) : Outcome.Grows s o := by
  have swapped : (s.regangAll.coresInUse.foldl State.swapActive s.regangAll).era = s.era :=
    (foldl_era swapActive_era _ _).trans (regangAll_era s)
  unfold runThreads at h
  dsimp only at h
  split at h
  · cases h
    cases State.besideGang .. with
    | none => exact swapped.ge
    | some g => exact (runIssue_grows ..).after swapped.ge
  · obtain ⟨g, _, rfl⟩ := Option.map_eq_some_iff.mp h
    exact (runIssue_grows ..).after swapped.ge

theorem runStep_grows (s : State) : Outcome.Grows s (runStep s) := by
  unfold runStep
  split
  · exact exec_grows _ _
  split
  · trivial
  cases h : (if s.agents && s.decoder1.isNone then runAgent s else runThreads s) with
  | none => exact le_rfl
  | some o =>
    split at h
    · obtain ⟨i, _, rfl⟩ := Option.map_eq_some_iff.mp h
      exact exec_grows _ _
    · exact runThreads_grows h

/-- R163: time that passes raises the clock, but between the issues of the two decoders of one clock. -/
theorem State.passTime_counts (s : State) : s.passTime.boot.rollback = s.boot.rollback ∧ s.passTime.boot.boots = s.boot.boots ∧
    s.clock ≤ s.passTime.clock ∧ (s.passTime.decoder1 = none → s.clock < s.passTime.clock) := by
  have e : ((s.postRefused s.refused).dropQueues.holdQueues.noteArrivals).freeMessages.era = s.era :=
    (freeMessages_era _).trans ((noteArrivals_era _).trans ((holdQueues_era _).trans ((dropQueues_era _).trans (postRefused_era ..))))
  obtain ⟨hclock, hboot⟩ := Prod.mk.inj e
  obtain ⟨hroll, hboots⟩ := Prod.mk.inj hboot
  unfold State.passTime
  dsimp only
  generalize ((s.postRefused s.refused).dropQueues.holdQueues.noteArrivals).freeMessages = x at *
  split
  · next h => exact ⟨hroll, hboots, hclock.ge, fun hn => by rw [hn] at h; cases h⟩
  · have hpass : s.clock < x.pass.clock := by
      show s.clock < x.clock + 1 + Config.extraClocks x.clock
      omega
    exact ⟨hroll, hboots, hpass.le, fun _ => hpass⟩

/-- Settles O57: no part of a step lowers one of the counts, an arm that starts the module again raises them, and only the passing of time
moves the clock. -/
theorem countersNeverFall : Obligations.CountersNeverFall := by
  unfold Obligations.CountersNeverFall
  intro s s' h
  have grows := runStep_grows s
  unfold step at h
  generalize runStep s = o at h grows
  cases o with
  | fault x | refused x => cases h
  | next x =>
    obtain rfl := Host.Outcome.next.inj h
    obtain ⟨hclock, hboot⟩ := Prod.mk_le_mk.mp grows
    obtain ⟨hroll, hboots⟩ := Prod.mk_le_mk.mp hboot
    obtain ⟨hroll', hboots', hclock', hstrict⟩ := (x.noteReleases s).passTime_counts
    exact ⟨hroll.trans hroll'.ge, hclock.trans hclock', fun hn => hclock.trans_lt (hstrict hn), hboots.trans hboots'.ge⟩

end Sys2Proof.Machine
end


section
/-! SUPPORT. Tiles of a thread that issues alone (R212, R214, R215, R355). -/

namespace Sys2Proof.Machine

/-! ### What the accessors leave and say -/

/-- R215: the fields 16 to 31 name staging tiles, the others accumulator tiles. -/
theorem tileEntryOf_eq : ∀ n : BitVec 5, tileEntryOf n = if n.toNat < 16 then n.toNat % 8 else 8 + n.toNat % 16 := by decide

theorem Block.tileCheck_decl {b : Block} {n : Nat} (h : (b.tile n).decl = true) : b.tileCheck n = none := if_pos h

theorem Block.tileCheck_undecl {b : Block} {n : Nat} (h : (b.tile n).decl = false) : b.tileCheck n = some (.regBound n) := by
  simp [Block.tileCheck, h]

/-- R212: the word of an entry that is declared. -/
theorem TileEntry.word_decl {e : TileEntry} (h : e.decl = true) :
    e.word = BitVec.ofNat 32 (e.state * 2 ^ 30 + 2 ^ 29 + e.cmd % 64 * 2 ^ 18 + e.base % 2 ^ 14) := by
  simp only [TileEntry.word, if_pos h]

/-- A register that is written leaves the issue in hand. -/
theorem State.setSlot_cur (s : State) (a : Nat) (v : Word) : (s.setSlot a v).cur = s.cur := by
  unfold State.setSlot
  split <;> rfl

theorem State.showSlots_cur (s : State) (late : List Late) : (s.showSlots late).cur = s.cur :=
  foldl_keeps State.cur _ (fun s l => by
    split
    · exact s.setSlot_cur ..
    split
    · exact s.setSlot_cur ..
    · rfl) _ _

/-- R301: a wait that ends leaves the issue in hand. -/
theorem State.coverTile_cur (s : State) (k n : Nat) : (s.coverTile k n).cur = s.cur := by
  unfold State.coverTile State.cover
  split
  · rfl
  · exact State.showSlots_cur ..

/-- R355: the cells of a row that thread index j moves. -/
theorem rowSlice_eq (x j : Nat) : rowSlice x j = [(x, j), (x, 64 + j), (x, 128 + j), (x, 192 + j)] := by
  simp [rowSlice, List.range_succ]

theorem checkPoison_nil (u : Thread) : checkPoison u [] = none := rfl

section
variable {s : State} {b : Block} {u : Thread} (h : Solo s b u)

/-! ### TSTAT and TWAIT (R215) -/

include h

theorem tstat_solo {d : Reg} {n : BitVec 5} (hd : (b.tile (tileEntryOf n)).decl = true) (hf : FieldsOk b u [d.toNat] [] []) :
    exec (.tstat d n) s = .next (s.done u (u.put d.toNat (b.tile (tileEntryOf n)).word)) := by
  obtain ⟨hregs, -⟩ := hf
  show Host.Outcome.next (s.lanes _) = _
  rw [lanes_solo h _ (u.put d.toNat (b.tile (tileEntryOf n)).word)]
  simp only [hregs, Block.tileCheck_decl hd]

/-- R215, R301: a tile that is neither filling nor draining ends the wait at once. -/
theorem twait_over {n : BitVec 5} (hd : (b.tile (tileEntryOf n)).decl = true)
    (hw : (b.tile (tileEntryOf n)).state = 2 ∨ (b.tile (tileEntryOf n)).state = 0) :
    exec (.twait n) s = .next ((s.progressed.coverTile u.tid (tileEntryOf n)).retireLane u.tid) := by
  show Host.Outcome.next (s.foldLanes _) = _
  rw [exec_fold h _ (.done (s.progressed.coverTile u.tid (tileEntryOf n)))]
  · rfl
  have ends : s.progressed.waitOver s.cur.blk (b.progressAt s.clock) { u with wait := .tile (tileEntryOf n) true } = true := by
    show (!(b.tile (tileEntryOf n)).decl || ((b.tile (tileEntryOf n)).state == 2 || (b.tile (tileEntryOf n)).state == 0)) = true
    rcases hw with hw | hw <;> simp [hw]
  rw [show (b.progressAt s.clock).tileCheck (tileEntryOf n) = none from Block.tileCheck_decl hd]
  exact if_pos ends

theorem twait_held {n : BitVec 5} (hd : (b.tile (tileEntryOf n)).decl = true)
    (hw : (b.tile (tileEntryOf n)).state = 1 ∨ (b.tile (tileEntryOf n)).state = 3) :
    exec (.twait n) s = .next (s.becomes u (u.hold s.cur (.tile (tileEntryOf n) true))) := by
  show Host.Outcome.next (s.foldLanes _) = _
  rw [exec_fold h _ (.wait (.tile (tileEntryOf n) true)), ← becomes_of h (fun t => t.hold s.cur (.tile (tileEntryOf n) true))]
  · rfl
  have held : ¬ s.progressed.waitOver s.cur.blk (b.progressAt s.clock) { u with wait := .tile (tileEntryOf n) true } = true := by
    show ¬ (!(b.tile (tileEntryOf n)).decl || ((b.tile (tileEntryOf n)).state == 2 || (b.tile (tileEntryOf n)).state == 0)) = true
    rcases hw with hw | hw <;> simp [hd, hw]
  rw [show (b.progressAt s.clock).tileCheck (tileEntryOf n) = none from Block.tileCheck_decl hd]
  exact if_neg held

theorem twait_undecl {n : BitVec 5} (hd : (b.tile (tileEntryOf n)).decl = false) :
    exec (.twait n) s = .next (s.progressed.takeTrap u.tid (.regBound (tileEntryOf n))) := by
  show Host.Outcome.next (s.foldLanes _) = _
  rw [exec_fold h _ (.trap s.progressed (.regBound (tileEntryOf n)))]
  · rfl
  rw [show (b.progressAt s.clock).tileCheck (tileEntryOf n) = some (.regBound (tileEntryOf n)) from Block.tileCheck_undecl hd]

/-! ### TMOV (R355) -/

variable {n : BitVec 3} {v : Reg} {o : BitVec 6} {lim : Nat} {vs srcs : List Nat} {act : State → Block → Thread → Nat → Nat → LaneRes}
  (hd : (b.tile n.toNat).decl = true) (hf : FieldsOk b u vs [v.toNat] []) (hp : checkPoison u srcs = none)
include hd hf hp

/-- What TMOV comes to once its fields are in order. -/
theorem tmov_solo : s.tmov n v o lim vs srcs act = .next (s.progressed.closeLane u.tid
    (if (b.tile n.toNat).state = 2 ∧ b.ownWriter u n.toNat = false then
      if lim ≤ ((b.sget u v.toNat).toNat + o.toNat) % 2 ^ 32 then
        .trap s.progressed { cause := .bound, extra := BitVec.ofNat 64 (((b.sget u v.toNat).toNat + o.toNat) % 2 ^ 32) }
      else act (s.progressed.coverTile u.tid n.toNat) (b.progressAt s.clock) u (u.tid % 64) (((b.sget u v.toNat).toNat + o.toNat) % 2 ^ 32)
    else .wait (.tile n.toNat false))) := by
  unfold State.tmov
  rw [exec_fold h _ _ rfl, lc _ _ _ _ hf, show (b.progressAt s.clock).tileCheck n.toNat = none from Block.tileCheck_decl hd, hp]
  have ends : s.progressed.waitOver s.cur.blk (b.progressAt s.clock) { u with wait := .tile n.toNat false } =
      decide ((b.tile n.toNat).state = 2 ∧ b.ownWriter u n.toNat = false) := by
    show (!(b.tile n.toNat).decl || ((b.tile n.toNat).state == 2 && !b.ownWriter u n.toNat)) = _
    rw [hd, Bool.decide_and]
    cases b.ownWriter u n.toNat <;> rfl
  simp only [State.progressed_cur, ends]
  by_cases full : (b.tile n.toNat).state = 2 ∧ b.ownWriter u n.toNat = false
  · rw [if_pos full, decide_eq_true full]
    rfl
  · rw [if_neg full, decide_eq_false full]
    rfl

/-- The slice of a full tile within the limit is moved once the commands that write it are covered. -/
theorem tmov_moves (full : (b.tile n.toNat).state = 2 ∧ b.ownWriter u n.toNat = false)
    (hx : ((b.sget u v.toNat).toNat + o.toNat) % 2 ^ 32 < lim) :
    s.tmov n v o lim vs srcs act = .next (s.progressed.closeLane u.tid (act (s.progressed.coverTile u.tid n.toNat) (b.progressAt s.clock) u (u.tid % 64)
      (((b.sget u v.toNat).toNat + o.toNat) % 2 ^ 32))) := by
  rw [tmov_solo h hd hf hp, if_pos full, if_neg (Nat.not_le.mpr hx)]

/-- A slice that holds no poisoned word comes to the registers. -/
theorem tmov_out {d : Nat} {cells : Nat → Nat → List (Nat × Nat)} (full : (b.tile n.toNat).state = 2 ∧ b.ownWriter u n.toNat = false)
    (hx : ((b.sget u v.toNat).toNat + o.toNat) % 2 ^ 32 < lim)
    (clean : ∀ c ∈ cells (((b.sget u v.toNat).toNat + o.toNat) % 2 ^ 32) (u.tid % 64), b.accSyndrome n.toNat c.1 c.2 = none) :
    s.tmov n v o lim vs srcs (fun s blk u j x => s.tmovOut blk u n.toNat d (cells x j)) =
      .next (((s.progressed.coverTile u.tid n.toNat).updThread s.cur.blk u.tid (fun t => t.putList d
        ((cells (((b.sget u v.toNat).toNat + o.toNat) % 2 ^ 32) (u.tid % 64)).map (fun c => b.acc n.toNat c.1 c.2)))).retireLane u.tid) := by
  have unspoilt := List.findSome?_eq_none_iff.mpr clean
  rw [tmov_moves h hd hf hp full hx, State.tmovOut, show (b.progressAt s.clock).accSyndrome = b.accSyndrome from rfl, unspoilt, State.coverTile_cur]
  rfl

/-- Registers come to a slice, cell by cell. -/
theorem tmov_in {d : Nat} {cells : Nat → Nat → List (Nat × Nat)} (full : (b.tile n.toNat).state = 2 ∧ b.ownWriter u n.toNat = false)
    (hx : ((b.sget u v.toNat).toNat + o.toNat) % 2 ^ 32 < lim) :
    s.tmov n v o lim vs srcs (fun s _ u j x => s.tmovIn u n.toNat d (cells x j)) =
      .next ((((s.progressed.coverTile u.tid n.toNat).noteTile s.cur.blk n.toNat
        (cells (((b.sget u v.toNat).toNat + o.toNat) % 2 ^ 32) (u.tid % 64))).updBlock s.cur.blk (fun c =>
          (cells (((b.sget u v.toNat).toNat + o.toNat) % 2 ^ 32) (u.tid % 64)).zipIdx.foldl
            (fun c x => c.putAcc n.toNat x.1.1 x.1.2 (u.get (d + x.2))) c)).retireLane
            u.tid) := by
  rw [tmov_moves h hd hf hp full hx, State.tmovIn, State.coverTile_cur]
  rfl

theorem tmov_beyond (full : (b.tile n.toNat).state = 2 ∧ b.ownWriter u n.toNat = false)
    (hx : lim ≤ ((b.sget u v.toNat).toNat + o.toNat) % 2 ^ 32) :
    s.tmov n v o lim vs srcs act = .next (s.progressed.takeTrap u.tid
      { cause := .bound, extra := BitVec.ofNat 64 (((b.sget u v.toNat).toNat + o.toNat) % 2 ^ 32) }) := by
  rw [tmov_solo h hd hf hp, if_pos full, if_pos hx]
  rfl

/-- The thread waits for a tile that is not full, and for one that a command of its own is still to write. -/
theorem tmov_held (hw : (b.tile n.toNat).state ≠ 2 ∨ b.ownWriter u n.toNat = true) :
    s.tmov n v o lim vs srcs act = .next (s.becomes u (u.hold s.cur (.tile n.toNat false))) := by
  have hn : ¬ ((b.tile n.toNat).state = 2 ∧ b.ownWriter u n.toNat = false) := by
    rintro ⟨h2, hown⟩
    rcases hw with hw | hw
    · exact hw h2
    · rw [hown] at hw
      cases hw
  rw [tmov_solo h hd hf hp, if_neg hn, ← becomes_of h (fun t => t.hold s.cur (.tile n.toNat false))]
  rfl

end

theorem exec_tmovTr (d : Reg) (n : BitVec 3) (v : Reg) (o : BitVec 6) (s : State) : exec (.tmovTr d n v o) s =
    s.tmov n v o 64 [d.toNat, d.toNat + 1, d.toNat + 2, d.toNat + 3] [] (fun s blk u j x => s.tmovOut blk u n.toNat d.toNat (rowSlice x j)) := rfl
theorem exec_tmovTc (d : Reg) (n : BitVec 3) (v : Reg) (o : BitVec 6) (s : State) : exec (.tmovTc d n v o) s =
    s.tmov n v o 256 [d.toNat] [] (fun s blk u j x => s.tmovOut blk u n.toNat d.toNat [(j, x)]) := rfl
theorem exec_tmovRt (d : Reg) (n : BitVec 3) (v : Reg) (o : BitVec 6) (s : State) : exec (.tmovRt d n v o) s =
    s.tmov n v o 64 [d.toNat, d.toNat + 1, d.toNat + 2, d.toNat + 3] [d.toNat, d.toNat + 1, d.toNat + 2, d.toNat + 3]
      (fun s _ u j x => s.tmovIn u n.toNat d.toNat (rowSlice x j)) := rfl
theorem exec_tmovCt (d : Reg) (n : BitVec 3) (v : Reg) (o : BitVec 6) (s : State) : exec (.tmovCt d n v o) s =
    s.tmov n v o 256 [d.toNat] [d.toNat] (fun s _ u j x => s.tmovIn u n.toNat d.toNat [(j, x)]) := rfl

/-- Settles O35: TSTAT and TWAIT from the entry, and TMOV by its one shape, with what each direction does to the slice. -/
theorem tileMoves : Obligations.TileMoves := by
  unfold Obligations.TileMoves
  intro s b u h
  refine ⟨fun d n => ?_, fun d v n o => ?_⟩
  · rw [← tileEntryOf_eq n]
    refine ⟨fun hd hf => ?_, twait_over h, twait_held h, twait_undecl h⟩
    rw [tstat_solo h hd hf, TileEntry.word_decl hd]
  · intro x j S gets puts hd
    refine ⟨fun h2 hown =>
      ⟨fun hx hf => ⟨fun hs => ?_, fun hp => ?_⟩, fun hx hf => ⟨fun hs => ?_, fun hp => ?_⟩, fun hx hf => ?_⟩, fun hw hf => ?_⟩
    · have clean : ∀ c ∈ rowSlice x j, b.accSyndrome n.toNat c.1 c.2 = none := by
        intro c hc
        obtain ⟨i, hi, rfl⟩ := List.mem_map.mp hc
        exact hs i (List.mem_range.mp hi)
      rw [exec_tmovTr, tmov_out h hd hf (checkPoison_nil u) ⟨h2, hown⟩ hx clean, rowSlice_eq]
      rfl
    · rw [exec_tmovRt, tmov_in h hd hf hp ⟨h2, hown⟩ hx, rowSlice_eq]
      rfl
    · have clean : ∀ c ∈ [(j, x)], b.accSyndrome n.toNat c.1 c.2 = none := by
        intro c hc
        rw [List.mem_singleton.mp hc]
        exact hs
      rw [exec_tmovTc, tmov_out (cells := fun x j => [(j, x)]) h hd hf (checkPoison_nil u) ⟨h2, hown⟩ hx clean]
      rfl
    · rw [exec_tmovCt, tmov_in (cells := fun x j => [(j, x)]) h hd hf hp ⟨h2, hown⟩ hx]
      rfl
    · rw [exec_tmovTr, tmov_beyond h hd hf (checkPoison_nil u) ⟨h2, hown⟩ hx]
    · rw [exec_tmovTr, tmov_held h hd hf (checkPoison_nil u) hw]

end Sys2Proof.Machine
end


section
/-! SUPPORT. The issue of an engine command by a thread alone (R298, R301, R344, R425). -/

namespace Sys2Proof.Machine

/-! ### What an issue does beside the command's place in the window -/

/-- A thread but for what its registers hold. -/
def Thread.sansRegs (t : Thread) : Thread := { t with regs := [] }

theorem Thread.guardOk_sansRegs (t : Thread) : t.sansRegs.guardOk = t.guardOk := rfl

/-- Block p is `b` but for what the registers of its threads hold, and the issue in hand is that of `s0`. -/
def State.rewrites (s0 : State) (p : Nat) (b : Block) (s : State) : Prop :=
  s.cur = s0.cur ∧ ∃ ths, s.blocks[p]? = some { b with threads := ths } ∧ ths.map Thread.sansRegs = b.threads.map Thread.sansRegs

theorem State.rewrites_of_blocks {s0 s : State} {p : Nat} {b : Block} (hc : s.cur = s0.cur) (hb : s.blocks[p]? = some b) : s0.rewrites p b s :=
  ⟨hc, b.threads, hb, rfl⟩

/-- A register slot that is written changes a register of one thread. -/
theorem State.rewrites_setSlot {s0 s : State} {p : Nat} {b : Block} (h : s0.rewrites p b s) (a : Nat) (v : Word) : s0.rewrites p b (s.setSlot a v) := by
  obtain ⟨hc, ths, hb, hm⟩ := h
  unfold State.setSlot
  split
  · next i j n _ =>
    refine ⟨hc, ?_⟩
    by_cases e : i = p
    · subst e
      exact ⟨upd ths j (fun t => { t with regs := t.regs.set n v }), State.updBlock_get s i _ { b with threads := ths } hb,
        (map_upd_of_kept _ _ (fun t => { t with regs := t.regs.set n v }) _ fun _ => rfl).trans hm⟩
    · exact ⟨ths, (upd_get_other _ _ _ _ e).trans hb, hm⟩
  · exact ⟨hc, ths, hb, hm⟩

/-- R301: undefined register slots leave the block but for registers. -/
theorem State.rewrites_blurSlots {s : State} {p : Nat} {b : Block} (hb : s.blocks[p]? = some b) (q : Req) (ws : List (Nat × Nat × Nat)) :
    s.rewrites p b (s.blurSlots q ws).1 := by
  unfold State.blurSlots
  dsimp only
  split
  · exact State.rewrites_of_blocks rfl hb
  · exact List.foldlRecOn _ _ (State.rewrites_of_blocks rfl hb) fun s h l _ => State.rewrites_setSlot h _ _

theorem State.rewrites_atIssue {s : State} {p : Nat} {b : Block} (hb : s.blocks[p]? = some b) (l : Level) (op : Nat) (pb : List Word)
    (ws : List (Nat × Nat × Nat)) : s.rewrites p b (s.atIssue b l op pb ws).1 := by
  unfold State.atIssue
  split
  · exact State.rewrites_blurSlots hb _ _
  split
  · split
    · exact State.rewrites_of_blocks rfl hb
    · exact State.rewrites_of_blocks rfl hb
  · exact State.rewrites_of_blocks rfl hb

/-- The thread that issues alone still does when registers of its block hold something else. -/
theorem Solo.of_rewrites {s s' : State} {b : Block} {t : Thread} (h : Solo s b t) (hr : s.rewrites s.cur.blk b s') :
    ∃ ths t', t'.tid = t.tid ∧ Solo s' { b with threads := ths } t' := by
  obtain ⟨hc, ths, hb, hm⟩ := hr
  have same (k : Nat) : (ths[k]?).map Thread.sansRegs = (b.threads[k]?).map Thread.sansRegs := by
    rw [← List.getElem?_map, ← List.getElem?_map, hm]
  obtain ⟨t', ht', e⟩ := Option.map_eq_some_iff.mp ((same t.tid).trans (congrArg _ h.thread))
  have tid : t'.tid = t.tid := (congrArg Thread.tid e : t'.sansRegs.tid = t.sansRegs.tid)
  refine ⟨ths, t', tid, ?_, ?_, ?_, ?_, ?_⟩
  · show s'.blocks[s'.cur.blk]? = _
    rw [hc, hb]
  · rw [tid]
    exact ht'
  · rw [hc, tid, h.alone]
  · rw [← t'.guardOk_sansRegs, e, t.guardOk_sansRegs, h.guard]
  · intro k u hu
    obtain ⟨u', hu', e'⟩ := Option.map_eq_some_iff.mp ((same k).symm.trans (congrArg _ hu))
    have same' : u'.tid = u.tid := (congrArg Thread.tid e' : u'.sansRegs.tid = u.sansRegs.tid)
    exact same'.symm.trans (h.numbered k u' hu')

theorem State.blurSlots_addrs (s : State) (q : Req) (ws : List (Nat × Nat × Nat)) : (s.blurSlots q ws).2.map (·.addr) = s.slotsIn q ws := by
  unfold State.blurSlots
  dsimp only
  split
  · next h => rw [List.isEmpty_iff.mp h]; rfl
  · rw [List.map_map]
    exact List.zipIdx_map_fst 0 _

theorem State.blurSlots_late {s : State} {q : Req} {ws : List (Nat × Nat × Nat)} {l : Late} (h : l ∈ (s.blurSlots q ws).2) :
    l.value = s.slotWord l.addr ∧ l.written = false ∧ ∃ n, l.shown = Config.freeWord s.fresh n := by
  unfold State.blurSlots at h
  dsimp only at h
  split at h
  · cases h
  · obtain ⟨p, -, rfl⟩ := List.mem_map.mp h
    exact ⟨rfl, rfl, p.2, rfl⟩

theorem State.blurSlots_none {s : State} {q : Req} {ws : List (Nat × Nat × Nat)} (h : (s.blurSlots q ws).2 = []) : (s.blurSlots q ws).1 = s := by
  have e := s.blurSlots_addrs q ws
  rw [h] at e
  unfold State.blurSlots
  rw [← e]
  rfl

section
variable (s : State) (b : Block) (l : Level) {op : Nat} (pb : List Word) (ws : List (Nat × Nat × Nat))

theorem State.atIssue_blur (h : op = 0x10 ∨ op = 0x11) :
    s.atIssue b l op pb ws = ((s.blurSlots (b.storeReq l) ws).1, { late := (s.blurSlots (b.storeReq l) ws).2 }) := if_pos h

theorem State.atIssue_plain (h10 : op ≠ 0x10) (h11 : op ≠ 0x11) (h13 : op ≠ 0x13) : s.atIssue b l op pb ws = (s, {}) := by
  rw [State.atIssue, if_neg (not_or.mpr ⟨h10, h11⟩), if_neg h13]

theorem State.atIssue_counted {bytes : List Byte} {s1 : State}
    (h : s.readVa (b.loadReq l) false (pbw pb 1 + 2 ^ 32 * pbw pb 2) 32 = .ok (bytes, s1)) :
    s.atIssue b l 0x13 pb ws = ((s.countColl b.owner (fld (ofBytes bytes) 32 160) (fld (pbw pb 4) 16 16)).1,
      { group := ofBytes bytes, matchNo := (s.countColl b.owner (fld (ofBytes bytes) 32 160) (fld (pbw pb 4) 16 16)).2 }) := by
  rw [State.atIssue, if_neg (by decide), if_pos rfl, h]

theorem State.atIssue_unread {e : MemFault × Nat}
    (h : s.readVa (b.loadReq l) false (pbw pb 1 + 2 ^ 32 * pbw pb 2) 32 = .error e) : s.atIssue b l 0x13 pb ws = (s, {}) := by
  rw [State.atIssue, if_neg (by decide), if_pos rfl, h]

theorem State.atIssue_coll_late : (s.atIssue b l 0x13 pb ws).2.late = [] := by
  rw [State.atIssue, if_neg (by decide), if_pos rfl]
  split <;> rfl

end

/-! ### The command, and the block that it enters -/

/-- The command that an issue places in the window (R298, R299). -/
def Block.newCmd (b : Block) (uid op id p q : Nat) (pb : List Word) (recs : SMap Nat) (l : Level) (view : Nat)
    (writes : List (Nat × Nat × Nat)) (more : AtIssue) : Cmd :=
  { uid := uid, id := id, op5 := op, seq := (b.issued.getD (kindOf op) 0 + 1) % 2 ^ 32, preds := [b.bindPred p, b.bindPred q], pb := pb
    recs := recs, view := view, level := l, declared := (b.declares op pb).isSome
    fin := if !(op ≤ 2) || recMatrix b.record then none else some 8, writes := writes
    tiles := tilesWritten op pb, late := more.late, group := more.group, matchNo := more.matchNo }

/-- R353: the tile table after the issue. -/
def Block.tilesAtIssue (b : Block) (op id : Nat) (pb : List Word) : List TileEntry :=
  match b.declares op pb with
  | none => b.ttab
  | some (base, size) => upd b.ttab (8 + fld (pbw pb 0) 4 27) (fun _ => { state := 1, decl := true, cmd := id, base := base / 16, size := size })

/-- R298: a block with one command more in its window, the next of its kind. -/
def Block.enter (b : Block) (c : Cmd) (kind : Nat) (tiles : List TileEntry) : Block :=
  { b with window := b.window ++ [c], issued := upd b.issued kind (fun n => (n + 1) % 2 ^ 32), ttab := tiles }

/-- Placing a command does not look at what registers hold. -/
theorem Block.placeCmd_eq (b : Block) (ths : List Thread) (uid op id p q : Nat) (pb : List Word) (recs : SMap Nat) (l : Level) (view : Nat)
    (writes : List (Nat × Nat × Nat)) (more : AtIssue) :
    ({ b with threads := ths } : Block).placeCmd uid op id p q pb recs l view writes more =
      ({ b with threads := ths } : Block).enter (b.newCmd uid op id p q pb recs l view writes more) (kindOf op) (b.tilesAtIssue op id pb) := rfl

theorem Block.newCmd_fin (b : Block) (uid op id p q : Nat) (pb : List Word) (recs : SMap Nat) (l : Level) (view : Nat)
    (writes : List (Nat × Nat × Nat)) (more : AtIssue) :
    (b.newCmd uid op id p q pb recs l view writes more).fin = if op ≤ 2 ∧ recMatrix b.record = false then some 8 else none := by
  unfold Block.newCmd
  by_cases h : op ≤ 2 <;> cases recMatrix b.record <;> simp [h]

/-! ### The issue -/

/-- R302: a command joins the thread's open batch. -/
def Thread.batched (t : Thread) (uid : Nat) : Thread := { t with openB := t.openB ++ [uid], unwaited := t.unwaited ++ [uid] }

/-- A lane that cannot fault, once the block has changed but for its threads. -/
theorem lanes_entered {s : State} {b : Block} {t : Thread} (h : Solo s b t) (place : Block → Block) (kept : (place b).threads = b.threads)
    (n : Nat) (f : Thread → Thread) :
    (({ s with uids := n } : State).updBlock s.cur.blk place).lanes (fun _ t => .ok (f t)) =
      (({ s with uids := n } : State).updBlock s.cur.blk place).progressed.updThread s.cur.blk t.tid (fun u => (f u).retire s.cur) := by
  have placed := solo_upd h place kept n
  rw [lanes_solo placed _ (f t) rfl]
  exact (becomes_of placed (fun u => (f u).retire s.cur)).symm

/-- The records that a parameter block names, each once it lies within the scalar registers (R382). -/
def Block.recsAt (b : Block) (t : Thread) (op : Nat) (pb : List Word) : SMap Nat :=
  (recRefs op pb).foldl (fun m j => if t.swb + 4 * j + 3 < b.sregs.length then SMap.set m j (b.recOf t j) else m) []

/-- A record that has been noted stays. -/
theorem foldl_set_of_held {ok : Nat → Prop} [DecidablePred ok] {v : Nat → Nat} {j : Nat} (l : List Nat) :
    ∀ m : SMap Nat, SMap.get m j = some (v j) → SMap.get (l.foldl (fun m i => if ok i then SMap.set m i (v i) else m) m) j = some (v j) := by
  induction l with
  | nil => exact fun m hm => hm
  | cons i l ih =>
    intro m hm
    refine ih _ ?_
    by_cases hi : ok i
    · by_cases e : j = i
      · simp only [if_pos hi, e, SMap.get_set_same]
      · simp only [if_pos hi, SMap.get_set_other _ _ _ _ e, hm]
    · simp only [if_neg hi, hm]

theorem foldl_set_get {ok : Nat → Prop} [DecidablePred ok] {v : Nat → Nat} {j : Nat} (hj : ok j) :
    ∀ (l : List Nat) (m : SMap Nat), j ∈ l → SMap.get (l.foldl (fun m i => if ok i then SMap.set m i (v i) else m) m) j = some (v j)
  | i :: l, m, h => by
    rcases List.mem_cons.mp h with rfl | h
    · rw [List.foldl_cons, if_pos hj]
      exact foldl_set_of_held l _ (SMap.get_set_same _ _ _)
    · exact foldl_set_get hj l _ h

theorem recsAt_get (b : Block) (t : Thread) (op : Nat) (pb : List Word) {j : Nat} (hj : j ∈ recRefs op pb) (hl : t.swb + 4 * j + 3 < b.sregs.length) :
    SMap.get (b.recsAt t op pb) j = some (b.recOf t j) :=
  foldl_set_get (ok := fun j => t.swb + 4 * j + 3 < b.sregs.length) (v := b.recOf t) hl _ _ hj

section
variable {s : State} {b : Block} {t : Thread} {op : Nat} {id p q : BitVec 6} {k : BitVec 5} (h : Solo s b t)
  (hf : FieldsOk b t [] (upto (8 * k.toNat) 1 8) [])
include h hf

theorem issueCmd_trap {tr : Trap} (ht : b.tileFault op ((List.range 8).map (fun n => b.sget t (8 * k.toNat + n))) = some tr) :
    s.issueCmd op id p q k = .next (s.progressed.takeTrap t.tid tr) := by
  obtain ⟨hregs, -⟩ := hf
  have hb : s.blocks[s.cur.blk]? = some b := h.block
  simp only [State.issueCmd, hb, passing_solo h, List.head?_cons, hregs, ht]
  exact congrArg _ (lanesBy_solo_trap h _ _ tr rfl)

variable (ht : b.tileFault op ((List.range 8).map (fun n => b.sget t (8 * k.toNat + n))) = none)
include ht

theorem issueCmd_held (hc : (b.command id.toNat).isSome = true) :
    s.issueCmd op id p q k = .next (s.becomes t (t.hold s.cur (.window id.toNat))) := by
  obtain ⟨hregs, -⟩ := hf
  have hb : s.blocks[s.cur.blk]? = some b := h.block
  simp only [State.issueCmd, hb, passing_solo h, List.head?_cons, hregs, ht, if_pos hc]
  exact congrArg _ (lanesBy_solo_ok h _ _ _ rfl)

/-- R298: the command enters the window, and the thread goes on with it in its open batch. -/
theorem issueCmd_placed (hc : b.command id.toNat = none) :
    let pb := (List.range 8).map (fun n => b.sget t (8 * k.toNat + n))
    let ws := s.cmdWrites b t op pb (b.recsAt t op pb)
    let z := s.atIssue b t.level op pb ws
    let c := b.newCmd s.uids op id.toNat p.toNat q.toNat pb (b.recsAt t op pb) t.level (ofenceView (kindOf op) t.oview) ws z.2
    s.issueCmd op id p q k = .next ((({ z.1 with uids := s.uids + 1 } : State).updBlock s.cur.blk
      (fun b' => b'.enter c (kindOf op) (b.tilesAtIssue op id.toNat pb))).progressed.updThread s.cur.blk t.tid
        (fun u => (u.batched s.uids).retire s.cur)) := by
  intro pb ws z c
  obtain ⟨hregs, -⟩ := hf
  have hb : s.blocks[s.cur.blk]? = some b := h.block
  have hr : s.rewrites s.cur.blk b z.1 := State.rewrites_atIssue hb _ _ _ _
  obtain ⟨ths, t', tid, h'⟩ := h.of_rewrites hr
  have cur : z.1.cur = s.cur := hr.1
  have hb' : z.1.blocks[s.cur.blk]? = some { b with threads := ths } := cur ▸ h'.block
  have free : ¬ (b.command id.toNat).isSome = true := by simp [hc]
  simp only [State.issueCmd, hb, passing_solo h, List.head?_cons, hregs, ht, if_neg free, List.foldl_cons, List.foldl_nil, Nat.zero_max]
  refine congrArg Host.Outcome.next ?_
  calc
    _ = (({ z.1 with uids := s.uids + 1 } : State).updBlock s.cur.blk (fun b' => b'.enter c (kindOf op) (b.tilesAtIssue op id.toNat pb))).lanes
        (fun _ t => .ok (t.batched s.uids)) :=
      congrArg (fun r : State => r.lanes (fun _ t => .ok (t.batched s.uids)))
        (updBlock_congr _ _ _ _ _ hb' (Block.placeCmd_eq _ _ _ _ _ _ _ _ _ _ _ _ _))
    _ = _ := by
      rw [← cur, ← tid]
      exact lanes_entered h' _ rfl _ _

end

/-! ### The obligation -/

/-- The command that a group issues, with its kind. -/
theorem exec_command (s : State) (id p q : BitVec 6) (k : BitVec 5) (x : Nat × Nat × Instr)
    (hx : x ∈ [(0x00, 0, Instr.bload id p q k), (0x01, 0, .mma id p q k), (0x02, 0, .mmas id p q k), (0x03, 0, .tzero id p q k),
      (0x04, 0, .tdrain id p q k), (0x05, 0, .tfill id p q k), (0x08, 1, .xtrav id p q k), (0x09, 1, .xtravRes id p q k),
      (0x10, 2, .copy id p q k), (0x11, 2, .scatter id p q k), (0x12, 2, .restripe id p q k), (0x13, 3, .coll id p q k),
      (0x18, 4, .enc id p q k), (0x19, 5, .emit id p q k), (0x1A, 5, .ndone id p q k), (0x1B, 5, .tcbarm id p q k),
      (0x1C, 5, .tcbret id p q k)]) :
    exec x.2.2 s = s.issueCmd x.1 id p q k ∧ kindOf x.1 = x.2.1 := by
  simp only [List.mem_cons, List.not_mem_nil, or_false] at hx
  rcases hx with rfl | rfl | rfl | rfl | rfl | rfl | rfl | rfl | rfl | rfl | rfl | rfl | rfl | rfl | rfl | rfl | rfl
  all_goals exact ⟨rfl, rfl⟩

/-- Settles O39: an issue alone traps, waits for its ID, or places one command, whose fields and whose mark on the tile table the lemmas
above give. -/
theorem commandIssue : Obligations.CommandIssue := by
  unfold Obligations.CommandIssue
  intro s b t id p q k h x hx
  obtain ⟨ex, hk⟩ := exec_command s id p q k x hx
  obtain ⟨op, kind, i⟩ := x
  dsimp only at ex hk
  subst hk
  intro pb bound recs z hf
  refine ⟨fun tr ht => ex.trans (issueCmd_trap h hf ht), fun ht hc => ex.trans (issueCmd_held h hf ht hc), fun ht hc => ?_⟩
  refine ⟨b.newCmd s.uids op id.toNat p.toNat q.toNat pb recs t.level (ofenceView (kindOf op) t.oview) (s.cmdWrites b t op pb recs) z.2,
    b.tilesAtIssue op id.toNat pb, ex.trans (issueCmd_placed h hf ht hc), rfl, rfl, rfl, rfl, rfl, rfl, rfl, fun j hj hl => recsAt_get b t op pb hj hl,
    rfl, rfl, rfl, rfl, rfl, rfl, rfl, rfl, rfl, State.atIssue_plain s b t.level pb _, fun hm => ?_, fun hm => ?_, rfl, rfl, rfl,
    Block.newCmd_fin _ _ _ _ _ _ _ _ _ _ _ _, fun hn => ?_, fun base size hd => ?_⟩
  · have hz : z = _ := State.atIssue_blur s b t.level pb _ hm
    have late : z.2.late = (s.blurSlots (b.storeReq t.level) (s.cmdWrites b t op pb recs)).2 := congrArg (fun r : State × AtIssue => r.2.late) hz
    refine ⟨congrArg (fun r : State × AtIssue => r.2.group) hz, congrArg (fun r : State × AtIssue => r.2.matchNo) hz,
      (congrArg (List.map (·.addr)) late).trans (State.blurSlots_addrs _ _ _), fun l hl => ?_, fun hn => ?_⟩
    · exact State.blurSlots_late ((congrArg (l ∈ ·) late).mp hl)
    · exact (congrArg Prod.fst hz).trans (State.blurSlots_none (late.symm.trans hn))
  · subst hm
    refine ⟨State.atIssue_coll_late s b t.level pb _, fun bytes s1 hread => ?_, fun e hread => State.atIssue_unread s b t.level pb _ hread⟩
    have hz : z = _ := State.atIssue_counted s b t.level pb _ hread
    exact ⟨congrArg (fun r : State × AtIssue => r.2.group) hz, congrArg (fun r : State × AtIssue => r.2.matchNo) hz, congrArg Prod.fst hz⟩
  · show b.tilesAtIssue _ _ _ = _
    rw [Block.tilesAtIssue, hn]
  · show b.tilesAtIssue _ _ _ = _
    rw [Block.tilesAtIssue, hd]

end Sys2Proof.Machine
end


section
/-! SUPPORT. The scalar unit of a thread that issues alone (R186, R187, R214, R216, R230, R301). -/

namespace Sys2Proof.Machine

/-- The block in issue with its threads as they were still has the thread that issues alone. -/
theorem Solo.same_threads {s s' : State} {b b' : Block} {t : Thread} (h : Solo s b t) (hc : s'.cur = s.cur) (hb : s'.blocks[s.cur.blk]? = some b')
    (ht : b'.threads = b.threads) : Solo s' b' t where
  block := by rw [State.issuing, hc, hb]
  thread := ht ▸ h.thread
  alone := hc ▸ h.alone
  guard := h.guard
  numbered := by rw [Block.Numbered, ht]; exact h.numbered

/-- A change of the block in issue that leaves its threads as they were. -/
theorem Solo.updBlock {s : State} {b : Block} {t : Thread} (h : Solo s b t) (f : Block → Block) (ht : (f b).threads = b.threads) :
    Solo (s.updBlock s.cur.blk f) (f b) t := h.same_threads rfl (State.updBlock_get _ _ _ _ h.block) ht

theorem Solo.drew {s : State} {b : Block} {t : Thread} (h : Solo s b t) : Solo s.drew b t := h.same_threads rfl h.block rfl

/-- R301: a store to the block's own scratchpad leaves the issue in hand. -/
theorem Solo.afterStore {s : State} {b : Block} {t : Thread} (h : Solo s b t) (x : Nat) (bytes : List Byte) :
    ∃ b', Solo (s.afterStore s.cur.blk b x bytes) b' t := by
  obtain ⟨b', hb', halike⟩ := afterStore_home h.block x bytes
  refine ⟨b', h.same_threads ?_ hb' halike.kept.1⟩
  rw [State.afterStore]
  cases b.windowAt x <;> simp [State.noteStale, State.noteStaleAt]

/-! ## One execution of the scalar unit (R186, R187) -/

section
variable {s : State} {b : Block} {t : Thread} (h : Solo s b t) {vs ss srcs : List Nat} {act : State → Block → Thread → Except Trap State}
  {each : Block → Thread → Thread} (hf : FieldsOk b t vs ss srcs)
include h hf

/-- R186: the unit runs for the thread, which then goes on. -/
theorem scalarUnit_done {s' : State} {b' : Block} (ha : act s b t = .ok s') (h' : Solo s' b' t) :
    s.scalarUnit vs ss act each = .next (s'.done t (each b t)) := by
  have hb : s.blocks[s.cur.blk]? = some b := h.block
  simp only [State.scalarUnit, hb, passing_solo h, List.find?_cons, hf.1, Option.isNone_none, ha]
  exact congrArg _ (lanes_solo h' _ _ (by simp only [hf.1]))

/-- R187: the condition that the unit meets is the thread's. -/
theorem scalarUnit_trap {tr : Trap} (ha : act s b t = .error tr) :
    s.scalarUnit vs ss act each = .next (s.progressed.takeTrap t.tid tr) := by
  have hb : s.blocks[s.cur.blk]? = some b := h.block
  simp only [State.scalarUnit, hb, passing_solo h, List.find?_cons, hf.1, Option.isNone_none, ha]
  exact congrArg _ (lanesBy_solo_trap h _ _ _ (by simp only [hf.1, Option.getD_none]))

end

/-! ## Results in scalar registers (R186) -/

section
variable {s : State} {b : Block} {t : Thread} (h : Solo s b t) {d a v : Reg}
include h

/-- R186: the unit writes s(SWB + d). -/
theorem scalarUnit_sets {vs ss srcs : List Nat} {act : State → Block → Thread → Except Trap State} (hf : FieldsOk b t vs ss srcs) {s' : State}
    {b' : Block} (h' : Solo s' b' t) {i : Nat} {x : Word} (ha : act s b t = .ok (s'.setScalar t i x)) :
    s.scalarUnit vs ss act (fun _ t => t) = .next (s'.afterScalar t (t.swb + i) x) :=
  scalarUnit_done h hf ha (h'.updBlock _ rfl)

theorem sbin_eq {i : Instr} {f : Word → Word → Word} {z : Word} (hi : exec i s = s.sbin d a v f)
    (hf : FieldsOk b t [] (d.toNat :: (s.scA a.toNat 1 ++ s.scB v.toNat 1)) []) (e : f (s.sopA b t a.toNat) (s.sopB b t v.toNat) = z) :
    exec i s = .next (s.afterScalar t (t.swb + d.toNat) z) :=
  hi.trans (e ▸ scalarUnit_sets h hf h rfl)

theorem sun_eq {i : Instr} {f : Word → Word} {z : Word} (hi : exec i s = s.sun d a f) (hf : FieldsOk b t [] (d.toNat :: s.scA a.toNat 1) [])
    (e : f (s.sopA b t a.toNat) = z) : exec i s = .next (s.afterScalar t (t.swb + d.toNat) z) :=
  hi.trans (e ▸ scalarUnit_sets h hf h rfl)

theorem execScmp_eq (c p : BitVec 3) (hf : FieldsOk b t [] (s.scA a.toNat 1 ++ s.scB v.toNat 1) []) :
    execScmp c p a v s = .next (s.done t (t.putPred p.toNat (icond c (s.sopA b t a.toNat) (s.sopB b t v.toNat)))) :=
  scalarUnit_done h hf rfl h

theorem execV2s_eq (hf : FieldsOk b t (s.vecA a.toNat 1) [d.toNat] (s.vecA a.toNat 1)) :
    execV2s d a s = .next (s.afterScalar t (t.swb + d.toNat) (s.opA t a.toNat)) :=
  scalarUnit_sets h hf h (by rw [hf.2])

theorem execS2v_eq (hf : FieldsOk b t [d.toNat] (s.scA a.toNat 1) []) :
    execS2v d a s = .next (s.done t (t.put d.toNat (s.sopA b t a.toNat))) :=
  scalarUnit_done h hf rfl h

theorem execSadd64_eq (ha : s.litFor .a = none) (hv : s.litFor .b = none)
    (hf : FieldsOk b t [] [d.toNat, d.toNat + 1, a.toNat, a.toNat + 1, v.toNat, v.toNat + 1] []) {z : DWord}
    (hz : b.sget64 t a.toNat + b.sget64 t v.toNat = z) :
    execSadd64 d a v s = .next ((s.updBlock s.cur.blk (fun b => b.sput (t.swb + d.toNat) (z.setWidth 32))).afterScalar t
      (t.swb + (d.toNat + 1)) ((z >>> 32).setWidth 32)) := by
  have hfields : FieldsOk b t [] (upto d.toNat 1 2 ++ (s.scA a.toNat 2 ++ s.scB v.toNat 2)) [] := by
    rw [State.scA, State.scB, ha, hv]
    exact hf
  refine scalarUnit_sets h hfields (h.updBlock _ rfl) ?_
  simp only [ha, hv, Option.map_none, Option.getD_none, hz]
  rfl

/-! ## Words of the scratchpad (R187, R214, R216, R230, R301) -/

section
variable {x : Nat} {k : Reg} (hx : x = (s.sopA b t a.toNat).toNat + 4 * k.toNat) (hf : FieldsOk b t [] (d.toNat :: s.scA a.toNat 1) [])
include hx hf

theorem scalarWord_misplaced {tr : Trap} (hp : s.place b false x 4 = .error tr) :
    execSld32 d a k s = .next (s.progressed.takeTrap t.tid tr) ∧ execSst32 d a k s = .next (s.progressed.takeTrap t.tid tr) := by
  subst hx
  exact ⟨scalarUnit_trap h hf (by simp only [hp]), scalarUnit_trap h hf (by simp only [hp])⟩

theorem execSld32_loaded {sp : Spot} (hp : s.place b false x 4 = .ok sp) {bytes : List Byte} {s' : State}
    (hl : s.localLoad t sp 4 = .ok (bytes, s')) (h' : Solo s' b t) :
    execSld32 d a k s = .next (s'.afterScalar t (t.swb + d.toNat) (BitVec.ofNat 32 (ofBytes bytes))) := by
  subst hx
  exact scalarUnit_sets h hf h' (by simp only [hp, hl])

theorem execSld32_poisoned {sp : Spot} (hp : s.place b false x 4 = .ok sp) {syn : Nat} (hl : s.localLoad t sp 4 = .error syn) :
    execSld32 d a k s = .next (s.progressed.takeTrap t.tid (.poisonAt syn x)) := by
  subst hx
  exact scalarUnit_trap h hf (by simp only [hp, hl])

theorem execSst32_stored {sp : Spot} (hp : s.place b false x 4 = .ok sp) {s' : State} {b' : Block}
    (hl : s.localStore t sp (toBytes 4 (b.sget t d.toNat).toNat) = .ok s') (h' : Solo s' b' t) :
    execSst32 d a k s = .next (s'.done t t) := by
  subst hx
  exact scalarUnit_done h hf (by simp only [hp, hl]) h'

theorem execSst32_live {sp : Spot} (hp : s.place b false x 4 = .ok sp) {g : Nat}
    (hl : s.localStore t sp (toBytes 4 (b.sget t d.toNat).toNat) = .error g) :
    execSst32 d a k s = .next (s.progressed.takeTrap t.tid { cause := .barrierClobber, extra := BitVec.ofNat 64 g, addr := BitVec.ofNat 64 x }) := by
  subst hx
  exact scalarUnit_trap h hf (by simp [hp, hl, Trap.clobber])

end
end

/-- R42: a sum with a sign-extended immediate is the sum of what they stand for. -/
theorem add_signExtend {w : Nat} (x : Word) (i : BitVec w) : x + i.signExtend 32 = BitVec.ofInt 32 (x.toInt + i.toInt) := by
  rw [signExtend_eq_ofInt, BitVec.ofInt_add, BitVec.ofInt_toInt]

/-- Settles O31: one execution of the unit for the thread, and for SLD.32 and SST.32 the place and the bytes of the word. -/
theorem scalarUnit : Obligations.ScalarUnit := by
  unfold Obligations.ScalarUnit
  refine ⟨fun s b t d a v h => ⟨fun hf => ?_, fun hf => ?_, fun c p hf => execScmp_eq h c p hf, fun hf => execV2s_eq h hf,
    fun hf => execS2v_eq h hf, fun ha hv hf => execSadd64_eq h ha hv hf rfl⟩, fun s b t d a k h hf => ?_⟩
  · exact ⟨sbin_eq h rfl hf rfl, sbin_eq h rfl hf rfl, sbin_eq h rfl hf rfl, sbin_eq h rfl hf rfl, sbin_eq h rfl hf rfl, sbin_eq h rfl hf rfl,
      sbin_eq h (f := fun x y => x <<< (y.toNat % 32)) rfl hf (shiftLeft_eq_ofNat ..),
      sbin_eq h (f := fun x y => x >>> (y.toNat % 32)) rfl hf (ushiftRight_eq_ofNat ..),
      sbin_eq h (f := fun x y => x.sshiftRight (y.toNat % 32)) rfl hf (sshiftRight_eq_ofInt ..),
      sbin_eq h (f := minS) rfl hf (minS_eq_ofInt ..), sbin_eq h (f := maxS) rfl hf (maxS_eq_ofInt ..),
      sbin_eq h (f := minU) rfl hf (minU_eq_ofNat ..), sbin_eq h (f := maxU) rfl hf (maxU_eq_ofNat ..)⟩
  · exact ⟨sun_eq h rfl hf rfl, sun_eq h (f := (· + v.signExtend 32)) rfl hf (add_signExtend ..),
      fun n => ⟨sun_eq h (f := (· <<< n.toNat)) rfl hf (shiftLeft_eq_ofNat ..),
        sun_eq h (f := (· >>> n.toNat)) rfl hf (ushiftRight_eq_ofNat ..), sun_eq h (f := (·.sshiftRight n.toNat)) rfl hf (sshiftRight_eq_ofInt ..)⟩⟩
  · have hlen (z : Nat) : (toBytes 4 z).length = 4 := toBytes_length _ _
    refine ⟨fun ha => scalarWord_misplaced h rfl hf (place_misaligned ha), fun ha hb => scalarWord_misplaced h rfl hf (place_beyond ha hb),
      fun ha hin => ?_⟩
    have hat : LocalAt s b false ((s.sopA b t a.toNat).toNat + 4 * k.toNat) 4 s.cur.blk b _ :=
      ⟨fun _ => ⟨rfl, rfl, hin⟩, nofun, h.block, ha⟩
    have hp := place_at hat
    refine ⟨fun hq => execSld32_loaded h rfl hf hp (localLoad_defined h.block h.block hq) h,
      fun hu hs => execSld32_loaded h rfl hf hp (localLoad_undefined (b := b) (c := b) h.block h.block hu hs) h.drew,
      fun syn hd hs => execSld32_poisoned h rfl hf hp (localLoad_poisoned h.block h.block ((loadSyndrome_settled hd).trans hs)),
      fun hl hc => ?_, fun hl hc => ?_, fun g hl => execSst32_live h rfl hf hp (localStore_live h.block h.block (by rw [hlen]; exact hl))⟩
    · obtain ⟨b', h'⟩ := h.afterStore ((s.sopA b t a.toNat).toNat + 4 * k.toNat) (toBytes 4 (b.sget t d.toNat).toNat)
      exact execSst32_stored h rfl hf hp (localStore_covered h.block h.block (by rw [hlen]; exact hl) (by rw [hlen]; exact hc)) h'
    · obtain ⟨b', h'⟩ := h.drew.afterStore ((s.sopA b t a.toNat).toNat + 4 * k.toNat)
        (s.drawn (fun i => b.spUncovered t b ((s.sopA b t a.toNat).toNat + 4 * k.toNat + i)) (toBytes 4 (b.sget t d.toNat).toNat))
      exact execSst32_stored h rfl hf hp (localStore_uncovered h.block h.block (by rw [hlen]; exact hl) (by rw [hlen]; exact hc)) h'

end Sys2Proof.Machine
end


section
/-! SUPPORT. Convergence registers, fences and OFENCE of a thread that issues alone (R194, R195, R250, R257 to R259, R264, R266, R278, R279). -/

namespace Sys2Proof.Machine

/-! ## Convergence registers (R194, R195) -/

theorem convGen_eq (c : Word) : convGen c = c.toNat % 4096 := fld_low _ _

/-- R194: a register's word, EXPECTM1 in range. -/
theorem convWord_eq {e : Nat} (he : e < 1024) (n g : Nat) : convWord e n g = BitVec.ofNat 32 (e * 2 ^ 22 + n % 1024 * 2 ^ 12 + g % 4096) := by
  rw [convWord, Nat.mod_eq_of_lt he]

theorem convSign_eq (c : Word) : let e := c.toNat / 2 ^ 22; let n := c.toNat / 2 ^ 12 % 2 ^ 10; let g := c.toNat % 2 ^ 12
    convSign c = if n = e then BitVec.ofNat 32 (e * 2 ^ 22 + (g + 1) % 4096) else BitVec.ofNat 32 (e * 2 ^ 22 + (n + 1) % 1024 * 2 ^ 12 + g) := by
  intro e n g
  have he : e < 1024 := by have := c.isLt; omega
  have hexpect : convExpect c = e := Nat.mod_eq_of_lt he
  have hcount : convCount c = n := rfl
  have hgen : convGen c = g := convGen_eq c
  rw [convSign, hexpect, hcount, hgen, convWord_eq he, convWord_eq he, Nat.zero_mod, Nat.zero_mul, Nat.add_zero,
    show g % 4096 = g from Nat.mod_mod ..]

/-- R195: the end of register n's generation lets the thread go on. -/
def Block.firesFor (b : Block) (n : Nat) (t : Thread) : Bool :=
  match t.wait with
  | .conv r token => r == n && token != (b.cregs.getD n 0).toNat % 4096
  | _ => false

theorem firesFor_conv {b : Block} {n : Nat} {t : Thread} {r token : Nat} (hw : t.wait = .conv r token) :
    b.firesFor n t = decide (r = n ∧ token ≠ convGen (b.cregs.getD n 0)) := by
  rw [Block.firesFor, hw, convGen_eq, Bool.decide_and]
  simp only [bne, ne_eq, decide_not, beq_eq_decide]

theorem firesFor_other {b : Block} {n : Nat} {t : Thread} (hw : ∀ r token, t.wait ≠ .conv r token) : b.firesFor n t = false := by
  rw [Block.firesFor]
  split
  next r token hr => exact absurd hr (hw r token)
  next => rfl

/-- R195: a generation that ends lets go the threads that wait for its end, and changes nothing else of any thread. -/
theorem fire_threads (b : Block) (n : Nat) :
    (b.fire n).threads = b.threads.map (fun t => { t with freed := t.freed || b.firesFor n t }) := by
  refine List.map_congr_left fun t _ => ?_
  split
  next r token hw =>
    rw [firesFor_conv hw]
    split
    next hfires => rw [decide_eq_true hfires, Bool.or_true]
    next hstays => rw [decide_eq_false hstays, Bool.or_false]
  next hw => rw [firesFor_other hw, Bool.or_false]

theorem fire_thread (b : Block) (n k : Nat) (t : Thread) (h : b.threads[k]? = some t) :
    (b.fire n).threads[k]? = some { t with freed := t.freed || b.firesFor n t } := by
  rw [fire_threads, List.getElem?_map, h, Option.map_some]

/-- The thread that issues alone, where the threads of its block change but not it. -/
theorem Solo.mapped {s s' : State} {b b' : Block} {t : Thread} (h : Solo s b t) (hc : s'.cur = s.cur) (hb : s'.blocks[s.cur.blk]? = some b')
    {f : Thread → Thread} (hf : b'.threads = b.threads.map f) (ht : f t = t) (htid : ∀ u, (f u).tid = u.tid) : Solo s' b' t where
  block := by rw [State.issuing, hc, hb]
  thread := by rw [hf, List.getElem?_map, h.thread, Option.map_some, ht]
  alone := hc ▸ h.alone
  guard := h.guard
  numbered := by
    intro k u hu
    rw [hf, List.getElem?_map, Option.map_eq_some_iff] at hu
    obtain ⟨v, hv, rfl⟩ := hu
    rw [htid]
    exact h.numbered k v hv

/-- The thread that issues alone, which does not wait on the register, stays as it is. -/
theorem Solo.fire {s : State} {b : Block} {t : Thread} (h : Solo s b t) (f : Block → Block) (hf : (f b).threads = b.threads) (n : Nat)
    (ht : (f b).firesFor n t = false) : Solo (s.updBlock s.cur.blk (fun c => (f c).fire n)) ((f b).fire n) t :=
  h.mapped (f := fun u => { u with freed := u.freed || (f b).firesFor n u }) rfl (State.updBlock_get _ _ _ _ h.block) (by rw [fire_threads, hf])
    (by rw [ht, Bool.or_false]) fun _ => rfl

/-- R195: the wait that a CWAIT of register n with a token begins, or goes on with. -/
def Thread.registerWait (t : Thread) (n token : Nat) : Wait :=
  match t.wait with
  | .conv r token => .conv r token
  | _ => .conv n token

theorem Thread.OffRegisters.registerWait {t : Thread} (ht : t.OffRegisters) (n token : Nat) : t.registerWait n token = .conv n token := by
  rw [Thread.registerWait]
  split
  next r token hw => exact absurd hw (ht.2 r token)
  next => rfl

theorem Thread.registerWait_goesOn {t : Thread} {r k : Nat} (hw : t.wait = .conv r k) (n token : Nat) : t.registerWait n token = .conv r k := by
  rw [Thread.registerWait, hw]

section
variable {s : State} {b : Block} {t : Thread} (h : Solo s b t) {n : BitVec 4} {a : Reg}
include h

theorem execCinit_sets (hf : FieldsOk b t [] [a.toNat] []) (h1 : 1 ≤ (b.sget t a.toNat).toNat) (h2 : (b.sget t a.toNat).toNat ≤ 1024)
    (ht : t.OffRegisters) : execCinit n a s = .next ((s.updBlock s.cur.blk (fun c => { c.noteArrival (convKey n.toNat) t with
      cregs := c.cregs.modify n.toNat (fun w => BitVec.ofNat 32 (((b.sget t a.toNat).toNat - 1) * 2 ^ 22 + (w.toNat + 1) % 4096)) }.fire n.toNat)).done t t) := by
  have hword : (fun w : Word => convWord ((b.sget t a.toNat).toNat - 1) 0 (convGen w + 1)) =
      fun w => BitVec.ofNat 32 (((b.sget t a.toNat).toNat - 1) * 2 ^ 22 + (w.toNat + 1) % 4096) := by
    funext w
    rw [convWord_eq (by omega), convGen_eq, Nat.zero_mod, Nat.zero_mul, Nat.add_zero, Nat.mod_add_mod]
  refine scalarUnit_done h hf ?_ (h.fire (fun c => { c.noteArrival (convKey n.toNat) t with cregs := c.cregs.modify n.toNat _ }) rfl n.toNat
    (firesFor_other ht.2))
  dsimp only
  rw [if_neg (by omega), State.noteReset, passing_solo h, hword]
  exact congrArg _ (State.updBlock_updBlock ..)

theorem execCinit_bound (hf : FieldsOk b t [] [a.toNat] []) (hx : (b.sget t a.toNat).toNat = 0 ∨ 1024 < (b.sget t a.toNat).toNat) :
    execCinit n a s = .next (s.progressed.takeTrap t.tid { cause := .bound, extra := BitVec.ofNat 64 (b.sget t a.toNat).toNat }) :=
  scalarUnit_trap h hf (if_pos hx)

theorem execMsign_eq (hf : FieldsOk b t [a.toNat] [] []) :
    execMsign a n s = .next (((s.progressed.updBlock s.cur.blk (fun b => { b.noteArrival (convKey n.toNat) t with
      cregs := b.cregs.modify n.toNat convSign }.fire n.toNat)).updThread s.cur.blk t.tid
        (fun u => u.put a.toNat (BitVec.ofNat 32 ((b.cregs.getD n.toNat 0).toNat % 4096)))).retireLane t.tid) := by
  rw [← convGen_eq]
  exact congrArg _ (exec_fold h _ (.done _) (lc _ _ _ _ hf _))

/-- R195: what CWAIT comes to, by the wait that it begins or goes on with. -/
theorem execCwait_eq (hf : FieldsOk b t [a.toNat] [] [a.toNat]) {r token : Nat} (hw : t.registerWait n.toNat (t.get a.toNat).toNat = .conv r token) :
    execCwait n a s = if t.freed = true ∨ (b.cregs.getD r 0).toNat % 4096 ≠ token then
      .next (((s.progressed.updThread s.cur.blk t.tid (fun u => { u with freed := false })).joinView t.tid (convKey n.toNat)).retireLane t.tid)
      else .next (s.becomes t (t.hold s.cur (.conv r token))) := by
  have hover : s.progressed.waitOver s.cur.blk (b.progressAt s.clock) { t with wait := .conv r token } = true ↔
      t.freed = true ∨ (b.cregs.getD r 0).toNat % 4096 ≠ token := by
    rw [← convGen_eq, ← bne_iff_ne, ← Bool.or_eq_true]
    rfl
  have hlane : execCwait n a s = .next (s.progressed.closeLane t.tid
      (if s.progressed.waitOver s.cur.blk (b.progressAt s.clock) { t with wait := t.registerWait n.toNat (t.get a.toNat).toNat } then
        .done ((s.progressed.updThread s.cur.blk t.tid (fun u => { u with freed := false })).joinView t.tid (convKey n.toNat))
      else .wait (t.registerWait n.toNat (t.get a.toNat).toNat))) := congrArg _ (exec_fold h _ _ (lc _ _ _ _ hf _))
  rw [hlane, hw, ← becomes_of h (fun u => u.hold s.cur (.conv r token))]
  by_cases hends : t.freed = true ∨ (b.cregs.getD r 0).toNat % 4096 ≠ token
  · rw [if_pos (hover.2 hends), if_pos hends]
    rfl
  · rw [if_neg (mt hover.1 hends), if_neg hends]
    rfl

end

/-! ## Fences (R250, R257, R258, R264, R266, R278, R279) -/

theorem fenceDone_iff (s : State) (b : Block) (t : Thread) : s.fenceDone b t = true ↔ t.flushing = false ∧ s.ownLogged b.uid t.tid = false := by
  simp [State.fenceDone]

/-- R266: the state when a FENCE.S has completed at the threads of a slice with TSCOPE: a demotion is counted. -/
def State.demoted (s : State) (b : Block) (host : Bool) (o : Nat) : State :=
  if host && s.tscope o then s.count b.owner (fun c => { c with scopeClamp := min (c.scopeClamp + 1) (2 ^ 64 - 1) }) else s

section
variable {s s1 : State} {b b1 : Block} {t t1 : Thread} (h : Solo s b t) {x : Nat} {host : Bool}
  (hs : (if host then s.flushHost b t else s) = s1) (h1 : Solo s1 b1 t1)
include h hs h1

/-- R258, R279: a fence behind what the thread has under way is a wait. -/
theorem fence_held (hd : s1.fenceDone b t1 = false) : s.fence x host = .next (s1.becomes t1 (t1.hold s1.cur .fence)) := by
  subst hs
  have hb : s.blocks[s.cur.blk]? = some b := h.block
  rw [State.fence, hb]
  simp only [passing_solo h, List.foldl_cons, List.foldl_nil, passing_solo h1, List.any_cons, hd, Bool.not_false, Bool.true_or, if_true, h1.alone]
  exact congrArg _ (becomes_of h1 (fun t => t.hold _ .fence))

/-- R258: a fence with nothing of the thread under way completes at once. -/
theorem fence_completes (hd : s1.fenceDone b t1 = true) :
    s.fence x host = .next (((s1.progressed.noteFence b1 x).demoted b1 host (ownerAt b1.owner t1.level)).retireLane t1.tid) := by
  subst hs
  have hb : s.blocks[s.cur.blk]? = some b := h.block
  rw [State.fence, hb]
  simp only [passing_solo h, List.foldl_cons, List.foldl_nil, passing_solo h1, List.any_cons, hd, Bool.not_true, List.any_nil, Bool.or_false,
    Bool.false_eq_true, if_false]
  exact congrArg _ (exec_fold h1 _ (.done _) rfl)

end

/-- R264: the state that has sent the flushing read of a thread's FENCE.S. -/
def State.flushSent (s : State) (b : Block) (t : Thread) : State :=
  { s with outbox := s.outbox ++ [.flushRead (s.portOf (ownerAt b.owner t.level))] }

/-- R264: a thread whose flushing read is sent, and still under way where the acknowledgment comes later. -/
def Thread.flushes (t : Thread) (later : Bool) : Thread := { t with posted := later, flushing := later }

section
variable {s : State} {b : Block} {t : Thread}

theorem flushHost_none (hn : t.posted = false ∨ t.flushing = true ∨ s.tscope (ownerAt b.owner t.level) = true) : s.flushHost b t = s := by
  rw [State.flushHost, if_neg]
  rcases hn with hn | hn | hn <;> simp [hn]

/-- R264: the flushing read is sent, and acknowledged at once or later. -/
theorem flushHost_sends (hp : t.posted = true) (hf : t.flushing = false) (ht : s.tscope (ownerAt b.owner t.level) = false) :
    s.flushHost b t = (s.flushSent b t).updThread s.cur.blk t.tid (·.flushes s.later) := if_pos (by simp [hp, hf, ht])

variable (h : Solo s b t)
include h

/-- A change of the thread that issues alone. -/
theorem Solo.updThread {f : Thread → Thread} (ht : (f t).tid = t.tid) (hg : (f t).guardOk = true) :
    Solo (s.updThread s.cur.blk t.tid f) (b.updThread t.tid f) (f t) where
  block := State.updBlock_get _ _ _ _ h.block
  thread := by rw [ht]; exact upd_get_same _ _ _ _ h.thread
  alone := by rw [ht]; exact h.alone
  guard := hg
  numbered := by
    intro k u hu
    rw [Block.updThread, upd, List.getElem?_modify] at hu
    obtain ⟨v, hv, rfl⟩ := Option.map_eq_some_iff.1 hu
    split
    next hk =>
      subst hk
      rw [h.thread] at hv
      rw [← Option.some.inj hv, ht]
    next => exact h.numbered k v hv

omit h in
/-- What a thread that issues alone becomes, where it was changed before. -/
theorem becomes_updThread (f : Thread → Thread) (u : Thread) (ht : (f t).tid = t.tid) :
    (s.updThread s.cur.blk t.tid f).becomes (f t) u = s.becomes t u := by
  have honce : (s.updThread s.cur.blk t.tid f).becomes (f t) u =
      s.updBlock s.cur.blk (fun b => ((b.updThread t.tid f).progressAt s.clock).updThread t.tid (fun _ => u)) := by
    rw [State.becomes, ht]
    exact (State.updBlock_updBlock ..).trans (State.updBlock_updBlock ..)
  rw [honce, State.becomes, State.progressed, State.updThread, State.updBlock_updBlock]
  simp only [Block.progressAt, Block.updThread, upd, List.modify_modify_eq]
  rfl

end

/-! ### Each fence -/

section
variable {s : State} {b : Block} {t : Thread} (h : Solo s b t)
include h

/-- R258: a fence of scope x, without host writes, once nothing of the thread is under way. -/
theorem fence_ends {x : Nat} (hl : s.ownLogged b.uid t.tid = false) (hf : t.flushing = false) :
    s.fence x false = .next (State.retireLane { s.progressed with views := SMap.set s.views (b.scopeKey (b.scopeOf x)) s.stamp } t.tid) :=
  fence_completes (host := false) h rfl h ((fenceDone_iff ..).2 ⟨hf, hl⟩)

theorem fence_waits {x : Nat} {host : Bool} (hs : (if host then s.flushHost b t else s) = s)
    (hu : s.ownLogged b.uid t.tid = true ∨ t.flushing = true) : s.fence x host = .next (s.becomes t (t.hold s.cur .fence)) := by
  refine fence_held h hs h (Bool.eq_false_iff.2 fun hd => ?_)
  obtain ⟨hf, hl⟩ := (fenceDone_iff ..).1 hd
  rcases hu with hu | hu
  · exact absurd (hl.symm.trans hu) Bool.false_ne_true
  · exact absurd (hf.symm.trans hu) Bool.false_ne_true

/-- R266, R278: a FENCE.S with nothing to flush is a fence of scope T that counts a demotion under TSCOPE. -/
theorem fenceS_ends (hl : s.ownLogged b.uid t.tid = false) (hf : t.flushing = false)
    (hp : t.posted = false ∨ s.tscope (ownerAt b.owner t.level) = true) :
    execFenceS s = .next (State.retireLane (State.demoted { s.progressed with views := SMap.set s.views (b.scopeKey 3) s.stamp } b true
      (ownerAt b.owner t.level)) t.tid) :=
  fence_completes (host := true) h (flushHost_none (by tauto)) h ((fenceDone_iff ..).2 ⟨hf, hl⟩)

variable (hf : t.flushing = false) (hp : t.posted = true) (ht : s.tscope (ownerAt b.owner t.level) = false)
include hf hp ht

/-- R264, R279: a FENCE.S whose flushing read is acknowledged at once. -/
theorem fenceS_flushed (hl : s.ownLogged b.uid t.tid = false) (hnow : s.later = false) :
    execFenceS s = .next (State.done { s.flushSent b t with views := SMap.set s.views (b.scopeKey 3) s.stamp } t { t with posted := false }) := by
  have hsent : Solo (s.flushSent b t) b t := h.same_threads rfl h.block rfl
  have hviews : Solo { s.flushSent b t with views := SMap.set s.views (b.scopeKey 3) s.stamp } b t := h.same_threads rfl h.block rfl
  have hacknowledged : t.flushes s.later = { t with posted := false } := by simp only [Thread.flushes, hnow, hf]
  rw [State.done, ← hacknowledged, ← becomes_updThread (·.flushes s.later) _ rfl,
    ← becomes_of (hviews.updThread (f := (·.flushes s.later)) rfl h.guard) (fun u => u.retire _)]
  refine (fence_completes (host := true) h (flushHost_sends hp hf ht) (hsent.updThread rfl h.guard) ((fenceDone_iff ..).2 ⟨hnow, hl⟩)).trans
    (congrArg _ ?_)
  rw [State.demoted, if_neg]
  · rfl
  · exact Bool.eq_false_iff.1 ht

/-- R264, R279: a FENCE.S whose flushing read is under way, or behind a logged entry. -/
theorem fenceS_held (hu : s.ownLogged b.uid t.tid = true ∨ s.later = true) :
    execFenceS s = .next ((s.flushSent b t).becomes t ((t.flushes s.later).hold s.cur .fence)) := by
  have hsent : Solo (s.flushSent b t) b t := h.same_threads rfl h.block rfl
  rw [← becomes_updThread (·.flushes s.later) _ rfl]
  refine fence_held (host := true) h (flushHost_sends hp hf ht) (hsent.updThread rfl h.guard) (Bool.eq_false_iff.2 fun hd => ?_)
  obtain ⟨hnow, hl⟩ := (fenceDone_iff ..).1 hd
  rcases hu with hu | hu
  · exact absurd (hl.symm.trans hu) Bool.false_ne_true
  · exact absurd (hnow.symm.trans hu) Bool.false_ne_true

end

/-- Settles O33: registers by their words and their waits, and fences by what the thread still has under way. -/
theorem convergenceAndFences : Obligations.ConvergenceAndFences := by
  unfold Obligations.ConvergenceAndFences
  refine ⟨⟨convSign_eq, fun b n k t ht => ⟨_, fire_thread b n k t ht, rfl, rfl, rfl, rfl⟩, fun s b t n a h => ?_⟩,
    fun s b t h => ?_, ?_⟩
  · refine ⟨fun hf => ⟨execCinit_sets h hf, execCinit_bound h hf⟩, fun hf => execMsign_eq h hf, fun hf => ⟨fun ht => ?_, fun r token hw hfree => ?_⟩⟩
    · have hwait := execCwait_eq h hf (ht.registerWait n.toNat (t.get a.toNat).toNat)
      exact ⟨fun hne => hwait.trans (if_pos (.inr hne)), fun heq => hwait.trans (if_neg (not_or.2 ⟨by rw [ht.1]; exact Bool.false_ne_true, not_not.2 heq⟩))⟩
    · exact (execCwait_eq h hf (Thread.registerWait_goesOn hw ..)).trans (if_pos (.inl hfree))
  · refine ⟨fun hl hf => ⟨fence_ends h hl hf, ?_, fence_ends h hl hf, fence_ends h hl hf, fenceS_ends h hl hf,
        fun hp ht => ⟨fenceS_flushed h hf hp ht hl, fun hlater => ?_⟩⟩,
      fun hu i hi => ?_, fun hf => fence_waits h (flushHost_none (.inr (.inl hf))) (.inr hf), fun hl hn => fence_waits h (flushHost_none (by tauto)) (.inl hl),
      fun hl hf hp ht => fenceS_held h hf hp ht (.inl hl)⟩
    · refine (fence_ends (x := 1) h hl hf).trans ?_
      simp only [Block.scopeOf, true_and]
    · refine (fenceS_held h hf hp ht (.inr hlater)).trans ?_
      simp only [Thread.flushes, State.flushSent, hlater, hp]
    · simp only [List.mem_cons, List.not_mem_nil, or_false] at hi
      rcases hi with rfl | rfl | rfl | rfl
      all_goals exact fence_waits (host := false) h rfl hu
  · exact does_of _ _ _ _ _ _ (fun _ => rfl) (fun _ _ _ => rfl)

end Sys2Proof.Machine
end


section
/-! SUPPORT. Barrier objects (R189 to R193, R198, R230): their addresses, what reading one finds, and the waiters that a written one releases. -/

namespace Sys2Proof.Machine

/-! ## Addresses (R189, R190) -/

theorem bit63_eq {x : Nat} (hx : x < 2 ^ 64) : bit x 63 = decide (2 ^ 63 ≤ x) := by
  rw [bit_eq_testBit, Nat.testBit_eq_decide_div_mod_eq]
  exact decide_eq_decide.2 (by omega)

theorem barAddr_lt (b : Block) (t : Thread) (win : Bool) (a : Nat) : barAddr b t win a < 2 ^ 64 := by
  cases win with
  | false => exact (b.sget64 t a).isLt
  | true => exact (b.sget t a).isLt.trans (by norm_num)

/-- R190: a form and an address name an object in device memory. -/
def OnDevice (win : Bool) (addr : Nat) : Prop := win = false ∧ 2 ^ 63 ≤ addr

theorem onDevice_iff {win : Bool} {addr : Nat} (hx : addr < 2 ^ 64) : (!win && bit addr 63) = true ↔ OnDevice win addr := by
  rw [bit63_eq hx, Bool.and_eq_true, Bool.not_eq_true', decide_eq_true_eq, OnDevice]

theorem bit63_false {win : Bool} {addr : Nat} (hx : addr < 2 ^ 64) (h : ¬OnDevice win addr) : (!win && bit addr 63) = false :=
  Bool.eq_false_iff.2 (mt (onDevice_iff hx).1 h)

section
variable {s : State} {b : Block} {t : Thread} {win : Bool} {addr : Nat}

theorem barHeld_local (hx : addr < 2 ^ 64) (h : ¬OnDevice win addr) : s.barHeld b t win addr = false := by
  rw [State.barHeld, bit63_false hx h, Bool.false_and]

theorem barHeld_device (h : s.readHeld (b.rmwReq t.level) (addr % 2 ^ 56) 16 = false) : s.barHeld b t win addr = false := by
  rw [State.barHeld, fld_low, h, Bool.and_false]

theorem broken_local (hx : addr < 2 ^ 64) (h : ¬OnDevice win addr) (o : Barrier) : o.broken addr win = false := by
  rw [Barrier.broken, bit63_false hx h, Bool.false_and, Bool.false_and]

/-- R193: what no barrier instruction writes: a live object with a reserved bit, or counts out of range. -/
def Barrier.Unsound (o : Barrier) : Prop := o.live = true ∧ (o.top % 2 ^ 31 ≠ 0 ∨ o.expect = 0 ∨ 2 ^ 31 ≤ o.expect ∨ o.expect ≤ o.arrived)

theorem broken_device (hx : addr < 2 ^ 64) (h : OnDevice win addr) (o : Barrier) : o.broken addr win = true ↔ o.Unsound := by
  rw [Barrier.broken, (onDevice_iff hx).2 h, Bool.true_and, Barrier.Unsound]
  simp [or_assoc]

/-! ## The checks of an address (R189, R190, R251) -/

theorem barCheck_win_misaligned (h : addr % 16 ≠ 0) : s.barCheck b t true addr = some (.misalign 16 addr) := by
  rw [State.barCheck, if_pos rfl, if_pos h]

/-- R271, log entry 23: a window offset past its scratchpad, past the neighbourhood, or of a block that is gone. -/
theorem barCheck_win_beyond (ha : addr % 16 = 0) (h : recNrows b.record * recNcols b.record ≤ addr / 262144 ∨ b.scratchSize < addr % 262144 + 16 ∨
    s.nbhdBlock s.cur.blk (addr / 262144) = none) : s.barCheck b t true addr = some (.bar .bound addr) := by
  have hspot : s.spot s.cur.blk b true addr 16 = none := by
    rw [State.spot, if_neg (by simp)]
    dsimp only
    split
    next => rfl
    next hin =>
      rw [not_or] at hin
      obtain ⟨hblock, hsize⟩ := hin
      obtain h | h | h := h
      · exact absurd h hblock
      · exact absurd h hsize
      · rw [h, Option.map_none]
  rw [State.barCheck, if_pos rfl, if_neg (not_not.2 ha), hspot, Option.isNone_none, if_pos rfl]

section
variable (hx : addr < 2 ^ 64) (hl : addr < 2 ^ 63)
include hx hl

/-- R190: the checks of the block's own scratchpad. -/
theorem barCheck_own : s.barCheck b t false addr = if 2 ^ 18 ≤ addr then some (.bar .bound addr)
    else if addr % 16 ≠ 0 then some (.misalign 16 addr) else if b.scratchSize < addr + 16 then some (.bar .bound addr) else none := by
  have hbit : bit addr 63 = false := by simpa [bit63_eq hx] using hl
  have hzero : fld addr 45 18 ≠ 0 ↔ 2 ^ 18 ≤ addr := by rw [fld]; omega
  rw [State.barCheck, if_neg (by simp), hbit, if_neg (by simp)]
  simp only [hzero]

end

section
variable (hx : addr < 2 ^ 64) (hd : 2 ^ 63 ≤ addr)
include hx hd

/-- R190: the checks of a device-memory address before its translation. -/
theorem barCheck_dev_bound (h : 2 ^ 63 + 2 ^ 56 ≤ addr) : s.barCheck b t false addr = some (.bar .bound addr) := by
  have hbit : bit addr 63 = true := by simpa [bit63_eq hx] using hd
  rw [State.barCheck, if_neg (by simp), hbit, if_pos rfl, if_pos (by rw [fld]; omega)]

theorem barCheck_dev_misaligned (h : addr < 2 ^ 63 + 2 ^ 56) (ha : addr % 2 ^ 56 % 16 ≠ 0) :
    s.barCheck b t false addr = some (.misalign 16 (addr % 2 ^ 56)) := by
  have hbit : bit addr 63 = true := by simpa [bit63_eq hx] using hd
  rw [State.barCheck, if_neg (by simp), hbit, if_pos rfl, if_neg (by rw [fld]; omega), if_pos (by omega), fld_low]

/-- R251: what the translation of an object's address meets. -/
theorem barCheck_dev_untranslated (h : addr < 2 ^ 63 + 2 ^ 56) (ha : addr % 2 ^ 56 % 16 = 0) {f : MemFault}
    (hf : s.translate (b.rmwReq t.level) (addr % 2 ^ 56) 16 = .error f) :
    s.barCheck b t false addr = some (f.trap (b.rmwReq t.level) (addr % 2 ^ 56)) := by
  have hbit : bit addr 63 = true := by simpa [bit63_eq hx] using hd
  rw [State.barCheck, if_neg (by simp), hbit, if_pos rfl, if_neg (by rw [fld]; omega), if_neg (by omega), fld_low, hf]

/-- R251: an address that is on no DRAM page. -/
theorem barCheck_dev_elsewhere (h : addr < 2 ^ 63 + 2 ^ 56) (ha : addr % 2 ^ 56 % 16 = 0) {x : Xlated}
    (hf : s.translate (b.rmwReq t.level) (addr % 2 ^ 56) 16 = .ok x) (hp : x.place.device = none) :
    s.barCheck b t false addr = some ((MemFault.stage2 x.gpa).trap (b.rmwReq t.level) (addr % 2 ^ 56)) := by
  have hbit : bit addr 63 = true := by simpa [bit63_eq hx] using hd
  rw [State.barCheck, if_neg (by simp), hbit, if_pos rfl, if_neg (by rw [fld]; omega), if_neg (by omega), fld_low, hf]
  simp only [hp]

end
end

/-! ## Objects of scratchpads (R189 to R191, R230) -/

section
variable {s : State} {b c : Block} {t : Thread} {win : Bool} {a p x : Nat} (h : BarrierAt s b t win a p c x)
include h

theorem BarrierAt.offDevice : ¬OnDevice win (barAddr b t win a) := by
  rintro ⟨rfl, hd⟩
  obtain ⟨haddr, -, hx⟩ := h.own rfl
  have : barAddr b t false a = x := haddr
  omega

theorem BarrierAt.check : s.barCheck b t win (barAddr b t win a) = none := by
  have ha := h.aligned
  have hin := h.inside
  cases win with
  | false =>
    obtain ⟨haddr, -, hx⟩ := h.own rfl
    have haddr : barAddr b t false a = x := haddr
    rw [haddr, barCheck_own (by omega) (by omega), if_neg (by omega), if_neg (by omega), if_neg (by omega)]
  | true =>
    obtain ⟨hoff, hblock, hsize⟩ := h.window rfl
    have haddr : barAddr b t true a = (b.sget t a).toNat := rfl
    have hspot : s.spot s.cur.blk b true (b.sget t a).toNat 16 = some (.here p x) := by
      rw [State.spot, if_neg (by simp)]
      dsimp only
      rw [if_neg (by omega), hblock, hoff, Option.map_some]
    rw [State.barCheck, if_pos rfl, haddr, if_neg (by omega), hspot, Option.isNone_some, if_neg (by simp)]

theorem BarrierAt.loc : s.barLoc s.cur.blk win (barAddr b t win a) = some (.scratch p x) := by
  cases win with
  | false =>
    obtain ⟨haddr, rfl, hx⟩ := h.own rfl
    have haddr : barAddr b t false a = x := haddr
    have hbit : bit x 63 = false := by rw [bit63_eq (by omega)]; exact decide_eq_false (by omega)
    rw [State.barLoc, if_neg (by simp), haddr, hbit, if_neg (by simp), fld_low, Nat.mod_eq_of_lt hx]
  | true =>
    obtain ⟨rfl, hblock, -⟩ := h.window rfl
    rw [State.barLoc, if_pos rfl, barAddr, if_pos rfl, hblock, Option.map_some]

theorem BarrierAt.key : s.barKey b t win (barAddr b t win a) = s.padKey (barAddr b t win a) p x := by
  rw [State.barKey, h.loc]
  rfl

theorem BarrierAt.held : s.barHeld b t win (barAddr b t win a) = false := barHeld_local (barAddr_lt ..) h.offDevice

theorem BarrierAt.read (l : Level) (hclean : (c.barrier x).live = true → c.scratchSyndrome x 16 = none) :
    s.barRead b l (.scratch p x) = .ok (c.barrier x, s) := by
  rw [State.barRead]
  simp only [h.home]
  split
  next syn hlive hsyn => exact absurd ((hclean hlive).symm.trans hsyn) nofun
  next => rfl

/-- R191: an object that can be read, for a form that asks for a live one (`live`) or not. -/
theorem BarrierAt.object (hclean : (c.barrier x).live = true → c.scratchSyndrome x 16 = none) {live : Bool} (hlive : live = true → (c.barrier x).live = true) :
    s.barObject b t win live (barAddr b t win a) = .ok (.scratch p x, c.barrier x, s) := by
  have hgood : (live && !(c.barrier x).live) = false := by cases live <;> simp_all
  rw [State.barObject, h.check]
  simp only [h.loc, h.read _ hclean, broken_local (barAddr_lt ..) h.offDevice, hgood, Bool.or_self, Bool.false_eq_true, if_false]

theorem BarrierAt.object_dead (hclean : (c.barrier x).live = true → c.scratchSyndrome x 16 = none) (hlive : (c.barrier x).live = false) :
    s.barObject b t win true (barAddr b t win a) = .error (.bar .barrierClobber (barAddr b t win a)) := by
  rw [State.barObject, h.check]
  simp only [h.loc, h.read _ hclean, hlive, Bool.not_false, Bool.and_self, Bool.or_true, if_true]

theorem BarrierAt.object_poisoned (hlive : (c.barrier x).live = true) {syn : Nat} (hsyn : c.scratchSyndrome x 16 = some syn) (live : Bool) :
    s.barObject b t win live (barAddr b t win a) =
      .error { cause := .uncorrectable, extra := BitVec.ofNat 64 syn, addr := BitVec.ofNat 64 (barAddr b t win a % 2 ^ 56) } := by
  have hread : s.barRead b t.level (.scratch p x) = .error (.poison syn, x) := by
    have hlive : c.live.contains (x / 16) = true := hlive
    rw [State.barRead]
    simp only [h.home, hlive, hsyn]
  rw [State.barObject, h.check]
  simp only [h.loc, hread, fld_low]
  rfl

end

/-! ## What a written object releases (R191, R198) -/

theorem putBarrier_threads (c : Block) (x : Nat) (o : Barrier) : (c.putBarrier x o).threads = c.threads := by
  simp only [Block.putBarrier, Block.putScratch]

/-- R191, R198: a block once the object at a place has been written: what the object releases is free, and that is progress. -/
def State.freeBlock (s : State) (owner : Nat) (l : BarLoc) (o : Barrier) (i : Nat) (b : Block) : Block :=
  { b with
    threads := b.threads.map (s.freeThread owner i b l o)
    progress := if b.halted.isNone && b.threads.any (s.released owner i b l o) then s.clock else b.progress }

theorem barRelease_get? (s : State) (owner : Nat) (l : BarLoc) (o : Barrier) (i : Nat) :
    (s.barRelease owner l o).blocks[i]? = (s.blocks[i]?).map (s.freeBlock owner l o i) := by
  show (s.blocks.zipIdx.map (fun p => s.freeBlock owner l o p.2 p.1))[i]? = _
  rw [List.getElem?_map, List.getElem?_zipIdx]
  cases s.blocks[i]? with
  | none => rfl
  | some b => simp only [Option.map_some, Nat.zero_add]

theorem withBarrier_get? (s : State) (b : Block) (l : Level) (p x : Nat) (o : Barrier) (i : Nat) :
    (s.withBarrier b l p x o).blocks[i]? = (s.blocks[i]?).map (fun e =>
      (s.updBlock p (fun c => c.putBarrier x o)).freeBlock (ownerAt b.owner l) (.scratch p x) o i (if i = p then e.putBarrier x o else e)) := by
  rw [State.withBarrier, barRelease_get?, updBlock_get?, Option.map_map]
  rfl

/-- R173: what the neighbourhood of a block is told by. -/
def Block.seat (b : Block) : Nat × Nat × Nat := (b.record, b.launch, b.num)

theorem putBarrier_seat (c : Block) (x : Nat) (o : Barrier) : (c.putBarrier x o).seat = c.seat := by
  simp only [Block.seat, Block.putBarrier, Block.putScratch]

theorem nbhdBlock_congr {s s' : State} (h : s'.blocks.map Block.seat = s.blocks.map Block.seat) (bi i : Nat) : s'.nbhdBlock bi i = s.nbhdBlock bi i := by
  have hfind (b : Block) (k : Nat) : s'.blocks.findIdx? (fun x => x.launch == b.launch && x.num == k) =
      s.blocks.findIdx? (fun x => x.launch == b.launch && x.num == k) := by
    have hseat := congrArg (List.findIdx? (fun x : Nat × Nat × Nat => x.2.1 == b.launch && x.2.2 == k)) h
    rwa [List.findIdx?_map, List.findIdx?_map] at hseat
  have hget : (s'.blocks[bi]?).map Block.seat = (s.blocks[bi]?).map Block.seat := by
    rw [← List.getElem?_map, ← List.getElem?_map, h]
  rw [State.nbhdBlock, State.nbhdBlock]
  cases hb' : s'.blocks[bi]? with
  | none => cases hb : s.blocks[bi]? <;> simp_all
  | some b' =>
    cases hb : s.blocks[bi]? with
    | none => simp_all
    | some b =>
      rw [hb', hb, Option.map_some, Option.map_some] at hget
      obtain ⟨hrecord, hlaunch, hnum⟩ : b'.record = b.record ∧ b'.launch = b.launch ∧ b'.num = b.num := by
        simpa [Block.seat] using hget
      simp only [hrecord, hlaunch, hnum, hfind]

theorem updBlock_seats (s : State) (i : Nat) (f : Block → Block) (hf : ∀ b, (f b).seat = b.seat) :
    (s.updBlock i f).blocks.map Block.seat = s.blocks.map Block.seat := by
  refine List.ext_getElem? fun j => ?_
  rw [List.getElem?_map, List.getElem?_map, updBlock_get?, Option.map_map]
  congr 1
  funext e
  rw [Function.comp_apply]
  split
  · exact hf e
  · rfl

theorem barRelease_seats (s : State) (owner : Nat) (l : BarLoc) (o : Barrier) :
    (s.barRelease owner l o).blocks.map Block.seat = s.blocks.map Block.seat := by
  refine List.ext_getElem? fun j => ?_
  rw [List.getElem?_map, List.getElem?_map, barRelease_get?, Option.map_map]
  rfl

theorem barLoc_congr {s s' : State} (h : s'.blocks.map Block.seat = s.blocks.map Block.seat) (bi : Nat) (win : Bool) (addr : Nat) :
    s'.barLoc bi win addr = s.barLoc bi win addr := by
  rw [State.barLoc, State.barLoc, nbhdBlock_congr h]

theorem barLoc_putBarrier (s : State) (p x : Nat) (o : Barrier) (bi : Nat) (win : Bool) (addr : Nat) :
    (s.updBlock p (fun c => c.putBarrier x o)).barLoc bi win addr = s.barLoc bi win addr :=
  barLoc_congr (updBlock_seats _ _ _ fun c => putBarrier_seat c x o) _ _ _

/-- R191: a waiter at the object of a scratchpad, once the object has been written. -/
theorem freeThread_waiter {s : State} {owner i p x addr : Nat} {b : Block} {o : Barrier} {u : Thread} {win arrived : Bool} {token : Word}
    (hw : u.wait = .barrier win addr token arrived) (hl : s.barLoc i win addr = some (.scratch p x)) :
    (s.freeThread owner i b (.scratch p x) o u).freed = (u.freed || (!o.live || o.phase % 2 ^ 32 != token.toNat)) := by
  have hreleased : s.released owner i b (.scratch p x) o u = (!o.live || o.phase % 2 ^ 32 != token.toNat) := by
    rw [State.released, hw]
    dsimp only
    rw [State.releases, hl, beq_self_eq_true, Bool.true_and, Bool.true_and]
  simp only [State.freeThread, hreleased]

/-- R198: no object releases a thread that waits on none and has arrived at none. -/
theorem freeThread_off {s : State} {owner i : Nat} {b : Block} {l : BarLoc} {o : Barrier} {t : Thread} (ht : t.OffBarriers) :
    s.freeThread owner i b l o t = t := by
  obtain ⟨hfreed, hsynced, hwait⟩ := ht
  have hreleased : s.released owner i b l o t = false := by
    rw [State.released]
    split
    next win addr token arrived hw => exact absurd hw (hwait win addr token arrived)
    next => rfl
  rw [State.freeThread, hreleased, hsynced, Bool.or_false, List.map_nil, ← hsynced]

/-- R191: every waiter at an object that is written stays at it, and is free where the object is no longer live, or of another PHASE. -/
theorem withBarrier_waiter {s : State} {b e : Block} {l : Level} {p x i addr : Nat} {o : Barrier} {u : Thread} {win arrived : Bool} {token : Word}
    (he : s.blocks[i]? = some e) (hu : u ∈ e.threads) (hw : u.wait = .barrier win addr token arrived)
    (hl : s.barLoc i win addr = some (.scratch p x)) :
    ∃ e' u', (s.withBarrier b l p x o).blocks[i]? = some e' ∧ u' ∈ e'.threads ∧ u'.tid = u.tid ∧ u'.wait = u.wait ∧
      (o.live = false ∨ o.phase % 2 ^ 32 ≠ token.toNat → u'.freed = true) ∧
      (o.live = true → o.phase % 2 ^ 32 = token.toNat → u'.freed = u.freed) := by
  have hl' := (barLoc_putBarrier s p x o i win addr).trans hl
  have hthreads : u ∈ (if i = p then e.putBarrier x o else e).threads := by
    split
    · rw [putBarrier_threads]
      exact hu
    · exact hu
  have hfreed := freeThread_waiter (owner := ownerAt b.owner l) (b := if i = p then e.putBarrier x o else e) (o := o) hw hl'
  refine ⟨_, (s.updBlock p (fun c => c.putBarrier x o)).freeThread (ownerAt b.owner l) i (if i = p then e.putBarrier x o else e) (.scratch p x) o u,
    by rw [withBarrier_get?, he, Option.map_some], List.mem_map_of_mem hthreads, rfl, rfl, fun hr => ?_, fun hlive hp => ?_⟩
  · have hends : (!o.live || o.phase % 2 ^ 32 != token.toNat) = true := by
      rw [Bool.or_eq_true, Bool.not_eq_true', bne_iff_ne]
      exact hr
    rw [hfreed, hends, Bool.or_true]
  · have hstays : (!o.live || o.phase % 2 ^ 32 != token.toNat) = false := by
      rw [hlive, hp, bne_self_eq_false]
      rfl
    rw [hfreed, hstays, Bool.or_false]

/-- The thread that issues alone, which is off barriers, stays as it is when an object is written. -/
theorem Solo.withBarrier {s : State} {b : Block} {t : Thread} (h : Solo s b t) (ht : t.OffBarriers) (c : Block) (l : Level) (p x : Nat) (o : Barrier) :
    ∃ b', Solo (s.withBarrier c l p x o) b' t := by
  have hb : s.blocks[s.cur.blk]? = some b := h.block
  have hthreads : (if s.cur.blk = p then b.putBarrier x o else b).threads = b.threads := by
    split
    · exact putBarrier_threads b x o
    · rfl
  exact ⟨_, h.mapped (s' := s.withBarrier c l p x o) rfl (by rw [withBarrier_get?, hb, Option.map_some])
    (congrArg (List.map _) hthreads) (freeThread_off ht) fun _ => rfl⟩

/-! ## An object read back (R189, R191) -/

theorem ofBytes_append (a b : List Byte) : ofBytes (a ++ b) = ofBytes a + 256 ^ a.length * ofBytes b := by
  induction a with
  | nil => simp [ofBytes]
  | cons x a ih =>
    rw [List.cons_append, ofBytes, ih, ofBytes, List.length_cons]
    ring

theorem Barrier.bytes_length (o : Barrier) : o.bytes.length = 16 := by simp [Barrier.bytes]

/-- R189: the PHASE of the bytes of an object. -/
theorem fld_phase (o : Barrier) : fld (ofBytes o.bytes) 32 64 = o.phase % 2 ^ 32 := by
  rw [Barrier.bytes, ofBytes_append, ofBytes_append, ofBytes_append, ofBytes_toBytes, ofBytes_toBytes, ofBytes_toBytes, ofBytes_toBytes, fld]
  simp only [List.length_append, toBytes_length]
  omega

theorem scratchBytes_putBarrier (c : Block) (x : Nat) (o : Barrier) : (c.putBarrier x o).scratchBytes x 16 = o.bytes := by
  have hbyte (j : Nat) : (c.putBarrier x o).scratchByte j = (c.stored x o.bytes).scratchByte j := by
    rw [scratchByte_stored, ← scratchByte_putScratch]
    simp only [Block.scratchByte, Block.putBarrier]
  have hbytes := scratchBytes_stored c x o.bytes
  rw [o.bytes_length] at hbytes
  exact (List.map_congr_left fun _ _ => hbyte _).trans hbytes

theorem putBarrier_live (c : Block) (x : Nat) {o : Barrier} (h : o.live = true) : ((c.putBarrier x o).barrier x).live = true := by
  simp only [Block.barrier, Barrier.ofNat, Block.putBarrier, if_pos h]
  split
  next hin => exact hin
  next => simp

theorem putBarrier_phase (c : Block) (x : Nat) (o : Barrier) : ((c.putBarrier x o).barrier x).phase = o.phase % 2 ^ 32 := by
  rw [Block.barrier, Barrier.ofNat, scratchBytes_putBarrier]
  exact fld_phase o

/-- R228: no word of an object is poisoned that was not before it was written. -/
theorem putBarrier_clean {c : Block} {x : Nat} (o : Barrier) (h : c.scratchSyndrome x 16 = none) : (c.putBarrier x o).scratchSyndrome x 16 = none := by
  rw [Block.scratchSyndrome, Option.map_eq_none_iff, List.find?_eq_none] at h ⊢
  intro w hw
  simp only [Block.putBarrier, Block.putScratch, SMap.drop] at hw
  exact h w (List.mem_filter.1 hw).1

end Sys2Proof.Machine
end


section
/-! SUPPORT. Barrier instructions of a thread that issues alone (R190, R191, R193, R198, R230, R251, R259). -/

namespace Sys2Proof.Machine

/-! ## The forms (R190) -/

/-- R190: the scalar registers that name an object's address. -/
def barRegs (win : Bool) (a : Nat) : List Nat := if win then [a] else [a, a + 1]

theorem upto_barRegs (win : Bool) (a : Nat) : upto a 1 (if win then 1 else 2) = barRegs win a := by cases win <;> rfl

theorem exec_barArv (win : Bool) (d a : Reg) (s : State) : exec (if win then Instr.nbararv d a else .bararv d a) s = s.barArv win d a := by
  cases win <;> rfl

theorem exec_barWait (win : Bool) (a v : Reg) (s : State) : exec (if win then Instr.nbarwait a v else .barwait a v) s = s.barWait win a v := by
  cases win <;> rfl

theorem exec_barSync (win : Bool) (a : Reg) (s : State) : exec (if win then Instr.nbarsync a else .barsync a) s = s.barSync win a := by
  cases win <;> rfl

/-- The checks of fewer fields. -/
theorem FieldsOk.mono {b : Block} {t : Thread} {vs ss srcs vs' ss' srcs' : List Nat} (h : FieldsOk b t vs ss srcs) (hv : vs' ⊆ vs) (hs : ss' ⊆ ss)
    (hp : srcs' ⊆ srcs) : FieldsOk b t vs' ss' srcs' := by
  obtain ⟨hregs, hpoison⟩ := h
  rw [checkPoison, List.findSome?_eq_none_iff] at hpoison
  rw [checkRegs] at hregs
  split at hregs
  next => cases hregs
  next hvs =>
    rw [List.find?_eq_none] at hvs
    rw [Option.map_eq_none_iff, List.find?_eq_none] at hregs
    refine ⟨?_, List.findSome?_eq_none_iff.2 fun n hn => hpoison n (hp hn)⟩
    rw [checkRegs, List.find?_eq_none.2 fun n hn => hvs n (hv hn)]
    exact Option.map_eq_none_iff.2 (List.find?_eq_none.2 fun n hn => hregs n (hs hn))

/-! ## Arrivals (R191) -/

section
variable {s : State} {b : Block} {t : Thread} {win : Bool} {addr : Nat} {k : State → Nat → LaneRes} (hl : s.ownLogged b.uid t.tid = false)
  (hh : s.barHeld b t win addr = false)
include hl hh

theorem barArrive_trap {tr : Trap} (ho : s.barObject b t win true addr = .error tr) : s.barArrive b t win addr k = .trap s tr := by
  simp only [State.barArrive, hl, hh, ho, Bool.false_eq_true, if_false]

variable {l : BarLoc} {o : Barrier} {s1 : State} (ho : s.barObject b t win true addr = .ok (l, o, s1))
include ho

theorem barArrive_refused {tr : Trap} (hp : s1.barPut b t l o.arrive = .error tr) : s.barArrive b t win addr k = .trap s tr := by
  simp only [State.barArrive, hl, hh, ho, hp, Bool.false_eq_true, if_false]

theorem barArrive_arrives {s2 : State} (hp : s1.barPut b t l o.arrive = .ok s2) : s.barArrive b t win addr k =
    k (s2.updBlock s2.cur.blk (fun c => c.noteArrival (s.barKey c t win addr) t)) o.phase := by
  simp only [State.barArrive, hl, hh, ho, hp, Bool.false_eq_true, if_false]

end

/-! ## The instructions -/

/-- R191: a wait at an object that has not begun: what the object says of the token. -/
def State.barFirstWait (s : State) (b : Block) (t : Thread) (win : Bool) (addr : Nat) (token : Word) : LaneRes :=
  match s.barObject b t win true addr with
  | .error tr => .trap s tr
  | .ok (_, o, s') => if o.phase ≠ token.toNat then .done (s'.joinView t.tid (s.barKey b t win addr)) else .wait (.barrier win addr token false)

/-- R191: the wait of a BARSYNC that has arrived and met a PHASE: over where its own arrival was the last. -/
def State.barSyncWait (s : State) (b : Block) (t : Thread) (win : Bool) (addr : Nat) (s' : State) (p : Nat) : LaneRes :=
  if s'.waitOver s'.cur.blk b { t with wait := .barrier win addr (BitVec.ofNat 32 p) true } then .done (s'.joinView t.tid (s.barKey b t win addr))
  else .moved (s'.updThread s'.cur.blk t.tid (fun u => u.hold s'.cur (.barrier win addr (BitVec.ofNat 32 p) true)))

section
variable {s : State} {b : Block} {t : Thread} (h : Solo s b t) {win : Bool} {d a v : Reg} {addr : Nat} (haddr : addr = barAddr b t win a.toNat)
include h haddr

theorem barArv_eq (hf : FieldsOk b t [d.toNat] (barRegs win a.toNat) []) :
    s.barArv win d a = .next (s.progressed.closeLane t.tid (s.progressed.barArrive (b.progressAt s.clock) t win addr (fun s' p =>
      .done (s'.updThread s'.cur.blk t.tid (fun u => u.put d.toNat (BitVec.ofNat 32 p)))))) := by
  subst haddr
  rw [← upto_barRegs] at hf
  exact congrArg _ (exec_fold h _ _ (lc _ _ _ _ hf _))

/-- R191: BARWAIT of a thread that waits on no object. -/
theorem barWait_eq (hh : s.progressed.barHeld (b.progressAt s.clock) t win addr = false) (ht : t.OffBarriers)
    (hf : FieldsOk b t [v.toNat] (barRegs win a.toNat) [v.toNat]) :
    s.barWait win a v = .next (s.progressed.closeLane t.tid (s.progressed.barFirstWait (b.progressAt s.clock) t win addr (t.get v.toNat))) := by
  subst haddr
  rw [← upto_barRegs] at hf
  refine congrArg _ (exec_fold h _ _ ((lc _ _ _ _ hf _).trans ?_))
  dsimp only
  split
  next w x token arrived hw => exact absurd hw (ht.2.2 w x token arrived)
  next => exact (if_neg (Bool.eq_false_iff.1 hh)).trans rfl

/-- R191: BARSYNC of a thread that waits on no object and has arrived at none. -/
theorem barSync_eq (ht : t.OffBarriers) (hf : FieldsOk b t [] (barRegs win a.toNat) []) :
    s.barSync win a = .next (s.progressed.closeLane t.tid (s.progressed.barArrive (b.progressAt s.clock) t win addr
      (s.progressed.barSyncWait (b.progressAt s.clock) t win addr))) := by
  subst haddr
  rw [← upto_barRegs] at hf
  refine congrArg _ (exec_fold h _ _ ((lc _ _ _ _ hf _).trans ?_))
  have hnone (addr : Nat) : t.arrivalAt win addr = none := by rw [Thread.arrivalAt, ht.2.1, List.find?_nil]
  dsimp only
  split
  next hw => exact absurd hw (ht.2.2 _ _ _ _)
  next hy _ => exact absurd ((hnone _).symm.trans hy) nofun
  next => rfl

end

/-! ## Objects of scratchpads -/

theorem barCheck_progressAt (s : State) (b : Block) (c : Nat) (t : Thread) (win : Bool) (addr : Nat) :
    s.barCheck (b.progressAt c) t win addr = s.barCheck b t win addr := rfl

theorem barHeld_progressAt (s : State) (b : Block) (c : Nat) (t : Thread) (win : Bool) (addr : Nat) :
    s.barHeld (b.progressAt c) t win addr = s.barHeld b t win addr := rfl

theorem barKey_progressAt (s : State) (b : Block) (c : Nat) (t : Thread) (win : Bool) (addr : Nat) :
    s.barKey (b.progressAt c) t win addr = s.barKey b t win addr := rfl

theorem putScratch_live (c : Block) (x : Nat) (bytes : List Byte) : (c.putScratch x bytes).live = c.live := by simp only [Block.putScratch]

theorem barPut_scratch (s : State) (b : Block) (t : Thread) (p x : Nat) (o : Barrier) :
    s.barPut b t (.scratch p x) o = .ok (s.withBarrier b t.level p x o) := by
  rw [State.barPut, State.barWrite, State.withBarrier]
  unfold Block.putBarrier
  simp only [putScratch_live]

/-- R191: whether a wait at an object of a scratchpad is over. -/
theorem waitOver_scratch {s : State} {i p x addr : Nat} {win arrived : Bool} {token : Word} {b c : Block} {t : Thread} (ht : t.freed = false)
    (hl : s.barLoc i win addr = some (.scratch p x)) (hc : s.blocks[p]? = some c) (hclean : c.scratchSyndrome x 16 = none) :
    s.waitOver i b { t with wait := .barrier win addr token arrived } = (!(c.barrier x).live || (c.barrier x).phase != token.toNat) := by
  have hread : s.barRead b t.level (.scratch p x) = .ok (c.barrier x, s) := by
    rw [State.barRead]
    simp only [hc]
    split
    next syn _ hsyn => exact absurd (hclean.symm.trans hsyn) nofun
    next => rfl
  rw [State.waitOver]
  simp only [hl, hread, ht, Bool.false_or]

/-- R191: the object that an arrival has written, in the state after it. -/
theorem afterArrival_object {s : State} {b c : Block} {t : Thread} {addr p x : Nat} {o : Barrier} (hc : s.progressed.blocks[p]? = some c) :
    ∃ c', (s.afterArrival b addr p x o t).blocks[p]? = some c' ∧ c'.barrier x = (c.putBarrier x o).barrier x ∧
      c'.scratchSyndrome x 16 = (c.putBarrier x o).scratchSyndrome x 16 := by
  refine ⟨_, by rw [State.afterArrival, updBlock_get?, withBarrier_get?, hc, Option.map_some, Option.map_some], ?_, ?_⟩
  all_goals
    rw [if_pos rfl]
    split
  all_goals simp only [Block.noteArrival, State.freeBlock, Block.barrier, Block.scratchBytes, Block.scratchByte, Block.scratchSyndrome]

theorem noteArrival_seat (c : Block) (key : Nat) (t : Thread) : (c.noteArrival key t).seat = c.seat := rfl

theorem afterArrival_loc (s : State) (b : Block) (t : Thread) (addr p x : Nat) (o : Barrier) (i : Nat) (win : Bool) (y : Nat) :
    (s.afterArrival b addr p x o t).barLoc i win y = s.progressed.barLoc i win y := by
  refine barLoc_congr ?_ ..
  rw [State.afterArrival, updBlock_seats _ _ _ fun c => noteArrival_seat c _ t, State.withBarrier, barRelease_seats, updBlock_seats _ _ _ fun c => putBarrier_seat c x o]

theorem afterArrival_cur (s : State) (b : Block) (t : Thread) (addr p x : Nat) (o : Barrier) : (s.afterArrival b addr p x o t).cur = s.cur := rfl

theorem Barrier.arrive_live (o : Barrier) : o.arrive.live = o.live := by
  rw [Barrier.arrive]
  split <;> rfl

/-- R191: the arrival that completes a phase passes it; another one leaves it. -/
theorem Barrier.arrive_phase (o : Barrier) :
    o.arrive.phase = if (o.arrived + 1) % 2 ^ 32 = o.expect then (o.phase + 1) % 2 ^ 32 else o.phase := by
  rw [Barrier.arrive]
  split <;> rfl

section
variable {s : State} {b c : Block} {t : Thread} (h : Solo s b t) {win : Bool} {d a v : Reg} {p x addr : Nat} (haddr : addr = barAddr b t win a.toNat)
  (hat : BarrierAt s.progressed (b.progressAt s.clock) t win a.toNat p c x)
  (hclean : (c.barrier x).live = true → c.scratchSyndrome x 16 = none)
include h haddr hat hclean

section
variable (hlive : (c.barrier x).live = true)
include hlive

omit h in
/-- R191, R259: an arrival at a live object, with what follows it. -/
theorem barArrive_scratch (hl : s.ownLogged b.uid t.tid = false) (k : State → Nat → LaneRes) :
    s.progressed.barArrive (b.progressAt s.clock) t win addr k = k (s.afterArrival b addr p x (c.barrier x).arrive t) (c.barrier x).phase := by
  subst haddr
  have hkey (e : Block) : s.progressed.barKey e t win (barAddr b t win a.toNat) = s.padKey (barAddr b t win a.toNat) p x := by
    rw [State.barKey, show s.progressed.barLoc s.progressed.cur.blk win (barAddr b t win a.toNat) = _ from hat.loc]
    rfl
  refine (barArrive_arrives (s := s.progressed) (b := b.progressAt s.clock) (addr := barAddr b t win a.toNat) hl hat.held (hat.object hclean fun _ => hlive) (barPut_scratch ..)).trans ?_
  simp only [hkey]
  rfl

theorem barArv_scratch (hl : s.ownLogged b.uid t.tid = false) (hf : FieldsOk b t [d.toNat] (barRegs win a.toNat) []) :
    s.barArv win d a = .next (((s.afterArrival b addr p x (c.barrier x).arrive t).updThread s.cur.blk t.tid
      (fun u => u.put d.toNat (BitVec.ofNat 32 (c.barrier x).phase))).retireLane t.tid) := by
  rw [barArv_eq h haddr hf, barArrive_scratch haddr hat hclean hlive hl]
  rfl

omit h in
theorem barFirstWait_scratch (token : Word) : s.progressed.barFirstWait (b.progressAt s.clock) t win addr token =
    if (c.barrier x).phase ≠ token.toNat then .done (s.progressed.joinView t.tid (s.padKey addr p x)) else .wait (.barrier win addr token false) := by
  subst haddr
  rw [State.barFirstWait, show s.progressed.barObject _ t win true (barAddr b t win a.toNat) = _ from hat.object hclean fun _ => hlive,
    show s.progressed.barKey _ t win (barAddr b t win a.toNat) = _ from hat.key]
  rfl

variable (ht : t.OffBarriers)
include ht

theorem barWait_passed (hf : FieldsOk b t [v.toNat] (barRegs win a.toNat) [v.toNat]) (hp : (c.barrier x).phase ≠ (t.get v.toNat).toNat) :
    s.barWait win a v = .next ((s.progressed.joinView t.tid (s.padKey addr p x)).retireLane t.tid) := by
  rw [barWait_eq h haddr (haddr ▸ hat.held) ht hf, barFirstWait_scratch haddr hat hclean hlive, if_pos hp]
  rfl

theorem barWait_waits (hf : FieldsOk b t [v.toNat] (barRegs win a.toNat) [v.toNat]) (hp : (c.barrier x).phase = (t.get v.toNat).toNat) :
    s.barWait win a v = .next (s.becomes t (t.hold s.cur (.barrier win addr (t.get v.toNat) false))) := by
  rw [barWait_eq h haddr (haddr ▸ hat.held) ht hf, barFirstWait_scratch haddr hat hclean hlive, if_neg (not_not.2 hp),
    ← becomes_of h (fun u => u.hold s.cur _)]
  rfl

/-- R191: what a BARSYNC comes to, by whether its own arrival was the last. -/
theorem barSync_scratch (hl : s.ownLogged b.uid t.tid = false) (hf : FieldsOk b t [] (barRegs win a.toNat) []) :
    s.barSync win a = .next (if ((c.barrier x).arrived + 1) % 2 ^ 32 = (c.barrier x).expect then
      ((s.afterArrival b addr p x (c.barrier x).arrive t).joinView t.tid (s.padKey addr p x)).retireLane t.tid
      else (s.afterArrival b addr p x (c.barrier x).arrive t).updThread s.cur.blk t.tid
        (fun u => u.hold s.cur (.barrier win addr (BitVec.ofNat 32 (c.barrier x).phase) true))) := by
  obtain ⟨c', hc', hobj, hsyn⟩ := afterArrival_object (b := b) (t := t) (addr := addr) (x := x) (o := (c.barrier x).arrive) hat.home
  have hphase : (c.barrier x).phase < 2 ^ 32 := fld_lt _ 32 64
  have hlive' : (c'.barrier x).live = true := by rw [hobj, putBarrier_live _ _ ((Barrier.arrive_live _).trans hlive)]
  have hover : (s.afterArrival b addr p x (c.barrier x).arrive t).waitOver s.cur.blk (b.progressAt s.clock)
      { t with wait := .barrier win addr (BitVec.ofNat 32 (c.barrier x).phase) true } =
      decide (((c.barrier x).arrived + 1) % 2 ^ 32 = (c.barrier x).expect) := by
    rw [waitOver_scratch ht.1 ((afterArrival_loc ..).trans (haddr ▸ hat.loc)) hc' (hsyn.trans (putBarrier_clean _ (hclean hlive))), hlive', hobj,
      putBarrier_phase, Barrier.arrive_phase, BitVec.toNat_ofNat, Bool.not_true, Bool.false_or]
    split
    next hlast => rw [decide_eq_true hlast, bne_iff_ne]; omega
    next hmore => rw [decide_eq_false hmore]; exact bne_self_eq_false _
  rw [barSync_eq h haddr ht hf, barArrive_scratch haddr hat hclean hlive hl, State.barSyncWait,
    afterArrival_cur, hover,
    show s.progressed.barKey _ t win addr = _ from haddr ▸ hat.key]
  by_cases hlast : ((c.barrier x).arrived + 1) % 2 ^ 32 = (c.barrier x).expect
  · rw [if_pos (decide_eq_true hlast), if_pos hlast]
    rfl
  · rw [if_neg (by simpa using hlast), if_neg hlast]
    rfl

end
end

end Sys2Proof.Machine
end


section
/-! SUPPORT. Conditions and waits that are over at barrier instructions, BARINIT, and objects in device memory (R190, R191, R193, R198, R251, R259). -/

namespace Sys2Proof.Machine

/-! ## Conditions (R190, R193, R230) -/

section
variable {s : State} {b : Block} {t : Thread} (h : Solo s b t) {win : Bool} {d a v : Reg} {addr : Nat} (haddr : addr = barAddr b t win a.toNat)
  (hh : s.progressed.barHeld b t win addr = false) {tr : Trap} (ho : s.progressed.barObject b t win true addr = .error tr)
include h haddr hh ho

theorem barArv_trap (hl : s.ownLogged b.uid t.tid = false) (hf : FieldsOk b t [d.toNat] (barRegs win a.toNat) []) :
    s.barArv win d a = .next (s.progressed.takeTrap t.tid tr) := by
  rw [barArv_eq h haddr hf, barArrive_trap (s := s.progressed) (b := b.progressAt s.clock) hl hh ho]
  rfl

variable (ht : t.OffBarriers)
include ht

theorem barWait_trap (hf : FieldsOk b t [v.toNat] (barRegs win a.toNat) [v.toNat]) :
    s.barWait win a v = .next (s.progressed.takeTrap t.tid tr) := by
  rw [barWait_eq h haddr hh ht hf, State.barFirstWait, show s.progressed.barObject (b.progressAt s.clock) t win true addr = _ from ho]
  rfl

theorem barSync_trap (hl : s.ownLogged b.uid t.tid = false) (hf : FieldsOk b t [] (barRegs win a.toNat) []) :
    s.barSync win a = .next (s.progressed.takeTrap t.tid tr) := by
  rw [barSync_eq h haddr ht hf, barArrive_trap (s := s.progressed) (b := b.progressAt s.clock) hl hh ho]
  rfl

/-- The condition that an object raises, in each form that arrives or waits at it. -/
theorem barForms_trap (hl : s.ownLogged b.uid t.tid = false) (hf : FieldsOk b t [d.toNat, v.toNat] (barRegs win a.toNat) [v.toNat]) :
    exec (if win then Instr.nbararv d a else .bararv d a) s = .next (s.progressed.takeTrap t.tid tr) ∧
    exec (if win then Instr.nbarwait a v else .barwait a v) s = .next (s.progressed.takeTrap t.tid tr) ∧
    exec (if win then Instr.nbarsync a else .barsync a) s = .next (s.progressed.takeTrap t.tid tr) := by
  rw [exec_barArv, exec_barWait, exec_barSync]
  exact ⟨barArv_trap h haddr hh ho hl (hf.mono (by simp) (List.Subset.refl _) (by simp)),
    barWait_trap h haddr hh ho ht (hf.mono (by simp) (List.Subset.refl _) (List.Subset.refl _)),
    barSync_trap h haddr hh ho ht hl (hf.mono (by simp) (List.Subset.refl _) (by simp))⟩

end

/-! ## Waits that are over (R191, R198, R259) -/

/-- R259: a thread whose object has let it go on, in the state z. -/
def State.goesOnFreed (s z : State) (b : Block) (t : Thread) (win : Bool) (addr : Nat) : Outcome :=
  .next (((z.updThread s.cur.blk t.tid (fun u => { u with freed := false })).joinView t.tid (z.barKey b t win addr)).retireLane t.tid)

section
variable {s : State} {b : Block} {t : Thread} (h : Solo s b t) {win : Bool} {a v : Reg}
include h

variable {w arrived : Bool} {addr : Nat} {token : Word}

theorem barWait_freed (hw : t.wait = .barrier w addr token arrived) (hfree : t.freed = true)
    (hf : FieldsOk b t [v.toNat] (barRegs win a.toNat) [v.toNat]) : s.barWait win a v = s.goesOnFreed s.progressed b t w addr := by
  rw [← upto_barRegs] at hf
  refine congrArg _ (exec_fold h _ (.done _) ((lc _ _ _ _ hf _).trans ?_))
  simp only [hw]
  exact if_pos hfree

theorem barSync_freed (hw : t.wait = .barrier w addr token true) (hfree : t.freed = true) (hf : FieldsOk b t [] (barRegs win a.toNat) []) :
    s.barSync win a = s.goesOnFreed s.progressed b t w addr := by
  rw [← upto_barRegs] at hf
  refine congrArg _ (exec_fold h _ (.done _) ((lc _ _ _ _ hf _).trans ?_))
  simp only [hw]
  exact if_pos hfree

/-- R198: a BARSYNC that a trap interrupted after its arrival, which an object has let go on since. -/
theorem barSync_interrupted {y : Synced} (hw : ∀ w addr token arrived, t.wait ≠ .barrier w addr token arrived)
    (hy : t.arrivalAt win (barAddr b t win a.toNat) = some y) (hfree : y.freed = true) (hf : FieldsOk b t [] (barRegs win a.toNat) []) :
    s.barSync win a = s.goesOnFreed (s.progressed.updThread s.cur.blk t.tid (fun u => { u with
      synced := u.synced.erase y, wait := .barrier win (barAddr b t win a.toNat) y.token true, freed := true })) b t win (barAddr b t win a.toNat) := by
  rw [← upto_barRegs] at hf
  refine congrArg _ (exec_fold h _ (.done _) ((lc _ _ _ _ hf _).trans ?_))
  dsimp only
  split
  next hb => exact absurd hb (hw _ _ _ _)
  next y' hy' _ =>
    obtain rfl : y = y' := Option.some.inj (hy.symm.trans hy')
    simp only [State.barWaitOn, hfree, if_true]
    rfl
  next hnone _ => exact absurd (hy.symm.trans hnone) nofun

end

/-! ## BARINIT (R191) -/

/-- R191: an object made of EXPECT n, or none of n = 0. -/
def Barrier.made (o : Barrier) (n : Nat) : Barrier :=
  let phase := if o.live then (o.phase + 1) % 2 ^ 32 else 0
  if n = 0 then { o with live := false, phase := phase } else { o with live := true, phase := phase, arrived := 0, expect := n }

section
variable {s : State} {b : Block} {t : Thread} (h : Solo s b t) {a v : Reg} (hf : FieldsOk b t [] [a.toNat, a.toNat + 1, v.toNat] [])
  (hh : s.barHeld b t false (barAddr b t false a.toNat) = false)
include h hf hh

omit hf in
/-- R250: BARINIT of an object with no side-log entry in its way. -/
theorem barinit_unheld : execBarinit a v s = s.scalarUnit [] [a.toNat, a.toNat + 1, v.toNat] (fun s b t =>
    match s.barObject b t false false (barAddr b t false a.toNat) with
    | .error tr => .error tr
    | .ok (l, o, s') => (s'.noteReset (s.barKey b t false (barAddr b t false a.toNat))).barPut b t l (o.made ((b.sget t v.toNat).toNat % 2 ^ 31)))
    (fun _ t => t) := by
  have hb : s.blocks[s.cur.blk]? = some b := h.block
  rw [execBarinit]
  simp only [hb, Option.bind_some, passing_solo h, List.find?_cons, hh, Bool.and_false, List.find?_nil, Option.map_none, fld_low]
  rfl

theorem barinit_trap {tr : Trap} (ho : s.barObject b t false false (barAddr b t false a.toNat) = .error tr) :
    exec (.barinit a v) s = .next (s.progressed.takeTrap t.tid tr) := by
  refine (barinit_unheld h hh).trans (scalarUnit_trap h hf ?_)
  simp only [ho]

theorem barinit_made {l : BarLoc} {o : Barrier} {s1 s2 : State} {c : Block} (ho : s.barObject b t false false (barAddr b t false a.toNat) = .ok (l, o, s1))
    (hp : (s1.noteReset (s.barKey b t false (barAddr b t false a.toNat))).barPut b t l (o.made ((b.sget t v.toNat).toNat % 2 ^ 31)) = .ok s2)
    (h2 : Solo s2 c t) : exec (.barinit a v) s = .next (s2.done t t) := by
  refine (barinit_unheld h hh).trans (scalarUnit_done h hf ?_ h2)
  simp only [ho, hp]

end

/-! ## Objects in device memory (R190, R193, R251) -/

/-- R259: what the key of an object in device memory rests on: the owner and the core of each block, and the block in issue. -/
def State.senders (s : State) : Issue × List (Nat × Nat) := (s.cur, s.blocks.map (fun b => (b.owner, b.core)))

theorem senders_of_held {s s' : State} (h : s'.held = s.held) : s'.senders = s.senders := by
  obtain ⟨hblocks, hcur, -⟩ := held_iff.1 h
  rw [State.senders, State.senders, hblocks, hcur]

theorem senders_updBlock (s : State) (i : Nat) (f : Block → Block) (ho : ∀ b, (f b).owner = b.owner) (hc : ∀ b, (f b).core = b.core) :
    (s.updBlock i f).senders = s.senders :=
  Prod.ext rfl (map_upd_of_kept _ _ _ (fun b : Block => (b.owner, b.core)) fun b => by rw [ho, hc])

theorem chipWrite_senders {s : State} {owner a : Nat} {v : Word} {r : State × Bool} (h : s.chipWrite owner a v = some r) :
    r.1.senders = s.senders := by
  rw [State.chipWrite] at h
  grind only [senders_updBlock, State.senders, Block.updThread, Block.putScratch, Block.putAcc]

theorem clearChipPairs_senders (s : State) (words : List Nat) : (s.clearChipPairs words).senders = s.senders :=
  foldl_keeps State.senders _ (fun s w => by
    split
    · split
      · exact senders_updBlock _ _ _ (fun _ => rfl) fun _ => rfl
      · split <;> rfl
      · rfl
    · rfl) _ _

theorem noteChip_senders (s : State) (owner : Nat) (words : List Nat) : (s.noteChip owner words).senders = s.senders :=
  foldl_keeps State.senders _ (fun s w => by split <;> rfl) _ _

theorem putSectors_senders (s : State) (x : Tlb2) (slot : Nat) (rmw : Bool) (cells : List (Nat × Byte)) (at' : Nat → Nat) (keys : List Nat) :
    (keys.foldl (fun s k => s.putSector x (32 * k) (at' k) slot (cells.filter (fun c => c.1 / 32 == k)) rmw) s).senders = s.senders :=
  foldl_keeps State.senders _ (fun _ _ => senders_of_held (State.putSector_held ..)) _ _

theorem writeCells_senders {s : State} {q : Req} {engine : Bool} {x : Xlated} {va : Nat} {cells : List (Nat × Byte)} {rmw : Bool}
    {stamp : Option Nat} {r : State × Bool} (h : s.writeCells q engine x va cells rmw stamp = .ok r) : r.1.senders = s.senders := by
  have device (slot : Nat) (gcells : List (Nat × Byte)) (at' : Nat → Nat) (s' : State) (hs : s'.senders = s.senders) :=
    (putSectors_senders s' x.t2 slot rmw gcells at' (sectorsOf gcells)).trans hs
  rw [State.writeCells] at h
  dsimp only at h
  split at h
  · cases h
    rfl
  split at h
  · cases h
    exact device _ _ _ _ (by split_ifs; exacts [rfl, by split <;> rfl])
  · cases h
    exact device _ _ _ _ (by split_ifs; exacts [rfl, by split <;> rfl])
  · split at h <;> cases h <;> rfl
  · split at h
    · cases h
    split at h
    · cases h
      rfl
    split at h
    · cases h
    next s1 cl hwords =>
    cases h
    have hwritten := foldl_except_keeps (fun r : State × Bool => r.1.senders) _ (fun _ _ => rfl)
      (fun p w p' hp => by
        dsimp only at hp
        split at hp <;> cases hp
        next hword => exact (chipWrite_senders hword :)) _ _ _ hwords
    refine (clearChipPairs_senders ..).trans (hwritten.trans ?_)
    dsimp only
    split
    · rfl
    · exact noteChip_senders ..

/-- R260: bytes written by address leave the owners and the cores of blocks, and the issue in hand. -/
theorem writeVa_senders {s s' : State} {q : Req} {engine : Bool} {va : Nat} {bytes : List Byte} {cl : Bool} {r : Option (MemFault × Nat)}
    (h : s.writeVa q engine va bytes = ((s', cl), r)) : s'.senders = s.senders := by
  have hkeeps : (s.writeVa q engine va bytes).1.1.senders = s.senders := by
    refine foldl_keeps (fun r : (State × Bool) × Option (MemFault × Nat) => r.1.1.senders) _ (fun r p => ?_) _ _
    split
    · rfl
    split
    · rfl
    split
    · rfl
    split
    · rfl
    next hw => exact (writeCells_senders hw).trans (senders_of_held (State.noteXl_held ..))
  rwa [h] at hkeeps

theorem barRelease_senders (s : State) (owner : Nat) (l : BarLoc) (o : Barrier) : (s.barRelease owner l o).senders = s.senders := by
  refine Prod.ext rfl (List.ext_getElem? fun j => ?_)
  show ((s.barRelease owner l o).blocks.map (fun b : Block => (b.owner, b.core)))[j]? = (s.blocks.map (fun b : Block => (b.owner, b.core)))[j]?
  rw [List.getElem?_map, List.getElem?_map, barRelease_get?, Option.map_map]
  rfl

theorem barKey_sender {s : State} {b c : Block} {t : Thread} {win : Bool} {addr : Nat} (ho : c.owner = b.owner) (hc : c.core = b.core) :
    s.barKey c t win addr = s.barKey b t win addr := by
  have hreq : c.rmwReq t.level = b.rmwReq t.level := by rw [Block.rmwReq, Block.rmwReq, Block.sender, Block.sender, ho, hc]
  simp only [State.barKey, hreq]

theorem barLoc_device {addr : Nat} (hx : addr < 2 ^ 64) (hd : 2 ^ 63 ≤ addr) (s : State) (i : Nat) :
    s.barLoc i false addr = some (.device (addr % 2 ^ 56)) := by
  have hbit : bit addr 63 = true := by simpa [bit63_eq hx] using hd
  rw [State.barLoc, if_neg (by simp), hbit, if_pos rfl, fld_low]

section
variable {s : State} {b : Block} {t : Thread} {addr : Nat} (hx : addr < 2 ^ 64) (hd : 2 ^ 63 ≤ addr) (hc : s.barCheck b t false addr = none)
include hx hd hc

/-- R193: what reading an object in device memory meets. -/
theorem barObject_unread {f : MemFault} {at' : Nat} (hr : s.readVa (b.rmwReq t.level) false (addr % 2 ^ 56) 16 = .error (f, at')) (live : Bool) :
    s.barObject b t false live addr = .error (f.trap (b.rmwReq t.level) (addr % 2 ^ 56)) := by
  rw [State.barObject, hc]
  simp only [barLoc_device hx hd, State.barRead, hr, fld_low]

variable {bytes : List Byte} {s1 : State} (hr : s.readVa (b.rmwReq t.level) false (addr % 2 ^ 56) 16 = .ok (bytes, s1)) {o : Barrier}
  (ho : Barrier.ofNat (ofBytes bytes) ((ofBytes bytes).testBit 127) = o) {live : Bool}
include hr ho

theorem barObject_sound (hsound : ¬o.Unsound) (hlive : live = true → o.live = true) :
    s.barObject b t false live addr = .ok (.device (addr % 2 ^ 56), o, s1) := by
  have hbroken : o.broken addr false = false := Bool.eq_false_iff.2 (mt (broken_device hx ⟨rfl, hd⟩ o).1 hsound)
  have hgood : (live && !o.live) = false := by cases live <;> simp_all
  rw [State.barObject, hc]
  simp only [barLoc_device hx hd, State.barRead, hr, bit_eq_testBit, ho, hbroken, hgood, Bool.or_self, Bool.false_eq_true, if_false]

/-- R193: a live object that no barrier instruction wrote, and one that is not live where a live one is asked for. -/
theorem barObject_unsound (hbad : o.Unsound ∨ live = true ∧ o.live = false) :
    s.barObject b t false live addr = .error (.bar .barrierClobber addr) := by
  have hbroken : (o.broken addr false || live && !o.live) = true := by
    rw [Bool.or_eq_true, broken_device hx ⟨rfl, hd⟩]
    rcases hbad with hbad | ⟨hl, ho⟩
    · exact .inl hbad
    · exact .inr (by rw [hl, ho]; rfl)
  rw [State.barObject, hc]
  simp only [barLoc_device hx hd, State.barRead, hr, bit_eq_testBit, ho, hbroken, if_true]

end

section
variable {s s' : State} {b : Block} {t : Thread} {va : Nat} {o : Barrier} {cl : Bool}

theorem barPut_device (h : s.writeVa (b.rmwReq t.level) false va o.bytes = ((s', cl), none)) :
    s.barPut b t (.device va) o = .ok (s'.barRelease (ownerAt b.owner t.level) (.device va) o) := by
  simp only [State.barPut, State.barWrite, h]

theorem barPut_unwritten {f : MemFault} {at' : Nat} (h : s.writeVa (b.rmwReq t.level) false va o.bytes = ((s', cl), some (f, at'))) :
    s.barPut b t (.device va) o = .error (f.trap (b.rmwReq t.level) at') := by
  simp only [State.barPut, State.barWrite, h]

end

end Sys2Proof.Machine
end


section
/-! SUPPORT. What the barrier instructions of a thread that issues alone come to, by where the object lies (R189 to R193, R198, R251, R259). -/

namespace Sys2Proof.Machine

/-! ## Objects of scratchpads -/

/-- R190: an object of the block's own scratchpad is where it is whatever the clock of progress. -/
theorem BarrierAt.own_block {s : State} {b c : Block} {t : Thread} {a p x : Nat} (h : BarrierAt s.progressed (b.progressAt s.clock) t false a p c x)
    (hb : s.issuing b) : c = b.progressAt s.clock ∧ BarrierAt s b t false a p b x := by
  obtain ⟨haddr, hp, hx⟩ := h.own rfl
  have hhome := h.home
  rw [hp] at hhome
  have hblock : s.progressed.blocks[s.cur.blk]? = some (b.progressAt s.clock) := State.updBlock_get _ _ _ _ hb
  refine ⟨Option.some.inj (hhome.symm.trans hblock), ⟨fun _ => ⟨haddr, hp, hx⟩, nofun, ?_, h.aligned, h.inside⟩⟩
  rw [hp]
  exact hb

theorem noteReset_solo {s : State} {b : Block} {t : Thread} (h : Solo s b t) (key : Nat) :
    s.noteReset key = s.updBlock s.cur.blk (fun c => c.noteArrival key t) := by
  rw [State.noteReset, passing_solo h]
  rfl

theorem barinit_scratch {s : State} {b c : Block} {t : Thread} (h : Solo s b t) {a v : Reg} {p x : Nat} (ht : t.OffBarriers)
    (hat : BarrierAt s b t false a.toNat p c x) (hf : FieldsOk b t [] [a.toNat, a.toNat + 1, v.toNat] [])
    (hclean : (c.barrier x).live = true → c.scratchSyndrome x 16 = none) :
    exec (.barinit a v) s = .next (((s.updBlock s.cur.blk (fun c => c.noteArrival x t)).withBarrier b t.level p x
      ((c.barrier x).made ((b.sget t v.toNat).toNat % 2 ^ 31))).done t t) := by
  obtain ⟨b', hsolo⟩ := (h.updBlock (fun c => c.noteArrival x t) rfl).withBarrier ht b t.level p x
    ((c.barrier x).made ((b.sget t v.toNat).toNat % 2 ^ 31))
  have hkey : s.barKey b t false (barAddr b t false a.toNat) = x := by
    rw [hat.key, State.padKey, if_pos (hat.own rfl).2.1]
  refine barinit_made h hf hat.held (hat.object hclean nofun) ?_ hsolo
  rw [hkey, noteReset_solo h, barPut_scratch]

/-! ## Conditions of an address (R189, R190, R251) -/

section
variable {s : State} {b : Block} {t : Thread} (h : Solo s b t) (ht : t.OffBarriers) {win : Bool} {d a v : Reg} {addr : Nat}
  (haddr : addr = barAddr b t win a.toNat) (hl : s.ownLogged b.uid t.tid = false)
  (hfree : OnDevice win addr → s.progressed.readHeld (b.rmwReq t.level) (addr % 2 ^ 56) 16 = false ∧
    s.readHeld (b.rmwReq t.level) (addr % 2 ^ 56) 16 = false)
include h ht haddr hl hfree

/-- R190: what the checks of an address raise, each form raises. -/
theorem barChecked_traps {tr : Trap} (hf : FieldsOk b t [d.toNat, v.toNat] (barRegs win a.toNat) [v.toNat])
    (hc : s.progressed.barCheck b t win addr = some tr) :
    (∀ i ∈ (if win then [Instr.nbararv d a, .nbarwait a v, .nbarsync a] else [.bararv d a, .barwait a v, .barsync a]),
      exec i s = .next (s.progressed.takeTrap t.tid tr)) ∧
    (win = false → s.barCheck b t false addr = s.progressed.barCheck b t false addr → FieldsOk b t [] [a.toNat, a.toNat + 1, v.toNat] [] →
      exec (.barinit a v) s = .next (s.progressed.takeTrap t.tid tr)) := by
  have hx : addr < 2 ^ 64 := haddr ▸ barAddr_lt ..
  have hh : s.progressed.barHeld b t win addr = false ∧ s.barHeld b t win addr = false := by
    by_cases hd : OnDevice win addr
    · exact ⟨barHeld_device (hfree hd).1, barHeld_device (hfree hd).2⟩
    · exact ⟨barHeld_local hx hd, barHeld_local hx hd⟩
  have hobject : s.progressed.barObject b t win true addr = .error tr := by rw [State.barObject, hc]
  obtain ⟨harv, hwait, hsync⟩ := barForms_trap (d := d) h haddr hh.1 hobject ht hl hf
  refine ⟨?_, fun hwin hsame hf' => ?_⟩
  · cases win <;> simpa using ⟨harv, hwait, hsync⟩
  · subst hwin
    subst haddr
    exact barinit_trap h hf' hh.2 (by rw [State.barObject, hsame, hc])

end

/-! ## Objects in device memory (R190, R193, R251) -/

section
variable {s : State} {b : Block} {t : Thread} (h : Solo s b t) {d a v : Reg} {addr : Nat} (haddr : addr = barAddr b t false a.toNat)
  (hd : 2 ^ 63 ≤ addr) (hh : s.progressed.readHeld (b.rmwReq t.level) (addr % 2 ^ 56) 16 = false)
  (hc : s.progressed.barCheck b t false addr = none)
include h haddr hd hh hc

omit hd hc in
theorem barDevice_traps (ht : t.OffBarriers) (hl : s.ownLogged b.uid t.tid = false)
    (hf : FieldsOk b t [d.toNat, v.toNat] [a.toNat, a.toNat + 1] [v.toNat]) {tr : Trap} (ho : s.progressed.barObject b t false true addr = .error tr) :
    exec (.bararv d a) s = .next (s.progressed.takeTrap t.tid tr) ∧ exec (.barwait a v) s = .next (s.progressed.takeTrap t.tid tr) ∧
      exec (.barsync a) s = .next (s.progressed.takeTrap t.tid tr) :=
  barForms_trap h haddr (barHeld_device hh) ho ht hl hf

variable {bytes : List Byte} {s1 : State} (hr : s.progressed.readVa (b.rmwReq t.level) false (addr % 2 ^ 56) 16 = .ok (bytes, s1)) {o : Barrier}
  (ho : Barrier.ofNat (ofBytes bytes) ((ofBytes bytes).testBit 127) = o) (hlive : o.live = true) (hsound : ¬o.Unsound)
include hr ho hlive hsound

/-- R190, R191: an arrival at an object of device memory, written back. -/
theorem bararv_device (hl : s.ownLogged b.uid t.tid = false) (hf : FieldsOk b t [d.toNat] [a.toNat, a.toNat + 1] []) {s2 z : State} {cl : Bool}
    (hw : s1.writeVa (b.rmwReq t.level) false (addr % 2 ^ 56) o.arrive.bytes = ((s2, cl), none))
    (hz : s2.barRelease (ownerAt b.owner t.level) (.device (addr % 2 ^ 56)) o.arrive = z) :
    exec (.bararv d a) s = .next (((z.updBlock z.cur.blk (fun c => c.noteArrival (s.progressed.barKey b t false addr) t)).updThread z.cur.blk t.tid
      (fun u => u.put d.toNat (BitVec.ofNat 32 o.phase))).retireLane t.tid) := by
  have hx : addr < 2 ^ 64 := haddr ▸ barAddr_lt ..
  have hput : s1.barPut b t (.device (addr % 2 ^ 56)) o.arrive = .ok z := hz ▸ barPut_device hw
  have hsenders : z.senders = s.progressed.senders :=
    hz ▸ (barRelease_senders ..).trans ((writeVa_senders hw).trans (senders_of_held (readVa_held hr)))
  have hnote : z.updBlock z.cur.blk (fun c => c.noteArrival (s.progressed.barKey c t false addr) t) =
      z.updBlock z.cur.blk (fun c => c.noteArrival (s.progressed.barKey b t false addr) t) := by
    obtain ⟨hcur, hblocks⟩ := Prod.ext_iff.1 hsenders
    have hcur : z.cur = s.cur := hcur
    have hget := congrArg (fun l => l[s.cur.blk]?) hblocks
    simp only [State.senders, List.getElem?_map, show s.progressed.blocks[s.cur.blk]? = some _ from State.updBlock_get _ _ _ _ h.block,
      Option.map_some, Option.map_eq_some_iff, Prod.mk.injEq] at hget
    obtain ⟨c, hcz, howner, hcore⟩ := hget
    exact updBlock_congr _ _ _ _ c (hcur ▸ hcz) (by rw [barKey_sender howner hcore]; rfl)
  rw [show exec (.bararv d a) s = s.barArv false d a from rfl, barArv_eq h haddr hf,
    barArrive_arrives (s := s.progressed) (b := b.progressAt s.clock) hl (barHeld_device hh) (barObject_sound hx hd hc hr ho hsound fun _ => hlive) hput,
    hnote]
  rfl

/-- R190, R193: what the write of an arrival meets. -/
theorem bararv_unwritten (hl : s.ownLogged b.uid t.tid = false) (hf : FieldsOk b t [d.toNat] [a.toNat, a.toNat + 1] []) {s2 : State} {cl : Bool}
    {f : MemFault} {at' : Nat} (hw : s1.writeVa (b.rmwReq t.level) false (addr % 2 ^ 56) o.arrive.bytes = ((s2, cl), some (f, at'))) :
    exec (.bararv d a) s = .next (s.progressed.takeTrap t.tid (f.trap (b.rmwReq t.level) at')) := by
  have hx : addr < 2 ^ 64 := haddr ▸ barAddr_lt ..
  rw [show exec (.bararv d a) s = s.barArv false d a from rfl, barArv_eq h haddr hf,
    barArrive_refused (s := s.progressed) (b := b.progressAt s.clock) hl (barHeld_device hh) (barObject_sound hx hd hc hr ho hsound fun _ => hlive)
      (barPut_unwritten hw)]
  rfl

/-- R191: a wait at an object of device memory, by whether its PHASE is the token. -/
theorem barwait_device (ht : t.OffBarriers) (hf : FieldsOk b t [v.toNat] [a.toNat, a.toNat + 1] [v.toNat]) :
    exec (.barwait a v) s = .next (s.progressed.closeLane t.tid (if o.phase ≠ (t.get v.toNat).toNat then
      .done (s1.joinView t.tid (s.progressed.barKey b t false addr)) else .wait (.barrier false addr (t.get v.toNat) false))) := by
  have hx : addr < 2 ^ 64 := haddr ▸ barAddr_lt ..
  rw [show exec (.barwait a v) s = s.barWait false a v from rfl, barWait_eq h haddr (barHeld_device hh) ht hf, State.barFirstWait,
    show s.progressed.barObject (b.progressAt s.clock) t false true addr = _ from barObject_sound hx hd hc hr ho hsound fun _ => hlive]
  rfl

end

/-! ## The obligation -/

/-- Settles O32: objects of scratchpads by `BarrierAt`, released waiters, objects of device memory by what is read and written, and the checks of
addresses in their order. -/
theorem barrierObjects : Obligations.BarrierObjects := by
  unfold Obligations.BarrierObjects
  refine ⟨fun s b c t d a v p x h ht => ⟨fun hat hf hclean => barinit_scratch h ht hat hf hclean, fun win hat hl => ?scratchpad⟩,
    fun s b t a v win h => ⟨fun w addr token arrived hw hfree => ?released, fun y hw hy hfree hf => ?interrupted⟩, ?device, ?conditions⟩
  case scratchpad =>
    intro o addr regs arrived arv wait sync dead
    have harv : exec arv s = s.barArv win d a := exec_barArv ..
    have hwait : exec wait s = s.barWait win a v := exec_barWait ..
    have hsync : exec sync s = s.barSync win a := exec_barSync ..
    rw [harv, hwait, hsync]
    refine ⟨fun hf hclean => ⟨fun hlive => barArv_scratch h rfl hat hclean hlive hl hf,
        fun hlive => barArv_trap h rfl hat.held (hat.object_dead hclean hlive) hl hf⟩,
      fun hf hclean => ⟨fun hlive hp => barWait_passed h rfl hat hclean hlive ht hf hp, fun hlive hp => barWait_waits h rfl hat hclean hlive ht hf hp,
        fun hlive => barWait_trap h rfl hat.held (hat.object_dead hclean hlive) ht hf⟩,
      fun hf hclean => ⟨fun hlive hlast => ?_, fun hlive hmore => ?_, fun hlive => barSync_trap h rfl hat.held (hat.object_dead hclean hlive) ht hl hf⟩,
      fun hf hlive syn hsyn => ?_, fun l o' i e u addr' token arrived he hu hw hloc => withBarrier_waiter he hu hw hloc⟩
    · exact (barSync_scratch h rfl hat hclean hlive ht hl hf).trans (congrArg _ (if_pos hlast))
    · exact (barSync_scratch h rfl hat hclean hlive ht hl hf).trans (congrArg _ (if_neg hmore))
    · obtain ⟨h1, h2, h3⟩ := barForms_trap h rfl hat.held (hat.object_poisoned hlive hsyn true) ht hl hf
      refine ⟨harv ▸ h1, hwait ▸ h2, hsync ▸ h3, fun hwin hf' => ?_⟩
      subst hwin
      obtain ⟨rfl, hown⟩ := hat.own_block h.block
      exact barinit_trap h hf' hown.held (hown.object_poisoned hlive hsyn false)
  case released =>
    rw [exec_barWait, exec_barSync]
    exact ⟨fun hf => barWait_freed h hw hfree hf, fun harrived hf => barSync_freed h (harrived ▸ hw) hfree hf⟩
  case interrupted =>
    rw [exec_barSync]
    exact barSync_interrupted h hw hy hfree hf
  case device =>
    intro s b t d a v h ht addr va q S traps broken hd hl hh hh' hc hc'
    have hx : addr < 2 ^ 64 := (b.sget64 t a.toNat).isLt
    refine ⟨fun bytes s1 s2 cl hr => ⟨fun hf hbad => ?_, fun hf hlive hsound => ⟨fun hw => ?_, fun f at' hw => ?_⟩,
        fun hf hlive hsound => ⟨fun hp => ?_, fun hp => ?_⟩⟩,
      fun hf f at' hr i hi => ?_, fun hf bytes s1 s2 cl c hr => ⟨fun hbad => ?_, fun hsound hw hz => ?_⟩⟩
    · exact barDevice_traps h rfl hh ht hl hf (barObject_unsound hx hd hc hr rfl (hbad.imp id fun hdead => ⟨rfl, hdead⟩))
    · exact bararv_device h rfl hd hh hc hr rfl hlive hsound hl hf hw rfl
    · exact bararv_unwritten h rfl hd hh hc hr rfl hlive hsound hl hf hw
    · rw [barwait_device h rfl hd hh hc hr rfl hlive hsound ht hf, if_pos hp]
      rfl
    · rw [barwait_device h rfl hd hh hc hr rfl hlive hsound ht hf, if_neg (not_not.2 hp)]
      exact congrArg _ (becomes_of h (fun u => u.hold s.cur _))
    · obtain ⟨h1, h2, h3⟩ := barDevice_traps (d := d) h rfl hh ht hl hf (barObject_unread hx hd hc hr true)
      simp only [List.mem_cons, List.not_mem_nil, or_false] at hi
      rcases hi with rfl | rfl | rfl
      exacts [h1, h2, h3]
    · exact barinit_trap h hf (barHeld_device hh') (barObject_unsound hx hd hc' hr rfl (.inl hbad))
    · exact barinit_made h hf (barHeld_device hh') (barObject_sound hx hd hc' hr rfl hsound nofun) (barPut_device hw) hz
  case conditions =>
    intro s b t d a v win h ht hl hf addr device va q S hfree traps bound misaligned
    have hx : addr < 2 ^ 64 := barAddr_lt b t win a.toNat
    have raises {tr : Trap} (hc : S.barCheck b t win addr = some tr) : traps tr := barChecked_traps h ht rfl hl hfree hf hc
    refine ⟨fun hwin => ?_, fun hwin hlow => ?_, fun ⟨hwin, hd⟩ => ?_⟩
    · subst hwin
      exact ⟨fun ha => raises (barCheck_win_misaligned ha), fun ha hout => raises (barCheck_win_beyond ha hout)⟩
    · subst hwin
      have hown := barCheck_own (s := S) (b := b) (t := t) hx hlow
      exact ⟨fun hb => raises (hown.trans (if_pos hb)), fun hb ha => raises (hown.trans ((if_neg (Nat.not_le.2 hb)).trans (if_pos ha))),
        fun hb ha hsize => raises (hown.trans ((if_neg (Nat.not_le.2 hb)).trans ((if_neg (not_not.2 ha)).trans (if_pos hsize))))⟩
    · subst hwin
      exact ⟨fun hb => raises (barCheck_dev_bound hx hd hb), fun hb ha => raises (barCheck_dev_misaligned hx hd hb ha),
        fun hb ha => ⟨fun f hf => raises (barCheck_dev_untranslated hx hd hb ha hf), fun x hf hp => raises (barCheck_dev_elsewhere hx hd hb ha hf hp)⟩⟩

end Sys2Proof.Machine
end
